-- ==== Sys2Proof/Word.lean ====
section
/-! DEFINITION. The words the manual speaks of: bytes, byte strings, sets of regions, and sparse tables. Multi-byte fields are little-endian (R8). -/

namespace Sys2Proof

/-- One byte of a register, descriptor, record or frame (R8). -/
abbrev Byte := BitVec 8

/-- A byte string, first byte first (R8). -/
abbrev Bytes := List Byte

/-- A sparse table of a fixed number of like things: keys strictly rising, and no entry equal to the value that an
unlisted key reads as, so that equal tables are equal data. -/
abbrev Tbl (α : Type) := List (Nat × α)

/-- An 80-bit region set in which bit r names region r (R204, R341). -/
abbrev RegionSet := Nat

end Sys2Proof
end

