-- ==== Sys2Proof/Syntax.lean ====
section
/-! DEFINITION. The commands of the block: one constructor of `Instr` for each row of spec/opcode_table.json, and the data a command carries in from outside. A value that the manual leaves to silicon, the board or a partner (a count, a reading, a frame) is an operand, so a statement about it holds for every value. -/

namespace Sys2Proof

/-- The fuse fields of Table 18.4 as step 1 of Table 17.1 reads them (R422, R457). -/
structure Fuses where
  /-- R457: 0 B72, 1 B64, 2 B56; 3 when the field is uncorrectable. -/
  variant : Nat := 0
  /-- R457: bit r set when compute region r is present. -/
  present : Nat := 2 ^ 72 - 1
  /-- R457: die serial; zero when uncorrectable. -/
  serial : Nat := 0
  /-- R457: stepping code; 0xFF when uncorrectable. -/
  stepping : Nat := 0xB0
  /-- R179: the 64 fused offset codes as fused, index 4k + b. -/
  offsets : List Int := []
  /-- R457: the offset field is uncorrectable, so that every code is taken as +12. -/
  offsetsBad : Bool := false
  /-- R179: the voltage bin of each region; 4 marks an uncorrectable bin, taken at code +12. -/
  bins : List Nat := []
  /-- R457: the fused key digest is readable, so that an image can verify (R421). -/
  keyOk : Bool := true
  /-- R459: the debug fuse. -/
  debug : Bool := false
deriving DecidableEq, Repr

/-- The calibration of one thermal sensor (Table 12.8): offset, diode, status code of R292 and residual. -/
structure SensorCal where
  offset : Int := 0
  diode : Nat := 0
  status : Nat := 0
  residual : Nat := 0
deriving DecidableEq, Repr

/-- A REGION_CAL payload (Table 12.8). -/
structure RegionCal where
  spineStatus : Nat := 0
  bandsStatus : Nat := 0
  spine : Nat := 0
  spineRes : Nat := 0
  bandGap : Nat := 0
  sensors : List SensorCal := []
  bands : List Nat := []
deriving DecidableEq, Repr

/-- One 28-byte entry per operating point of ISLAND_CAL (Table 12.9). -/
structure OppCal where
  bias : Nat := 128
  floorD : Nat := 3
  floorTrim : Nat := 255
  biasStatus : Nat := 0
  floorStatus : Nat := 0
  plumbStatus : Nat := 0
  /-- u in Q4.4 fine steps; 0xFF unknown. -/
  u : Nat := 0
  periodErr : Nat := 0
  floorExcess : Nat := 0
  offsets : List Nat := []
  trims : List Nat := []
deriving DecidableEq, Repr

/-- An ISLAND_CAL payload (Table 12.9). -/
structure IslandCal where
  cellsStatus : Nat := 0
  trackStatus : Nat := 0
  dutyStatus : Nat := 0
  /-- R99: the 80-bit cell map. -/
  cells : Nat := 2 ^ 64 - 1
  track : Nat := 0x4666
  dutyTrim : Nat := 8
  /-- R128: the 6-bit active mask. -/
  active : Nat := 0x35
  inl : Nat := 0
  dutyErr : Nat := 0
  /-- The entries of OPP 0–15; an entry that is not listed reads as `OppCal`'s defaults. -/
  opp : List OppCal := []
deriving DecidableEq, Repr

/-- A leakage table and SRAM share (R231). -/
structure Leak where
  table : List Nat
  share : Nat
deriving DecidableEq, Repr

/-- An entry of the retirement list (Table 12.7, type 0x07). -/
structure RetireEntry where
  /-- 1 replica, 2 Bellows, 3 region synthesizer, 4 region, 5 root, 6 reference, 7 thermal sensor. -/
  kind : Nat
  sub : Nat
  id : Nat
  tally : Nat
deriving DecidableEq, Repr

/-- The values of the working calibration (R289), which a store slot also holds (Table 12.7). -/
structure Calib where
  regions : Tbl RegionCal := []
  islands : Tbl IslandCal := []
  /-- R229: twelve Q16.0 coefficients of a region; a region not listed takes the defaults of Table 9.1. -/
  coefs : Tbl (List Nat) := []
  /-- R231: a region not listed takes the default table and share. -/
  leaks : Tbl Leak := []
  /-- R239: gain (Q2.14) and offset (mW) of Q0–Q3 and SRAM, or none where the item is absent. -/
  energy : Option (List (Nat × Int)) := none
  retire : List RetireEntry := []
deriving DecidableEq, Repr

/-- A slot of the calibration store (R314, R316). -/
structure Slot where
  valid : Bool := false
  generation : Nat := 0
  /-- Table 12.7: 0 FACTORY, 1 WORKING, 2 HOST, 3 RETIRE. -/
  source : Nat := 0
  /-- Table 12.7: firmware version and Tally of the SLOT_HEADER. -/
  firmware : Nat := 0
  tally : Nat := 0
  cal : Calib := {}
  /-- CAL_SLOT_INVALID: 0 header, 1 Hallmark, 2 SEAL, 3 erased. -/
  badCause : Nat := 3
  /-- CAL_SLOT_INVALID: flash address of the first failure. -/
  badAt : Nat := 0
deriving DecidableEq, Repr

/-- What the boot step, the store step and the wait of the other start-up steps bring in (R422, R423). -/
structure StartupInput where
  fuses : Fuses := {}
  /-- R313: 0 supported; 1 + the feature missing of CAL_FLASH_UNSUPPORTED. -/
  flash : Nat := 0
  jedec : Nat := 0
  slot0 : Slot := {}
  slot1 : Slot := {}
deriving DecidableEq, Repr

/-- One read or write of a crossing lane in a slot, as the streaming fabric signals it (R168). -/
structure LaneUse where
  /-- Edge position of the island, in the order N, E, S, W, link (R499). -/
  pos : Nat
  lane : Nat
  isRead : Bool
  /-- A read: the entry to be read is visible. -/
  visible : Bool
deriving DecidableEq, Repr

/-- What the island sees in one ring period (R110, R129, R155, R168). Times are in units of 20 ns / 80,628,387,840, in
which every period of the ladder, and 1/128 of it, is a whole number. -/
structure RingObs where
  /-- R101: the free-running period at the present supply. -/
  tFree : Nat
  /-- R110: the deviation of an injected period, in fine steps; the manual allows −1 to +1. -/
  jitter : Int := 0
  /-- R129, R137: main and check raw readings of replicas 0–5. -/
  readings : List (Nat × Nat) := []
  /-- R155: the token sampled on each side N, E, S, W; none where no sample is taken. -/
  tokens : List (Option Nat) := []
  /-- R168: the crossing reads and writes of the slot that follows. -/
  lanes : List LaneUse := []
  /-- R28: the core stop request, as it stands. -/
  coreStop : Bool := false
deriving DecidableEq, Repr

/-- One end of an edge: a side of an on-die edge (0 the lower, 1 the upper or service end), or a link. -/
inductive HoopEnd where
  | die (edge side : Nat)
  | link (link : Nat)
deriving DecidableEq, Repr

/-- The activity of one region in one 1 µs interval (R228, R242): twelve class counts, and NET_HOP by source owner 0–16. -/
structure Activity where
  region : Nat
  classes : List Nat
  hops : List Nat := []
deriving DecidableEq, Repr

/-- One conversion of a thermal sensor (R257): it failed, or it gave a reading in 1/16 °C. -/
structure SensorReading where
  sensor : Nat
  ok : Bool
  value : Int
deriving DecidableEq, Repr

/-- The measurements of one Assay item (R290): two results and, where they disagree, a third; each is a vector. -/
structure AssayItem where
  /-- Row of Table 12.1: 0 SENSOR, 1 SPINE, 2 BANDS, 3 CELLS, 4 TRACK, 5 DUTY, 6 BIAS, 7 FLOOR, 8 PLUMB. -/
  item : Nat
  /-- Sensor, region or island. -/
  id : Nat
  opp : Nat := 0
  m1 : List Int
  m2 : List Int
  m3 : List Int := []
  /-- The quality figure of Table 12.1, in the units of its field. -/
  quality : Nat := 0
deriving DecidableEq, Repr

/-- The response to an AVSBus frame (R450). -/
structure AvsResponse where
  arrived : Bool := true
  crcOk : Bool := true
  ackOk : Bool := true
  /-- The StatusAlert bit of the StatusResp field. -/
  alert : Bool := false
  /-- mV of a voltage read, or the status word of a status read. -/
  data : Nat := 0
deriving DecidableEq, Repr

/-- The end of a PMBus transaction (R452, R453): a LINEAR11 word, the time since the address acknowledgement, and faults. -/
structure PmbusResponse where
  ok : Bool := true
  word : Nat := 0
  elapsedNs : Nat := 0
  fault : Bool := false
deriving DecidableEq, Repr

/-- A write of host software into the command SRAM (R326). -/
structure SramWrite where
  address : Nat
  data : Bytes
deriving DecidableEq, Repr

/-- The commands: the rows of spec/opcode_table.json, in the table's order. -/
inductive Instr where
  /-- R419: The always-on rail stays above its power-good threshold for 50 µs, and cold power-on begins with the boot step. -/
  | aonPowerGood
  /-- R485: The always-on rail falls below its falling power-good threshold, and the fabric stops driving every pin. -/
  | aonPowerFail
  /-- R485: The always-on rail stays below 0.700 V for 2 µs, and an uncorrectable fabric fault of cause 4 is declared. -/
  | aonUndervoltage (lowestMv : Nat)
  /-- R430: The processor asserts package warm reset; islands stop, queues reset, settings return to default and start-up resumes from step 6. -/
  | packageWarmReset
  /-- R419: A step of the cold power-on sequence completes, and the next step begins once its conditions hold. -/
  | startupStepComplete (seen : StartupInput)
  /-- R421: A firmware image arrives over the network; each waiting boot ROM checks its digest and signature and writes BOOT_IMAGE. -/
  | firmwareBroadcast (result0 : Nat) (result1 : Nat) (version : Nat)
  /-- R421: Four ms after the broadcast arrives with only one core verified, that core starts as primary and the pair is SINGLE. -/
  | bootImageTimeout
  /-- R427: The topology check has waited 500 ms for its expected links and compares the die with the descriptor. -/
  | topologyCheckTimeout (hbmTrained : Nat)
  /-- R427: The topology check completes, writes TOPOLOGY_DIFF for each difference, and makes the die READY or NOT_READY. -/
  | topologyCheckComplete (hbmTrained : Nat)
  /-- R72: No rising edge arrives on a reference for 15 ns; the input becomes unqualified and, if it is selected, a switchover follows. -/
  | refActivityLoss (ref : Nat)
  /-- R72: A 100 µs frequency window of a reference input ends; the input qualifies or loses qualification. -/
  | refFrequencyWindowEnd (ref : Nat) (count : Nat)
  /-- R75: Neither reference has been qualified for 1 ms, and an uncorrectable fabric fault of cause 1 is declared. -/
  | noReferenceTimeout
  /-- R78: The live root loses lock, and the fabric switches to the warm root, or declares the loss of both roots. -/
  | rootLockLoss (errorNs : Int)
  /-- R78: The live and warm roots disagree by more than 2 counts in 80 ns, and the fabric switches to the warm root. -/
  | rootDisagreement (errorNs : Int)
  /-- R408: After a switch for disagreement, the next two lock windows decide which root, if either, has failed. -/
  | rootSwitchConfirm (fail0 : Bool) (fail1 : Bool)
  /-- R91: The seven trial slots of a band search end, the band is chosen and the loop closes. -/
  | synthBandSearchDone (region : Nat) (synth : Nat) (counts : List Nat)
  /-- R94: A 2,048-cycle lock window of a region synthesizer ends; lock is declared, or a loss of lock is found. -/
  | synthLockWindowEnd (region : Nat) (synth : Nat) (count : Nat)
  /-- R94: The excursion monitor finds a 64-cycle count off by more than 2, and the synthesizer loses lock. -/
  | synthExcursion (region : Nat) (synth : Nat) (count : Nat)
  /-- R95: Lock is not declared within 120 µs of the write; the synthesizer stops and SYNTH_LOCK_FAIL is written. -/
  | synthAcquisitionTimeout (region : Nat) (synth : Nat)
  /-- R406: Ten µs after a failure, a failed synthesizer is acquired again by search at the live setting. -/
  | synthRetryAcquire (region : Nat) (synth : Nat)
  /-- R103: A 256-period injection lock window ends; injection lock is declared, or is lost after two mismatches. -/
  | injectionWindowEnd (island : Nat) (periods : Nat)
  /-- R103: A Bellows has not declared injection lock within 1,400 ns; INJECTION_LOCK_FAIL is written and the failure is counted. -/
  | injectionAcquisitionTimeout (island : Nat)
  /-- R118: The 100 ns of cell settling of a ring start ends, and injection acquisition begins with the gate closed. -/
  | bellowsSettleDone (island : Nat)
  /-- R106: Every active replica has held slack at the alert slack plus 4 for 16 delivered cycles, and released injection resumes. -/
  | injectionResume (island : Nat)
  /-- R116: The Bellows applies one fine step of a pending phase-step request, at most one step in every 8 delivered cycles. -/
  | phaseStep (island : Nat) (tFree : Nat)
  /-- R110: Each ring period of an island: the period is formed, the hold and suppression decisions are made, replicas are compared and a delivered slot advances the counter. -/
  | ringPeriod (island : Nat) (obs : RingObs)
  /-- R137: Three re-measures of a disagreeing replica are complete; the disagreement is logged as transient, or the replica has failed. -/
  | plumbDisagreementResolved (island : Nat) (replica : Nat)
  /-- R142: A 1 µs alert interval ends; each island's alert run is updated, and a run that reaches 101 raises a sustained-margin request. -/
  | alertIntervalEnd
  /-- R144: One second passes with no alerting interval in the region, and the MARGIN_SUSTAINED ceiling rises one point. -/
  | marginReleaseTimeout (region : Nat)
  /-- R135: At each 1 ms boundary, an island of no loaded plan clears its step registers. -/
  | unplannedStepBoundary
  /-- R123: A Drover lane stopped by a clock loss restarts on an eligible source, or stays stopped and DROVER_STALL is written. -/
  | droverRestart (region : Nat)
  /-- R154: A PENDING edge finishes the initialisation of its lead register from both full counts and becomes ACTIVE. -/
  | edgeActivation (edge : Nat) (side : Nat)
  /-- R462: The sideband engine forms a Hoop frame at the 16-cycle cadence, at a change of flags, or 1,000 ns after its last frame. -/
  | hoopFrameForm (link : Nat)
  /-- R152: A valid Hoop frame arrives; the link lead, the tag match and the partner's cause are updated. -/
  | hoopFrameReceived (link : Nat) (frame : Bytes)
  /-- R175: No valid Hoop frame has arrived on an active link for 2 µs, and the edge becomes stale. -/
  | hoopLinkFrameTimeout (link : Nat)
  /-- R175: A stale edge has had no good value for 100 µs; it moves to RELEASED with the stale flag. -/
  | hoopStaleRelease (hoopEnd : HoopEnd)
  /-- R172: A 10 ms interval ends, and the die's caused and suffered counts and its critical-path share are latched. -/
  | criticalPathIntervalEnd
  /-- R174: The link layer reports a link down, and both ends of the link edge move to RELEASED. -/
  | linkDown (link : Nat)
  /-- R273: The link layer reports a link up; the link's loan starts at zero and lending may resume. -/
  | linkUp (link : Nat)
  /-- R435: A chip link begins retraining; its edge is released and RETRAIN phase 0 is written. -/
  | linkRetrainBegin (link : Nat)
  /-- R435: A chip link ends retraining, and RETRAIN phase 1 is written with its duration. -/
  | linkRetrainEnd (link : Nat)
  /-- R436: The interface of an HBM controller island begins retraining, and RETRAIN is written. -/
  | hbmRetrainBegin (island : Nat)
  /-- R436: The interface of an HBM controller island ends retraining, and RETRAIN is written. -/
  | hbmRetrainEnd (island : Nat)
  /-- R461: A sideband receiver sees 64 consecutive valid sync headers and is up. -/
  | sidebandReceiverUp (link : Nat)
  /-- R461: A sideband receiver sees 16 invalid headers within 64 and is down, so the link is absent for Tally and Hoop. -/
  | sidebandReceiverDown (link : Nat)
  /-- R462: At a frame boundary the engine chooses the next waiting Hoop, Tally or POOL frame and stamps t1 or t3. -/
  | sidebandFrameBoundary (link : Nat)
  /-- R56: A frame with a bad CRC, a non-zero reserved field or an unknown type is discarded; after 16 in a row the link is absent. -/
  | sidebandFrameDiscarded (link : Nat)
  /-- R54: Every 100 µs of its Tally, each end of a link queues a SYNC frame. -/
  | tallySyncSend (link : Nat)
  /-- R54: A SYNC frame arrives; it is stamped t2, a REPLY is queued, and candidate and election data are taken. -/
  | tallySyncReceived (link : Nat) (frame : Bytes)
  /-- R54: A REPLY arrives; t4 is stamped and offset and delay are computed, along with master, backup and lineage data. -/
  | tallyReplyReceived (link : Nat) (frame : Bytes)
  /-- R55: Sixteen exchanges with the parent are averaged and the rate word is set, which may begin or end a rejoin slew. -/
  | tallyOffsetAverage
  /-- R55: Two seconds have passed since the last change of parent or epoch with offsets in bound, and SETTLED is set. -/
  | tallySettled
  /-- R57: The master increments its beacon count every 100 µs. -/
  | tallyBeaconIncrement
  /-- R59: The beacon has not advanced for 1 ms; the backup becomes master, and other dies wait for a newer master. -/
  | tallyMasterLost
  /-- R59: No newer master has been heard within 2 ms, and the die joins an election among the dies it can reach. -/
  | tallyMasterWaitExpiry
  /-- R67: At a region tick a Tally watch's condition holds, and its fire is placed in the slot of that tick. -/
  | tallyWatchFire (watch : Nat)
  /-- R67: An island's count reaches a logical watch's C, and its fire is placed in the slot in which it crosses into the Tally domain. -/
  | cycleWatchFire (watch : Nat) (stamp : Nat)
  /-- R67: A registered watch is armed within 2 µs, and it fires at once with LATE set if its condition has already passed. -/
  | watchArmed (watch : Nat)
  /-- R68: The synchronisation unit accepts a waiting watch message, in slot order and then by watch ID. -/
  | watchMessageDelivery
  /-- R181: The Chandler accepts a commit of any source, grants each member, writes COMMIT_ACCEPT and retunes the idle synthesizers. -/
  | commitAccept
  /-- R185: At the later of T − 25 µs and the last lock, the Chandler writes the raised targets of the rails that must rise. -/
  | commitVoltageRise (commit : Nat)
  /-- R501: In the nanosecond T − 10 ns every condition of the commit is tested; the commit aborts, or passes its decision. -/
  | commitDecision (commit : Nat)
  /-- R186: At T the die sends the commit strobe, which makes each member region's multiplexer switch due. -/
  | commitStrobe (commit : Nat)
  /-- R88: A region's multiplexer ends the old high phase, holds the clock low and passes the new source's edge. -/
  | regionSwitchingInstant (region : Nat) (offset : Int)
  /-- R184: At T + 2 µs the Chandler writes the lowered targets of the rails whose targets fall. -/
  | commitVoltageFall (commit : Nat)
  /-- R194: Within 10 µs of a fast step's first onset, the limit unit requests a settlement commit to the ceiling. -/
  | settlementCommitRequest (region : Nat)
  /-- R247: One ms after an aborted restoring or settlement commit, the limit unit requests it again. -/
  | restoringCommitRetry (region : Nat)
  /-- R195: At T − 120 µs, a pause-switch member lends its Drover lane, deselects its sole synthesizer and retunes it. -/
  | pauseSwitchLend (region : Nat)
  /-- R195: At T + 1,400 ns an island without injection lock fails, and at T + 1,500 ns its gate opens on the free ring. -/
  | pauseSwitchGateTimeout (island : Nat)
  /-- R225: A limit or host action accepted at a region input takes effect at each island's next cycle boundary. -/
  | regionActionApply (region : Nat)
  /-- R209: A Pattern record is read into the context window, chained by its delta, checked and delivered to its region inputs. -/
  | patternRecordRead (context : Nat) (record : Bytes)
  /-- R206: An island reaches the application cycle of a Pattern action and applies it at that boundary. -/
  | patternActionApply (island : Nat)
  /-- R214: The issuing island begins the request's issue cycle; Pattern targets are set and a commit is formed. -/
  | oppRequestIssue (context : Nat)
  /-- R395: The certificate unit assembles the certificate of the ended step within 50 µs and writes CERT. -/
  | certAssembly (context : Nat)
  /-- R233: A 1 µs interval ends; counts are latched, raw and calibrated energies computed and the burst credit updated. -/
  | energyIntervalEnd (counts : List Activity)
  /-- R236: At each 100 µs read instant of a window, the Chandler begins READ_POUT on each rail that is on. -/
  | telemetryReadStart
  /-- R238: A 1 ms window ends; each rail is skipped or has its gain and offset updated. -/
  | calibrationWindowEnd
  /-- R238: At window end + 20 µs, the new gain and offset take effect from the next interval. -/
  | calibrationUpdateApply
  /-- R251: At window end + 2 µs the package, rail and strict loops lower or raise their ceilings and run drains. -/
  | limitEvaluation
  /-- R256: Every 10 µs a rail's regulator status is polled, and the VRM_ALERT ceilings are lowered while it alerts. -/
  | vrmStatusPoll (rail : Nat) (status : Nat)
  /-- R256: One ms after an alert clears, and every 100 µs after that, the VRM_ALERT ceiling rises one point. -/
  | vrmAlertRise (rail : Nat)
  /-- R256: A voltage fall is not confirmed within its allowance, and the rail is treated as alerting. -/
  | voltageFallTimeout (rail : Nat) (status : Nat)
  /-- R256: While a fall stays unconfirmed, the Chandler writes the target again every 100 µs. -/
  | fallTargetRewrite (rail : Nat)
  /-- R257: Every 20 µs each sensor converts; validity, soft, hard and trip assertions are evaluated. -/
  | sensorConversion (readings : List SensorReading)
  /-- R258: After each further 1 ms of asserted soft threshold, the THERMAL_SOFT ceiling falls one point. -/
  | thermalSoftStep (region : Nat)
  /-- R258: After 1 ms below the soft threshold less 3.0 °C, the soft threshold is released. -/
  | thermalSoftRelease (region : Nat)
  /-- R258: Every 10 ms after release, while readings stay low, the THERMAL_SOFT ceiling rises one point. -/
  | thermalSoftRise (region : Nat)
  /-- R259: After 1 ms below the hard threshold less 3.0 °C, the THERMAL_HARD ceiling is removed and THERMAL_SOFT is set to OPP 0. -/
  | thermalHardRelease (region : Nat)
  /-- R260: After 10 ms with every reading below 112.0 °C, the trip is released. -/
  | thermalTripRelease
  /-- R262: FLOW_SENSE or TRAY_FLOW_OK shows loss in 5 consecutive samples, and flow is lost. -/
  | flowLoss (senseMv : Nat) (flowOk : Bool)
  /-- R262: Every sample of 10 ms shows good flow, and flow is released. -/
  | flowRelease (senseMv : Nat)
  /-- R264: ESTOP_N is low in 2 consecutive samples, and the die stops with cause ESTOP_N. -/
  | estopAssert
  /-- R266: ESTOP_N has been high in every sample of 10 ms, and its cause is released. -/
  | estopRelease
  /-- R266: At the resume Tally, with every cause released, the islands are released together at OPP 0. -/
  | resumeRelease
  /-- R270: Every 10 ms a die sends STATUS on each pool link, setting want and offer and returning idle loans. -/
  | poolStatusSend
  /-- R271: A STATUS frame arrives; a want met by an offer is lent, and a loan mismatch may be resolved. -/
  | poolStatusReceived (link : Nat) (frame : Bytes)
  /-- R271: A GRANT arrives; the borrower raises its cap by the part that fits and returns the rest. -/
  | poolGrantReceived (link : Nat) (frame : Bytes)
  /-- R272: A RETURN arrives, and the lender raises its cap by the amount returned. -/
  | poolReturnReceived (link : Nat) (frame : Bytes)
  /-- R272: A RECALL arrives, and the borrower returns the whole loan of the link within 1 ms. -/
  | poolRecallReceived (link : Nat) (frame : Bytes)
  /-- R273: No valid POOL frame has arrived for 20 ms, and the borrower removes the loan. -/
  | poolLinkSilent (link : Nat)
  /-- R273: Thirty ms after a link-down or the last valid frame, the lender restores its cap. -/
  | poolLenderRestore (link : Nat)
  /-- R285: At each window end + 2 µs the fence guard tests each fenced tenant's ratios and caps the owner that disturbs it. -/
  | guardEvaluation
  /-- R285: At a multiple of 10 ms, with the rise conditions held, a guard ceiling rises one point. -/
  | guardCeilingRise
  /-- R305: A phase or sub-step of the Assay schedule ends and the next begins. -/
  | assayPhaseEnd (measured : List AssayItem)
  /-- R311: Assay ends; measured values load into the working calibration and ASSAY_DONE is written. -/
  | assayClose
  /-- R318: An erase, program or read-back of the store completes and the write moves to its next stage. -/
  | flashOperationComplete (ok : Bool)
  /-- R313: A program or erase is not complete in twice its maximum time, and the write fails. -/
  | flashOperationTimeout
  /-- R317: Within 100 ms of a change to the retirement list, a store write of source RETIRE begins. -/
  | storeWriteRetire
  /-- R317: Every 10 s after a failed write of source RETIRE, the write is tried again. -/
  | storeWriteRetry
  /-- R323: At each heartbeat instant the primary sends a heartbeat and the shadow answers it. -/
  | chandlerHeartbeat
  /-- R323: No heartbeat arrives for 150 µs; the primary is declared failed and takeover begins, or the pair enters NONE. -/
  | chandlerHeartbeatTimeout
  /-- R323: The primary's hardware fault signal asserts, and the primary is declared failed. -/
  | chandlerFaultSignal (core : Nat) (cause : Nat)
  /-- R333: The new primary has re-executed or reposted each queue's open command and begins to serve queues. -/
  | chandlerTakeoverComplete
  /-- R324: The restarting core's copied image is verified, and the full copy of mirrored state begins. -/
  | chandlerRestartVerified
  /-- R324: The restarted core has the full copy and the journal and is SYNCED as shadow. -/
  | chandlerSynced
  /-- R324: A restart has not reached SYNCED within 20 ms; the failure is counted and may hold the core out. -/
  | chandlerSyncTimeout
  /-- R330: In its round a queue's head descriptor is fetched, checked in order and journalled BEGIN, or refused with a status. -/
  | descriptorFetch (queue : Nat)
  /-- R451: An AVSBus frame completes; its response is checked and the next waiting transaction is chosen by priority. -/
  | avsbusFrameEnd (rail : Nat) (resp : AvsResponse)
  /-- R452: A PMBus OPERATION or READ_POUT completes; a READ_POUT is valid or invalid under the 20 µs rule. -/
  | pmbusTransactionComplete (rail : Nat) (resp : PmbusResponse)
  /-- R466: The stream engine reports a failure on a Pattern, drain or command stream, which ends that stream's use. -/
  | streamAccessFail (stream : Nat) (address : Nat)
  /-- R384: The event collector takes the next queued event and writes its record, or drops events when the queue is full. -/
  | ledgerRecordAccept
  /-- R386: A 10 µs span window ends; the end of a run of span windows writes STRETCH_SPAN. -/
  | stretchSpanWindowEnd (island : Nat)
  /-- R392: One hundred µs after its first record, a partial drain page is completed with NONE records and written. -/
  | drainPageTimeout
  /-- R392: A drain page write completes, and the drain tail advances in page order. -/
  | drainPageWriteComplete (page : Nat)
  /-- R437: Within 10 µs of a change in idleness or tolerance, a region is placed in or taken out of a low-power state. -/
  | regionIdleChange (region : Nat)
  /-- R465: A region's wake input changes and is synchronised into the Tally domain, which changes the region's idleness. -/
  | wakeLine (region : Nat) (level : Bool)
  /-- R431: After the 1 µs reset, every Bellows starts, the excuse ends and the edges rejoin through PENDING. -/
  | regionResetEnd (region : Nat)
  /-- R433: An island reset ends; its Bellows, or its Yoke path, starts and its edges rejoin. -/
  | islandResetEnd (island : Nat)
  /-- R348: Command plan.load creates a context from the staged plan image. -/
  | planLoad (queue : Nat)
  /-- R349: Command plan.start schedules the plan's release at the start Tally with the start count. -/
  | planStart (queue : Nat)
  /-- R149: At the start Tally, the plan's islands take the start count and are released together, and the coupled edges enter PENDING. -/
  | planRelease (context : Nat)
  /-- R350: Command plan.arm queues a Pattern segment, or resumes a READ fault. -/
  | planArm (queue : Nat)
  /-- R351: Command plan.unload frees the context, clears targets and uncouples the plan's edges. -/
  | planUnload (queue : Nat)
  /-- R352: Command plan.couple uncouples or couples named edges of its plan, and re-issues coupling on released edges. -/
  | planCouple (queue : Nat)
  /-- R350: Command plan.read returns the context word. -/
  | planRead (queue : Nat)
  /-- R353: Command opp.commit forms a host commit at a legal count and returns its commit ID. -/
  | oppCommit (queue : Nat)
  /-- R354: Command opp.cancel aborts a pending commit with reason HOST. -/
  | oppCancel (queue : Nat)
  /-- R355: Command opp.read writes the fused offset codes and the region bins. -/
  | oppRead (queue : Nat)
  /-- R356: Command cap.set writes package, rail, thermal or fraction limits. -/
  | capSet (queue : Nat)
  /-- R357: Command cap.ceiling sets or removes HOST_CEILING, or clears a latched MARGIN_SUSTAINED ceiling. -/
  | capCeiling (queue : Nat)
  /-- R358: Command cap.read writes throttle counts, a rail energy record or the limits. -/
  | capRead (queue : Nat)
  /-- R359: Command pool.set sets the pool ID and base cap and ends every loan. -/
  | poolSet (queue : Nat)
  /-- R359: Command pool.read writes the pool state and the loans. -/
  | poolRead (queue : Nat)
  /-- R360: Command tenant.create creates a tenant and binds its queue with a watch quota. -/
  | tenantCreate (queue : Nat)
  /-- R360: Command tenant.destroy returns the tenant's regions, clears its watches and resets its queue. -/
  | tenantDestroy (queue : Nat)
  /-- R361: Command tenant.move changes the owner of compute regions, all or nothing. -/
  | tenantMove (queue : Nat)
  /-- R362: Command tenant.fence turns a tenant's fence on or off. -/
  | tenantFence (queue : Nat)
  /-- R362: Command tenant.read writes the tenant record and energy accounts. -/
  | tenantRead (queue : Nat)
  /-- R363: Command watch.set registers a Tally or logical watch. -/
  | watchSet (queue : Nat)
  /-- R364: Command watch.clear frees a watch from the next slot. -/
  | watchClear (queue : Nat)
  /-- R364: Command watch.read returns the watch word. -/
  | watchRead (queue : Nat)
  /-- R365: Command ledger.control freezes, thaws or sets the stretch-span share. -/
  | ledgerControl (queue : Nat)
  /-- R391: Command ledger.drain starts or stops the drain into a host ring. -/
  | ledgerDrain (queue : Nat)
  /-- R366: Command ledger.read copies records in write order from a Tally. -/
  | ledgerRead (queue : Nat)
  /-- R366: Command cert.read copies one of the two kept certificates. -/
  | certRead (queue : Nat)
  /-- R367: Command cal.write begins a store write of source WORKING or HOST. -/
  | calWrite (queue : Nat) (image : Bytes)
  /-- R368: Command cal.export copies a store slot to host memory. -/
  | calExport (queue : Nat)
  /-- R369: Command cal.read writes a calibration record or the store status. -/
  | calRead (queue : Nat)
  /-- R370: Command cal.set replaces a coefficient table, a leakage table or the energy gains and offsets. -/
  | calSet (queue : Nat)
  /-- R371: Command cal.unretire removes entries from the retirement list. -/
  | calUnretire (queue : Nat)
  /-- R372: Command assay.region begins an Assay on command of one region. -/
  | assayRegion (queue : Nat)
  /-- R373: Command island.read returns the island word with the margin record, Hoop record or count. -/
  | islandRead (queue : Nat)
  /-- R373: Command island.phase requests phase steps of an island. -/
  | islandPhase (queue : Nat)
  /-- R373: Command island.reset begins the reset of one island. -/
  | islandResetCmd (queue : Nat)
  /-- R375: Command region.read writes the region state. -/
  | regionRead (queue : Nat)
  /-- R374: Command region.reset resets a region's compute islands, and its synthesizers with SYNTH. -/
  | regionResetCmd (queue : Nat)
  /-- R375: Command region.config sets the band source, band table or injection interval. -/
  | regionConfig (queue : Nat)
  /-- R376: Command region.test places or removes an off-ladder test setting. -/
  | regionTest (queue : Nat)
  /-- R377: Command tally.priority sets the die's Tally priority. -/
  | tallyPriority (queue : Nat)
  /-- R377: Command tally.authority clears HOLDOVER on a master, or realigns a foreign die by a Tally step. -/
  | tallyAuthority (queue : Nat)
  /-- R377: Command tally.read writes a Tally snapshot and the tree status. -/
  | tallyRead (queue : Nat)
  /-- R379: Command fabric.read writes the fabric status. -/
  | fabricRead (queue : Nat)
  /-- R378: Command fabric.ref sets the reference preference and revertive mode, or selects a reference. -/
  | fabricRef (queue : Nat)
  /-- R378: Command fabric.resume schedules a stopped die's release at the resume Tally. -/
  | fabricResume (queue : Nat)
  /-- R379: Command fabric.topology supplies the expected topology descriptor and runs the check. -/
  | fabricTopology (queue : Nat) (hbmTrained : Nat)
  /-- R379: Command fabric.power sets the latency tolerance of regions. -/
  | fabricPower (queue : Nat)
  /-- R328: A write to JCF_Q_DOORBELL is accepted as a new submission tail, or is ignored with QERR and DOORBELL_BAD. -/
  | queueDoorbellWrite (queue : Nat) (tail : Nat) (sram : List SramWrite)
  /-- R329: A write to JCF_Q_CQ_HEAD consumes completions, or is ignored with QERR if it would pass the tail. -/
  | queueCqHeadWrite (queue : Nat) (head : Nat)
  /-- R338: Writing 1 to RESET in JCF_Q_CTL resets the queue after its command in execution completes. -/
  | queueResetWrite (queue : Nat)
  /-- R480: A write of 1 to a JCF_INT_STATUS bit clears it unless its event falls in the same period. -/
  | queueIntStatusClear (queue : Nat) (bits : Nat) (sameClock : Nat)
  /-- R480: A write of 1 to a JCF_FINT_STATUS bit clears it unless its event falls in the same period. -/
  | fabricIntStatusClear (bits : Nat) (sameClock : Nat)
  /-- R475: Writing 1 to STOP in JCF_ESTOP is a stop of cause REGISTER. -/
  | estopRegisterSet
  /-- R475: Writing 0 to STOP in JCF_ESTOP releases the REGISTER cause. -/
  | estopRegisterClear
  /-- R479: Writing 0x4A52_0001 to JCF_FABRIC_RESET begins a fabric reset. -/
  | fabricResetWrite (value : Nat)
  /-- R476: A host read of JCF_TALLY_SNAP captures Tally, epoch, flags and the reference island's count, and advances SEQ. -/
  | tallySnapshotRead
  /-- R473: A read of a _LO register latches the matching _HI register. -/
  | loRegisterRead (offset : Nat)
  /-- R477: Writing 1 to FREEZE in JCF_LEDGER_CTL freezes the Ledger with cause HOST. -/
  | ledgerFreezeWrite (value : Nat)
  /-- R478: A write to JCF_DRAIN_HEAD consumes drained pages, or is ignored and sets DRAIN_ERR. -/
  | drainHeadWrite (head : Nat)
  /-- R471: A write to a register field with no behaviour of its own sets it, or is ignored as reserved or misaligned. -/
  | registerWriteGeneric (offset : Nat) (bytes : Nat) (value : Nat)
  /-- R458: Update-DR of FABRIC_WORD performs a test read or a debug-fused write of one MMIO word. -/
  | fabricWordUpdate (word : Nat)
  /-- R458: Update-DR of LEDGER_RECORD selects a Ledger record for the next capture. -/
  | ledgerRecordUpdate (index : Nat)
  /-- R408: Ten µs after a root failure, the failed root synthesizer is acquired again. -/
  | rootReacquire (root : Nat)
  /-- R408: A re-acquired root declares lock and becomes the warm root. -/
  | rootLockDeclared (root : Nat)
  /-- R185: From 2 µs after a target write completes, a confirmation read of the rail voltage falls due every 1 µs until the rail is confirmed. -/
  | railConfirmationRead (rail : Nat)
  /-- R453: A READ_POUT that has not reached its stop condition 20 µs after the address acknowledgement becomes invalid. -/
  | pmbusReadTimeout (rail : Nat)
  /-- R459: EXTEST, CLAMP or HIGHZ comes into force or leaves force at the test access port, and the fabric stops or resumes driving the AVSBus, PMBus and CAL_SPI pins. -/
  | testInstructionUpdate (inForce : Bool)
deriving DecidableEq, Repr

end Sys2Proof
end

