-- ==== Sys2Proof/Config.lean ====
section
/-! DEFINITION. The constants of the part: the ladder of operating points, the thermal, limit and timing figures that the manual fixes for every die. -/

namespace Sys2Proof.Config
open Sys2Proof

/-- R178, Table 7.1: frequency of each operating point, in units of 50 MHz, so that every one is whole. -/
def freq50 : List Nat := [12, 15, 18, 20, 22, 24, 26, 28, 30, 32, 35, 38, 40, 42, 44, 46]

/-- R178, Table 7.1: typical voltage of each operating point, mV. -/
def typicalMv : List Nat := [560, 575, 590, 605, 620, 635, 650, 665, 685, 705, 730, 755, 780, 805, 840, 880]

/-- R82, Table 3.2: N of each operating point. -/
def ladderN : List Nat := [36, 45, 36, 40, 44, 48, 39, 42, 45, 48, 35, 38, 40, 42, 44, 46]

/-- R82, Table 3.2: code of D (Table 3.1) of each operating point: 0 for 2, 1 for 3, 2 for 4, 3 for 6. -/
def ladderD : List Nat := [3, 3, 2, 2, 2, 2, 1, 1, 1, 1, 0, 0, 0, 0, 0, 0]

/-- R80, Table 3.1: the divisor of each code of D. -/
def divisors : List Nat := [2, 3, 4, 6]

/-- 20 ns in the unit of ring periods: every period of the ladder, and 1/128 of it, is whole in it. -/
def ring20 : Nat := 80628387840

/-- Frequency of operating point k, 50 MHz units; an index past the ladder takes OPP 0. -/
def freq (k : Nat) : Nat := freq50.getD k 12

/-- R178: period of operating point k, in the unit of `ring20`. -/
def period (k : Nat) : Nat := ring20 / freq k

/-- R100: the fine step of operating point k, 1/128 of its period. -/
def fineStep (k : Nat) : Nat := period k / 128

/-- R402: the window in which a third failure is permanent, ns. -/
def failWindow : Nat := 10000000000

/-- R182: least and greatest lead of a commit count, ns. -/
def commitLead : Nat := 120000
def commitFar : Nat := 10000000000

/-- R230, R264: the retention voltage, mV. -/
def retentionMv : Nat := 500

/-- R248, Table 10.2: defaults of rail caps, W, and current limits, A, in the order Q0–Q3, SRAM. -/
def railCapW : List Nat := [360, 360, 300, 300, 180]
def railLimitA : List Nat := [480, 480, 400, 400, 240]

/-- R260: the trip threshold and its release level; R257: the valid range; R258: hysteresis. All in 1/16 °C. -/
def trip : Int := 1840
def tripRelease : Int := 1792
def sensorLow : Int := -640
def sensorHigh : Int := 2400
def hysteresis : Int := 48

/-- R380: records of the ring; R384: records of the collector's queue. -/
def ledgerRecords : Nat := 65536
def ledgerQueue : Nat := 4096

/-- R227, Table 9.1: default coefficients, fJ, in class order. -/
def coefDefault : List Nat := [180, 140, 95, 520, 450, 2400, 2800, 6500, 1900, 9000, 21000, 28000]

/-- The alert bits of a regulator's status word (R450): the manual leaves their places to AVSBus (log 21). -/
opaque alertBits : Nat

/-- A value the manual leaves open, by the number drawn from the die's counter `fresh`: nothing constrains it (log 11). -/
opaque freeNat : Nat → Nat

/-- A signed value the manual leaves open, by the number drawn from the die's counter `fresh` (log 11). -/
opaque freeInt : Nat → Int

end Sys2Proof.Config
end

