-- ==== Sys2Proof/Machine/State.lean ====
section
/-! DEFINITION. The state of one die's fabric: every register, counter, buffer, mode and pin the manual gives it, chapter by chapter, and the queue of waiting commands. A field's comment gives the rule that names it and, in brackets, its width. Instants are die Tally in nanoseconds (R7). A field marked MODEL is the model's own bookkeeping of a wait or an operation in progress that the manual implies. -/

namespace Sys2Proof.Machine
open Sys2Proof

/-- Why the block stops. -/
inductive Fault where
  /-- A command names an island, region, synthesizer, edge, link, rail, queue, sensor, watch or context outside the
  numbering of R16–R21, R66, R198 and R326, or carries a byte string of the wrong length: no such thing exists on any
  die. Raised by `Machine.run`. Safe: the model stops where no hardware event can occur. -/
  | noSuchElement
deriving DecidableEq, Repr

/-- Why a command has no meaning. -/
inductive Refusal where
  /-- Raised by `exec` alone, for a command whose meaning is not written. Safe: nothing is claimed of it. -/
  | notModelled (mnemonic : String)
deriving DecidableEq, Repr

/-! ## Ledger -/

/-- Where an event lies (Table 15.2). `other` carries the kind-7 ID. -/
inductive Loc where
  | none
  | island (i : Nat)
  | region (r : Nat)
  | link (l : Nat)
  | queue (q : Nat)
  | rail (k : Nat)
  | sensor (n : Nat)
  | other (n : Nat)
deriving DecidableEq, Repr

/-- An event accepted by the collector and waiting for its record (R36, R384). -/
structure Pending where
  /-- [64] R36: Tally at acceptance. -/
  tally : Nat
  /-- [48] R36, R38: count of the location's reference island. -/
  cycle : Nat
  /-- [16] Table 15.3: event code. -/
  code : Nat
  /-- [16] Table 15.1: ID of the location. -/
  id : Nat
  /-- [16] Table 15.2: tag without CONT. -/
  tag : Nat
  /-- Table 15.3: payload, concatenated (R383). -/
  payload : Bytes
deriving DecidableEq, Repr

/-- A Ledger record (Table 15.1). -/
structure Record where
  tally : Nat
  cycle : Nat
  code : Nat
  id : Nat
  tag : Nat
  payload : Bytes
deriving DecidableEq, Repr

/-- The drain of the Ledger into host memory (R391–R394). -/
structure Drain where
  /-- [1] Table 19.5: the drain runs. -/
  running : Bool := false
  /-- [1] Table 19.5: the last drain stopped with cause 1. -/
  failed : Bool := false
  /-- [64] R391: host ring base. -/
  base : Nat := 0
  /-- [32] R391: pages in the ring. -/
  pages : Nat := 0
  /-- [32] R391: pages written since the start. -/
  tail : Nat := 0
  /-- [32] R391: pages consumed. -/
  head : Nat := 0
  /-- R391: number (in the count of R380) of the next record to deliver. -/
  next : Nat := 0
  /-- R392: pages written out that stand before the tail, in page order: the page, the number of the record after its last, and whether its write is
  complete. -/
  outstanding : List (Nat × Nat × Bool) := []
  /-- R394: number of the first record not in a completed page. -/
  firstUndelivered : Nat := 0
  /-- R393: records lost to overwriting since the drain last advanced. -/
  lost : Nat := 0
  /-- R393: Tally of the first lost record. -/
  lostTally : Nat := 0
  /-- R394 MODEL: a stop was commanded and waits for the outstanding writes, and for room to write the partial page. -/
  stopping : Bool := false
  partialDue : Bool := false
deriving DecidableEq, Repr

/-- One region summary of a certificate as it gathers (Table 15.6). -/
structure CertRegion where
  /-- R396: start and end instants of the region. -/
  start : Option Nat := none
  stop : Option Nat := none
  assayed : Bool := false
  reset : Bool := false
  retired : Bool := false
  stale : Bool := false
  poison : Bool := false
  /-- R397: slack code of island i. -/
  slack : List Nat := []
  below : Nat := 0
  /-- R171: hold cycles by cause, summed. -/
  holds : List Nat := []
  /-- R246: throttle time by reason in the step. -/
  throttle : List Nat := []
  rawDyn : Nat := 0
  rawLeak : Nat := 0
  raw : Nat := 0
  calibrated : Nat := 0
  /-- Table 15.5: span windows of the region's islands. -/
  spans : Nat := 0
deriving DecidableEq, Repr

/-- A certificate being gathered between two step marks, or waiting for its assembly (R395). -/
structure CertWork where
  step : Nat := 0
  startCycle : Nat := 0
  endCycle : Nat := 0
  epochStart : Nat := 0
  epochEnd : Nat := 0
  flagsStart : Nat := 0
  flagsEnd : Nat := 0
  frozen : Bool := false
  regions : Tbl CertRegion := []
  /-- MODEL: the step that the mark being passed begins, region by region, and the epoch and flags at its first boundary. -/
  next : Tbl CertRegion := []
  epochNext : Nat := 0
  flagsNext : Nat := 0
  /-- R400: stamps of the excursions of islands outside the plan since the step began. -/
  outside : List Nat := []
  /-- Table 15.5: the earliest excursion by logical cycle, with its island. -/
  first : Option (Nat × Nat) := none
  belowTotal : Nat := 0
deriving DecidableEq, Repr

/-- A kept certificate (R395): its step, its outcome field and its 5,376 bytes. -/
structure Cert where
  step : Nat
  outcome : Nat
  bytes : Bytes
deriving DecidableEq, Repr

/-- The Ledger and its event collector (R380–R394). -/
structure Ledger where
  /-- [32 bytes × 65,536] R380: the records held, oldest first. -/
  ring : List Record := []
  /-- [16] R380: write index. -/
  index : Nat := 0
  /-- [64] R380: records written since cold power-on. -/
  count : Nat := 0
  /-- [1] R388: frozen. -/
  frozen : Bool := false
  /-- [3] Table 19.5: cause in the last LEDGER_FREEZE. -/
  cause : Nat := 0
  /-- [64] R390: Tally of the freeze. -/
  freezeTally : Nat := 0
  /-- [32] R389: events dropped while frozen. -/
  dropped : Nat := 0
  /-- [4,096 records] R384: events waiting for the collector. -/
  queue : List Pending := []
  /-- [32] R384: events dropped because the queue was full. -/
  overflow : Nat := 0
  /-- [64] R384: Tally of the first such drop. -/
  overflowTally : Nat := 0
  /-- [8] R386: span share, in 1/256. -/
  share : Nat := 64
  drain : Drain := {}
deriving DecidableEq, Repr

/-! ## Tally time -/

/-- The die Tally counter and the Tally tree (R40–R65). -/
structure Tally where
  /-- [64] R40: visible Tally, ns. -/
  now : Nat := 0
  /-- [40] R40: fraction below the nanosecond. -/
  frac : Nat := 0
  /-- [32, signed] R40: rate word, 2⁻⁴⁰ ns per Tally clock period. -/
  rate : Int := 0
  /-- R420: the roots have locked, so that Tally counts. -/
  running : Bool := false
  /-- [8] R42: epoch. -/
  epoch : Nat := 0
  /-- [1] R42. -/
  holdover : Bool := false
  /-- [1] R42, R55. -/
  slewing : Bool := false
  /-- [1] R42, R55. -/
  settled : Bool := false
  /-- [8] R51: Tally priority. -/
  priority : Nat := 128
  /-- [14] R426: system die ID; none before the first descriptor. -/
  dieId : Option Nat := none
  /-- [2] R52: 0 member, 1 master, 2 backup. -/
  role : Nat := 0
  /-- [14] R52: die ID of the master followed; none before any master is heard. -/
  master : Option Nat := none
  /-- [8] Table 2.1: its priority. -/
  masterPrio : Nat := 255
  /-- [14] R52: die ID of the backup; none when the die knows of none. -/
  backup : Option Nat := none
  /-- [8] R52: its priority. -/
  backupPrio : Nat := 255
  /-- [4] R53: hop count; 15 outside the tree. -/
  hops : Nat := 15
  /-- [5] R53: link of the parent. -/
  parent : Option Nat := none
  /-- [16] R57: latest master beacon. -/
  beacon : Nat := 0
  /-- [64] R59 MODEL: Tally at which the beacon last advanced. -/
  beaconAt : Nat := 0
  /-- [64] R57 MODEL: Tally of the master's last increment. -/
  beaconSent : Nat := 0
  /-- [64] R55 MODEL: Tally of the last change of parent, epoch or mastership. -/
  changedAt : Nat := 0
  /-- R55: offsets of the exchanges since the last average, newest first. -/
  offsets : List Int := []
  /-- [32] R55: the parent's rate word, from its last REPLY. -/
  parentRate : Int := 0
  /-- R55: consecutive averages within ±2 ns, up to 16. -/
  inBound : Nat := 0
  /-- [32] R377: last averaged offset. -/
  average : Int := 0
  /-- R59: a master was lost and a newer one is awaited, since when. -/
  waitingSince : Option Nat := none
  /-- R64: the die has taken or passed its join step. -/
  joined : Bool := false
  /-- R65: the die has written TALLY_FOREIGN and is outside the tree. -/
  foreign : Bool := false
  /-- R65: the foreign lineage met: link, master, epoch, and averaged offset with delay. -/
  foreignLink : Nat := 0
  foreignMaster : Nat := 0
  foreignEpoch : Nat := 0
  foreignOffset : Int := 0
  /-- R62: epoch of the winning lineage while rejoining, before the first average. -/
  rejoinEpoch : Option Nat := none
  /-- R62: Tally at which the slew of the rejoin began. -/
  slewSince : Option Nat := none
  /-- [64] R54: last measured delay to the parent. -/
  delay : Int := 0
deriving DecidableEq, Repr

/-- The snapshot registers (R476, Table 19.4). -/
structure Snapshot where
  /-- [16] -/
  seq : Nat := 0
  /-- [64] -/
  tally : Nat := 0
  /-- [8] -/
  epoch : Nat := 0
  /-- [3] HOLDOVER, SLEWING, SETTLED. -/
  flags : Nat := 0
  /-- [56] -/
  count : Nat := 0
deriving DecidableEq, Repr

/-- A watch message of Table 2.4 waiting for the delivery port (R68). -/
structure WatchMsg where
  /-- R68: end of the slot in which it stands. -/
  slot : Nat
  watch : Nat
  kindFlags : Nat
  target : Nat
  epoch : Nat
  merged : Nat
  island : Nat
  tally : Nat
  cycle : Nat
  condition : Nat
deriving DecidableEq, Repr

/-- One of the 256 watches (R66–R69). -/
structure Watch where
  /-- R364: registered. -/
  used : Bool := false
  /-- R67: armed, so that its condition is evaluated. -/
  armed : Bool := false
  /-- [2] Table 2.3. -/
  kind : Nat := 0
  /-- [16] -/
  island : Nat := 0xFFFF
  /-- [16] -/
  target : Nat := 0
  /-- [64] The T or C of the next fire. -/
  condition : Nat := 0
  /-- [64] -/
  period : Nat := 0
  /-- R364: queue that set it. -/
  owner : Nat := 0
  /-- R69: a clear was accepted in the slot that ends here. -/
  clearedAt : Option Nat := none
  /-- R344: queue and sequence number of the watch.set. -/
  key : Option (Nat × Nat) := none
deriving DecidableEq, Repr

/-! ## References, roots and synthesizers -/

/-- A reference input and its monitors (R72). -/
structure Ref where
  /-- [1] R72. -/
  qualified : Bool := false
  /-- R72: consecutive good windows, up to 20. -/
  good : Nat := 0
  /-- [32] R72: last window count. -/
  lastCount : Nat := 0
  /-- R409 -/
  retired : Bool := false
  /-- R402: Tally of the last three failures, newest first. -/
  failures : List Nat := []
deriving DecidableEq, Repr

/-- A root synthesizer (R77). -/
structure Root where
  /-- [1] R77: locked. -/
  locked : Bool := false
  /-- R408 -/
  retired : Bool := false
  /-- R408: being acquired since. -/
  acquiring : Option Nat := none
  /-- R408: acquisition due. -/
  retryAt : Option Nat := none
  /-- R402 -/
  failures : List Nat := []
deriving DecidableEq, Repr

/-- The clock sources of the die (R71–R79). -/
structure Clocks where
  refA : Ref := {}
  refB : Ref := {}
  /-- [1] R73: selected reference, 0 REFA, 1 REFB. -/
  selected : Nat := 0
  /-- R73: a reference has been selected since cold power-on. -/
  everQualified : Bool := false
  /-- [1] R73: preferred reference. -/
  preferred : Nat := 0
  /-- [1] R73: revertive mode. -/
  revertive : Bool := false
  /-- R74, R75: the loops hold their tuning voltage. -/
  held : Bool := false
  /-- [1] R74: what the selected reference failed by, 0 activity, 1 frequency, for the REF_SWITCH that follows. -/
  lostCause : Nat := 0
  /-- R75: Tally since which neither reference is qualified; none before the count begins. -/
  noneSince : Option Nat := none
  root0 : Root := {}
  root1 : Root := {}
  /-- [1] R77: the live root. -/
  liveRoot : Nat := 0
  /-- R408: the next two lock windows after a switch for disagreement are to decide. -/
  confirming : Bool := false
deriving DecidableEq, Repr

/-- A synthesizer setting word (Table 3.1). -/
structure Setting where
  n : Nat := 36
  frac : Nat := 0
  div : Nat := 3
  band : Nat := 0
  given : Bool := false
deriving DecidableEq, Repr

/-- A hop cache entry (R92). -/
structure Hop where
  n : Nat
  frac : Nat
  band : Nat
  temp : Int
deriving DecidableEq, Repr

/-- The phase a synthesizer is in (R93, R95). -/
inductive SynthPhase where
  | off
  | searching
  | settling
  | locked
  | failed
deriving DecidableEq, Repr

/-- What an acquisition is for (R87, R406). -/
inductive SynthUse where
  | standby
  | commit (id : Nat)
  | pause (id : Nat)
  | recover
  | test
  | startup
deriving DecidableEq, Repr

/-- One synthesizer of a region pair (R80–R98). Key 2r + x, x = 0 for A and 1 for B. -/
structure Synth where
  phase : SynthPhase := .off
  /-- [1] R86: lock flag. -/
  lock : Bool := false
  /-- [64] Table 3.1. -/
  setting : Setting := {}
  /-- [6] R91: band in use. -/
  band : Nat := 0
  /-- R98: 0 given, 1 table, 2 hop cache, 3 search. -/
  source : Nat := 3
  /-- R95: Tally of the write. -/
  writtenAt : Nat := 0
  /-- R94: consecutive matching, and consecutive mismatching, windows. -/
  matching : Nat := 0
  missing : Nat := 0
  use : SynthUse := .standby
  retired : Bool := false
  /-- R406: search again from this Tally. -/
  retryAt : Option Nat := none
  /-- R95: the next attempt searches, whatever the band source. -/
  mustSearch : Bool := false
  /-- R402 -/
  failures : List Nat := []
  /-- R92: sixteen hop cache entries, most recently used first. -/
  cache : List Hop := []
deriving DecidableEq, Repr

/-! ## Islands -/

/-- The Bellows states of Table 4.7. -/
inductive Bellows where
  | stopped
  | acquiring
  | injected
  | suspended
  | released
  | yoke
deriving DecidableEq, Repr

/-- Why a Bellows acquires (R405, INJECTION_LOCK_FAIL). -/
inductive AcqContext where
  | start
  | reacquisition
  | pauseSwitch
deriving DecidableEq, Repr

/-- A forecast window of an island (R109, R219): stretch k on cycles from … to. -/
structure Window where
  k : Nat
  first : Nat
  last : Nat
deriving DecidableEq, Repr

/-- A replica of the Plumb (R128–R141). -/
structure Replica where
  retired : Bool := false
  /-- R137: periods re-measured since a disagreement, and how many agreed; none when none is open. -/
  remeasure : Option (Nat × Nat) := none
  /-- R137: last main and check readings. -/
  main : Nat := 0
  check : Nat := 0
deriving DecidableEq, Repr

/-- What the slot in progress of an island is (R111, R159, R192, R210): no cycle because its clock is stopped, a delivered cycle,
a pace-suppressed slot, or a held one with its cause of Table 6.4. -/
inductive Slot' where
  | idle
  | delivered
  | paced
  | held (cause : Nat)
deriving DecidableEq, Repr

/-- The Bellows, clock gate and counter of an island (R99–R127, R148). -/
structure Ring where
  /-- [56] R148: logical cycle counter. -/
  count : Nat := 0
  /-- R158: the count three ring periods back, two back and one back. -/
  own3 : Nat := 0
  own2 : Nat := 0
  own1 : Nat := 0
  /-- [4] Table 4.7. -/
  bellows : Bellows := .stopped
  /-- R118: cells settling since. -/
  settleSince : Option Nat := none
  /-- R103: acquisition since, and what for. -/
  acqSince : Nat := 0
  acqContext : AcqContext := .start
  /-- R103, R104: consecutive matching, and mismatching, windows. -/
  matching : Nat := 0
  missing : Nat := 0
  /-- R104: the window in progress holds a suspended or released period. -/
  windowDirty : Bool := false
  /-- R402 -/
  failures : List Nat := []
  /-- R115: operating point whose bias, step, floor and ratio the island runs on. -/
  opp : Nat := 0
  /-- R115: a newer operating point waits for the next cycle boundary. -/
  oppDue : Option Nat := none
  /-- [2] R102: interval in force, and one that waits for the next injection slot. -/
  interval : Nat := 1
  intervalDue : Option Nat := none
  /-- R225 MODEL: count at which the last host interval was accepted: it takes effect at the boundary that follows. -/
  hostAt : Option Nat := none
  /-- R102: ring periods since injection last resumed. -/
  slot : Nat := 0
  /-- R105: a release is in force. -/
  released : Bool := false
  /-- R106: delivered cycles with slack at or above A + 4. -/
  goodRun : Nat := 0
  /-- R108: margin stretch due in the next period, fine steps. -/
  marginDue : Nat := 0
  /-- R109: forecast windows. -/
  windows : List Window := []
  /-- R116: phase offset, steps still to apply, delivered cycles since the last step, and the step due. -/
  phase : Int := 0
  phaseLeft : Int := 0
  sinceStep : Nat := 8
  stepDue : Int := 0
  /-- R117: gate enabled. -/
  gate : Bool := false
  /-- R28: a core stop is applied. -/
  coreStopped : Bool := false
  /-- R28: a stop arrived in a held slot and applies at the next boundary. -/
  stopDue : Bool := false
  /-- R195: gate opens on the free ring by this Tally. -/
  pauseFrom : Option Nat := none
  /-- R110: length of the last period. -/
  period : Nat := 0
  /-- MODEL: the slot in progress, and the time since the gate last passed an edge (R112). -/
  now : Slot' := .idle
  sinceEdge : Nat := 0
  /-- R192: the fast-step accumulator. [16] -/
  acc : Nat := 0
  /-- R192: the fast step stands at the island. -/
  fast : Bool := false
  /-- [3] Table 6.4: published cause. -/
  cause : Nat := 4
  /-- R433: reset since. -/
  resetSince : Option Nat := none
  /-- R349 MODEL: the island's region was in reset at the release of its plan, and it takes the start count when the reset ends. -/
  startDue : Bool := false
deriving DecidableEq, Repr

/-- The Plumb of an island: replicas, step registers and alert run (R128–R147). -/
structure Margin where
  replicas : Tbl Replica := []
  /-- [6] R128: active set; none reads as the working calibration's mask. -/
  active : Option Nat := none
  /-- R139 -/
  blind : Bool := false
  /-- [6] Table 5.3: lowest active slack of the last delivered cycle. -/
  last : Nat := 0
  /-- [6] R135: lowest slack of the step; none while none is measured. -/
  stepMin : Option Nat := none
  /-- [3] R135 -/
  stepRep : Nat := 0
  /-- [16] R135 -/
  below : Nat := 0
  /-- [56] R135 -/
  firstBelow : Nat := 0
  /-- [16] R135 -/
  alerts : Nat := 0
  /-- [7] R142 -/
  run : Nat := 0
  /-- R142: delivered cycles, and those with an alert, in the 1 µs interval. -/
  intDelivered : Nat := 0
  intAlerts : Nat := 0
  /-- R386: delivered cycles, held slots and stretched cycles of the 10 µs window. -/
  winDelivered : Nat := 0
  winHeld : Nat := 0
  winStretched : Nat := 0
  /-- R387: slots of the window by published cause. -/
  winCauses : List Nat := []
  /-- R386: the open span: start of its first window, windows, highest share, stretched cycles and held slots. -/
  span : Option (Nat × Nat × Nat × Nat × Nat) := none
  /-- R387: counts of published causes in the open span. -/
  spanCauses : List Nat := []
  /-- R397: span windows in the step. -/
  spanWindows : Nat := 0
  /-- R284: excess over the 10 µs window, in ring units, and the cycles delivered in it. -/
  excess : Nat := 0
  exCycles : Nat := 0
deriving DecidableEq, Repr

/-- The Hoop registers of an island (R159, R168–R171). -/
structure Holds where
  /-- [8 × 32] R171: by published cause. -/
  byCause : List Nat := []
  /-- [5 × 32] R171: by edge, N, E, S, W, link. -/
  byEdge : List Nat := []
  /-- [16] Table 6.7 -/
  late : Nat := 0
  /-- [16] -/
  overflow : Nat := 0
  /-- R168: poison events in the step. -/
  poison : Nat := 0
  /-- [16] R169 -/
  highWater : Nat := 0
  /-- [3] -/
  highEdge : Nat := 0
  /-- R169: QUEUE_HIGH written in the step. -/
  highLogged : Bool := false
  /-- R192: pace cycles. -/
  pace : Nat := 0
  /-- R157: held in its last slot. -/
  lastHeld : Bool := false
deriving DecidableEq, Repr

/-- An island (Table 0.2). -/
structure Island where
  ring : Ring := {}
  margin : Margin := {}
  holds : Holds := {}
deriving DecidableEq, Repr

/-! ## Edges, lanes and links -/

/-- The states of one end of an edge (Table 6.1). -/
inductive EndState where
  | uncoupled
  | pending
  | active
  | excused
  | released
deriving DecidableEq, Repr

/-- One end of an on-die edge (R151–R159, R175). Key 2e + side. -/
structure EdgeEnd where
  state : EndState := .uncoupled
  /-- R151: coupled at this end. -/
  coupled : Bool := false
  /-- [16, signed] R158: lead register. -/
  lead : Int := 0
  /-- [8] R158: last good neighbour count. -/
  prev : Nat := 0
  /-- [48] R175: the neighbour's count as last reconstructed. -/
  neighbour : Nat := 0
  /-- [3] R156: cause of the last good sample, and the accepted cause. -/
  seenCause : Nat := 4
  cause : Nat := 4
  /-- R156: consecutive failed samples. -/
  bad : Nat := 0
  /-- R175: stale since. -/
  stale : Option Nat := none
  /-- R154: PENDING since. -/
  since : Nat := 0
  /-- R225 MODEL: the island's count at which the last host coupling request was accepted. -/
  hostAt : Option Nat := none
deriving DecidableEq, Repr

/-- A crossing lane on its receiving side (R163, R168). Key (5 × island + position) × 8 + lane. -/
structure Lane where
  /-- [12] R169: occupancy as the sender sees it. -/
  occ : Nat := 0
  /-- R162 MODEL: entries freed that the sender sees one, two and three of its ring periods from now. -/
  freed1 : Nat := 0
  freed2 : Nat := 0
  freed3 : Nat := 0
  /-- R168 -/
  poisoned : Bool := false
deriving DecidableEq, Repr

/-- The power-pool side of a link (R268–R274). -/
structure PoolLink where
  /-- R268: the partner pools with the die. -/
  member : Bool := false
  /-- [16, signed] R269: loan in 0.1 W, positive when the die has lent. -/
  loan : Int := 0
  /-- [16] R270: want and offer of the last STATUS sent, 0.1 W. -/
  want : Nat := 0
  offer : Nat := 0
  /-- [16] R269: frame sequence. -/
  seq : Nat := 0
  /-- R272: rounds in a row with want zero. -/
  idle : Nat := 0
  /-- R273: Tally of the last valid frame. -/
  lastValid : Option Nat := none
  /-- R273: Tally at which the lender restores its cap. -/
  restoreAt : Option Nat := none
  /-- R274: consecutive STATUS frames with an inconsistent loan. -/
  mismatches : Nat := 0
  /-- R274: a GRANT, RETURN or RECALL is outstanding. -/
  outstanding : Bool := false
deriving DecidableEq, Repr

/-- What a partner last said of the Tally tree (R52, R53). -/
structure Partner where
  die : Nat := 0
  master : Nat := 0
  masterPrio : Nat := 255
  hops : Nat := 15
  epoch : Nat := 0
  flags : Nat := 0
  beacon : Nat := 0
  rate : Int := 0
  candPrio : Nat := 255
  cand : Nat := 0
deriving DecidableEq, Repr

/-- A frame that waits for the lane (R462). -/
inductive Frame where
  | hoop (flags tag count heldForYou : Nat)
  | reply (seq t1 t2 : Nat)
  | sync (seq : Nat)
  | pool (kind seq ack want offer amount : Nat) (loan : Int)
deriving DecidableEq, Repr

/-- A chip link: its sideband, Hoop end, Tally exchange and loan (R152–R177, R460–R464). -/
structure Link where
  /-- R174: the link layer reports it up. -/
  up : Bool := false
  /-- R435: retraining since. -/
  retrain : Option Nat := none
  /-- R461: the sideband receiver is up. -/
  rxUp : Bool := false
  /-- R56: consecutive discarded frames, and absent for Tally and Hoop. -/
  discarded : Nat := 0
  absent : Bool := false
  /-- R427: a valid Tally frame has arrived. -/
  tallyHeard : Bool := false
  partner : Partner := {}
  /-- [16] R54: sequence of the last SYNC sent, its t1, and the Tally of the last send. -/
  syncSeq : Nat := 0
  syncT1 : Option Nat := none
  syncAt : Option Nat := none
  /-- R462: frames waiting for the lane: Hoop, REPLY, SYNC, POOL. -/
  waitHoop : Option Frame := none
  waitReply : List Frame := []
  waitSync : List Frame := []
  waitPool : List Frame := []
  /-- R462: the last frame sent was a Hoop frame. -/
  lastHoop : Bool := false
  /-- R460: bytes of the frame last put on the lane; none while idle blocks go out. -/
  onLane : Option Bytes := none
  /-- R157: Tally and count of the last Hoop formation, and the flags it carried. -/
  hoopAt : Nat := 0
  hoopCount : Nat := 0
  hoopFlags : Nat := 0
  /-- [16] R157: hold cycles taken on this link since the last formation. -/
  heldForYou : Nat := 0
  state : EndState := .uncoupled
  coupled : Bool := false
  /-- [16] R152: own plan tag. -/
  tag : Nat := 0
  /-- [16, signed] R158 -/
  lead : Int := 0
  /-- [48] R158: count of the last valid frame. -/
  remote : Nat := 0
  /-- [16], [1], [1], [3] R152: the partner's tag, coupling, excuse and cause. -/
  remoteTag : Nat := 0
  remoteCoupled : Bool := false
  remoteExcused : Bool := false
  remoteCause : Nat := 4
  /-- R152: HOOP_TAG_MISMATCH written for the present onset. -/
  mismatch : Bool := false
  /-- R175: Tally of the last valid Hoop frame; stale since. -/
  hoopHeard : Option Nat := none
  stale : Option Nat := none
  since : Nat := 0
  pool : PoolLink := {}
deriving DecidableEq, Repr

/-! ## Commits -/

/-- Who asks for a commit (Table 15.4). -/
inductive CommitSource where
  | host
  | pattern
  | settlement
  | restoring
deriving DecidableEq, Repr

/-- A commit that no Chandler has accepted yet (R194, R215, R216, R247). -/
structure CommitReq where
  source : CommitSource
  target : Nat
  members : RegionSet
  /-- R216: Tally of its first request. -/
  since : Nat
  /-- R215: context, late mark, re-grant mark, regions deferred. -/
  context : Nat := 0
  late : Bool := false
  regrant : Bool := false
  deferred : RegionSet := 0
  /-- R217: aborts of the commit and of its re-issues. -/
  aborts : Nat := 0
deriving DecidableEq, Repr

/-- A pending commit as the commit controller holds it (R181–R191). -/
structure Commit where
  /-- [32] R353 -/
  id : Nat
  source : CommitSource
  target : Nat
  members : RegionSet
  /-- R181: granted operating point of each member. -/
  grants : Tbl Nat
  /-- [64] R182: the commit count T. -/
  count : Nat
  acceptedAt : Nat
  /-- R184: members whose idle synthesizer was retuned. -/
  retuned : RegionSet := 0
  /-- R195: members that run as a pause-switch, and those already deselected. -/
  pausing : RegionSet := 0
  lent : RegionSet := 0
  /-- R185: the rise was written; rails raised. -/
  riseWritten : Bool := false
  raised : Nat := 0
  /-- R501: past its decision. -/
  decided : Bool := false
  /-- R186: strobe sent. -/
  strobed : Bool := false
  /-- R501: members switched, and members whose switch was refused. -/
  switched : RegionSet := 0
  refused : RegionSet := 0
  /-- [16, signed] Table 15.4: earliest and latest switching instants less T, sQ11.4 ns. -/
  earliest : Option Int := none
  latest : Option Int := none
  /-- R188: COMMIT_DONE written; only the fall of R184 is left. -/
  done : Bool := false
  /-- R344: queue and sequence number of an opp.commit. -/
  key : Option (Nat × Nat) := none
  context : Nat := 0
  aborts : Nat := 0
deriving DecidableEq, Repr

/-! ## Regions -/

/-- The Drover lane of a region (R119–R123, region.read): on its own synthesizer, on a lender's, stopped by a clock loss and
not yet restarted, or stopped with DROVER_STALL written. -/
inductive Drover where
  | own
  | borrowing (lender : Nat)
  | stopped
  | stalled
deriving DecidableEq, Repr

/-- A region reset in progress (R431, R432). -/
structure RegionReset where
  since : Nat
  synth : Bool
  /-- R432: a synthesizer has locked and been selected again. -/
  relocked : Bool := false
deriving DecidableEq, Repr

/-- The energy account of a region (R228–R235, R242). -/
structure RegionEnergy where
  /-- R233: raw and calibrated quadrant and SRAM parts of the last interval, fJ. -/
  rawQ : Nat := 0
  rawS : Nat := 0
  calQ : Nat := 0
  calS : Nat := 0
  /-- R233: dynamic and leakage parts of the raw figures. -/
  dynQ : Nat := 0
  dynS : Nat := 0
  leakQ : Nat := 0
  leakS : Nat := 0
  /-- R234: the figures repeat an earlier interval. -/
  stale : Bool := false
  /-- [80] R235: raw, calibrated, dynamic and leakage since the last step mark, fJ. -/
  accRaw : Nat := 0
  accCal : Nat := 0
  accDyn : Nat := 0
  accLeak : Nat := 0
  /-- R251: calibrated energy of the 10 µs window, quadrant and SRAM. -/
  winQ : Nat := 0
  winS : Nat := 0
  /-- R251: the same of the last completed window, which the limit unit evaluates. -/
  doneQ : Nat := 0
  doneS : Nat := 0
  /-- R288: calibrated energy of the last 1,000 windows, newest first: the last 10 ms. -/
  history : List Nat := []
  /-- R284: disturbance of the last 100,000 windows, newest first, in units of `Config.ring20`. -/
  disturb : List Nat := []
  /-- R232: temperature at the start of the interval, 1/16 °C; the hard threshold before any conversion. -/
  temp : Int := 1680
  /-- R229, R231: tables replaced in the interval in progress, which still stand in it. -/
  coefHeld : Option (List Nat) := none
  leakHeld : Option Leak := none
deriving DecidableEq, Repr

/-- One loop's ceiling on a region (R251–R255): its raising history. -/
structure Raise where
  lastLower : Option Nat := none
  lastRise : Option Nat := none
  /-- R254: of the last ten windows, newest first, those at or below 90 %. -/
  quiet : List Bool := []
deriving DecidableEq, Repr

/-- The throttle account of a region (R246). -/
structure Throttle where
  /-- [12 × 64] R246 -/
  counts : List Nat := []
  /-- R246: the reason that accrues. -/
  reason : Option Nat := none
  /-- R246: accrual last began from none; the present reason began. -/
  since : Nat := 0
  reasonSince : Nat := 0
  /-- R397: counts at the last step mark. -/
  atMark : List Nat := []
  /-- R270: PKG_CAP time, and POOL_LENT time, at the start of the pool round. -/
  atRound : List Nat := []
deriving DecidableEq, Repr

/-- The thermal state of a region (R258, R259). -/
structure ThermalRegion where
  soft : Bool := true
  hard : Bool := true
  /-- R258: soft asserted since or last stepped. -/
  softStep : Nat := 0
  /-- R258, R259: every valid reading below the release level since. -/
  softBelow : Option Nat := none
  hardBelow : Option Nat := none
  /-- R258: next rise counts from here. -/
  riseFrom : Option Nat := none
  /-- R261: the hard threshold stands asserted from the reset, no conversion having reached it. -/
  fromReset : Bool := true
deriving DecidableEq, Repr

/-- A region (Table 0.2). -/
structure Region where
  /-- [4] R178: operating point in force. -/
  opp : Nat := 0
  /-- R25: the synthesizer the multiplexer selects; none while the region clock is absent. -/
  select : Option Nat := none
  /-- R25: the synthesizer last selected, which is the live one. -/
  live : Nat := 0
  /-- [12 × 5] R244: the ceilings of Table 10.1 as set; THERMAL_SOFT and THERMAL_HARD start at OPP 0 (R261). -/
  ceilings : List (Option Nat) := [none, none, none, none, some 0, some 0, none, none, none, none, none, none]
  /-- R347: queue 0 holds the HOST_CEILING. -/
  hostHeld : Bool := false
  /-- R144: MARGIN_SUSTAINED is latched; Tally of requests, newest first; no alerting interval since. -/
  latched : Bool := false
  marginReqs : List Nat := []
  quietSince : Nat := 0
  /-- R251–R254: histories of reasons 0, 1, 2, 3 and 10. -/
  raises : Tbl Raise := []
  /-- R256: what the rails of the region ask of VRM_ALERT: quadrant alert, SRAM alert, quadrant fall, SRAM fall. -/
  vrm : List (Option Nat) := []
  /-- R192: fast step in force, with r. [16] -/
  fast : Option Nat := none
  /-- R194: a settlement is requested or pending; its retry. -/
  settleDue : Option Nat := none
  restoreDue : Option Nat := none
  /-- R195: a pause-switch whose gates have not all opened: commit ID, T, old and new operating point. -/
  pause : Option (Nat × Nat × Nat × Nat) := none
  /-- R214: Pattern target. -/
  patternTarget : Option Nat := none
  /-- R214, R217: the context that set it. -/
  patternContext : Nat := 0
  /-- R246: target of the last opp.commit accepted. -/
  hostTarget : Option Nat := none
  /-- R102: [2] interval set. -/
  injection : Nat := 1
  /-- R89: TABLE in place of SEARCH. -/
  bandTable : Bool := false
  /-- [32 bytes] R90 -/
  bands : List Nat := []
  /-- R83, R376: test setting in force, and one being acquired. -/
  test : Option Setting := none
  /-- R120–R123 -/
  drover : Drover := .own
  droverSince : Nat := 0
  reset : Option RegionReset := none
  /-- R407 -/
  retired : Bool := false
  /-- R437: 0 running, 1 Gate, 2 Hush, 3 Bank. -/
  power : Nat := 0
  /-- [32] R437 -/
  tolerance : Nat := 0
  /-- R465 -/
  wake : Bool := false
  /-- [5] R275 -/
  owner : Nat := 0
  /-- R276: a new owner that waits for the next interval. -/
  ownerDue : Option Nat := none
  /-- [13] R249: fraction as set by cap.set or carried by a move; none reads as the default. -/
  fraction : Option Nat := none
  /-- R253 -/
  strict : Bool := false
  /-- R281: the fence stands at the region; R282: the pinned ceiling; R285: guard ceilings by fenced owner. -/
  fenced : Bool := false
  fenceDue : Option (Bool × Nat) := none
  pin : Option Nat := none
  guards : Tbl Nat := []
  /-- R225 MODEL: an accepted action waits for the islands' boundary. -/
  actionDue : Bool := false
  throttle : Throttle := {}
  thermal : ThermalRegion := {}
  energy : RegionEnergy := {}
  /-- R208: actions missed in the present excuse, and the context. -/
  missed : Nat := 0
  missedContext : Nat := 0
  /-- R201: context of the loaded plan that names the region. -/
  plan : Option Nat := none
deriving DecidableEq, Repr

/-! ## Patterns -/

/-- A segment armed in a context (R199). -/
structure Segment where
  base : Nat
  records : Nat
  /-- R199: records read. -/
  read : Nat := 0
deriving DecidableEq, Repr

/-- The actions of Table 8.2 that stay in the window until retired. -/
inductive Action where
  | oppRequest (opp advance : Nat)
  | forecast (w : Nat) (di : Int)
  | prestretch (k w : Nat)
  | injection (code : Nat)
  | couple (on : Bool) (edges : List Nat)
  | stepMark (step : Nat)
  | fence (on : Bool)
deriving DecidableEq, Repr

/-- A record in the read-ahead window of a context (R209). -/
structure WinRecord where
  cycle : Nat
  mask : Nat
  action : Action
  /-- R208, R209: islands that have applied it, or missed it excused. -/
  applied : List Nat := []
  /-- R214: read after its issue cycle had passed. -/
  late : Bool := false
deriving DecidableEq, Repr

/-- The states of a context (plan.read). -/
inductive CtxState where
  | loaded
  | started
  | ended
  | fault (reason : Nat)
  | starved
deriving DecidableEq, Repr

/-- A Pattern context, one per loaded plan (R198). -/
structure Context where
  state : CtxState := .loaded
  tag : Nat := 0
  owner : Nat := 0
  regions : RegionSet := 0
  /-- R204: mask entries 1–255. -/
  masks : Tbl Nat := []
  /-- R218: gains by 16r + k; an entry not listed takes 0x0400. -/
  gains : Tbl Nat := []
  /-- R151: coupling map: on-die edge bits and link bits. -/
  edges : Nat := 0
  links : Nat := 0
  segments : List Segment := []
  /-- R209: records read and not retired, oldest first. -/
  window : List WinRecord := []
  /-- R200, R210: cycle p of the last record read. -/
  last : Nat := 0
  /-- R210: the horizon is open. -/
  open_ : Bool := true
  /-- R205: cycles of the STEP_MARK records read: the latest. -/
  lastMark : Option Nat := none
  startCount : Nat := 0
  startTally : Nat := 0
  /-- R349: released. -/
  released : Bool := false
  /-- R213: PATTERN_STARVED written at, while no slot has been suppressed. -/
  starvedSince : Option Nat := none
  /-- R223: the last step begun, with its mark cycle. -/
  step : Option (Nat × Nat) := none
  /-- R395: the certificate that gathers, and those that wait for assembly. -/
  gather : CertWork := {}
  ready : List CertWork := []
  /-- R395: the last two certificates, newest first. -/
  certs : List Cert := []
  key : Option (Nat × Nat) := none
deriving DecidableEq, Repr

/-! ## Rails, limits and energy calibration -/

/-- An AVSBus transaction (Table 18.2), in the order of R451. -/
inductive AvsOp where
  | retention
  | target (mv : Nat)
  | confirm
  | status
deriving DecidableEq, Repr

/-- A rail and its regulator (R180–R185, R236–R239, R450–R454). -/
structure Rail where
  /-- [10] R180: target in force, mV. -/
  target : Nat := 500
  /-- R230: at the retention voltage. -/
  retention : Bool := true
  /-- R440: switched off. -/
  off : Bool := true
  /-- R185: the output has been confirmed at the target. -/
  confirmed : Bool := false
  /-- R185: write complete at; a rise or fall is settling; its allowance, ns. -/
  writtenAt : Option Nat := none
  falling : Bool := false
  allowance : Nat := 0
  /-- R451: transaction on the bus, and those waiting. -/
  busy : Option AvsOp := none
  waiting : List AvsOp := []
  /-- R412: consecutive failures of the transaction on the bus. -/
  failed : Nat := 0
  /-- R412: three transactions in a row failed. -/
  dead : Bool := false
  /-- R256: the status shows an alert; the last word; clear since. -/
  alert : Bool := false
  status : Nat := 0
  clearSince : Option Nat := none
  /-- R256: a fall is not confirmed. -/
  fallFailed : Bool := false
  rewriteAt : Nat := 0
  /-- R256: last lowering and last rise for an alert. -/
  alertStep : Nat := 0
  alertRise : Nat := 0
  /-- R450: REGULATOR_ALERT records that wait for a status read: phase + 2 × kind. -/
  alertRecord : List Nat := []
  /-- R256: Tally at which a failed fall was confirmed after all. -/
  fallClear : Option Nat := none
  /-- R452: a PMBus transaction is in progress: true for READ_POUT; acknowledged at. -/
  pmbus : Option Bool := none
  pmbusAt : Nat := 0
  /-- [16], [20] R239: gain Q2.14 and offset mW, sQ20.0. -/
  gain : Nat := 0x4000
  offset : Int := 0
  /-- R238: an update computed, to apply at. -/
  update : Option (Nat × Int × Nat) := none
  /-- R239: a host write that waits for the next window boundary. -/
  hostWrite : Option (Nat × Int) := none
  /-- R236: valid reads, their sum, and the sums d and l of the window, fJ. -/
  reads : Nat := 0
  sumMw : Nat := 0
  sumDyn : Nat := 0
  sumLeak : Nat := 0
  sumCal : Nat := 0
  /-- R237: what the window has seen: Tally of the last target change, alert, Assay, host write, no Chandler, off. -/
  changedAt : Option Nat := none
  sawAlert : Bool := false
  sawAssay : Bool := false
  sawHost : Bool := false
  /-- R237 MODEL: a host write takes effect with the next window. -/
  hostNext : Bool := false
  sawNoChandler : Bool := false
  sawOff : Bool := true
  /-- R237: windows skipped in the run. -/
  skipped : Nat := 0
  /-- [40 bytes] Table 9.6: the record of the last completed window. -/
  record : Bytes := []
  /-- [16] R248: power cap W and current limit A; none reads as the default of Table 10.2. -/
  capW : Option Nat := none
  limitA : Option Nat := none
  /-- R251: calibrated energy of the 10 µs window, and of the last completed one, fJ. -/
  window : Nat := 0
  windowDone : Nat := 0
  /-- R230: target in force, and whether the rail was off, at the start of the interval. -/
  startMv : Nat := 500
  startOff : Bool := true
deriving DecidableEq, Repr

/-- A drain in progress (R255). Loop 0 package, 1 rail power, 2 rail current, 3 strict; index of rail or region. -/
structure LimitDrain where
  loop : Nat
  index : Nat
  since : Nat
  lowest : Nat
  /-- LIMIT_FORCED written. -/
  forced : Bool := false
deriving DecidableEq, Repr

/-- The limit unit and the pool of the die (R248–R255, R268). -/
structure Limits where
  /-- [16] R248: base cap W. -/
  base : Nat := 1150
  /-- [16] R248: burst cap W. -/
  burst : Nat := 1600
  /-- [64] R250: credit fJ. -/
  credit : Nat := 0
  /-- [1] R250 -/
  flag : Bool := false
  /-- [12] R257: soft and hard thresholds, 1/16 °C. -/
  soft : Int := 1520
  hard : Int := 1680
  drains : List LimitDrain := []
  /-- R251: calibrated package energy of the 10 µs window, fJ. -/
  window : Nat := 0
  /-- R251: the same of the last completed window, the budget at its end, mW, and its end while it waits for its evaluation. -/
  windowDone : Nat := 0
  budgetDone : Nat := 0
  windowEnd : Option Nat := none
  /-- R228: end of the last interval computed. -/
  intervalEnd : Nat := 0
  /-- R251: package windows evaluated: sum and number since the pool round began (R270). -/
  roundEnergy : Nat := 0
  roundStart : Nat := 0
  /-- [16] R268: pool ID. -/
  pool : Nat := 0
  /-- R285 MODEL: end of the last window the guard has tested. -/
  guardEnd : Nat := 0
  /-- R284: last 100 window-to-window changes of each owner on each rail, key 32 × rail + owner, newest first. -/
  variation : Tbl (List Nat) := []
  /-- R284: calibrated energy of owner on rail in the last window, and in the window being gathered. -/
  ownerLast : Tbl Nat := []
  ownerNow : Tbl Nat := []
  /-- R172: caused and suffered of the interval in progress, and of the last completed one with its end and share. -/
  caused : Nat := 0
  suffered : Nat := 0
  lastCaused : Nat := 0
  lastSuffered : Nat := 0
  share : Nat := 0
  shareEnd : Nat := 0
deriving DecidableEq, Repr

/-- A thermal sensor (R257). -/
structure Sensor where
  /-- [16, signed] latest conversion, 1/16 °C. -/
  reading : Int := 0
  /-- R257, R261: it has converted since the reset. -/
  converted : Bool := false
  /-- R410: flagged for a failed conversion or a reading out of range. -/
  flagged : Bool := false
  /-- R410: flagged by Assay. -/
  assayFlag : Bool := false
  retired : Bool := false
  failures : List Nat := []
deriving DecidableEq, Repr

/-! ## Stop, tray and pins -/

/-- Stop causes, tray, emergency stop and the die-wide pins (R260–R267, R447–R449). -/
structure Stop where
  /-- [6] Table 19.3: COOLANT, TRIP, ESTOP_N, REGISTER, tray hold, thermal hold. -/
  coolant : Bool := false
  trip : Bool := true
  estop : Bool := true
  register : Bool := false
  trayHold : Bool := true
  thermalHold : Bool := true
  /-- [1] Table 19.3: flow released. -/
  flow : Bool := false
  /-- Table 19.3: FLOW_SENSE, TRAY_FLOW_OK and ESTOP_N at the last sample. -/
  senseMv : Nat := 0
  flowOk : Bool := false
  estopPin : Bool := false
  /-- [1] R449: THERMTRIP_N driven low. -/
  thermtrip : Bool := true
  /-- [1] Table 19.3: stopped under R264 or by a fault stop. -/
  stopped : Bool := false
  /-- R415: stopped by a fault stop of cause. -/
  faultStop : Option Nat := none
  /-- [64] R264: detection instant of the last cause. -/
  td : Nat := 0
  /-- R266: causes that have stood in the present stop, bit c − 1. -/
  stood : Nat := 0
  /-- R266: resume Tally of an accepted fabric.resume. -/
  resumeAt : Option Nat := none
  /-- R260: every valid reading below 112.0 °C since. -/
  tripBelow : Option Nat := none
  /-- [1], [3], [32] R415: an uncorrectable fault stands; its cause; detail of the last. -/
  fault : Nat := 0
  faultDetail : Nat := 0
  /-- R445: the always-on rail is good and the pins may be driven. -/
  aonGood : Bool := false
  /-- R485: lowest always-on voltage seen, mV. -/
  aonLowest : Nat := 0xFFFF
  /-- R459: EXTEST, CLAMP or HIGHZ is in force. -/
  testForce : Bool := false
deriving DecidableEq, Repr

/-! ## Tenants -/

/-- A tenant (R275–R285). Key 1–16; key 0 is owner 0. -/
structure Tenant where
  made : Bool := false
  /-- [8] R279 -/
  quota : Nat := 16
  /-- [1] R281 -/
  fence : Bool := false
  /-- [64] R240: raw and calibrated energy, fJ. -/
  raw : Nat := 0
  cal : Nat := 0
  /-- [16] R284: 1 ms and 1 s ratios, Q0.16. -/
  ratioMs : Nat := 0
  ratioS : Nat := 0
  /-- R285: both rise conditions have held since. -/
  calmSince : Option Nat := none
  /-- R285 MODEL: the multiple of 10 ms at which its guard ceilings last rose. -/
  riseAt : Nat := 0
  key : Option (Nat × Nat) := none
deriving DecidableEq, Repr

/-! ## Assay and the calibration store -/

/-- An Assay in progress (R305–R312). -/
structure Assay where
  /-- none at power-up. -/
  region : Option Nat
  /-- Phase: 0 idle, 1 spine, 2 bands, 3 ring, 4 ladder, 5 close. -/
  phase : Nat
  /-- R306, R307: sub-step within the phase (round, or 4k + b). -/
  sub : Nat
  /-- Tally of the start. -/
  since : Nat
  /-- R310: operating points covered, ascending. -/
  covered : List Nat
  /-- R308: values measured, not loaded yet. -/
  values : Calib
  flagged : Nat := 0
  /-- R301: slack-offset uncertainty u of replicas 0–5, Q4.4, by 16 × island + operating point. -/
  us : Tbl (List Nat) := []
  /-- Table 12.2: islands whose Bellows a fallback retires at the close. -/
  fallen : List Nat := []
  /-- R309: waiting for a pending commit. -/
  waiting : Bool := false
deriving DecidableEq, Repr

/-- A store write in progress (R318). -/
structure StoreWrite where
  slot : Nat
  source : Nat
  generation : Nat
  /-- 0 erase, 1 program, 2 verify. -/
  stage : Nat
  /-- R318: 64 KiB blocks erased. -/
  blocks : Nat := 0
  image : Calib
  since : Nat
  /-- Table 12.7: Tally and firmware version of the header it programs. -/
  begun : Nat := 0
  firmware : Nat := 0
  key : Option (Nat × Nat) := none
deriving DecidableEq, Repr

/-- The calibration store and the working calibration (R289, R313–R321). -/
structure Store where
  slot0 : Slot := { valid := true, generation := 1, source := 0 }
  slot1 : Slot := {}
  /-- R313: absent or unsupported. -/
  absent : Bool := true
  /-- R316: current slot, if any is valid. -/
  current : Option Nat := none
  write : Option StoreWrite := none
  /-- R317: a write of source RETIRE is due; retry from. -/
  retireDue : Option Nat := none
  lastFailed : Bool := false
  /-- [64] R369: Tally of the last write. -/
  lastTally : Nat := 0
  /-- [16] R369 -/
  flagged : Nat := 0
  work : Calib := {}
  assay : Option Assay := none
  /-- R312 MODEL: assay.region key of the running Assay. -/
  assayKey : Option (Nat × Nat) := none
deriving DecidableEq, Repr

/-! ## Chandler pair and mailboxes -/

/-- The states of Table 13.1. -/
inductive Pair where
  | boot
  | synced
  | syncing
  | restarting
  | single
  | none_
  | takeover
deriving DecidableEq, Repr

/-- A Chandler core (R322–R325, R411, R421). -/
structure Core where
  /-- R421: its image is verified. -/
  verified : Bool := false
  heldOut : Bool := false
  failures : List Nat := []
  /-- R324: restart since, and its attempt number. -/
  restart : Option Nat := none
  attempt : Nat := 0
deriving DecidableEq, Repr

/-- The Chandler pair (R322–R325). -/
structure Chandler where
  pair : Pair := .boot
  /-- [1] the primary core. -/
  primary : Nat := 0
  core0 : Core := {}
  core1 : Core := {}
  /-- [64] R323: Tally of the last heartbeat of the primary. -/
  lastBeat : Nat := 0
  /-- [32] R474: firmware version. -/
  version : Nat := 0
  /-- R421: broadcast arrived at. -/
  broadcastAt : Option Nat := none
deriving DecidableEq, Repr

/-- A command in execution (R333). -/
structure Exec where
  /-- Descriptor, 64 bytes, with its slot. -/
  desc : Bytes
  slot : Nat
  /-- R331: staged input, copied at BEGIN. -/
  staged : Bytes
  reexecuted : Bool := false
deriving DecidableEq, Repr

/-- A stored completion (R334). -/
structure Stored where
  seq : Nat
  status : Nat
  flags : Nat
  result : Nat
  detail : Nat
deriving DecidableEq, Repr

/-- A mailbox queue and its register set (R326–R339, Table 19.7). -/
structure Queue where
  /-- [1] R278 -/
  bound : Bool := false
  /-- [16] × 4 R327 -/
  subTail : Nat := 0
  subHead : Nat := 0
  cplTail : Nat := 0
  cplHead : Nat := 0
  /-- [1] R338: a reset waits for the command in execution. -/
  resetting : Option Nat := none
  exec : Option Exec := none
  /-- [32] R334 -/
  expect : Option Nat := none
  /-- R334: the last 64 completions, newest first. -/
  stored : List Stored := []
  /-- [3] R339: CQ, QERR, CHANDLER. -/
  intStatus : Nat := 0
  /-- [3] -/
  intEnable : Nat := 0
  /-- R278: second in which a refusal was last logged, and refusals counted since. -/
  refusedAt : Option Nat := none
  refusals : Nat := 0
deriving DecidableEq, Repr

/-! ## Start-up and registers -/

/-- Start-up and readiness (R419–R430). -/
structure Startup where
  /-- [4] Table 19.3: step of Table 17.1. -/
  step : Nat := 1
  /-- [2] Table 19.3: 0 starting, 1 READY, 2 NOT_READY. -/
  ready : Nat := 0
  /-- R429: kind of the reset that brings the die up. -/
  kind : Nat := 1
  /-- [272 bytes] R426 -/
  descriptor : Option Bytes := none
  /-- [16] R428 -/
  differences : Nat := 0
  /-- R427: the check waits for links since. -/
  checkSince : Option Nat := none
  fuses : Fuses := {}
  /-- R422: fuses read. -/
  fusesRead : Bool := false
  /-- R421 MODEL: Tally until which a newly broadcast image is taken after a package warm reset. -/
  imageUntil : Option Nat := none
  /-- R424 MODEL: the synthesizers and rings of steps 7 and 8 have been started. -/
  begun : Bool := false
deriving DecidableEq, Repr

/-- Registers of the MMIO window that have no other home (Tables 19.1 and 19.6; R458, R473). -/
structure Regs where
  /-- [8] Table 19.6 -/
  fintStatus : Nat := 0
  /-- [8] -/
  fintEnable : Nat := 0
  snap : Snapshot := {}
  /-- R473: value latched for a _HI register, by the offset of its _LO register. -/
  latches : Tbl Nat := []
  /-- [64] Table 19.1: command SRAM base from the control map. -/
  cmdBase : Nat := 0
  /-- [48] R458: FABRIC_WORD: data for the next capture. -/
  testData : Nat := 0
  /-- [16] R458: LEDGER_RECORD index selected. -/
  testIndex : Nat := 0
  /-- The value the last host read of a trigger or _LO register returned. -/
  readValue : Nat := 0
deriving DecidableEq, Repr

/-- Host memory as the streams have written it: an address and the bytes written, newest first (R466). -/
structure StreamWrite where
  address : Nat
  data : Bytes
deriving DecidableEq, Repr

/-- What Dormant saves of an island (R440). -/
structure SavedRing where
  island : Nat
  count : Nat
  phase : Int
  bellows : Bellows
deriving DecidableEq, Repr

/-- What Dormant saves of a region (R440). -/
structure SavedRegion where
  region : Nat
  injection : Nat
  bandTable : Bool
  bands : List Nat
  cacheA : List Hop
  cacheB : List Hop
deriving DecidableEq, Repr

/-- Dormant's saved state (R440). -/
structure Dormant where
  /-- R440: the die is in Dormant. -/
  in_ : Bool := false
  /-- R441: the exit has begun, and the rails rise. -/
  leaving : Bool := false
  /-- R440: count, phase offset and Bellows state of each island, as saved. -/
  saved : List SavedRing := []
  /-- R440: injection interval, band source, band table and both hop caches of each region, as saved. -/
  savedRegions : List SavedRegion := []
deriving DecidableEq, Repr

/-- The fabric of one die. -/
structure Die where
  tally : Tally := {}
  clocks : Clocks := {}
  startup : Startup := {}
  stop : Stop := {}
  regs : Regs := {}
  ledger : Ledger := {}
  chandler : Chandler := {}
  store : Store := {}
  limits : Limits := {}
  islands : Tbl Island := []
  regions : Tbl Region := []
  synths : Tbl Synth := []
  ends : Tbl EdgeEnd := []
  lanes : Tbl Lane := []
  links : Tbl Link := []
  rails : Tbl Rail := []
  sensors : Tbl Sensor := []
  watches : Tbl Watch := []
  /-- R68: messages waiting for the delivery port, in slot order and then by watch ID. -/
  messages : List WatchMsg := []
  /-- R70: the 32 bytes of the last message delivered. -/
  delivered : Bytes := []
  contexts : Tbl (Option Context) := []
  /-- R404: commits pending, in order of acceptance. -/
  commits : List Commit := []
  commitReqs : List CommitReq := []
  /-- [32] R353 -/
  nextCommit : Nat := 1
  /-- R354: commits aborted or completed have IDs below this and are not pending. -/
  tenants : Tbl Tenant := []
  queues : Tbl Queue := []
  /-- [256 KiB] R326: the command SRAM; an unlisted byte reads zero. -/
  sram : List Host.Cell := []
  streams : List StreamWrite := []
  dormant : Dormant := {}
  /-- R436: HBM controller islands whose interface retrains, and since when. -/
  hbm : Tbl (Option Nat) := []
  /-- MODEL: number of the next free value (R10 aside, a value the manual leaves open). -/
  fresh : Nat := 0
deriving DecidableEq, Repr

/-- The machine: the die, and the commands that wait, first in, first out. -/
structure State where
  die : Die := {}
  pending : List Instr := []
deriving DecidableEq, Repr

/-- The machine right after reset: the fabric at cold power-on, before any command, with every register at the value
its Reset column gives (R472). -/
def State.reset : State := {}

end Sys2Proof.Machine
end

