-- ==== Sys2Proof/WellFormed.lean ====
section
/-! DEFINITION. Well-formed commands: those that name only elements of the numbering of R16–R21, R66, R77, R198 and R326 and carry byte strings of the length their frame or record has. -/

namespace Sys2Proof

/-- Islands 0–1247 (R16, R18). -/
def isIsland (i : Nat) : Bool := decide (i < 1248)
/-- Regions 0–79 (R17, R18). -/
def isRegion (r : Nat) : Bool := decide (r < 80)
/-- Synthesizer 0 A or 1 B of a region (R80). -/
def isSynth (r x : Nat) : Bool := decide (r < 80 ∧ x < 2)
/-- Ends of on-die edges 0–2331 (R19). -/
def isEdgeEnd (e side : Nat) : Bool := decide (e < 2332 ∧ side < 2)
/-- Links 0–31 (R18). -/
def isLink (l : Nat) : Bool := decide (l < 32)
/-- Rails 0–4 (Table 15.2). -/
def isRail (k : Nat) : Bool := decide (k < 5)
/-- Queues 0–16 (R326). -/
def isQueue (q : Nat) : Bool := decide (q < 17)
/-- Watches 0–255 (R66). -/
def isWatch (w : Nat) : Bool := decide (w < 256)
/-- Contexts 0–15 (R198). -/
def isContext (c : Nat) : Bool := decide (c < 16)
/-- The two references, roots or Chandler cores (R71, R77, R322). -/
def isPair (n : Nat) : Bool := decide (n < 2)
/-- A byte string of n bytes. -/
def hasLength (n : Nat) (b : Bytes) : Bool := decide (b.length = n)
/-- An end of an edge or of a link. -/
def isHoopEnd : HoopEnd → Bool
  | .die e s => isEdgeEnd e s
  | .link l => isLink l

/-- The command names only elements that exist in the numbering, and its byte strings have their length. -/
def Instr.wf : Instr → Bool
  | .refActivityLoss n => isPair n
  | .refFrequencyWindowEnd n _ => isPair n
  | .synthBandSearchDone r x _ => isSynth r x
  | .synthLockWindowEnd r x _ => isSynth r x
  | .synthExcursion r x _ => isSynth r x
  | .synthAcquisitionTimeout r x => isSynth r x
  | .synthRetryAcquire r x => isSynth r x
  | .injectionWindowEnd i _ => isIsland i
  | .injectionAcquisitionTimeout i => isIsland i
  | .bellowsSettleDone i => isIsland i
  | .injectionResume i => isIsland i
  | .phaseStep i _ => isIsland i
  | .ringPeriod i _ => isIsland i
  | .plumbDisagreementResolved i j => isIsland i && decide (j < 6)
  | .marginReleaseTimeout r => isRegion r
  | .droverRestart r => isRegion r
  | .edgeActivation e s => isEdgeEnd e s
  | .hoopFrameForm l => isLink l
  | .hoopFrameReceived l f => isLink l && hasLength 16 f
  | .hoopLinkFrameTimeout l => isLink l
  | .hoopStaleRelease e => isHoopEnd e
  | .linkDown l => isLink l
  | .linkUp l => isLink l
  | .linkRetrainBegin l => isLink l
  | .linkRetrainEnd l => isLink l
  | .hbmRetrainBegin i => decide (1152 ≤ i ∧ i < 1200)
  | .hbmRetrainEnd i => decide (1152 ≤ i ∧ i < 1200)
  | .sidebandReceiverUp l => isLink l
  | .sidebandReceiverDown l => isLink l
  | .sidebandFrameBoundary l => isLink l
  | .sidebandFrameDiscarded l => isLink l
  | .tallySyncSend l => isLink l
  | .tallySyncReceived l f => isLink l && hasLength 48 f
  | .tallyReplyReceived l f => isLink l && hasLength 48 f
  | .tallyWatchFire w => isWatch w
  | .cycleWatchFire w _ => isWatch w
  | .watchArmed w => isWatch w
  | .regionSwitchingInstant r _ => isRegion r
  | .settlementCommitRequest r => isRegion r
  | .restoringCommitRetry r => isRegion r
  | .pauseSwitchLend r => isRegion r
  | .pauseSwitchGateTimeout i => isIsland i
  | .regionActionApply r => isRegion r
  | .patternRecordRead c b => isContext c && hasLength 16 b
  | .patternActionApply i => isIsland i
  | .oppRequestIssue c => isContext c
  | .certAssembly c => isContext c
  | .vrmStatusPoll k _ => isRail k
  | .vrmAlertRise k => isRail k
  | .voltageFallTimeout k _ => isRail k
  | .fallTargetRewrite k => isRail k
  | .thermalSoftStep r => isRegion r
  | .thermalSoftRelease r => isRegion r
  | .thermalSoftRise r => isRegion r
  | .thermalHardRelease r => isRegion r
  | .poolStatusReceived l f => isLink l && hasLength 32 f
  | .poolGrantReceived l f => isLink l && hasLength 32 f
  | .poolReturnReceived l f => isLink l && hasLength 32 f
  | .poolRecallReceived l f => isLink l && hasLength 32 f
  | .poolLinkSilent l => isLink l
  | .poolLenderRestore l => isLink l
  | .chandlerFaultSignal n _ => isPair n
  | .descriptorFetch q => isQueue q
  | .avsbusFrameEnd k _ => isRail k
  | .pmbusTransactionComplete k _ => isRail k
  | .streamAccessFail s _ => decide (s < 18)
  | .stretchSpanWindowEnd i => isIsland i
  | .regionIdleChange r => isRegion r
  | .wakeLine r _ => isRegion r
  | .regionResetEnd r => isRegion r
  | .islandResetEnd i => isIsland i
  | .planLoad q => isQueue q
  | .planStart q => isQueue q
  | .planRelease c => isContext c
  | .planArm q => isQueue q
  | .planUnload q => isQueue q
  | .planCouple q => isQueue q
  | .planRead q => isQueue q
  | .oppCommit q => isQueue q
  | .oppCancel q => isQueue q
  | .oppRead q => isQueue q
  | .capSet q => isQueue q
  | .capCeiling q => isQueue q
  | .capRead q => isQueue q
  | .poolSet q => isQueue q
  | .poolRead q => isQueue q
  | .tenantCreate q => isQueue q
  | .tenantDestroy q => isQueue q
  | .tenantMove q => isQueue q
  | .tenantFence q => isQueue q
  | .tenantRead q => isQueue q
  | .watchSet q => isQueue q
  | .watchClear q => isQueue q
  | .watchRead q => isQueue q
  | .ledgerControl q => isQueue q
  | .ledgerDrain q => isQueue q
  | .ledgerRead q => isQueue q
  | .certRead q => isQueue q
  | .calWrite q _ => isQueue q
  | .calExport q => isQueue q
  | .calRead q => isQueue q
  | .calSet q => isQueue q
  | .calUnretire q => isQueue q
  | .assayRegion q => isQueue q
  | .islandRead q => isQueue q
  | .islandPhase q => isQueue q
  | .islandResetCmd q => isQueue q
  | .regionRead q => isQueue q
  | .regionResetCmd q => isQueue q
  | .regionConfig q => isQueue q
  | .regionTest q => isQueue q
  | .tallyPriority q => isQueue q
  | .tallyAuthority q => isQueue q
  | .tallyRead q => isQueue q
  | .fabricRead q => isQueue q
  | .fabricRef q => isQueue q
  | .fabricResume q => isQueue q
  | .fabricTopology q _ => isQueue q
  | .fabricPower q => isQueue q
  | .queueDoorbellWrite q _ _ => isQueue q
  | .queueCqHeadWrite q _ => isQueue q
  | .queueResetWrite q => isQueue q
  | .queueIntStatusClear q _ _ => isQueue q
  | .rootReacquire n => isPair n
  | .rootLockDeclared n => isPair n
  | .railConfirmationRead k => isRail k
  | .pmbusReadTimeout k => isRail k
  | .aonPowerGood | .aonPowerFail | .aonUndervoltage _ | .packageWarmReset | .startupStepComplete _
  | .firmwareBroadcast _ _ _ | .bootImageTimeout | .topologyCheckTimeout _ | .topologyCheckComplete _
  | .noReferenceTimeout | .rootLockLoss _ | .rootDisagreement _ | .rootSwitchConfirm _ _ | .alertIntervalEnd
  | .unplannedStepBoundary | .criticalPathIntervalEnd | .tallyOffsetAverage | .tallySettled | .tallyBeaconIncrement
  | .tallyMasterLost | .tallyMasterWaitExpiry | .watchMessageDelivery | .commitAccept | .commitVoltageRise _
  | .commitDecision _ | .commitStrobe _ | .commitVoltageFall _ | .energyIntervalEnd _ | .telemetryReadStart
  | .calibrationWindowEnd | .calibrationUpdateApply | .limitEvaluation | .sensorConversion _ | .thermalTripRelease
  | .flowLoss _ _ | .flowRelease _ | .estopAssert | .estopRelease | .resumeRelease | .poolStatusSend
  | .guardEvaluation | .guardCeilingRise | .assayPhaseEnd _ | .assayClose | .flashOperationComplete _
  | .flashOperationTimeout | .storeWriteRetire | .storeWriteRetry | .chandlerHeartbeat | .chandlerHeartbeatTimeout
  | .chandlerTakeoverComplete | .chandlerRestartVerified | .chandlerSynced | .chandlerSyncTimeout
  | .ledgerRecordAccept | .drainPageTimeout | .drainPageWriteComplete _ | .fabricIntStatusClear _ _
  | .estopRegisterSet | .estopRegisterClear | .fabricResetWrite _ | .tallySnapshotRead | .loRegisterRead _
  | .ledgerFreezeWrite _ | .drainHeadWrite _ | .registerWriteGeneric _ _ _ | .fabricWordUpdate _
  | .ledgerRecordUpdate _ | .testInstructionUpdate _ => true

end Sys2Proof
end

