-- ==== Sys2Proof/Machine/Ops.lean ====
section
/-! DEFINITION. The shared operations: sparse tables, bytes and checks, the geography of the die (R16–R22), the elements of the die, the Ledger's event collector (R36, R384, R388) and the failure histories (R402). -/

namespace Sys2Proof.Machine
open Sys2Proof

/-! ## Sparse tables -/

/-- The value at key k; an unlisted key reads as `d`. -/
def tget {α : Type} (d : α) : Tbl α → Nat → α
  | [], _ => d
  | (j, v) :: t, k => if j = k then v else tget d t k

/-- Puts v at key k: keys stay rising, and a value equal to `d` is not listed. -/
def tset {α : Type} [DecidableEq α] (d : α) : Tbl α → Nat → α → Tbl α
  | [], k, v => if v = d then [] else [(k, v)]
  | (j, w) :: t, k, v =>
    if k < j then (if v = d then (j, w) :: t else (k, v) :: (j, w) :: t)
    else if k = j then (if v = d then t else (k, v) :: t)
    else (j, w) :: tset d t k v

/-- The canonical form: keys strictly rising from `lo`, and no value equal to `d`. -/
def tblFrom {α : Type} [DecidableEq α] (d : α) : Nat → Tbl α → Bool
  | _, [] => true
  | lo, (k, v) :: t => decide (lo ≤ k) && decide (v ≠ d) && tblFrom d (k + 1) t

/-- The canonical form of a table. -/
def tblWf {α : Type} [DecidableEq α] (d : α) (t : Tbl α) : Bool := tblFrom d 0 t

/-- Applies f at key k. -/
def tmod {α : Type} [DecidableEq α] (d : α) (t : Tbl α) (k : Nat) (f : α → α) : Tbl α := tset d t k (f (tget d t k))

/-! ## Bytes and checks -/

/-- n little-endian bytes of v (R8). -/
def le : Nat → Nat → Bytes
  | 0, _ => []
  | n + 1, v => BitVec.ofNat 8 v :: le n (v / 256)

/-- n little-endian bytes of a two's-complement number (R8). -/
def leI (n : Nat) (v : Int) : Bytes := le n (v % (2 ^ (8 * n) : Nat)).toNat

/-- The number that little-endian bytes spell. -/
def unle : Bytes → Nat
  | [] => 0
  | b :: t => b.toNat + 256 * unle t

/-- The n-byte field at offset `off`. -/
def fld (b : Bytes) (off n : Nat) : Nat := unle ((b.drop off).take n)

/-- The signed reading of an n-byte number. -/
def sgn (n v : Nat) : Int := if v < 2 ^ (8 * n - 1) then (v : Int) else (v : Int) - (2 ^ (8 * n) : Nat)

/-- The signed n-byte field at offset `off`. -/
def fldI (b : Bytes) (off n : Nat) : Int := sgn n (fld b off n)

/-- Bits [hi:lo] of v. -/
def bits (v hi lo : Nat) : Nat := v / 2 ^ lo % 2 ^ (hi + 1 - lo)

/-- Bit i of v. -/
def bit (v i : Nat) : Bool := v.testBit i

/-- 1 for true. -/
def b1 (b : Bool) : Nat := if b then 1 else 0

/-- A byte string cut or filled with zeros to n bytes. -/
def fit (n : Nat) (b : Bytes) : Bytes := (b ++ List.replicate (n - b.length) 0#8).take n

/-- n zero bytes. -/
def zeros (n : Nat) : Bytes := List.replicate n 0#8

/-- One bit step of the reflected CRC-32C. -/
def crcBit : Nat → Nat → Nat
  | 0, c => c
  | n + 1, c => crcBit n (if c % 2 = 1 then (c / 2) ^^^ 0x82F63B78 else c / 2)

/-- CRC-32C of R315: reflected, initial value and final complement of all ones. -/
def crcFrom (c : Nat) : Bytes → Nat
  | [] => c
  | b :: t => crcFrom (crcBit 8 (c ^^^ b.toNat)) t

/-- CRC-32C of a byte string (R315). -/
def crc32c (b : Bytes) : Nat := crcFrom 0xFFFFFFFF b ^^^ 0xFFFFFFFF

/-- Replaces entry k of a list that is read as `d` past its end. -/
def lset {α : Type} (d : α) : List α → Nat → α → List α
  | [], 0, v => [v]
  | [], k + 1, v => d :: lset d [] k v
  | _ :: t, 0, v => v :: t
  | a :: t, k + 1, v => a :: lset d t k v

/-- Adds n to entry k of a list of counters. -/
def ladd (l : List Nat) (k n : Nat) : List Nat := lset 0 l k (l.getD k 0 + n)

/-- The sum of a list. -/
def total (l : List Nat) : Nat := l.foldl (· + ·) 0

/-- Saturates at n bits. -/
def sat (n v : Nat) : Nat := min v (2 ^ n - 1)

/-- Clamps x into [lo, hi]. -/
def clamp (lo hi x : Int) : Int := max lo (min hi x)

/-! ## Running a command -/

/-- Runs a command on the die where what it names exists; the queue of waiting commands stays as it is (log 3). -/
def run (named : Bool) (f : Die → Die) (s : State) : Host.Outcome State Fault Refusal :=
  if named then .next { s with die := f s.die } else .fault .noSuchElement

/-- One period of the Tally clock (R40): 1 ns plus the rate word, in a 64-bit count with a 40-bit fraction. Tally does not count before
the first root lock (R420) or without a root (Table 16.3). -/
def tallyTick (d : Die) : Die :=
  if d.tally.running then
    let v := ((d.tally.now * 2 ^ 40 + d.tally.frac + 2 ^ 40 : Nat) : Int) + d.tally.rate
    let n := (v % (2 ^ 104 : Nat)).toNat
    { d with tally := { d.tally with now := n / 2 ^ 40, frac := n % 2 ^ 40 } }
  else d

/-! ## Geography (R16–R22) -/

/-- Region of an island (R17, R18). -/
def islandRegion (i : Nat) : Nat := if i < 1152 then (i / 32 / 4) * 8 + (i % 32) / 4 else 72 + (i - 1152) / 12

/-- Islands of a region in the order of R397: ascending ID. -/
def regionIslands (r : Nat) : List Nat :=
  if r < 72 then (List.range 16).map (fun k => (4 * (r / 8) + k / 4) * 32 + 4 * (r % 8) + k % 4)
  else (List.range 12).map (fun k => 1152 + 12 * (r - 72) + k)

/-- Place of an island in its region's list. -/
def islandIndex (i : Nat) : Nat := if i < 1152 then 4 * (i / 32 % 4) + i % 32 % 4 else (i - 1152) % 12

/-- Reference island of a region (R17). -/
def refIsland (r : Nat) : Nat := if r < 72 then 128 * (r / 8) + 4 * (r % 8) else 1152 + 12 * (r - 72)

/-- Quadrant rail of a region (R22, Table 1.2). -/
def regionRail (r : Nat) : Nat :=
  if r < 72 then (if r / 8 < 5 then 0 else 2) + (if r % 8 < 4 then 0 else 1) else (r - 72) / 2

/-- Compute island to which a service island attaches, and the side of the compute island: 0 N, 1 E, 2 S, 3 W (Table 1.1). -/
def attachment (s : Nat) : Nat × Nat :=
  if s < 1176 then ((s - 1146) * 32, 3)
  else if s < 1200 then ((s - 1170) * 32 + 31, 1)
  else if s < 1216 then (s - 1192, 0)
  else if s < 1232 then (35 * 32 + (s - 1208), 2)
  else if s < 1236 then (s - 1232, 0)
  else if s < 1240 then (s - 1208, 0)
  else if s < 1244 then (35 * 32 + (s - 1240), 2)
  else (35 * 32 + (s - 1216), 2)

/-- The side across from a side. -/
def oppositeSide (p : Nat) : Nat := (p + 2) % 4

/-- The two islands of an on-die edge: the lower end (west, north or compute) and the upper end (R19). -/
def edgeIslands (e : Nat) : Nat × Nat :=
  if e < 1116 then (e / 31 * 32 + e % 31, e / 31 * 32 + e % 31 + 1)
  else if e < 2236 then (e - 1116, e - 1116 + 32)
  else ((attachment (e - 2236 + 1152)).1, e - 2236 + 1152)

/-- The side on which the lower and the upper island of an edge has it. -/
def edgeSides (e : Nat) : Nat × Nat :=
  if e < 1116 then (1, 3) else if e < 2236 then (2, 0)
  else ((attachment (e - 2236 + 1152)).2, oppositeSide (attachment (e - 2236 + 1152)).2)

/-- Service island attached to compute island i on side p, if there is one (Table 1.1). -/
def attached (i p : Nat) : Option Nat := ((List.range 96).map (· + 1152)).find? (fun s => attachment s = (i, p))

/-- The on-die edge of island i on side p (0 N, 1 E, 2 S, 3 W) with the end the island is: key 2e + side of `Die.ends`. -/
def sideEnd (i p : Nat) : Option Nat :=
  if 1152 ≤ i then (if oppositeSide (attachment i).2 = p then some (2 * (2236 + (i - 1152)) + 1) else none)
  else
    let x := i % 32
    let y := i / 32
    if p = 0 ∧ 0 < y then some (2 * (1116 + (y - 1) * 32 + x) + 1)
    else if p = 2 ∧ y < 35 then some (2 * (1116 + y * 32 + x))
    else if p = 3 ∧ 0 < x then some (2 * (y * 31 + x - 1) + 1)
    else if p = 1 ∧ x < 31 then some (2 * (y * 31 + x))
    else (attached i p).map (fun s => 2 * (2236 + (s - 1152)))

/-- The link of a chip-link island (R18). -/
def islandLink (i : Nat) : Option Nat := if 1200 ≤ i ∧ i < 1232 then some (i - 1200) else none

/-- The island at an end (key 2e + side). -/
def endIsland (k : Nat) : Nat := if k % 2 = 0 then (edgeIslands (k / 2)).1 else (edgeIslands (k / 2)).2

/-- The other end of the edge. -/
def farEnd (k : Nat) : Nat := if k % 2 = 0 then k + 1 else k - 1

/-- The on-die ends of island i, in the order N, E, S, W. -/
def islandEnds (i : Nat) : List Nat := (List.range 4).filterMap (sideEnd i)

/-- The present compute regions are those the fuses name; service regions are never fused off (R20, R37). -/
def present (d : Die) (r : Nat) : Bool := if r < 72 then bit d.startup.fuses.present r else decide (r < 80)

/-- Present regions, ascending. -/
def presentRegions (d : Die) : List Nat := (List.range 80).filter (present d)

/-- Present islands, ascending. -/
def presentIslands (d : Die) : List Nat := (List.range 1248).filter (fun i => present d (islandRegion i))

/-- The die reference island (R17). -/
def dieRef (d : Die) : Nat := refIsland (((List.range 72).find? (present d)).getD 0)

/-- An edge exists when both its islands' regions are present (R20). -/
def edgeExists (d : Die) (e : Nat) : Bool :=
  decide (e < 2332) && present d (islandRegion (edgeIslands e).1) && present d (islandRegion (edgeIslands e).2)

/-- The regions of a region set, ascending. -/
def setRegions (m : RegionSet) : List Nat := (List.range 80).filter (bit m)

/-- The set of a list of regions. -/
def regionSet (l : List Nat) : RegionSet := l.foldl (fun m r => m ||| 2 ^ r) 0

/-- Thermal sensors of a region (R21). -/
def regionSensors (r : Nat) : List Nat := [4 * r, 4 * r + 1, 4 * r + 2, 4 * r + 3]

/-- Present regions on a rail; the SRAM rail's are the present compute regions (R22, R252). -/
def railRegions (d : Die) (k : Nat) : List Nat :=
  (presentRegions d).filter (fun r => if k = 4 then decide (r < 72) else decide (regionRail r = k))

/-! ## Elements of the die -/

def island (d : Die) (i : Nat) : Island := tget {} d.islands i
def modIsland (i : Nat) (f : Island → Island) (d : Die) : Die := { d with islands := tmod {} d.islands i f }
def modRing (i : Nat) (f : Ring → Ring) (d : Die) : Die := modIsland i (fun x => { x with ring := f x.ring }) d
def modMargin (i : Nat) (f : Margin → Margin) (d : Die) : Die := modIsland i (fun x => { x with margin := f x.margin }) d
def modHolds (i : Nat) (f : Holds → Holds) (d : Die) : Die := modIsland i (fun x => { x with holds := f x.holds }) d
def region (d : Die) (r : Nat) : Region := tget {} d.regions r
def modRegion (r : Nat) (f : Region → Region) (d : Die) : Die := { d with regions := tmod {} d.regions r f }
def synth (d : Die) (r x : Nat) : Synth := tget {} d.synths (2 * r + x)
def modSynth (r x : Nat) (f : Synth → Synth) (d : Die) : Die := { d with synths := tmod {} d.synths (2 * r + x) f }
def edgeEnd (d : Die) (k : Nat) : EdgeEnd := tget {} d.ends k
def modEnd (k : Nat) (f : EdgeEnd → EdgeEnd) (d : Die) : Die := { d with ends := tmod {} d.ends k f }
def lane (d : Die) (k : Nat) : Lane := tget {} d.lanes k
def modLane (k : Nat) (f : Lane → Lane) (d : Die) : Die := { d with lanes := tmod {} d.lanes k f }
def link (d : Die) (l : Nat) : Link := tget {} d.links l
def modLink (l : Nat) (f : Link → Link) (d : Die) : Die := { d with links := tmod {} d.links l f }
def rail (d : Die) (k : Nat) : Rail := tget {} d.rails k
def modRail (k : Nat) (f : Rail → Rail) (d : Die) : Die := { d with rails := tmod {} d.rails k f }
def sensor (d : Die) (n : Nat) : Sensor := tget {} d.sensors n
def modSensor (n : Nat) (f : Sensor → Sensor) (d : Die) : Die := { d with sensors := tmod {} d.sensors n f }
def watch (d : Die) (w : Nat) : Watch := tget {} d.watches w
def modWatch (w : Nat) (f : Watch → Watch) (d : Die) : Die := { d with watches := tmod {} d.watches w f }
def tenant (d : Die) (t : Nat) : Tenant := tget {} d.tenants t
def modTenant (t : Nat) (f : Tenant → Tenant) (d : Die) : Die := { d with tenants := tmod {} d.tenants t f }
def queue (d : Die) (q : Nat) : Queue := tget {} d.queues q
def modQueue (q : Nat) (f : Queue → Queue) (d : Die) : Die := { d with queues := tmod {} d.queues q f }
def context (d : Die) (c : Nat) : Option Context := tget none d.contexts c
def setContext (c : Nat) (v : Option Context) (d : Die) : Die := { d with contexts := tset none d.contexts c v }
def modContext (c : Nat) (f : Context → Context) (d : Die) : Die := setContext c ((context d c).map f) d

/-- Does f to the die for each key in turn. -/
def each {α : Type} (l : List α) (f : α → Die → Die) (d : Die) : Die := l.foldl (fun d a => f a d) d

/-- Does f where the test holds. -/
def iff' (c : Bool) (f : Die → Die) (d : Die) : Die := if c then f d else d

/-- Takes the number of the next free value (log 11). -/
def drawFree (d : Die) : Die := { d with fresh := d.fresh + 1 }

/-! ## The event collector (R36, R380–R390, R500) -/

/-- Id kind of a location (Table 15.2). -/
def Loc_kind : Loc → Nat
  | .none => 0 | .island _ => 1 | .region _ => 2 | .link _ => 3
  | .queue _ => 4 | .rail _ => 5 | .sensor _ => 6 | .other _ => 7

/-- ID of a location (Table 15.1). -/
def Loc_id : Loc → Nat
  | .none => 0xFFFF | .island i => i | .region r => r | .link l => l
  | .queue q => q | .rail k => k | .sensor n => n | .other n => n

/-- Region of a location, where it has one. -/
def Loc_region : Loc → Option Nat
  | .island i => some (islandRegion i) | .region r => some r | .sensor n => some (n / 4) | _ => none

/-- Level of a record (R500). -/
def eventLevel (code : Nat) (l : Loc) : Nat :=
  if code = 0x0607 ∨ code = 0x0608 ∨ code = 0x0609 then 4
  else if code = 0x0802 ∨ code = 0x0803 ∨ code = 0x0805 ∨ code = 0x0807 then 5
  else match Loc_kind l with
    | 1 => 1 | 2 => 2 | 6 => 2 | 5 => 4 | 3 => 5 | _ => 3

/-- The region stands under Assay: power-up Assay takes every region, Assay on command its own (R146, R305). -/
def underAssay (d : Die) (r : Nat) : Bool :=
  match d.store.assay with
  | none => false
  | some a => if a.waiting then false else match a.region with | none => present d r | some q => decide (q = r)

/-- Island whose count a record carries (R36, R38, R500). -/
def recordIsland (d : Die) (code : Nat) (l : Loc) : Nat :=
  if eventLevel code l ≤ 2 then match Loc_region l with | some r => refIsland r | none => dieRef d else dieRef d

/-- The tag of a head record (Table 15.2). -/
def eventTag (d : Die) (code : Nat) (l : Loc) : Nat :=
  let lv := eventLevel code l
  let own := if lv ≤ 2 then match Loc_region l with | some r => (region d r).owner | none => 31 else 31
  let stale := match Loc_region l with | some r => underAssay d r | none => false
  own + 32 * Loc_kind l + 256 * lv + 4096 * b1 stale

/-- Level of a waiting event. -/
def Pending_level (p : Pending) : Nat := bits p.tag 10 8

/-- Place of an event among those of a freeze's nanosecond (R388): events, then span records, then LEDGER_FREEZE. -/
def freezePlace (p : Pending) : Nat :=
  if p.code = 0x0001 then 2 else if p.code = 0x0209 ∧ (fld p.payload 11 1).testBit 3 then 1 else 0

/-- Ordering key below the level: island ID, or region ID, for levels 1 and 2 (R36). -/
def Pending_order (p : Pending) : Nat :=
  if 3 ≤ Pending_level p then 0 else if bits p.tag 7 5 = 6 then p.id / 4 else p.id

/-- a stands before b in the order of R36 and R388; equal events keep the order of acceptance. -/
def pendingBefore (a b : Pending) : Bool :=
  if a.tally ≠ b.tally then decide (a.tally < b.tally)
  else if freezePlace a ≠ freezePlace b then decide (freezePlace a < freezePlace b)
  else if Pending_level a ≠ Pending_level b then decide (Pending_level b < Pending_level a)
  else decide (Pending_order a < Pending_order b)

/-- Inserts an event behind those that stand before it or are its equals. -/
def insertPending (p : Pending) : List Pending → List Pending
  | [] => [p]
  | q :: t => if pendingBefore p q then p :: q :: t else q :: insertPending p t

/-- Records that an event fills: a head and its continuations (R383). -/
def recordsOf (n : Nat) : Nat := max 1 ((n + 11) / 12)

/-- Records that wait in the collector's queue. -/
def queued (l : List Pending) : Nat := total (l.map (fun p => recordsOf p.payload.length))

/-- The event as the collector stamps it at acceptance (R36). -/
def stamp (d : Die) (code : Nat) (l : Loc) (payload : Bytes) : Pending :=
  { tally := d.tally.now, cycle := (island d (recordIsland d code l)).ring.count % 2 ^ 48, code := code, id := Loc_id l,
    tag := eventTag d code l, payload := payload }

/-- An event is accepted: it waits for its record, or is counted as dropped while the Ledger is frozen (R389) or while the
queue is full (R384). Events of the freeze's own nanosecond are still written (R388). -/
def emit (code : Nat) (l : Loc) (payload : Bytes) (d : Die) : Die :=
  let g := d.ledger
  if g.frozen ∧ g.freezeTally ≠ d.tally.now then { d with ledger := { g with dropped := g.dropped + 1 } }
  else if Config.ledgerQueue < queued g.queue + recordsOf payload.length then
    { d with ledger := { g with overflow := g.overflow + 1, overflowTally := if g.overflow = 0 then d.tally.now else g.overflowTally } }
  else { d with ledger := { g with queue := insertPending (stamp d code l payload) g.queue } }

/-- STRETCH_SPAN's payload for a span (R386). -/
def spanPayload (sp : Nat × Nat × Nat × Nat × Nat) (causes : List Nat) (atFreeze : Bool) : Bytes :=
  let best := (List.range 8).foldl (fun b j => if causes.getD b 0 < causes.getD j 0 then j else b) 0
  le 8 sp.1 ++ le 2 (sat 16 sp.2.1) ++ le 1 (sat 8 sp.2.2.1) ++ le 1 (best + 8 * b1 atFreeze) ++ le 4 sp.2.2.2.1 ++ le 4 sp.2.2.2.2

/-- R386: at a freeze every open span is written, with the open flag. -/
def freezeSpans (d : Die) : Die :=
  each (d.islands.map (·.1)) (fun i d => match (island d i).margin.span with
    | none => d
    | some sp => emit 0x0209 (.island i) (spanPayload sp (island d i).margin.spanCauses true) d) d

/-- Records that stand before LEDGER_FREEZE in the queue. -/
def freezeCount (d : Die) : Nat := d.ledger.count + queued d.ledger.queue + 1

/-- The lower cause of two freezes of one nanosecond; `true` where one is already waiting (R388). -/
def mergeFreeze (cause : Nat) (l : List Pending) : List Pending :=
  l.map (fun p => if p.code = 0x0001 then { p with payload := le 1 (min cause (fld p.payload 0 1)) ++ p.payload.drop 1 } else p)

/-- LEDGER_FREEZE (R388): the span records and LEDGER_FREEZE, and the Ledger is frozen from this nanosecond on. A second cause
in the same nanosecond lowers the cause named; a cause that meets a frozen Ledger is counted: one with a record of its own by that record, a host request here (R389). -/
def ledgerFreeze (cause : Nat) (d : Die) : Die :=
  if d.ledger.frozen then
    if d.ledger.freezeTally = d.tally.now then
      { d with ledger := { d.ledger with cause := min cause d.ledger.cause, queue := mergeFreeze cause d.ledger.queue } }
    else if cause = 4 then { d with ledger := { d.ledger with dropped := d.ledger.dropped + 1 } } else d
  else
    let d := freezeSpans { d with ledger := { d.ledger with frozen := true, cause := cause, freezeTally := d.tally.now } }
    let p := stamp d 0x0001 .none (le 1 cause ++ zeros 3 ++ le 8 (freezeCount d))
    { d with ledger := { d.ledger with queue := insertPending p d.ledger.queue } }

/-! ## Failure histories (R402) -/

/-- Adds a failure at `now` to a history, newest first; keeps three. -/
def addFailure (now : Nat) (l : List Nat) : List Nat := (now :: l).take 3

/-- R402: the failure just added is permanent: it is the third, no more than 10 s after the first of the three. -/
def permanent (l : List Nat) : Bool :=
  match l with | [a, _, c] => decide (a ≤ c + Config.failWindow) | _ => false

/-- Failures of a history within the last 10 s. -/
def recentFailures (now : Nat) (l : List Nat) : Nat := (l.filter (fun t => now ≤ t + Config.failWindow)).length

/-- Table 12.7: an entry goes into the working retirement list, once. -/
def listRetired (kind sub id : Nat) (d : Die) : Die :=
  if d.store.work.retire.any (fun e => e.kind = kind ∧ e.sub = sub ∧ e.id = id) then d
  else { d with store := { d.store with
    work := { d.store.work with retire := d.store.work.retire ++ [{ kind := kind, sub := sub, id := id, tally := d.tally.now }] },
    retireDue := some (min d.tally.now (d.store.retireDue.getD d.tally.now)) } }

/-- RETIRE (R403): the record and the entry of the working list. -/
def emitRetire (kind sub count : Nat) (l : Loc) (id : Nat) (d : Die) : Die :=
  listRetired kind sub id (emit 0x0B01 l (le 1 kind ++ le 1 sub ++ le 1 count) d)

end Sys2Proof.Machine
end

