-- ==== Sys2Proof/Machine/Flags.lean ====
section
/-! DEFINITION. Status and interrupt flags (Tables 19.6 and 19.7, R339, R415, R480) and the small tests of the die's condition that many commands share. -/

namespace Sys2Proof.Machine
open Sys2Proof

/-- Sets bit b of JCF_FINT_STATUS (R480, Table 19.6). -/
def fabricInt (b : Nat) (d : Die) : Die := { d with regs := { d.regs with fintStatus := d.regs.fintStatus ||| 2 ^ b } }

/-- Sets bit b of JCF_INT_STATUS of queue q: 0 CQ, 1 QERR, 2 CHANDLER (R339). -/
def queueInt (q b : Nat) (d : Die) : Die := modQueue q (fun x => { x with intStatus := x.intStatus ||| 2 ^ b }) d

/-- Clears the status bits written as 1, except those whose event fell in the same clock period (R480). -/
def clearBits (status written sameClock : Nat) : Nat :=
  (List.range 32).foldl (fun a b => if bit status b && (!bit written b || bit sameClock b) then a + 2 ^ b else a) 0

/-- The line of queue q (R339). -/
def queueLine (d : Die) (q : Nat) : Bool := (queue d q).intStatus &&& (queue d q).intEnable != 0

/-- The fabric line (R480). -/
def fabricLine (d : Die) : Bool := d.regs.fintStatus &&& d.regs.fintEnable != 0

/-- JCF_INT_SUMMARY (R480). -/
def intSummary (d : Die) : Nat :=
  total ((List.range 17).map (fun q => if queueLine d q then 2 ^ q else 0)) + (if fabricLine d then 2 ^ 17 else 0)

/-- STOP, COOLANT, TRIP, ESTOP_N, REGISTER, tray hold and thermal hold, as JCF_STOP_CAUSE gives them (Table 19.3). -/
def stopCauses (d : Die) : Nat :=
  b1 d.stop.coolant + 2 * b1 d.stop.trip + 4 * b1 d.stop.estop + 8 * b1 d.stop.register
    + 16 * b1 d.stop.trayHold + 32 * b1 d.stop.thermalHold

/-- The islands of the die may run: no stop and neither hold stands (R263, R261, R264). -/
def dieRuns (d : Die) : Bool := !(d.stop.stopped || d.stop.trayHold || d.stop.thermalHold)

/-- A Chandler executes (R35, Table 13.1): not while the pair boots, is taken over or is lost, nor without a root (Table 16.3). -/
def chandlerRuns (d : Die) : Bool :=
  d.tally.running && match d.chandler.pair with
    | .synced => true | .syncing => true | .restarting => true | .single => true
    | .boot => false | .none_ => false | .takeover => false

/-- The region is in Bank, or the die in Dormant (R439, R440). -/
def inBank (d : Die) (r : Nat) : Bool := decide ((region d r).power = 3) || d.dormant.in_

/-- The region's islands are in reset (R431). -/
def inReset (d : Die) (r : Nat) : Bool := (region d r).reset.isSome

/-- The commit that is pending on a region (R182, R501): accepted, and COMMIT_DONE or COMMIT_ABORT not yet written. -/
def pendingCommit (d : Die) (r : Nat) : Option Commit := d.commits.find? (fun c => !c.done && bit c.members r)

/-- The region belongs to a loaded plan (R437). -/
def inPlan (d : Die) (r : Nat) : Bool := (region d r).plan.isSome

/-- The Bellows of an island stands on the retirement list (R413). -/
def bellowsRetired (d : Die) (i : Nat) : Bool := d.store.work.retire.any (fun e => decide (e.kind = 2 ∧ e.id = i))

/-- An island is excused (R173). -/
def islandExcused (d : Die) (i : Nat) : Bool :=
  let r := islandRegion i
  (island d i).ring.resetSince.isSome || (decide (i < 1152) && inReset d r) || underAssay d r || inBank d r || (region d r).retired

/-- The region clock is present: a synthesizer is selected and locked (R25, R96). -/
def clockPresent (d : Die) (r : Nat) : Bool :=
  match (region d r).select with | some x => (synth d r x).lock | none => false

/-- A reference, by number (R71). -/
def ref (d : Die) (n : Nat) : Ref := if n = 0 then d.clocks.refA else d.clocks.refB

def modRef (n : Nat) (f : Ref → Ref) (d : Die) : Die :=
  if n = 0 then { d with clocks := { d.clocks with refA := f d.clocks.refA } }
  else { d with clocks := { d.clocks with refB := f d.clocks.refB } }

/-- A root synthesizer, by number (R77). -/
def root (d : Die) (n : Nat) : Root := if n = 0 then d.clocks.root0 else d.clocks.root1

def modRoot (n : Nat) (f : Root → Root) (d : Die) : Die :=
  if n = 0 then { d with clocks := { d.clocks with root0 := f d.clocks.root0 } }
  else { d with clocks := { d.clocks with root1 := f d.clocks.root1 } }

/-- Freezes the Ledger with a cause and sets FROZEN (R388, Table 19.6); the steps in progress carry the mark (Table 15.5). -/
def freeze (cause : Nat) (d : Die) : Die :=
  if d.ledger.frozen then ledgerFreeze cause d
  else each (List.range 16) (fun c d => modContext c (fun x => { x with gather := { x.gather with frozen := true } }) d) (ledgerFreeze cause (fabricInt 3 d))

/-- The lower of two ceilings, where none is no ceiling (R244). -/
def minOpt : Option Nat → Option Nat → Option Nat
  | none, b => b
  | a, none => a
  | some a, some b => some (min a b)

/-- A sensor is valid: neither retired nor flagged, and it has converted since the reset (R257, R261). -/
def sensorValid (d : Die) (n : Nat) : Bool :=
  let s := sensor d n
  !(s.retired || s.flagged || s.assayFlag) && s.converted

/-- The hottest of the valid sensors of a list. -/
def hottestOf (d : Die) (l : List Nat) : Option Int :=
  l.foldl (fun m n => if sensorValid d n then some (match m with | some t => max t (sensor d n).reading | none => (sensor d n).reading) else m) none

/-- The hottest temperature of a region for thermal rules (R257): its own sensors, else the hottest of the other regions on its
quadrant rail plus 10.0 °C; none where the rail has no valid sensor. -/
def regionHottest (d : Die) (r : Nat) : Option Int :=
  match hottestOf d (regionSensors r) with
  | some t => some t
  | none => (hottestOf d (((railRegions d (regionRail r)).filter (· ≠ r)).flatMap regionSensors)).map (· + 160)

end Sys2Proof.Machine
end

