-- ==== Sys2Proof/Machine/Rails.lean ====
section
/-! DEFINITION. Rail targets (R179, R180, R439), the AVSBus engine's queue (R450, R451) and the writes of a target or of the retention voltage (R185, R264). -/

namespace Sys2Proof.Machine
open Sys2Proof

/-- Offset code of operating point k for bin b: +12 for a code outside −12 to +12, an uncorrectable field or bin (R179, R457). -/
def offsetCode (d : Die) (k b : Nat) : Int :=
  let c := d.startup.fuses.offsets.getD (4 * k + b) 0
  if d.startup.fuses.offsetsBad ∨ 4 ≤ b ∨ c < -12 ∨ 12 < c then 12 else c

/-- Voltage requirement of region r at operating point k, mV (R180). -/
def requirement (d : Die) (r k : Nat) : Nat :=
  ((Config.typicalMv.getD k 0 : Int) + 5 * offsetCode d k (d.startup.fuses.bins.getD r 0)).toNat

/-- Requirement of a region now: its operating point in force, or the higher of old and new while a commit's rise is in force
(R180, R185). -/
def requirementNow (d : Die) (r : Nat) : Nat :=
  let now := requirement d r (region d r).opp
  match d.commits.find? (fun c => !c.done && c.riseWritten && bit c.members r) with
  | some c => max now (requirement d r (tget 0 c.grants r))
  | none => now

/-- Target of quadrant rail k by R180 and R439; none means the retention voltage. -/
def quadTarget (d : Die) (k : Nat) : Option Nat :=
  (railRegions d k).foldl (fun m r => if inBank d r then m else some (max (m.getD 0) (requirementNow d r))) none

/-- Target of rail k by R180 and R439; none means the retention voltage. -/
def ruleTarget (d : Die) (k : Nat) : Option Nat :=
  if k < 4 then quadTarget d k
  else (List.range 4).foldl (fun m j => match quadTarget d j with | none => m | some v => some (max (m.getD 700) v)) none

/-- Order of R451. -/
def avsPlace : AvsOp → Nat
  | .retention => 0 | .target _ => 1 | .confirm => 2 | .status => 3

/-- Adds a transaction to those that wait, in the order of R451: a retention write replaces a waiting target write, a target write an
earlier one, and a read or poll that already waits is not repeated. -/
def avsInsert (op : AvsOp) (l : List AvsOp) : List AvsOp :=
  let keep := l.filter (fun o => !(decide (avsPlace o = avsPlace op) || (decide (avsPlace op = 0) && decide (avsPlace o = 1))))
  keep.filter (fun o => avsPlace o < avsPlace op) ++ [op] ++ keep.filter (fun o => avsPlace op < avsPlace o)

/-- The engine starts the first waiting transaction when its bus is free (R451). -/
def avsStart (k : Nat) (d : Die) : Die :=
  modRail k (fun x => match x.busy, x.waiting with
    | none, op :: t => if x.off then { x with waiting := [] } else { x with busy := some op, waiting := t, failed := 0 }
    | _, _ => x) d

/-- A transaction falls due on rail k; none is made to a rail that is switched off (R451). -/
def avsPush (k : Nat) (op : AvsOp) (d : Die) : Die :=
  if (rail d k).off then d else avsStart k (modRail k (fun x => { x with waiting := avsInsert op x.waiting }) d)

/-- A target takes force on rail k and its write falls due (R180, R185); the allowance is 4 µs + ΔV / (25 mV/µs). -/
def writeTarget (k mv : Nat) (ret : Bool) (d : Die) : Die :=
  let old := (rail d k).target
  let d := modRail k (fun x => { x with target := mv, retention := ret, confirmed := false, writtenAt := none, falling := decide (mv < old), allowance := 4000 + 40 * (max mv old - min mv old), changedAt := some d.tally.now }) d
  avsPush k (.target mv) d

/-- Sends rail k the target of R180 and R439, where that differs from the target in force. -/
def retarget (k : Nat) (d : Die) : Die :=
  let t := ruleTarget d k
  let mv := t.getD Config.retentionMv
  if mv = (rail d k).target ∧ t.isNone = (rail d k).retention then d else writeTarget k mv t.isNone d

/-- Retention writes on a rail for a stop, a fault stop or a reset (R264, R415, R430). -/
def writeRetention (k : Nat) (d : Die) : Die :=
  let old := (rail d k).target
  let d := modRail k (fun x => { x with target := Config.retentionMv, retention := true, confirmed := false, writtenAt := none, falling := false, allowance := 4000 + 40 * (max 500 old - min 500 old), changedAt := some d.tally.now }) d
  avsPush k .retention d

/-- A rail is turned on at the retention voltage by a target write of 500 mV and OPERATION 0x80 (R452, R454): it has 2 ms to confirm, and alerts until it does (R256). -/
def railOn (k : Nat) (d : Die) : Die :=
  let d := modRail k (fun x => { x with
    off := false
    target := Config.retentionMv
    retention := true
    confirmed := false
    writtenAt := none
    falling := true
    allowance := 2000000
    pmbus := some false
    pmbusAt := d.tally.now
    changedAt := some d.tally.now }) d
  avsPush k .retention d

/-- A rail is turned off by OPERATION 0x00, and no transaction is made to it (R440, R451, R452). -/
def railOff (k : Nat) (d : Die) : Die :=
  modRail k (fun x => { x with
    off := true
    retention := true
    target := Config.retentionMv
    confirmed := false
    writtenAt := none
    waiting := []
    pmbus := some false
    pmbusAt := d.tally.now
    changedAt := some d.tally.now
    sawOff := true }) d

/-- Every quadrant and SRAM rail goes to the retention voltage. -/
def allRetention (d : Die) : Die := each (List.range 5) writeRetention d

end Sys2Proof.Machine
end

