-- ==== Sys2Proof/Machine/Ceilings.lean ====
section
/-! DEFINITION. Ceilings, demand and throttle time (R244–R247), attribution of throttles (R288), and the requests for restoring commits and re-grants that a rise makes (R216, R247). -/

namespace Sys2Proof.Machine
open Sys2Proof

/-- The ceiling of reason j; that of TENANT_FENCE is the lowest of the pin and the guard ceilings (R244, R285). -/
def ceilingAt (x : Region) (j : Nat) : Option Nat :=
  if j = 9 then x.guards.foldl (fun m g => minOpt m (some g.2)) x.pin else x.ceilings.getD j none

/-- The region's ceiling: the lowest that stands, 16 where none does (R244, R245). -/
def regionCeiling (x : Region) : Nat := (List.range 12).foldl (fun m j => min m ((ceilingAt x j).getD 16)) 16

/-- The reason whose ceiling is lowest; ties go to the lowest code (R246). -/
def lowestReason (x : Region) : Option Nat := (List.range 12).find? (fun j => ceilingAt x j == some (regionCeiling x))

/-- A region's demand (R246): its Pattern target, else its last opp.commit's, else the start-up operating point. -/
def demand (x : Region) : Nat := x.patternTarget.getD (x.hostTarget.getD 0)

/-- Reasons of the stop causes, in ascending code: THERMAL_HARD for a trip, HOST_CEILING for the register, COOLANT for the tray and
ESTOP_N. -/
def reasonsOf (causes : Nat) : List Nat :=
  (if bit causes 1 then [5] else []) ++ (if bit causes 3 then [8] else []) ++ (if bit causes 0 || bit causes 2 then [11] else [])

/-- The reason of a stop (R246): the lowest of the causes that stand, or of those that stood where all are released. -/
def stopReason (d : Die) : Option Nat :=
  if d.stop.stopped then ((reasonsOf (stopCauses d &&& d.stop.stood)) ++ reasonsOf d.stop.stood).head? else none

/-- The reason to which a region's throttle time accrues (R246). -/
def throttleReason (d : Die) (r : Nat) : Option Nat :=
  let x := region d r
  match stopReason d with
  | some j => some j
  | none => if regionCeiling x < demand x then lowestReason x else none

/-- Throttle counts of a region as they stand at this Tally (R246). -/
def throttleCounts (d : Die) (r : Nat) : List Nat :=
  let t := (region d r).throttle
  match t.reason with | some j => ladd t.counts j (d.tally.now - t.reasonSince) | none => t.counts

/-! ### Attribution (R288) -/

/-- The key with the largest value among owners 0–16; ties go to the lowest owner. -/
def largestOwner (f : Nat → Nat) : Nat := (List.range 17).foldl (fun b o => if f b < f o then o else b) 0

/-- Compute regions that share a region edge with r (R120, R288). -/
def regionNeighbours (d : Die) (r : Nat) : List Nat :=
  if r < 72 then
    ((if r / 8 = 0 then [] else [r - 8]) ++ (if r % 8 = 0 then [] else [r - 1]) ++ (if r % 8 = 7 then [] else [r + 1])
      ++ (if r / 8 = 8 then [] else [r + 8])).filter (present d)
  else [if r % 2 = 0 then r + 1 else r - 1]

/-- Calibrated energy of an owner over the last 10 ms in a region and those that share an edge with it (Table 11.3). -/
def nearbyEnergy (d : Die) (r o : Nat) : Nat :=
  total (((r :: regionNeighbours d r).filter (fun q => (region d q).owner = o)).map (fun q => total (region d q).energy.history))

/-- Variation of an owner on a quadrant rail (R284). -/
def variation (d : Die) (k o : Nat) : Nat := total (tget [] d.limits.variation (32 * k + o))

/-- An owner's share of a sum over owners, Q0.8. -/
def shareQ8 (f : Nat → Nat) (o : Nat) : Nat :=
  let s := total ((List.range 17).map f)
  if s = 0 then 0 else sat 8 (f o * 256 / s)

/-- TENANT_ATTRIB for an event on region r, unless the owner named is the region's own (R288). -/
def attribTo (code r named share : Nat) (isl : Nat) (d : Die) : Die :=
  if named = (region d r).owner then d
  else emit 0x070B (.region r) (le 2 code ++ le 1 named ++ le 1 share ++ le 2 isl) d

/-- The present region of rail k whose requirement sets the rail target; the lowest ID where several do. -/
def settingRegion (d : Die) (k : Nat) : Option Nat :=
  ((railRegions d k).filter (fun q => !inBank d q)).foldl (fun m q => match m with
    | none => some q | some p => if requirementNow d p < requirementNow d q then some q else some p) none

/-- Attribution of THROTTLE_ONSET under the reasons of Table 11.3. -/
def attribThrottle (r reason : Nat) (d : Die) : Die :=
  let own := (region d r).owner
  let k := regionRail r
  if reason = 4 ∨ reason = 5 then attribTo 0x0605 r (largestOwner (nearbyEnergy d r)) (shareQ8 (nearbyEnergy d r) own) 0xFFFF d
  else if reason = 6 then attribTo 0x0605 r (largestOwner (variation d k)) (shareQ8 (variation d k) own) 0xFFFF d
  else if reason = 3 ∧ requirementNow d r < (rail d k).target then
    match settingRegion d k with
    | some q => attribTo 0x0605 r (region d q).owner (sat 8 (requirementNow d r * 256 / (rail d k).target)) 0xFFFF d
    | none => d
  else d

/-! ### Throttle time (R246) -/

/-- Brings a region's throttle account to the reason that now accrues, and writes THROTTLE_ONSET or THROTTLE_END (R246). -/
def throttleUpdate (r : Nat) (d : Die) : Die :=
  let x := region d r
  let t := x.throttle
  let new := throttleReason d r
  if new = t.reason then d
  else
    let since := if t.reason.isNone then d.tally.now else t.since
    let d1 := modRegion r (fun x => { x with throttle := { x.throttle with counts := throttleCounts d r, reason := new, since := since, reasonSince := d.tally.now } }) d
    match new with
    | some j => attribThrottle r j (emit 0x0605 (.region r) (le 1 j ++ le 1 (min 15 (regionCeiling x)) ++ le 1 (demand x) ++ le 1 (t.reason.getD 0xFF)) d1)
    | none => emit 0x0606 (.region r) (le 1 (t.reason.getD 0) ++ zeros 3 ++ le 8 (d.tally.now - since)) d1

/-- `throttleUpdate` on every present region. -/
def throttleAll (d : Die) : Die := each (presentRegions d) throttleUpdate d

/-! ### Requests for commits -/

/-- The obstacles that keep a region out of a commit (R182, R215): reset, Assay, Bank, retirement, a test setting, or a pending
commit. -/
def commitBlocked (d : Die) (r : Nat) : Bool :=
  (pendingCommit d r).isSome || inReset d r || underAssay d r || inBank d r || (region d r).retired || (region d r).test.isSome

/-- Takes a region out of the requests of one source that no Chandler has accepted. -/
def dropRequest (src : CommitSource) (r : Nat) (d : Die) : Die :=
  { d with commitReqs := (d.commitReqs.map (fun q => if q.source = src ∧ bit q.members r then { q with members := q.members - 2 ^ r } else q)).filter (fun q => q.members ≠ 0 ∨ q.deferred ≠ 0) }

/-- Adds a region to a waiting request of the same source and target formed no more than 10 µs earlier, else forms a new one
(R216, R247). -/
def joinRequest (src : CommitSource) (target ctx r : Nat) (d : Die) : Die :=
  let d := dropRequest src r d
  let fits := fun (q : CommitReq) => decide (q.source = src ∧ q.target = target ∧ d.tally.now ≤ q.since + 10000 ∧ q.context = ctx) && (q.regrant || decide (src = .restoring)) && decide (q.aborts = 0)
  if d.commitReqs.any fits then
    { d with commitReqs := d.commitReqs.map (fun q => if fits q then { q with members := q.members ||| 2 ^ r } else q) }
  else { d with commitReqs := d.commitReqs ++ [{ source := src, target := target, members := 2 ^ r, since := d.tally.now, context := ctx, regrant := decide (src = .pattern) }] }

/-- PATTERN_REGRANT (R216): a region with a Pattern target, no obstacle, and the lower of target and ceiling off its operating point. -/
def regrant (r : Nat) (d : Die) : Die :=
  let x := region d r
  match x.patternTarget with
  | some t => if !commitBlocked d r && decide (min t (regionCeiling x) ≠ x.opp) then joinRequest .pattern t x.patternContext r d else d
  | none => d

/-- R247: the limit unit requests a restoring commit of a region without a Pattern target, where the lower of demand and ceiling
lies above the operating point in force. -/
def restore (r : Nat) (d : Die) : Die :=
  let x := region d r
  let t := min (demand x) (regionCeiling x)
  if x.patternTarget.isNone && !commitBlocked d r && decide (x.opp < t) then
    joinRequest .restoring t 0 r (modRegion r (fun x => { x with restoreDue := none }) d) else d

/-- What follows a change of the region's ceiling from `before` (R193, R194, R216, R246, R247). -/
def ceilingChanged (before r : Nat) (d : Die) : Die :=
  let after := regionCeiling (region d r)
  if after = before then throttleUpdate r d
  else
    let d := modRegion r (fun x => { x with actionDue := true, settleDue := x.settleDue.map (fun t => min t d.tally.now) }) d
    let d := throttleUpdate r d
    if before < after ∧ !d.stop.stopped then restore r (regrant r d) else d

/-- Changes a region's ceilings and does what follows. -/
def changeCeilings (r : Nat) (f : Region → Region) (d : Die) : Die :=
  ceilingChanged (regionCeiling (region d r)) r (modRegion r f d)

/-- Sets the ceiling of reason j (R244). -/
def setCeiling (j r : Nat) (v : Option Nat) (d : Die) : Die :=
  if ceilingAt (region d r) j = v then d else changeCeilings r (fun x => { x with ceilings := lset none x.ceilings j v }) d

/-- One point below the lower of the operating point in force and the region's ceiling, never below OPP 0 (R251). -/
def stepBelow (x : Region) : Nat := min x.opp (regionCeiling x) - 1

/-- A ceiling raised by one point; past OPP 15 it is removed (R254). -/
def risen (c : Option Nat) : Option Nat := match c with | some k => if 15 ≤ k then none else some (k + 1) | none => none

/-- Divisor of a setting (Table 3.1). -/
def divisor (s : Setting) : Nat := Config.divisors.getD s.div 6

/-- R83: the highest operating point whose frequency does not exceed that of the setting. -/
def floorOpp (s : Setting) : Nat :=
  ((List.range 16).filter (fun k => Config.freq k * divisor s * 2 ^ 23 ≤ s.n * 2 ^ 24 + s.frac)).getLastD 0

/-- The operating point a fast step is taken against: that in force, or the one whose floor a test setting runs on (R192, R376). -/
def liveOpp (x : Region) : Nat := match x.test with | some s => floorOpp s | none => x.opp

/-- The ratio of a fast step, Q0.16: trunc(f(ceiling) / f(live) × 65,536); none where the ceiling is not below the operating point
(R192). -/
def fastRatio (x : Region) : Option Nat :=
  if regionCeiling x < liveOpp x then some (Config.freq (regionCeiling x) * 65536 / Config.freq (liveOpp x)) else none

/-- FAST_STEP_ONSET (R192, R193): the ratio is recomputed; FAST_STEP is written at the onset, at each change and at the end; at the
onset a settlement becomes due (R194). -/
def fastStep (r : Nat) (d : Die) : Die :=
  let x := region d r
  let new := fastRatio x
  let d := if new = x.fast then d
    else emit 0x0404 (.region r) (le 4 (new.getD 65536) ++ le 1 (min 15 (regionCeiling x)) ++ le 1 (liveOpp x) ++ le 1 ((lowestReason x).getD 0xFF)) (modRegion r (fun x => { x with fast := new }) d)
  if x.fast.isNone ∧ new.isSome ∧ x.settleDue.isNone ∧ (pendingCommit d r).isNone then
    modRegion r (fun x => { x with settleDue := some d.tally.now }) d else d

end Sys2Proof.Machine
end

