-- ==== Sys2Proof/Machine/Synths.lean ====
section
/-! DEFINITION. Region synthesizers: settings, band sources, the write of a setting and selection (R80–R95), and the Drover lane's lender (R120–R123). -/

namespace Sys2Proof.Machine
open Sys2Proof

/-- Setting of operating point k (R82, Table 3.2). -/
def ladderSetting (k : Nat) : Setting := { n := Config.ladderN.getD k 36, frac := 0, div := Config.ladderD.getD k 3 }

/-- The operating point whose setting this is, if it is on the ladder (R82, R83). -/
def ladderOpp (s : Setting) : Option Nat :=
  (List.range 16).find? (fun k => decide ((ladderSetting k).n = s.n ∧ s.frac = 0 ∧ (ladderSetting k).div = s.div))

/-- R81: N + F/2²⁴ in 32–50 and f_out = 100 MHz × (N + F/2²⁴)/D in 0.60–2.30 GHz. -/
def settingOk (s : Setting) : Bool :=
  let v := s.n * 2 ^ 24 + s.frac
  decide (s.frac < 2 ^ 24 ∧ s.div < 4 ∧ s.band < 64 ∧ 32 * 2 ^ 24 ≤ v ∧ v ≤ 50 * 2 ^ 24 ∧ 6 * divisor s * 2 ^ 24 ≤ v ∧ v ≤ 23 * divisor s * 2 ^ 24)

/-- The setting word (Table 3.1). -/
def settingBytes (s : Setting) : Bytes := le 1 s.n ++ le 3 s.frac ++ le 1 s.div ++ le 1 (s.band + 128 * b1 s.given) ++ zeros 2

/-- Reads a setting word; none where a reserved field is not zero or R81 refuses it (R9). -/
def readSetting (b : Bytes) : Option Setting :=
  let s : Setting := { n := fld b 0 1, frac := fld b 1 3, div := fld b 4 1, band := fld b 5 1 % 64, given := bit (fld b 5 1) 7 }
  if fld b 0 1 < 64 ∧ fld b 4 1 < 4 ∧ !bit (fld b 5 1) 6 ∧ fld b 6 2 = 0 ∧ settingOk s then some s else none

/-- Period of the region clock a setting gives, in the unit of `Config.ring20` (R80). -/
def settingPeriod (s : Setting) : Nat := Config.ring20 * divisor s * 2 ^ 23 / (s.n * 2 ^ 24 + s.frac)

/-- Setting on which the region runs: its test setting, else that of the operating point in force (R83, R87). -/
def liveSetting (d : Die) (r : Nat) : Setting := (region d r).test.getD (ladderSetting (region d r).opp)

/-- Period of the region clock (R23, R100). -/
def regionPeriod (d : Die) (r : Nat) : Nat :=
  match (region d r).test with | some s => settingPeriod s | none => Config.period (region d r).opp

/-- The band table's entry for a ladder setting (R90). -/
def tableBand (x : Region) (s : Setting) (sy : Nat) : Option Nat :=
  match ladderOpp s with
  | some k => let e := x.bands.getD (16 * sy + k) 0; if bit e 7 then some (e % 64) else none
  | none => none

/-- The hop cache entry that matches a setting (R92). -/
def hopMatch (d : Die) (r sy : Nat) (s : Setting) : Option Hop :=
  match regionHottest d r with
  | some t => (synth d r sy).cache.find? (fun h => decide (h.n = s.n ∧ h.frac = s.frac ∧ h.temp - 400 ≤ t ∧ t ≤ h.temp + 400))
  | none => none

/-- Band and its source for a setting, none where the synthesizer searches (R89, R95). Sources: 0 given, 1 table, 2 hop cache. -/
def bandFor (d : Die) (r sy : Nat) (s : Setting) (must : Bool) : Option (Nat × Nat) :=
  if s.given then some (s.band, 0)
  else if must then none
  else if (region d r).bandTable then (tableBand (region d r) s sy).map (·, 1)
  else (hopMatch d r sy s).map (fun h => (h.band, 2))

/-- An entry that is used becomes the most recently used (R92). -/
def touchHop (s : Setting) (l : List Hop) : List Hop :=
  l.filter (fun h => decide (h.n = s.n ∧ h.frac = s.frac)) ++ l.filter (fun h => !decide (h.n = s.n ∧ h.frac = s.frac))

/-- A setting is written to a synthesizer: its acquisition restarts and its lock flag clears (R86, R93). A retired one is not
written. -/
def writeSynth (r sy : Nat) (s : Setting) (use : SynthUse) (must : Bool) (d : Die) : Die :=
  let x := synth d r sy
  if x.retired then d
  else
    let b := bandFor d r sy s (must || x.mustSearch)
    modSynth r sy (fun x => { x with
      phase := if b.isSome then .settling else .searching
      lock := false
      setting := s
      band := match b with | some (v, _) => v | none => x.band
      source := match b with | some (_, o) => o | none => 3
      writtenAt := d.tally.now
      matching := 0
      missing := 0
      use := use
      retryAt := none
      cache := match b with | some (_, 2) => touchHop s x.cache | _ => x.cache }) d

/-- A synthesizer is powered down (R437, R402). -/
def powerSynth (r sy : Nat) (d : Die) : Die :=
  modSynth r sy (fun x => { x with phase := .off, lock := false, matching := 0, missing := 0, retryAt := none }) d

/-- The idle synthesizer of a region (R25). -/
def idleOf (x : Region) : Nat := 1 - x.live

/-- The idle synthesizer is a locked standby at the live setting (R87). -/
def standbyReady (d : Die) (r : Nat) : Bool :=
  let s := synth d r (idleOf (region d r))
  s.lock && !s.retired && (match s.use with | .standby => true | .startup => true | .recover => true | _ => false)

/-- The idle synthesizer is retuned to the live setting as the standby (R87), unless it is retired, waits for its retry (R406), or the
region is in Bank. -/
def retuneStandby (r : Nat) (d : Die) : Die :=
  if inBank d r ∨ (synth d r (idleOf (region d r))).phase = .failed then d else writeSynth r (idleOf (region d r)) (liveSetting d r) .standby false d

/-! ### Drover lanes (R120–R123) -/

/-- Regions that may lend to r (R120). -/
def lenders (d : Die) (r : Nat) : List Nat :=
  (regionNeighbours d r).filter (fun q =>
    let x := region d q
    clockPresent d q && !inReset d q && !inBank d q && !x.retired && decide (x.drover = .own)
      && !(presentRegions d).any (fun p => decide ((region d p).drover = .borrowing q)))

/-- The eligible lender at the highest operating point; ties go to the lowest region (R120). -/
def lenderOf (d : Die) (r : Nat) : Option Nat :=
  (lenders d r).foldl (fun m q => match m with
    | none => some q | some p => if (region d p).opp < (region d q).opp then some q else some p) none

/-- Moves a region's lane to a lender and writes DROVER_LEND with its cause. -/
def lendTo (r q cause : Nat) (d : Die) : Die :=
  emit 0x010B (.region r) (le 2 q ++ le 1 cause) (modRegion r (fun x => { x with drover := .borrowing q, droverSince := d.tally.now }) d)

/-- DROVER_RETURN (R122): a lane goes back to its own region; the lender released, or 0xFFFF where it was stopped. -/
def droverReturn (r : Nat) (d : Die) : Die :=
  let x := region d r
  let back := fun (l : Nat) => emit 0x010C (.region r) (le 2 l ++ zeros 2 ++ le 4 ((d.tally.now - x.droverSince) / 1000)) (modRegion r (fun x => { x with drover := .own }) d)
  if clockPresent d r then
    match x.drover with | .borrowing l => back l | .stalled => back 0xFFFF | .stopped => back 0xFFFF | .own => d
  else d

/-- A lane stops with its source (R123); DROVER_RESTART follows. -/
def droverStop (r : Nat) (d : Die) : Die := modRegion r (fun x => { x with drover := .stopped, droverSince := d.tally.now }) d

/-- The region that borrows from r, if one does. -/
def borrowerOf (d : Die) (r : Nat) : Option Nat := (presentRegions d).find? (fun p => decide ((region d p).drover = .borrowing r))

/-- R122: before the fabric stops a lender's synthesizers, a lane it lends moves to its own region, else to another lender; else
R123 applies. -/
def moveBorrower (r : Nat) (d : Die) : Die :=
  match borrowerOf d r with
  | none => d
  | some b =>
    if clockPresent d b then droverReturn b d
    else match (lenders d b).filter (· ≠ r) with
      | [] => droverStop b d
      | l => match l.foldl (fun m q => match m with
            | none => some q | some p => if (region d p).opp < (region d q).opp then some q else some p) none with
          | some q => lendTo b q 4 d
          | none => droverStop b d

/-- DROVER_LEND (R120): a region's lane moves to an eligible lender; none where there is none. A lane already on a lender stays. -/
def droverLend (r cause : Nat) (d : Die) : Option Die :=
  match (region d r).drover with
  | .borrowing _ => some (moveBorrower r d)
  | _ => match lenderOf d r with
    | some q => some (lendTo r q cause (moveBorrower r d))
    | none => none

end Sys2Proof.Machine
end

