-- ==== Sys2Proof/Machine/Commits.lean ====
section
/-! DEFINITION. The commit controller's shared operations: the commit form (Table 15.4), acceptance (R181, R184), abort (R189, R217) and what follows the end of a commit (R194, R216). -/

namespace Sys2Proof.Machine
open Sys2Proof

/-- Source code of Table 15.4. -/
def sourceCode : CommitSource → Nat
  | .host => 0 | .pattern => 1 | .settlement => 2 | .restoring => 3

/-- The 40 bytes of grants (Table 15.4). -/
def grantBytes (members : RegionSet) (grants : Tbl Nat) : Bytes :=
  let g := fun (r : Nat) => if bit members r then tget 0 grants r % 16 else 0
  (List.range 40).map (fun j => BitVec.ofNat 8 (g (2 * j) + 16 * g (2 * j + 1)))

/-- The 72 bytes of a commit form (Table 15.4). -/
def commitForm (c : Commit) (reason fault : Nat) : Bytes :=
  le 4 c.id ++ le 1 (sourceCode c.source) ++ le 1 c.target ++ le 1 reason ++ le 1 fault ++ le 8 c.count
    ++ leI 2 (c.earliest.getD 0) ++ leI 2 (c.latest.getD 0) ++ le 10 c.members ++ zeros 2 ++ grantBytes c.members c.grants

/-- Lowest region of a set. -/
def lowestOf (m : RegionSet) : Nat := (setRegions m).headD 0

/-- Replaces the record of commit `id`. -/
def modCommit (id : Nat) (f : Commit → Commit) (d : Die) : Die :=
  { d with commits := d.commits.map (fun c => if c.id = id then f c else c) }

/-- The commit of an ID that has not ended. -/
def commitOf (d : Die) (id : Nat) : Option Commit := d.commits.find? (fun c => decide (c.id = id) && !c.done)

/-- First legal count at an acceptance now (R182, R215). -/
def firstCount (d : Die) : Nat := (d.tally.now + Config.commitLead + 9) / 10 * 10

/-- R181: granted operating point of a region, the lower of the target and its ceiling. -/
def grantOf (d : Die) (r target : Nat) : Nat := min target (regionCeiling (region d r))

/-- Retune of a member at acceptance (R184): its idle synthesizer is written, or the member runs as a pause-switch where that
synthesizer is retired (R195). -/
def retuneMember (id g r : Nat) (d : Die) : Die :=
  let x := region d r
  if g = x.opp then d
  else if (synth d r (idleOf x)).retired then modCommit id (fun c => { c with pausing := c.pausing ||| 2 ^ r }) d
  else modCommit id (fun c => { c with retuned := c.retuned ||| 2 ^ r }) (writeSynth r (idleOf x) (ladderSetting g) (.commit id) false d)

/-- Acceptance of a commit (R181): grants, COMMIT_ACCEPT and the retunes. The commit's ID is the one that stood next. -/
def acceptCommit (src : CommitSource) (target : Nat) (members : RegionSet) (count ctx aborts : Nat) (key : Option (Nat × Nat)) (d : Die) : Die :=
  let id := d.nextCommit
  let grants := (setRegions members).foldl (fun t r => tset 0 t r (grantOf d r target)) []
  let c : Commit := { id := id, source := src, target := target, members := members, grants := grants, count := count, acceptedAt := d.tally.now, key := key, context := ctx, aborts := aborts }
  let d := { d with commits := d.commits ++ [c], nextCommit := if id + 1 = 2 ^ 32 then 1 else id + 1 }
  let d := emit 0x0401 (.region (lowestOf members)) (commitForm c 0 0xFF) d
  let d := each (setRegions members) (fun r d => retuneMember id (tget 0 grants r) r d) d
  if src = .host then each (setRegions members) (fun r d => throttleUpdate r (modRegion r (fun x => { x with hostTarget := some target }) d)) d else d

/-- Clears a region's Pattern target (R217). -/
def clearTarget (r : Nat) (d : Die) : Die := throttleUpdate r (modRegion r (fun x => { x with patternTarget := none }) d)

/-- PATTERN_DROPPED (R217): the named region's target is cleared after the third abort. -/
def patternDropped (r reason : Nat) (d : Die) : Die :=
  match (region d r).patternTarget with
  | some t => emit 0x050A (.region r) (le 1 t ++ le 1 reason) (clearTarget r d)
  | none => d

/-- R217: what the Pattern engine does at the abort of a commit of its own. -/
def patternAborted (c : Commit) (reason rgn : Nat) (d : Die) : Die :=
  if reason = 3 then each (setRegions c.members) regrant d
  else if reason = 5 then each ((setRegions c.members).filter (· ≠ rgn)) regrant d
  else if reason = 7 then each (setRegions c.members) clearTarget d
  else if c.aborts + 1 < 3 then
    { d with commitReqs := d.commitReqs ++ [{ source := .pattern, target := c.target, members := c.members, since := d.tally.now, context := c.context, aborts := c.aborts + 1 }] }
  else each ((setRegions c.members).filter (· ≠ rgn)) regrant (patternDropped rgn reason d)

/-- What the requesters do at the abort of a commit (R194, R216, R217, R247). -/
def afterAbort (c : Commit) (reason rgn : Nat) (d : Die) : Die :=
  match c.source with
  | .pattern => patternAborted c reason rgn d
  | .settlement => each (setRegions c.members) (fun r d => regrant r (modRegion r (fun x => { x with settleDue := some (d.tally.now + 1000000) }) d)) d
  | .restoring => each (setRegions c.members) (fun r d => regrant r (modRegion r (fun x => { x with restoreDue := some (d.tally.now + 1000000) }) d)) d
  | .host => each (setRegions c.members) regrant d

/-- COMMIT_ABORT (R189): up to its decision a commit ends, its standbys are retuned, its pause-switch members' synthesizers are
written back (R196), and the rails raised for it wait for their return at abort + 2 µs (COMMIT_VOLTAGE_FALL). -/
def abortCommit (id reason rgn fault : Nat) (d : Die) : Die :=
  match commitOf d id with
  | none => d
  | some c =>
    if c.decided then d
    else
      let d := modCommit id (fun e => { e with done := true, riseWritten := false, count := d.tally.now }) d
      let d := { d with commits := d.commits.filter (fun e => decide (e.id ≠ id) || decide (e.raised ≠ 0)) }
      let d := each (setRegions c.retuned) retuneStandby d
      let d := each (setRegions c.lent) (fun r d => writeSynth r (region d r).live (liveSetting d r) .recover true d) d
      afterAbort c reason rgn (emit 0x0403 (.region rgn) (commitForm c reason fault) d)

/-- Aborts every commit not past its decision whose members meet a test, each at the lowest such member. -/
def abortWhere (p : Commit → Nat → Bool) (reason fault : Nat) (d : Die) : Die :=
  each (d.commits.filter (fun c => !c.done && !c.decided)) (fun c d =>
    match (setRegions c.members).find? (p c) with
    | some r => abortCommit c.id reason r fault d
    | none => d) d

/-- Aborts the pending commit of a region (R183, R189). -/
def abortRegion (r reason fault : Nat) (d : Die) : Die := abortWhere (fun _ q => decide (q = r)) reason fault d

/-- R194, R216: what follows the completion of a commit at one of its members. -/
def memberDone (r : Nat) (d : Die) : Die :=
  let x := region d r
  if regionCeiling x < x.opp then modRegion r (fun x => { x with settleDue := some d.tally.now }) d
  else
    regrant r (modRegion r (fun x => { x with settleDue := none }) d)

/-- COMMIT_DONE (R188): once every member has switched or has had its switch refused. A rail whose target falls keeps the commit for
its fall (R184). -/
def commitDone (id : Nat) (d : Die) : Die :=
  match commitOf d id with
  | none => d
  | some c =>
    if c.strobed ∧ (c.switched ||| c.refused) = c.members then
      let d := emit 0x0402 (.region (lowestOf c.members)) (commitForm c 0 0xFF) d
      let d := modCommit id (fun e => { e with done := true, riseWritten := false }) d
      let falls := (List.range 5).any (fun k => decide ((ruleTarget d k).getD Config.retentionMv ≠ (rail d k).target))
      let d := if falls then d else { d with commits := d.commits.filter (fun e => decide (e.id ≠ id) || !e.done) }
      each (setRegions c.members) memberDone d
    else d

end Sys2Proof.Machine
end

