-- ==== Sys2Proof/Machine/Edges.lean ====
section
/-! DEFINITION. Edges and lanes (R151–R154, R168, R173, R177, R277), the watch unit's messages (R68–R70) and the start and stop of island clocks (R117, R118, R124, R405). -/

namespace Sys2Proof.Machine
open Sys2Proof

/-! ## Edges -/

/-- Owner of an island for the border rule: a service island takes the owner of the compute island it attaches to (R277). -/
def islandOwner (d : Die) (i : Nat) : Nat :=
  (region d (islandRegion (if i < 1152 then i else (attachment i).1))).owner

/-- An on-die edge whose ends have different owners (R277). -/
def borderEdge (d : Die) (e : Nat) : Bool := decide (islandOwner d (edgeIslands e).1 ≠ islandOwner d (edgeIslands e).2)

/-- An edge of a retired region (R153, R407). -/
def retiredEdge (d : Die) (e : Nat) : Bool :=
  (region d (islandRegion (edgeIslands e).1)).retired || (region d (islandRegion (edgeIslands e).2)).retired

/-- Owner of a link edge: that of its link island (R277). -/
def linkOwner (d : Die) (l : Nat) : Nat := islandOwner d (1200 + l)

/-- State of a coupled end that is not released: excused while its neighbour is, else pending (R154, R173). -/
def coupledState (d : Die) (k : Nat) : EndState := if islandExcused d (endIsland (farEnd k)) then .excused else .pending

/-- COUPLE_CHANGE at an end: sources 0 plan start, 1 host, 2 Pattern, 3 tenant move. -/
def coupleRecord (k op src : Nat) (d : Die) : Die := emit 0x0301 (.island (endIsland k)) (le 2 (k / 2) ++ le 1 op ++ le 1 src) d

/-- One end applies a couple (R151, R154); an end already coupled and not released does not change. -/
def coupleEnd (src k : Nat) (d : Die) : Die :=
  let x := edgeEnd d k
  if x.coupled ∧ x.state ≠ .released then d
  else coupleRecord k 1 src (modEnd k (fun x => { x with coupled := true, state := coupledState d k, since := d.tally.now, lead := 0, bad := 0, stale := none }) d)

/-- One end applies an uncouple (R151). -/
def uncoupleEnd (src k : Nat) (d : Die) : Die :=
  if (edgeEnd d k).coupled then
    coupleRecord k 0 src (modEnd k (fun x => { x with coupled := false, state := .uncoupled, lead := 0, bad := 0, stale := none }) d)
  else d

/-- COUPLE_REFUSED at island i: reasons 0 border, 1 absent, 2 outside plan, 3 retired. -/
def coupleRefused (i e reason src : Nat) (d : Die) : Die := emit 0x0302 (.island i) (le 2 e ++ le 1 reason ++ le 1 src) d

/-- Why a request to couple an on-die edge has no effect, if it has none (R153, R222). `inside` tests the plan's regions. -/
def refusal (d : Die) (inside : Nat → Bool) (e : Nat) : Option Nat :=
  if !edgeExists d e then some 1
  else if retiredEdge d e then some 3
  else if borderEdge d e then some 0
  else if !(inside (islandRegion (edgeIslands e).1) && inside (islandRegion (edgeIslands e).2)) then some 2
  else none

/-- Brings one end to the state that the excuse of its neighbour now calls for (R154, R173). -/
def refreshEnd (k : Nat) (d : Die) : Die :=
  let x := edgeEnd d k
  if !x.coupled then d
  else match x.state with
    | .released => d
    | .uncoupled => d
    | _ =>
      if islandExcused d (endIsland (farEnd k)) then modEnd k (fun x => { x with state := .excused, lead := 0, stale := none }) d
      else modEnd k (fun x => { x with state := .pending, since := d.tally.now, lead := 0, bad := 0, stale := none }) d

/-- The excuse of an island begins or ends: its neighbours' ends, and its own, follow (R154, R173). -/
def refreshIsland (i : Nat) (d : Die) : Die :=
  each (islandEnds i) (fun k d => if islandExcused d i then refreshEnd (farEnd k) d else refreshEnd k (refreshEnd (farEnd k) d)) d

/-- Both ends of every edge of a region's islands are permanently uncoupled (R153, R407). -/
def uncoupleRegion (r : Nat) (d : Die) : Die :=
  each ((regionIslands r).flatMap islandEnds) (fun k d =>
    each [k, farEnd k] (fun j d => modEnd j (fun x => { x with coupled := false, state := .uncoupled, lead := 0, bad := 0, stale := none }) d) d) d

/-- Key of a receiving lane: island, edge position N, E, S, W, link (R499), lane. -/
def laneKey (i pos l : Nat) : Nat := (5 * i + pos) * 8 + l

/-- The lanes of a link edge are emptied and their poison clears (R168). -/
def clearLinkLanes (l : Nat) (d : Die) : Die :=
  each (List.range 8) (fun n d => modLane (laneKey (1200 + l) 4 n) (fun _ => {}) d) d

/-- A link edge is coupled at this end under a plan tag (R151, R177). -/
def coupleLink (l tag : Nat) (d : Die) : Die :=
  let x := link d l
  if x.coupled ∧ x.state ≠ .released then d
  else
    let d := if x.state = .released then clearLinkLanes l d else d
    modLink l (fun x => { x with coupled := true, tag := tag, state := .pending, since := d.tally.now, lead := 0, stale := none, mismatch := false }) d

/-- A link edge is uncoupled at this end (R151, R168). -/
def uncoupleLink (l : Nat) (d : Die) : Die :=
  if (link d l).coupled then
    clearLinkLanes l (modLink l (fun x => { x with coupled := false, tag := 0, state := .uncoupled, lead := 0, stale := none, mismatch := false }) d)
  else d

/-- A link edge exerts holds under R152: ACTIVE here, and the partner coupled under the same non-zero tag. -/
def linkHolds (x : Link) : Bool := decide (x.state = .active) && x.remoteCoupled && decide (x.tag ≠ 0 ∧ x.remoteTag = x.tag)

/-! ## Watch messages (R68–R70) -/

/-- End of the slot that holds an instant (R68). -/
def slotOf (t : Nat) : Nat := (t + 9) / 10 * 10

/-- The kind_flags byte of a message (Table 2.4). -/
def watchFlags (d : Die) (kind : Nat) (late cancelled : Bool) : Nat :=
  kind + 4 * b1 late + 8 * b1 cancelled + 16 * b1 d.tally.holdover + 32 * b1 d.tally.slewing

/-- Inserts a message behind those of an earlier slot, and of its slot with a lower watch ID (R68). -/
def insertMessage (m : WatchMsg) : List WatchMsg → List WatchMsg
  | [] => [m]
  | n :: t => if m.slot < n.slot ∨ (m.slot = n.slot ∧ m.watch < n.watch) then m :: n :: t else n :: insertMessage m t

/-- A fire enters the queue. Where a message of the watch still waits, it covers the new fire too: the latest condition, and one
more fire merged (R68). -/
def postMessage (m : WatchMsg) (d : Die) : Die :=
  match d.messages.find? (fun n => decide (n.watch = m.watch)) with
  | some n =>
    let n' := { n with condition := m.condition, merged := min 255 (n.merged + m.merged + 1), tally := m.tally, cycle := m.cycle, epoch := m.epoch, kindFlags := n.kindFlags ||| m.kindFlags }
    { d with messages := d.messages.map (fun x => if x.watch = m.watch then n' else x) }
  | none => { d with messages := insertMessage m d.messages }

/-- The 32 bytes of a message (Table 2.4). -/
def messageBytes (m : WatchMsg) : Bytes :=
  le 1 m.watch ++ le 1 m.kindFlags ++ le 2 m.target ++ le 1 m.epoch ++ le 1 m.merged ++ le 2 m.island ++ le 8 m.tally
    ++ le 7 m.cycle ++ zeros 1 ++ le 8 m.condition

/-- A logical watch is delivered with CANCELLED set and freed (R69). -/
def cancelWatch (w : Nat) (d : Die) : Die :=
  let x := watch d w
  let m : WatchMsg := { slot := slotOf d.tally.now, watch := w, kindFlags := watchFlags d x.kind false true, target := x.target, epoch := d.tally.epoch, merged := 0, island := x.island, tally := d.tally.now, cycle := (island d x.island).ring.count, condition := x.condition }
  modWatch w (fun _ => {}) (postMessage m d)

/-- Every logical watch on the islands of a region is cancelled (R69, R407). -/
def cancelRegionWatches (r : Nat) (d : Die) : Die :=
  each ((List.range 256).filter (fun w => let x := watch d w; x.used && decide (2 ≤ x.kind) && decide (islandRegion x.island = r))) cancelWatch d

/-! ## Island clocks -/

/-- Yoke ratio m at operating point k (Table 4.6). -/
def yokeM (k : Nat) : Nat := [32, 32, 72, 50, 35, 32, 30, 28, 26, 25, 28, 31, 25, 20, 19, 18].getD k 32

/-- The region belongs to a plan that has been started and not released: its islands stand stopped at the start count (R349). -/
def planHeld (d : Die) (r : Nat) : Bool :=
  match (region d r).plan with
  | some c => match context d c with
    | some x => !x.released && (match x.state with | .loaded => false | _ => true)
    | none => false
  | none => false

/-- Nothing stands against the island's clock: no stop or hold, no reset, no excuse, no low-power state, no core stop, no plan that waits for its release. -/
def islandMayRun (d : Die) (i : Nat) : Bool :=
  dieRuns d && !planHeld d (islandRegion i) && !islandExcused d i && decide ((region d (islandRegion i)).power = 0) && !(island d i).ring.coreStopped

/-- The ring of an island may run: as `islandMayRun`, but Gate and a core stop close the gate only (R28, R437). -/
def ringMayRun (d : Die) (i : Nat) : Bool := dieRuns d && !islandExcused d i && decide ((region d (islandRegion i)).power < 2)

/-- The clock gate closes, and the island reports stopped (R117, R160). -/
def closeGate (i : Nat) (d : Die) : Die := modRing i (fun x => { x with gate := false, stopDue := false, now := .idle, cause := 4 }) d

/-- A rest: the Bellows stops (R118). A Yoke island keeps its state with its gate closed. -/
def stopBellows (i : Nat) (d : Die) : Die :=
  modRing i (fun x => { x with gate := false, bellows := if x.bellows = .yoke then .yoke else .stopped, settleSince := none, matching := 0, missing := 0, released := false, goodRun := 0, pauseFrom := none, now := .idle, cause := 4 }) d

/-- YOKE_ENTER (R124): the island is driven through its Yoke rotator; the gate opens where the region clock is present and nothing
stands against it. Causes 0 injection failures, 1 blind, 2 calibration fallback. -/
def yokeEnter (i cause : Nat) (d : Die) : Die :=
  let k := (region d (islandRegion i)).opp
  let d := modRing i (fun x => { x with bellows := .yoke, gate := islandMayRun d i && clockPresent d (islandRegion i), settleSince := none, released := false, marginDue := 0, windows := [], phaseLeft := 0, stepDue := 0, pauseFrom := none, opp := k, oppDue := none }) d
  emit 0x010E (.island i) (le 1 k ++ le 1 (yokeM k) ++ le 1 cause) d

/-- BELLOWS_RETIRE (R405): RETIRE of kind 2 and Yoke mode. `count` failures were counted. -/
def bellowsRetire (i cause count : Nat) (d : Die) : Die :=
  if bellowsRetired d i then d
  else yokeEnter i cause (emitRetire 2 0 count (.island i) i (modRing i (fun x => { x with failures := [] }) d))

/-- The ring starts from rest (R118): 100 ns of settling, unless the island runs in Yoke mode. A test setting's floor point, or the
operating point in force, is adopted first (R115). -/
def startBellows (i : Nat) (d : Die) : Die :=
  let r := islandRegion i
  let k := match (region d r).test with | some s => floorOpp s | none => (region d r).opp
  if bellowsRetired d i ∨ (island d i).ring.bellows = .yoke then
    modRing i (fun x => { x with bellows := .yoke, gate := islandMayRun d i && clockPresent d r, opp := k, oppDue := none }) d
  else modRing i (fun x => { x with bellows := .acquiring, settleSince := some d.tally.now, acqContext := .start, matching := 0, missing := 0, gate := false, released := false, goodRun := 0, opp := k, oppDue := none, windowDirty := false }) d

/-- Injection acquisition begins (R103). -/
def acquire (i : Nat) (ctx : AcqContext) (d : Die) : Die :=
  modRing i (fun x => { x with bellows := .acquiring, settleSince := none, acqSince := d.tally.now, acqContext := ctx, matching := 0, missing := 0, windowDirty := false }) d

/-- The region clock goes away: every Bellows releases injection, and Yoke islands stop (R96, R105, R125). -/
def regionClockLost (r : Nat) (d : Die) : Die :=
  each (regionIslands r) (fun i d => modRing i (fun x => match x.bellows with
    | .yoke => { x with gate := false }
    | .stopped => x
    | .acquiring => if x.gate then { x with bellows := .released, released := true, goodRun := 0, windowDirty := true } else x
    | _ => { x with bellows := .released, released := true, goodRun := 0, windowDirty := true }) d) d

/-- The region clock returns: Yoke islands that may run restart with it, without reacquisition (R125). -/
def regionClockBack (r : Nat) (d : Die) : Die :=
  each (regionIslands r) (fun i d => modRing i (fun x => if x.bellows = .yoke then { x with gate := islandMayRun d i } else x) d) d

/-- The multiplexer selects synthesizer sy, if its lock flag is set (R86, R88); the Drover lane may return (R122). -/
def selectSynth (r sy : Nat) (d : Die) : Die :=
  if (synth d r sy).lock then
    let had := clockPresent d r
    let d := modRegion r (fun x => { x with select := some sy, live := sy }) d
    droverReturn r (if had then d else regionClockBack r d)
  else d

/-- The multiplexer selects nothing and the region clock stops (R96). -/
def deselect (r : Nat) (d : Die) : Die := regionClockLost r (modRegion r (fun x => { x with select := none }) d)

/-- The islands a switch of the region's multiplexer moves adopt the operating point at their next cycle boundary; those whose clock
is stopped, before their next start (R115, R187). -/
def adoptOpp (r k : Nat) (d : Die) : Die :=
  each (regionIslands r) (fun i d => modRing i (fun x => if x.gate then { x with oppDue := some k } else { x with opp := k, oppDue := none }) d) d

/-- R142: the alert runs of a region's islands return to zero. -/
def clearRuns (r : Nat) (d : Die) : Die := each (regionIslands r) (fun i d => modMargin i (fun x => { x with run := 0 }) d) d

end Sys2Proof.Machine
end

