-- ==== Sys2Proof/Machine/Mailbox.lean ====
section
/-! DEFINITION. The mailboxes' shared operations (R326–R339): command SRAM, the opcodes of Table 14.1, completions and queue resets, and the execution of a journalled command (R333, R342). -/

namespace Sys2Proof.Machine
open Sys2Proof

/-! ## Command SRAM (R326) -/

/-- Reads n bytes of command SRAM. -/
def sramRead (d : Die) (a n : Nat) : Bytes := (List.range n).map (fun j => tget 0#8 d.sram (a + j))

/-- Cells of the SRAM after a write. -/
def sramPut (m : List Host.Cell) (a : Nat) : Bytes → List Host.Cell
  | [] => m
  | b :: t => sramPut (tset 0#8 m a b) (a + 1) t

/-- Writes bytes to command SRAM. -/
def sramWrite (a : Nat) (b : Bytes) (d : Die) : Die := { d with sram := sramPut d.sram a b }

/-- Offset of queue q's block (R326). -/
def queueBase (q : Nat) : Nat := q * 0x3000

/-- Host memory as a stream write leaves it (R466, log 5). -/
def streamWrite (address : Nat) (data : Bytes) (d : Die) : Die :=
  { d with streams := { address := address, data := data } :: d.streams }

/-! ## Opcodes (Table 14.1) -/

/-- Opcode, payload length, and staging: 0 none, 1 input, 2 output, 3 input for one kind only. -/
def opcodes : List (Nat × Nat × Nat) :=
  [(0x0101, 16, 1), (0x0102, 24, 0), (0x0103, 24, 0), (0x0104, 4, 0), (0x0105, 20, 0), (0x0106, 4, 0),
   (0x0201, 24, 0), (0x0202, 4, 0), (0x0203, 0, 2), (0x0301, 48, 3), (0x0302, 16, 0), (0x0303, 4, 2)]
  ++ [(0x0401, 4, 0), (0x0402, 0, 2), (0x0501, 4, 0), (0x0502, 4, 0), (0x0503, 12, 0), (0x0504, 4, 0),
   (0x0505, 4, 2), (0x0601, 24, 0), (0x0602, 4, 0), (0x0603, 4, 0), (0x0701, 8, 0), (0x0702, 24, 0)]
  ++ [(0x0703, 24, 0), (0x0801, 16, 0), (0x0901, 16, 3), (0x0902, 16, 0), (0x0903, 8, 2), (0x0904, 8, 1),
   (0x0905, 8, 0), (0x0A01, 4, 0), (0x0B01, 4, 2), (0x0B02, 4, 0), (0x0B03, 4, 0), (0x0C01, 4, 2)]
  ++ [(0x0C02, 4, 0), (0x0C03, 48, 0), (0x0C04, 16, 0), (0x0D01, 4, 0), (0x0D02, 4, 0), (0x0D03, 0, 2),
   (0x0E01, 0, 2), (0x0E02, 4, 0), (0x0E03, 16, 0), (0x0E04, 8, 1), (0x0E05, 16, 0)]

/-- Bytes of staged input a command takes (Table 14.1). -/
def stagedLength (opcode : Nat) : Nat :=
  if opcode = 0x0101 then 5408 else if opcode = 0x0301 then 170 else if opcode = 0x0901 then 8
  else if opcode = 0x0904 then 136 else if opcode = 0x0E04 then 272 else 0

/-- The command needs STAGED set; for cap.set and cal.write the payload's first byte, the kind 3 or the source HOST, decides (R340). -/
def needsStaged (opcode stage first : Nat) : Bool :=
  if stage = 3 then (if opcode = 0x0301 then decide (first = 3) else decide (first = 2)) else decide (stage ≠ 0)

/-! ## Completions (R333–R337) -/

/-- Status codes of Table 13.5. -/
def stNoPrivilege : Nat := 0x02
def stBadField : Nat := 0x06
def stRange : Nat := 0x07
def stNotFound : Nat := 0x08
def stBusy : Nat := 0x09
def stRouteBusy : Nat := 0x0A
def stNotLocked : Nat := 0x0B
def stStale : Nat := 0x0C
def stStoreAbsent : Nat := 0x0D
def stNotReady : Nat := 0x0E
def stFailed : Nat := 0x0F
def stAborted : Nat := 0x10

/-- PRIVILEGE_REFUSED for the first NO_PRIVILEGE completion of a queue in each 1 s of Tally; the rest are counted (R278). -/
def countRefusal (q opcode : Nat) (d : Die) : Die :=
  let x := queue d q
  let sec := d.tally.now / 1000000000
  if x.refusedAt = some sec then modQueue q (fun x => { x with refusals := x.refusals + 1 }) d
  else
    let prev := match x.refusedAt with | some t => if t + 1 = sec then x.refusals else 0 | none => 0
    emit 0x0707 (.queue q) (le 2 opcode ++ zeros 2 ++ le 4 prev) (modQueue q (fun x => { x with refusedAt := some sec, refusals := 1 }) d)

/-- A completion is posted: its entry, the tail, the CMD record and the queue's interrupt (R333, R335, R336, R339). -/
def postCompletion (q : Nat) (desc : Bytes) (slot status flags result detail : Nat) (d : Die) : Die :=
  let x := queue d q
  let phase := 1 - x.cplTail / 64 % 2
  let fl := flags + 128 * phase
  let seq := fld desc 4 4
  let op := fld desc 0 2
  let entry := le 4 seq ++ le 2 op ++ le 1 status ++ le 1 fl ++ le 4 result ++ le 1 slot ++ zeros 1 ++ le 2 detail
  let d := sramWrite (queueBase q + 0x1000 + 16 * (x.cplTail % 64)) entry d
  let d := modQueue q (fun x => { x with cplTail := (x.cplTail + 1) % 65536 }) d
  let d := emit 0x0A01 (.queue q) (le 4 seq ++ le 2 op ++ le 1 status ++ le 1 fl ++ le 4 result) d
  let d := if bit (fld desc 2 1) 0 then queueInt q 0 d else d
  if status = stNoPrivilege then countRefusal q op d else d

/-- QUEUE_RESET (R338): unfetched descriptors are discarded, the counts and the sequence state cleared, and the completion ring zeroed.
Causes 0 host, 1 binding, 2 unbinding, 3 fabric reset, 4 package warm reset. -/
def queueReset (q cause : Nat) (d : Die) : Die :=
  let x := queue d q
  let n := (x.subTail + 65536 - x.subHead) % 65536
  let d := sramWrite (queueBase q + 0x1000) (zeros 1024) d
  let d := modQueue q (fun x => { x with subTail := 0, subHead := 0, cplTail := 0, cplHead := 0, resetting := none, exec := none, expect := none, stored := [] }) d
  emit 0x0A03 (.queue q) (le 1 cause ++ le 1 n) d

/-- What a command answers: refused with a status and detail, done with a result and staged output, or still in execution (R343). -/
inductive Reply where
  | refuse (status detail : Nat)
  | done (result : Nat) (out : Option Bytes)
  | wait
deriving DecidableEq, Repr

/-- Completes the command in execution on a queue (R331, R333, R334): output, DONE and the completion; a queue reset that waited follows. -/
def finish (q : Nat) (reply : Reply) (d : Die) : Die :=
  match (queue d q).exec with
  | none => d
  | some e =>
    match reply with
    | .wait => d
    | .refuse status detail =>
      let fl := b1 e.reexecuted
      let d := modQueue q (fun x => { x with exec := none, stored := ({ seq := fld e.desc 4 4, status := status, flags := fl, result := 0, detail := detail } :: x.stored).take 64 }) d
      let d := postCompletion q e.desc e.slot status fl 0 detail d
      match (queue d q).resetting with | some c => queueReset q c d | none => d
    | .done result out =>
      let fl := b1 e.reexecuted + 4 * b1 out.isSome
      let d := match out with | some b => sramWrite (queueBase q + 0x1400) b d | none => d
      let d := modQueue q (fun x => { x with exec := none, stored := ({ seq := fld e.desc 4 4, status := 0, flags := fl, result := result, detail := 0xFFFF } :: x.stored).take 64 }) d
      let d := postCompletion q e.desc e.slot 0 fl result 0xFFFF d
      match (queue d q).resetting with | some c => queueReset q c d | none => d

/-- Executes the command of an opcode that is in execution on queue q, while a Chandler executes; the body reads payload and staged input (R333, R335, R345). -/
def command (q opcode : Nat) (body : Exec → Bytes → Die → Die × Reply) (d : Die) : Die :=
  match (queue d q).exec with
  | some e =>
    if fld e.desc 0 2 = opcode ∧ chandlerRuns d then
      let r := body e (e.desc.drop 16) d
      finish q r.2 r.1
    else d
  | none => d

/-! ## Checks (R341, R342) -/

/-- First check that fails decides the status (R342). -/
def firstRefusal (l : List (Bool × Nat × Nat)) : Option Reply :=
  (l.find? (fun c => c.1)).map (fun c => .refuse c.2.1 c.2.2)

/-- Runs the checks in order, then the effect. -/
def checked (l : List (Bool × Nat × Nat)) (effect : Die → Die × Reply) (d : Die) : Die × Reply :=
  match firstRefusal l with | some r => (d, r) | none => effect d

/-- First non-zero byte of the payload between two offsets, as a descriptor offset (R9, check 6). -/
def reservedAt (p : Bytes) (first last : Nat) : Option Nat :=
  ((List.range (last - first)).find? (fun j => fld p (first + j) 1 ≠ 0)).map (fun j => 16 + first + j)

/-- Check 6 for a reserved range of the payload. -/
def zeroCheck (p : Bytes) (first last : Nat) : Bool × Nat × Nat :=
  ((reservedAt p first last).isSome, stBadField, (reservedAt p first last).getD 0xFFFF)

/-- The die is READY (R430). -/
def isReady (d : Die) : Bool := decide (d.startup.ready = 1)

/-- NOT_READY (R340, R342). -/
def readyCheck (d : Die) : Bool × Nat × Nat := (!isReady d, stNotReady, 0xFFFF)

/-- A command of queue 0 only (Table 14.1, check 7). -/
def rootCheck (q : Nat) : Bool × Nat × Nat := (decide (q ≠ 0), stNoPrivilege, 0xFFFF)

/-- Lowest region of a set that is named and does not exist (R341). -/
def absentRegion (d : Die) (m : RegionSet) : Option Nat := (List.range 80).find? (fun r => bit m r && !present d r)

/-- RANGE for an empty region set, whose field stands at payload offset `off` (R341). -/
def emptyCheck (m : RegionSet) (off : Nat) : Bool × Nat × Nat := (decide (m = 0), stRange, 16 + off)

/-- NOT_FOUND for a region of a set that does not exist (R341). -/
def absentCheck (d : Die) (m : RegionSet) : Bool × Nat × Nat := ((absentRegion d m).isSome, stNotFound, (absentRegion d m).getD 0xFFFF)

/-- Lowest region of a set that meets a test. -/
def firstRegion (m : RegionSet) (p : Nat → Bool) : Option Nat := (setRegions m).find? p

/-- A refusal at the lowest region of a set that meets a test (R335). -/
def regionCheck (m : RegionSet) (p : Nat → Bool) (status : Nat) : Bool × Nat × Nat :=
  ((firstRegion m p).isSome, status, (firstRegion m p).getD 0xFFFF)

/-- Every region of a set belongs to the queue's owner (R278, R348). -/
def ownedBy (d : Die) (q : Nat) (m : RegionSet) : Bool := (setRegions m).all (fun r => decide ((region d r).owner = q))

/-- NO_PRIVILEGE for a tenant queue that names a region outside its own (Table 11.1). -/
def scopeCheck (d : Die) (q : Nat) (m : RegionSet) : Bool × Nat × Nat :=
  (decide (q ≠ 0) && !ownedBy d q m, stNoPrivilege, (firstRegion m (fun r => decide ((region d r).owner ≠ q))).getD 0xFFFF)

end Sys2Proof.Machine
end

