-- ==== Sys2Proof/Machine/Retire.lean ====
section
/-! DEFINITION. The end of an Assay on command (R312), the retirement of synthesizers and regions (R402–R407), loss of lock (R96, R97) and the declaration of lock (R92, R94, R98). -/

namespace Sys2Proof.Machine
open Sys2Proof

/-- Marks region r in the step in which it stands: past its own boundary it stands in the step that the mark being passed begins. -/
def markStep (r : Nat) (f : CertRegion → CertRegion) (x : Context) : Context :=
  let g := x.gather
  if (tget {} g.next r).start.isSome then { x with gather := { g with next := tmod {} g.next r f } }
  else if x.step.isSome then { x with gather := { g with regions := tmod {} g.regions r f } }
  else x

/-- Marks region r in the certificate of the plan that names it (R397, R400). -/
def certMark (r : Nat) (f : CertRegion → CertRegion) (d : Die) : Die :=
  match (region d r).plan with
  | some c => modContext c (markStep r f) d
  | none => d

/-- R400, R502: an excursion of an island of region r counts as outside for every plan that does not name the region. -/
def noteOutside (r : Nat) (d : Die) : Die :=
  each ((List.range 16).filter (fun c => match context d c with | some x => !bit x.regions r && (x.step.isSome || !x.gather.next.isEmpty) | none => false))
    (fun c d => modContext c (fun x => { x with gather := { x.gather with outside := d.tally.now :: x.gather.outside } }) d) d

/-- Both synthesizers of a region are acquired at its live setting (R96, R432); `must` of each forces a search. -/
def acquireBoth (r : Nat) (use : SynthUse) (d : Die) : Die :=
  writeSynth r 1 (liveSetting d r) use false (writeSynth r 0 (liveSetting d r) use false d)

/-- The islands of a region start again after an Assay on command, and their edges rejoin (R311, R312). -/
def assayRestart (r : Nat) (d : Die) : Die :=
  let d := if (region d r).select.isNone ∧ !(region d r).retired then acquireBoth r .recover d else d
  let d := each (regionIslands r) (fun i d => refreshIsland i (if dieRuns d ∧ !(region d r).retired then startBellows i d else d)) d
  regrant r d

/-- PATTERN_MISSED for what a region missed in the excuse that ends (R208). -/
def missedRecord (r : Nat) (d : Die) : Die :=
  let n := (region d r).missed
  if n = 0 then d
  else emit 0x0506 (.region r) (le 4 n ++ le 1 (region d r).missedContext) (modRegion r (fun y => { y with missed := 0, missedContext := 0 }) d)

/-- ASSAY_ABORT (R312): causes 0 reset, 1 retirement, 2 stop, 3 takeover. One that still waits for a commit ends without a record. -/
def assayAbort (r cause : Nat) (d : Die) : Die :=
  match d.store.assay with
  | some a =>
    if a.region = some r then
      let d := { d with store := { d.store with assay := none, assayKey := none } }
      if a.waiting then d else assayRestart r (missedRecord r (emit 0x0903 (.region r) (le 1 cause) d))
    else d
  | none => d

/-- R204, R407: a retired region drops out of every mask entry. -/
def dropFromMasks (r : Nat) (d : Die) : Die :=
  each (List.range 16) (fun c d => modContext c (fun x => { x with masks := x.masks.filterMap (fun m =>
    let v := if bit m.2 r then m.2 - 2 ^ r else m.2
    if v = 0 then none else some (m.1, v)) }) d) d

/-- REGION_RETIRE (R407): the die retires a region whose last working synthesizer is retired. -/
def regionRetire (r : Nat) (d : Die) : Die :=
  if (region d r).retired then d
  else
    let d := emitRetire 4 0 0 (.region r) r d
    let d := abortRegion r 5 0xFF d
    let d := assayAbort r 1 d
    let d := modRegion r (fun x => { x with retired := true, test := none, fast := none, settleDue := none, restoreDue := none }) d
    let d := deselect r d
    let d := each (regionIslands r) (fun i d => refreshIsland i (stopBellows i d)) d
    let d := cancelRegionWatches r (dropFromMasks r (uncoupleRegion r d))
    let d := match (droverLend r 6 d) with | some d' => d' | none => moveBorrower r (droverStop r d)
    certMark r (fun x => { x with retired := true }) d

/-- R406: the pending commit that had retuned the synthesizer, or was about to, aborts with reason LOCK. -/
def abortForSynth (r sy : Nat) (d : Die) : Die :=
  abortWhere (fun c q => decide (q = r ∧ sy = idleOf (region d r)) && (bit c.retuned r || decide (tget 0 c.grants r ≠ (region d r).opp))) 1 sy d

/-- ELEMENT_RETIRE of a region synthesizer (R402, R406); the last one takes its region with it. -/
def synthRetire (r sy count : Nat) (d : Die) : Die :=
  if (synth d r sy).retired then d
  else
    let d := emitRetire 3 sy count (.region r) r d
    let d := modSynth r sy (fun x => { x with retired := true, phase := .off, lock := false, failures := [], retryAt := none }) d
    let d := abortForSynth r sy d
    if (synth d r (1 - sy)).retired then regionRetire r d else d

/-- A failure of a synthesizer is counted (R402, R406): the third within 10 s retires it, else it is acquired again 10 µs later. -/
def synthFailure (r sy : Nat) (d : Die) : Die :=
  let l := addFailure d.tally.now (synth d r sy).failures
  let d := modSynth r sy (fun x => { x with failures := l, phase := .failed, lock := false, matching := 0, missing := 0, retryAt := some (d.tally.now + 10000) }) d
  if permanent l then synthRetire r sy l.length d else d

/-- Case 2 of R96 at region r: nothing is selected, the pending commit aborts with LOSS, the lanes that ran on the region stop, and both
synthesizers are acquired at the live setting, the failed one by search. -/
def lossNoStandby (r sy : Nat) (d : Die) : Die :=
  let d := deselect r d
  let d := abortRegion r 4 0xFF d
  let d := match borrowerOf d r with | some b => droverStop b d | none => d
  let d := match (region d r).drover with | .own => droverStop r d | _ => d
  writeSynth r sy (liveSetting d r) .recover true (writeSynth r (1 - sy) (liveSetting d r) .recover false d)

/-- SYNTH_LOCK_LOSS (R94, R96, R97, R406): causes 0 two windows, 1 excursion. -/
def synthLoss (r sy cause : Nat) (d : Die) : Die :=
  let live := decide ((region d r).select = some sy)
  let d := emit 0x0107 (.region r) (le 1 sy ++ le 1 cause ++ le 1 (b1 live)) d
  let d := synthFailure r sy d
  if !live ∨ (region d r).retired then d
  else if standbyReady d r then
    emit 0x0108 (.region r) (le 1 (1 - sy)) (selectSynth r (1 - sy) (modRegion r (fun x => { x with select := none }) d))
  else match pendingCommit d r with
    | some c => if c.decided && !bit (c.switched ||| c.refused) r then deselect r d else lossNoStandby r sy d
    | none => lossNoStandby r sy d

/-- R92: the entry a successful search writes; it replaces that of its key, else the least recently used of sixteen. -/
def cacheAfter (l : List Hop) (h : Hop) : List Hop := (h :: l.filter (fun e => !decide (e.n = h.n ∧ e.frac = h.frac))).take 16

/-- region.test completes on queue 0 once its synthesizer has switched or its acquisition has failed (R376). -/
def testDone (ok : Bool) (d : Die) : Die :=
  match (queue d 0).exec with
  | some e => if fld e.desc 0 2 = 0x0C04 ∧ chandlerRuns d then finish 0 (if ok then .done 0 none else .refuse stFailed 0xFFFF) d else d
  | none => d

/-- The region leaves its test setting by this lock: region.test with op 0 is in execution, or, where its queue has been reset, the
setting locked is the ladder's of the operating point in force (R376). -/
def endsTest (d : Die) (r : Nat) (s : Setting) : Bool :=
  let l := ladderSetting (region d r).opp
  match (queue d 0).exec with
  | some e => decide (fld e.desc 0 2 = 0x0C04 ∧ fld e.desc 18 1 = 0)
  | none => decide (s.n = l.n ∧ s.frac = l.frac ∧ s.div = l.div)

/-- The islands of a region that stand at rest start with their region clock: at step 8 of start-up, on a resume that is scheduled, and where a
late lock meets rings that may run (R118, R266, R419). -/
def clockStart (r : Nat) (d : Die) : Die :=
  each (regionIslands r) (fun i d =>
    let resting : Bool := match (island d i).ring.bellows with | .stopped => true | .yoke => true | _ => false
    let resumes := d.stop.resumeAt.isSome && !islandExcused d i && decide ((region d r).power < 2)
    if resting && decide (8 ≤ d.startup.step) && d.startup.begun && (resumes || ringMayRun d i) then startBellows i d else d) d

/-- What a declared lock is for (R87, R96, R376, R432): where the region has no clock, the first to lock is selected, except for a
pause-switch, a commit that waits for its strobe, and a test setting, which is selected over the live one. -/
def afterLock (r sy : Nat) (d : Die) : Die :=
  let x := region d r
  let s := synth d r sy
  let waits := match s.use with | .pause _ => true | .commit _ => true | _ => false
  if s.use = .test then
    let off := endsTest d r s.setting
    let d := selectSynth r sy (modRegion r (fun x => { x with test := if off then none else some s.setting }) d)
    let d := adoptOpp r (if off then (region d r).opp else floorOpp s.setting) d
    let d := retuneStandby r d
    let d := if off then restore r (regrant r (fastStep r d)) else d
    testDone true d
  else if x.select.isNone ∧ !waits ∧ !x.retired ∧ !inBank d r then
    let d := selectSynth r sy d
    let d := modRegion r (fun x => { x with reset := x.reset.map (fun t => { t with relocked := true }) }) d
    clockStart r (if s.use ≠ .startup ∧ sy ≠ x.live then emit 0x0108 (.region r) (le 1 sy) d else d)
  else d

/-- SYNTH_LOCK (R94, R98): the lock flag is set, a search leaves its hop cache entry, and the record is written. -/
def declareLock (r sy : Nat) (d : Die) : Die :=
  let s := synth d r sy
  let cache := match s.source, regionHottest d r with
    | 3, some t => cacheAfter s.cache { n := s.setting.n, frac := s.setting.frac, band := s.band, temp := t }
    | _, _ => s.cache
  let d := modSynth r sy (fun x => { x with phase := .locked, lock := true, mustSearch := false, missing := 0, cache := cache }) d
  let d := emit 0x0105 (.region r) (le 1 sy ++ le 1 s.source ++ le 2 (sat 16 ((d.tally.now - s.writtenAt) / 10)) ++ settingBytes { s.setting with band := s.band }) d
  afterLock r sy d

/-- SYNTH_LOCK_FAIL (R95): the synthesizer stops, the hop cache entry it used is invalid, the next attempt searches, and the failure
is counted; a failed retune for a commit aborts it (R189). -/
def acquisitionFail (r sy : Nat) (d : Die) : Die :=
  let s := synth d r sy
  let fails := recentFailures d.tally.now (addFailure d.tally.now s.failures)
  let d := modSynth r sy (fun x => { x with mustSearch := true, cache := if x.source = 2 then x.cache.filter (fun h => !decide (h.n = x.setting.n ∧ h.frac = x.setting.frac)) else x.cache }) d
  let d := emit 0x0106 (.region r) (le 1 sy ++ le 1 s.source ++ le 1 fails ++ zeros 1 ++ settingBytes s.setting) d
  let d := synthFailure r sy d
  match s.use with
  | .commit id => abortCommit id 1 r sy d
  | .test => testDone false d
  | _ => d

end Sys2Proof.Machine
end

