-- ==== Sys2Proof/Machine/Ring.lean ====
section
/-! DEFINITION. One ring period of an island (R28, R99–R116, R129–R135, R155–R160, R168, R169, R192, R210): the period in progress ends, its replicas are compared, tokens are sampled, the slot that follows is delivered, held or suppressed, and a delivered slot advances the counter. -/

namespace Sys2Proof.Machine
open Sys2Proof

/-! ## Calibration in force -/

/-- The working calibration of island i at operating point k (Table 12.9). -/
def oppCal (d : Die) (i k : Nat) : OppCal := (tget {} d.store.work.islands i).opp.getD k {}

/-- Evidence floor E (R131). -/
def evidenceFloor (c : OppCal) : Nat := if c.u = 0xFF then 6 else 2 + min 4 ((c.u + 15) / 16)

/-- Alert slack A (R131). -/
def alertSlack (c : OppCal) : Nat := evidenceFloor c + 3

/-- Period floor of island i at operating point k, in the unit of `Config.ring20` (R113). -/
def floorPeriod (d : Die) (i k : Nat) : Nat :=
  let c := (oppCal d i k).floorD
  Config.fineStep k * (128 - if 3 ≤ c ∧ c ≤ 10 then c else 3)

/-- The active set of an island (R128, R138). -/
def activeMask (d : Die) (i : Nat) : Nat := (island d i).margin.active.getD (tget {} d.store.work.islands i).active

/-! ## The period (R99–R112) -/

/-- The slot in progress, and those before and after it, lie in one forecast window (R107, R109). -/
def inWindow (x : Ring) (sl : Slot') (c : Nat) : Bool :=
  match sl with
  | .delivered => x.windows.any (fun w => decide (w.first ≤ c ∧ c ≤ w.last))
  | .paced => x.windows.any (fun w => decide (w.first ≤ c ∧ c + 1 ≤ w.last))
  | .held _ => x.windows.any (fun w => decide (w.first ≤ c ∧ c + 1 ≤ w.last))
  | .idle => false

/-- Forecast stretch of the cycle in progress: the largest k of the windows that hold it (R109). -/
def forecastAt (x : Ring) : Nat :=
  match x.now with
  | .delivered => (x.windows.filter (fun w => decide (w.first ≤ x.count ∧ x.count ≤ w.last))).foldl (fun m w => max m w.k) 0
  | _ => 0

/-- The period in progress is injected (R102, R103, R107). -/
def injectedNow (x : Ring) : Bool :=
  match x.bellows with
  | .acquiring => true
  | .injected => !inWindow x x.now x.count && decide (x.slot % 2 ^ x.interval = 0)
  | _ => false

/-- Base period (R110, R124): Yoke period, injected period, or the free-running period. -/
def basePeriod (d : Die) (i : Nat) (obs : RingObs) : Nat :=
  let x := (island d i).ring
  let t := regionPeriod d (islandRegion i)
  if x.bellows = .yoke then Config.fineStep x.opp * (128 + yokeM x.opp)
  else if injectedNow x then
    let j := clamp (-1) 1 obs.jitter * (Config.fineStep x.opp : Int)
    let b := if 100 * obs.tFree ≤ 106 * t ∧ 94 * t ≤ 100 * obs.tFree then t
      else if t < obs.tFree then obs.tFree - 6 * t / 100 else obs.tFree + 6 * t / 100
    ((b : Int) + j).toNat
  else obs.tFree

/-- Margin stretch of the period in progress, fine steps (R108, R125). -/
def marginNow (x : Ring) : Nat := if x.bellows = .yoke then 0 else x.marginDue

/-- Forecast stretch of the period in progress, fine steps (R109, R125). -/
def forecastNow (x : Ring) : Nat := if x.bellows = .yoke then 0 else forecastAt x

/-- The period the ring produces (R110), before the floor timer. -/
def rawPeriod (d : Die) (i : Nat) (obs : RingObs) : Nat :=
  let x := (island d i).ring
  let f := Config.fineStep x.opp
  let step := if x.bellows = .yoke then 0 else x.stepDue
  ((basePeriod d i obs + (marginNow x + forecastNow x) * f : Nat) + step * (f : Int)).toNat

/-- The period as the floor timer leaves it: no ring edge comes before the floor has passed since the last edge the gate passed (R112,
R130). -/
def flooredPeriod (d : Die) (i raw : Nat) : Nat :=
  let x := (island d i).ring
  max raw (floorPeriod d i x.opp - x.sinceEdge)

/-! ## The replicas (R128–R137) -/

/-- The reading used: the lower of main and check where they disagree (R137). -/
def readingOf (m : Nat × Nat) : Nat := if m.1 + 1 < m.2 ∨ m.2 + 1 < m.1 then min m.1 m.2 else m.1

/-- Lowest slack of the active replicas, with its replica (R129, R132). -/
def lowestSlack (d : Die) (i : Nat) (obs : RingObs) : Option (Nat × Nat) :=
  let c := oppCal d i (island d i).ring.opp
  ((List.range 6).filter (bit (activeMask d i))).foldl (fun m j =>
    match obs.readings[j]? with
    | none => m
    | some r =>
      let s := readingOf r - c.offsets.getD j 0
      match m with | none => some (s, j) | some (b, n) => if s < b then some (s, j) else some (b, n)) none

/-- The replicas measure while the island clock runs, and outside Assay (R130, R146). -/
def measures (d : Die) (i : Nat) : Bool :=
  !underAssay d (islandRegion i) && match (island d i).ring.now with | .idle => false | _ => true

/-- R137: a disagreement opens, or is re-measured in each of the next three periods. -/
def recheck (m : Nat × Nat) (x : Replica) : Replica :=
  let dis := decide (m.1 + 1 < m.2 ∨ m.2 + 1 < m.1)
  if x.retired then x
  else match x.remeasure with
    | none => if dis then { x with remeasure := some (0, 0), main := m.1, check := m.2 } else x
    | some (n, a) => if n < 3 then { x with remeasure := some (n + 1, if dis then a else a + 1) } else x

/-- Every replica, spares included, is checked (R137, R140). -/
def recheckAll (i : Nat) (obs : RingObs) (d : Die) : Die :=
  each (List.range 6) (fun j d => match obs.readings[j]? with
    | some m => modMargin i (fun x => { x with replicas := tmod {} x.replicas j (recheck m) }) d
    | none => d) d

/-- The step registers of a delivered cycle with lowest slack s of replica j (R134, R135). -/
def stepSlack (count s j e : Nat) (alert : Bool) (x : Margin) : Margin :=
  { x with
    last := s
    stepMin := some (match x.stepMin with | some m => min m s | none => s)
    stepRep := match x.stepMin with | some m => if s < m then j else x.stepRep | none => j
    below := if s < e then sat 16 (x.below + 1) else x.below
    firstBelow := if s < e ∧ x.below = 0 then count else x.firstBelow
    alerts := if alert then sat 16 (x.alerts + 1) else x.alerts
    intAlerts := if alert then x.intAlerts + 1 else x.intAlerts }

/-- The alert's effect on the Bellows: margin stretch in the next period and release from it (R105, R108, R125). -/
def alertRing (a s : Nat) (x : Ring) : Ring :=
  if x.bellows = .yoke then x
  else { x with
    marginDue := min 32 (4 + 2 * (a - s))
    released := true
    goodRun := 0
    bellows := match x.bellows with | .injected => .released | .suspended => .released | b => b }

/-- The run of R106: sixteen consecutive delivered cycles with slack at or above A + 4. -/
def runRing (good : Bool) (x : Ring) : Ring :=
  if x.released ∧ x.goodRun < 16 then { x with goodRun := if good then x.goodRun + 1 else 0 } else x

/-- The comparison of R132–R135 at the capture edge of the period in progress. -/
def compare (i : Nat) (obs : RingObs) (d : Die) : Die :=
  let x := (island d i).ring
  let c := oppCal d i x.opp
  let a := alertSlack c
  let e := evidenceFloor c
  let del := decide (x.now = .delivered)
  match lowestSlack d i obs with
  | none => d
  | some (s, j) =>
    let first := (island d i).margin.below = 0
    let d := if del then modMargin i (stepSlack x.count s j e (decide (s < a))) d else d
    let d := if del ∧ s < e then noteOutside (islandRegion i) d else d
    let d := if s < a then modRing i (alertRing a s) d else if del then modRing i (runRing (decide (a + 4 ≤ s))) d else d
    if del ∧ s < e ∧ first then emit 0x0201 (.island i) (le 6 x.count ++ le 1 j ++ le 1 s ++ le 1 e) d else d

/-! ## Tokens and leads (R155–R158, R175) -/

/-- Number of ones in the low n bits. -/
def ones (n v : Nat) : Nat := total ((List.range n).map (fun b => b1 (bit v b)))

/-- The count that an 8-bit Gray code spells. -/
def grayValue (g : Nat) : Nat := (List.range 8).foldl (fun v s => v ^^^ (g / 2 ^ s)) 0 % 256

/-- Saturates at a signed 16-bit number (R158). -/
def sat16 (v : Int) : Int := clamp (-32768) 32767 v

/-- HOOP_STALE_END at an on-die end (R175). -/
def endStaleEnd (k : Nat) (d : Die) : Die :=
  match (edgeEnd d k).stale with
  | some t => emit 0x0307 (.island (endIsland k)) (le 2 (k / 2) ++ zeros 2 ++ le 4 (d.tally.now - t)) (modEnd k (fun x => { x with stale := none }) d)
  | none => d

/-- A good sample of the neighbour's count g and cause c: the lead moves by the own advance less the neighbour's (R156, R158). -/
def goodSample (dOwn g c : Nat) (x : EdgeEnd) : EdgeEnd :=
  let dn := (g + 256 - x.prev) % 256
  { x with
    lead := if x.state = .active then sat16 (x.lead + dOwn - dn) else x.lead
    neighbour := if x.state = .active then (x.neighbour + dn) % 2 ^ 48 else x.neighbour
    prev := g
    cause := if c = x.seenCause then c else x.cause
    seenCause := c
    bad := 0 }

/-- A sample that fails parity: the last good one stands; the sixteenth in a row writes TOKEN_PARITY and makes an ACTIVE edge stale (R156, R175). -/
def badSample (k dOwn : Nat) (d : Die) : Die :=
  let x := edgeEnd d k
  let d := modEnd k (fun x => { x with bad := min 65535 (x.bad + 1), lead := if x.state = .active then sat16 (x.lead + dOwn) else x.lead }) d
  if x.bad + 1 = 16 then
    let d := emit 0x0304 (.island (endIsland k)) (le 2 (k / 2)) d
    if x.state = .active ∧ x.stale.isNone then
      emit 0x0306 (.island (endIsland k)) (le 2 (k / 2) ++ le 6 x.neighbour) (modEnd k (fun x => { x with stale := some d.tally.now }) d)
    else d
  else d

/-- The token on one side is sampled (R156). -/
def sampleToken (dOwn : Nat) (k : Nat) (tok : Option Nat) (d : Die) : Die :=
  match tok with
  | none => modEnd k (fun x => { x with lead := if x.state = .active then sat16 (x.lead + dOwn) else x.lead }) d
  | some v =>
    if ones 13 v % 2 = 1 then modEnd k (goodSample dOwn (grayValue (v % 256)) (bits v 10 8)) (endStaleEnd k d)
    else badSample k dOwn d

/-- The own count moves one ring period on (R158), and every side's token is sampled. -/
def sampleTokens (i : Nat) (toks : List (Option Nat)) (d : Die) : Die :=
  let x := (island d i).ring
  let dOwn := x.own2 - x.own3
  let d := modRing i (fun x => { x with own3 := x.own2, own2 := x.own1, own1 := x.count }) d
  each (List.range 4) (fun p d => match sideEnd i p with
    | some k => if edgeExists d (k / 2) then sampleToken dOwn k (toks.getD p none) d else d
    | none => d) d

/-! ## The hold decision (R158, R159, R168) -/

/-- The edges that would hold the slot: lead, position and the neighbour's published cause, in edge order (R158). -/
def holdingEdges (d : Die) (i : Nat) : List (Int × Nat × Nat) :=
  ((List.range 4).filterMap (fun p => match sideEnd i p with
    | some k => let e := edgeEnd d k
                if e.state = .active ∧ 6 ≤ e.lead then some (e.lead, p, e.cause) else none
    | none => none))
  ++ (match islandLink i with
    | some l => let x := link d l
                if linkHolds x && decide (512 ≤ x.lead) then [(x.lead, 4, x.remoteCause)] else []
    | none => [])

/-- The edge with the largest lead; ties go to the order N, E, S, W, link (R159). -/
def comparator (d : Die) (i : Nat) : Option (Nat × Nat) :=
  ((holdingEdges d i).foldl (fun m c => match m with
    | none => some c | some b => if b.1 < c.1 then some c else some b) none).map (fun c => (c.2.1, c.2.2))

/-- Edge index of a position in records: the on-die edge, or the link (log 13). -/
def edgeAt (i p : Nat) : Nat :=
  if p = 4 then (islandLink i).getD 0xFFFF else match sideEnd i p with | some k => k / 2 | none => 0xFFFF

/-- Guards act on a position (R168). -/
def guarded (d : Die) (i p : Nat) : Bool :=
  if p = 4 then match islandLink i with
    | some l => let x := link d l; x.up && decide (x.state ≠ .uncoupled ∧ x.state ≠ .excused)
    | none => false
  else match sideEnd i p with
    | some k => match (edgeEnd d k).state with | .active => true | .pending => true | .released => true | _ => false
    | none => false

/-- Key of the receiving lane of a use: the island's own for a read and for a link, the neighbour's for an on-die write. -/
def useLane (i : Nat) (u : LaneUse) : Nat :=
  if u.isRead ∨ u.pos = 4 then laneKey i u.pos (u.lane % 8)
  else match sideEnd i u.pos with
    | some k => laneKey (endIsland (farEnd k)) (oppositeSide u.pos) (u.lane % 8)
    | none => laneKey i u.pos (u.lane % 8)

/-- The use names a lane of an edge the island has. -/
def laneExists (i : Nat) (u : LaneUse) : Bool := if u.pos = 4 then (islandLink i).isSome else (sideEnd i u.pos).isSome

/-- The arrival guard holds: the entry to be read is not visible yet, and its lane is not poisoned (R168). -/
def arrivalGuard (d : Die) (i : Nat) (u : LaneUse) : Bool :=
  u.isRead && !u.visible && guarded d i u.pos && !(lane d (useLane i u)).poisoned

/-- The overflow guard holds: the on-die lane would be full as the writer sees it (R163, R168). -/
def overflowGuard (d : Die) (i : Nat) (u : LaneUse) : Bool :=
  !u.isRead && decide (u.pos < 4) && guarded d i u.pos && decide (32 ≤ (lane d (useLane i u)).occ)

/-- The first use whose guard holds the slot. -/
def guardHold (d : Die) (i : Nat) (uses : List LaneUse) : Option LaneUse :=
  uses.find? (fun u => laneExists i u && (arrivalGuard d i u || overflowGuard d i u))

/-- A slot held is counted once, by cause and by edge (R159, R171, R172). -/
def countHold (i pos cause : Nat) (d : Die) : Die :=
  let d := modHolds i (fun x => { x with byCause := lset 0 x.byCause cause (sat 32 (x.byCause.getD cause 0 + 1)), byEdge := lset 0 x.byEdge pos (sat 32 (x.byEdge.getD pos 0 + 1)) }) d
  let d := { d with limits := { d.limits with caused := d.limits.caused + b1 (decide (cause ≠ 6)), suffered := d.limits.suffered + b1 (decide (pos = 4 ∨ cause = 6)) } }
  match islandLink i with
  | some l => if pos = 4 then modLink l (fun x => { x with heldForYou := if x.remoteCause = 6 then x.heldForYou else sat 16 (x.heldForYou + 1) }) d else d
  | none => d

/-- A crossing record: edge, lane, kind and the island's cycle (Table 15.3). -/
def crossingRecord (code i kind : Nat) (u : LaneUse) (d : Die) : Die :=
  emit code (.island i) (le 2 (edgeAt i u.pos) ++ le 1 u.lane ++ le 1 kind ++ le 6 (island d i).ring.count) d

/-- A guard holds the slot: the count, and the record of the first such event in the step (R168). -/
def countGuard (i : Nat) (u : LaneUse) (d : Die) : Die :=
  let h := (island d i).holds
  let d := countHold i u.pos 7 d
  if u.isRead then
    let d := if h.late = 0 then crossingRecord 0x0309 i 0 u d else d
    modHolds i (fun x => { x with late := sat 16 (x.late + 1) }) d
  else
    let d := if h.overflow = 0 then crossingRecord 0x030A i 0 u d else d
    modHolds i (fun x => { x with overflow := sat 16 (x.overflow + 1) }) d

/-! ## Crossing lanes (R163, R166, R168, R169) -/

/-- CROSSING_POISON: kinds 0 write refused on a link, 1 read delivered not valid; the first of a step is written, and the step's certificate is marked
(R168, Table 15.6). -/
def crossingPoison (i kind : Nat) (u : LaneUse) (d : Die) : Die :=
  let d := if (island d i).holds.poison = 0 then crossingRecord 0x030B i kind u d else d
  certMark (islandRegion i) (fun x => { x with poison := true }) (modHolds i (fun x => { x with poison := x.poison + 1 }) d)

/-- Occupancy of a receiving lane rises; QUEUE_HIGH past 27 entries, or 1,377 flits (R169). -/
def laneFill (r pos edge : Nat) (u : LaneUse) (key : Nat) (d : Die) : Die :=
  let o := (lane d key).occ + 1
  let d := modLane key (fun x => { x with occ := o }) d
  let h := (island d r).holds
  let d := if h.highWater < o then modHolds r (fun x => { x with highWater := o, highEdge := pos }) d else d
  if (if pos = 4 then 1377 else 27) < o ∧ !h.highLogged then
    emit 0x030C (.island r) (le 2 edge ++ le 1 u.lane ++ zeros 1 ++ le 2 o) (modHolds r (fun x => { x with highLogged := true }) d)
  else d

/-- One read or write of a delivered slot (R168). -/
def useLaneOp (i : Nat) (u : LaneUse) (d : Die) : Die :=
  let key := useLane i u
  if !laneExists i u then d
  else if u.isRead then
    let p := (lane d key).poisoned
    let d := if u.visible then modLane key (fun x => if u.pos = 4 then { x with occ := x.occ - 1 } else { x with freed1 := x.freed1 + 1 }) d else d
    if p || !u.visible then crossingPoison i 1 u d else d
  else if u.pos = 4 then
    if 2048 ≤ (lane d key).occ then crossingPoison i 0 u (modLane key (fun x => { x with poisoned := true }) d)
    else laneFill i 4 (edgeAt i 4) u key d
  else match sideEnd i u.pos with
    | some k => laneFill (endIsland (farEnd k)) (oppositeSide u.pos) (k / 2) u key d
    | none => d

/-- The lanes this island sends on see reads three of its ring periods old (R162). -/
def ageLanes (i : Nat) (d : Die) : Die :=
  each (List.range 4) (fun p d => match sideEnd i p with
    | some k => each (List.range 8) (fun n d => modLane (laneKey (endIsland (farEnd k)) (oppositeSide p) n) (fun x => { x with occ := x.occ - x.freed3, freed3 := x.freed2, freed2 := x.freed1, freed1 := 0 }) d) d
    | none => d) d

/-! ## The slot that follows -/

/-- The horizon lets the next cycle begin (R210). A plan that is loaded and not started has none in force. -/
def horizonOpen (d : Die) (i : Nat) : Bool :=
  match (region d (islandRegion i)).plan with
  | some c => match context d c with
    | some x => decide (x.state = .loaded) || x.open_ || decide ((island d i).ring.count + 34 ≤ x.last)
    | none => true
  | none => true

/-- The fast-step accumulator after this period, and whether it delivers the slot (R192). -/
def fastSlot (d : Die) (i : Nat) : Nat × Bool :=
  let x := (island d i).ring
  match (region d (islandRegion i)).fast with
  | some r => if x.fast then (if 65536 ≤ x.acc + r then (x.acc + r - 65536, true) else (x.acc + r, false)) else (x.acc, true)
  | none => (x.acc, true)

/-- PATTERN_STARVED at the first slot that a starved plan suppresses (R213). -/
def starvedSlot (i : Nat) (d : Die) : Die :=
  match (region d (islandRegion i)).plan with
  | some c => match context d c with
    | some x => if x.state = .starved ∧ x.starvedSince.isNone ∧ !horizonOpen d i then
        emit 0x0508 (.other c) (zeros 12) (setContext c (some { x with starvedSince := some d.tally.now }) d)
      else d
    | none => d
  | none => d

/-- Cause an island publishes for the slot that ends (R160). -/
def publishedCause (x : Ring) : Nat :=
  if !x.gate then (if x.pauseFrom.isSome then 0 else 4)
  else if x.bellows = .yoke then 3
  else match x.now with
    | .held c => c
    | _ => if 0 < x.marginDue ∨ x.released then 1 else if 0 < forecastAt x then 2 else 0

/-- Relay cause of a slot held on position `pos` against cause `c` (Table 6.4). -/
def relayCause (pos c : Nat) : Nat := if pos = 4 ∨ c = 6 then 6 else 5

/-- Delivers the slot: the counter advances, and the boundary's new values take hold (R115, R148, R192). -/
def deliver (i : Nat) (d : Die) : Die :=
  let r := region d (islandRegion i)
  modRing i (fun x => { x with
    count := (x.count + 1) % 2 ^ 56
    now := .delivered
    sinceEdge := 0
    opp := x.oppDue.getD x.opp
    oppDue := none
    sinceStep := min 8 (x.sinceStep + 1)
    acc := if r.fast.isSome ∧ !x.fast then 0 else x.acc
    fast := r.fast.isSome }) d

/-- The slot that follows, with the gate open (R28, R159, R168, R192, R210). -/
def nextSlot (i : Nat) (obs : RingObs) (d : Die) : Die :=
  let x := (island d i).ring
  let held := comparator d i
  let guard' := guardHold d i obs.lanes
  let f := fastSlot d i
  let stopNow := x.stopDue || (obs.coreStop && held.isNone && guard'.isNone)
  let d := if obs.coreStop ∧ !stopNow then modRing i (fun x => { x with stopDue := true }) d else d
  let d := modRing i (fun x => { x with acc := f.1 }) d
  let pace := !f.2 || !horizonOpen d i
  let d := if pace then starvedSlot i d else d
  if stopNow then closeGate i (modRing i (fun x => { x with coreStopped := true }) d)
  else match held with
    | some (p, c) => modRing i (fun x => { x with now := .held (relayCause p c) }) (countHold i p c d)
    | none =>
      if pace then modHolds i (fun x => { x with pace := x.pace + 1 }) (modRing i (fun x => { x with now := .paced }) d)
      else match guard' with
        | some u => modRing i (fun x => { x with now := .held 7 }) (countGuard i u d)
        | none => each obs.lanes (useLaneOp i) (deliver i d)

/-- The gate is closed: a core stop that is withdrawn lets it open again (R28, R117); the slots of a pause count as pace cycles (R195). -/
def closedSlot (i : Nat) (obs : RingObs) (d : Die) : Die :=
  let x := (island d i).ring
  let d := modRing i (fun x => { x with now := .idle, coreStopped := obs.coreStop }) d
  let d := if x.pauseFrom.isSome then modHolds i (fun h => { h with pace := h.pace + 1 }) d else d
  let runs : Bool := match x.bellows with
    | .stopped => false
    | .yoke => clockPresent d (islandRegion i)
    | .acquiring => false
    | _ => x.pauseFrom.isNone
  if x.coreStopped ∧ !obs.coreStop ∧ runs then modRing i (fun y => { y with gate := islandMayRun d i }) d else d

/-- The Bellows' state for the period that follows (R102, R104, R107). -/
def nextBellows (x : Ring) : Ring :=
  let inW := inWindow x x.now x.count
  let x := { x with windowDirty := x.windowDirty || (match x.bellows with | .suspended => true | .released => true | _ => false), windows := x.windows.filter (fun w => decide (x.count ≤ w.last)) }
  match x.bellows with
  | .injected =>
    if inW then { x with bellows := .suspended }
    else
      let s := x.slot + 1
      match x.intervalDue with
      | some v => if s % 2 ^ x.interval = 0 then { x with interval := v, intervalDue := none, slot := 0 } else { x with slot := s }
      | none => { x with slot := s }
  | .suspended => if inW then x else { x with bellows := .injected, slot := 0, interval := x.intervalDue.getD x.interval, intervalDue := none }
  | _ => x

/-- The accounts of the period that ends (R142, R284, R386). -/
def periodAccounts (i len : Nat) (d : Die) : Die :=
  let x := (island d i).ring
  let f := Config.fineStep x.opp
  let fenced := (region d (islandRegion i)).fenced
  let ex := ((len : Int) - Config.period x.opp - forecastNow x * (f : Int) - x.stepDue * (f : Int)).toNat
  modMargin i (fun y => match x.now with
    | .delivered => { y with
        intDelivered := y.intDelivered + 1
        winDelivered := y.winDelivered + 1
        winStretched := y.winStretched + b1 (decide (0 < marginNow x + forecastNow x))
        winCauses := ladd y.winCauses (publishedCause x) 1
        excess := if fenced then y.excess + ex else y.excess
        exCycles := y.exCycles + 1 }
    | .held _ => { y with winHeld := y.winHeld + 1, winCauses := ladd y.winCauses (publishedCause x) 1 }
    | _ => y) d

/-- One ring period of island i ends, and the slot that follows is decided. -/
def ringPeriod (i : Nat) (obs : RingObs) (d : Die) : Die :=
  let x := (island d i).ring
  if x.bellows = .stopped ∨ x.settleSince.isSome then d
  else
    let len := flooredPeriod d i (rawPeriod d i obs)
    let d := periodAccounts i len d
    let d := modRing i (fun x => { x with period := len, sinceEdge := x.sinceEdge + len, cause := publishedCause x, marginDue := 0, stepDue := 0 }) d
    let d := modHolds i (fun h => { h with lastHeld := match x.now with | .held _ => true | _ => false }) d
    let d := if measures d i then compare i obs (recheckAll i obs d) else d
    let d := ageLanes i (sampleTokens i obs.tokens d)
    let d := if x.gate then nextSlot i obs d else closedSlot i obs d
    modRing i nextBellows d

/-- RING_PERIOD (R110). -/
def execRingPeriod (island : Nat) (obs : RingObs) (s : State) : Host.Outcome State Fault Refusal := run (isIsland island) (ringPeriod island obs) s

end Sys2Proof.Machine
end

