-- ==== Sys2Proof/Machine/Bellows.lean ====
section
/-! DEFINITION. The Bellows' events (R102–R107, R116, R118, R405): settling, lock windows, acquisition timeouts, resumption and phase steps. -/

namespace Sys2Proof.Machine
open Sys2Proof

/-- PAUSE_SWITCH (R195): the last gate of a region's pause has opened, so its wait is the longest. -/
def pauseEnd (r : Nat) (d : Die) : Die :=
  match (region d r).pause with
  | some (id, t, old, new) =>
    if (regionIslands r).any (fun i => (island d i).ring.pauseFrom.isSome) then d
    else emit 0x0405 (.region r) (le 4 id ++ le 4 (d.tally.now - t) ++ le 1 old ++ le 1 new) (modRegion r (fun x => { x with pause := none }) d)
  | none => d

/-- Injection lock is declared (R103, R118): the interval in force takes over, and a closed gate is enabled at the next low phase. -/
def injectionLock (i : Nat) (d : Die) : Die :=
  let run' := islandMayRun d i
  pauseEnd (islandRegion i) <| modRing i (fun x =>
    let x := { x with slot := 0, interval := x.intervalDue.getD x.interval, intervalDue := none, matching := 0, missing := 0, windowDirty := false, gate := x.gate || run', pauseFrom := none }
    { x with bellows := if x.released then .released else if inWindow x x.now x.count then .suspended else .injected }) d

/-- R103, R104: a window of 256 region clock periods matches when the ring completed 255 to 257 periods in it. One with a suspended or
released period is discarded. -/
def injectionWindow (i periods : Nat) (d : Die) : Die :=
  let x := (island d i).ring
  let ok := decide (255 ≤ periods ∧ periods ≤ 257)
  if !clockPresent d (islandRegion i) then d
  else match x.bellows with
  | .acquiring =>
    if x.settleSince.isSome then d
    else if !ok then modRing i (fun x => { x with matching := 0 }) d
    else if x.matching + 1 < 2 then modRing i (fun x => { x with matching := x.matching + 1 }) d
    else injectionLock i d
  | .injected =>
    if x.windowDirty then modRing i (fun x => { x with windowDirty := false }) d
    else if ok then modRing i (fun x => { x with missing := 0 }) d
    else if x.missing + 1 < 2 then modRing i (fun x => { x with missing := x.missing + 1 }) d
    else acquire i .reacquisition d
  | _ => d

/-- INJECTION_WINDOW_END (R103, R104). -/
def execInjectionWindowEnd (island periods : Nat) (s : State) : Host.Outcome State Fault Refusal := run (isIsland island) (injectionWindow island periods) s

/-- Context code of INJECTION_LOCK_FAIL. -/
def contextCode : AcqContext → Nat
  | .start => 0 | .reacquisition => 1 | .pauseSwitch => 2

/-- R103, R405: an acquisition without lock for 1,400 ns fails and is counted; the third failure within 10 s retires the Bellows, and
another retries as its context says. -/
def injectionTimeout (i : Nat) (d : Die) : Die :=
  let x := (island d i).ring
  if x.bellows = .acquiring ∧ x.settleSince.isNone ∧ x.acqSince + 1400 ≤ d.tally.now then
    let l := addFailure d.tally.now x.failures
    let d := modRing i (fun x => { x with failures := l }) d
    let d := emit 0x010A (.island i) (le 1 (recentFailures d.tally.now l) ++ le 1 (contextCode x.acqContext)) d
    if permanent l then bellowsRetire i 0 l.length d
    else match x.acqContext with
      | .start => modRing i (fun x => { x with settleSince := some d.tally.now, matching := 0, missing := 0 }) d
      | .reacquisition => acquire i .reacquisition d
      | .pauseSwitch => acquire i .reacquisition d
  else d

/-- INJECTION_ACQUISITION_TIMEOUT (R103, R405). -/
def execInjectionAcquisitionTimeout (island : Nat) (s : State) : Host.Outcome State Fault Refusal :=
  run (isIsland island) (injectionTimeout island) s

/-- R118: after 100 ns of settling, acquisition begins with the gate closed; without a region clock the start waits for it. -/
def settleDone (i : Nat) (d : Die) : Die :=
  let x := (island d i).ring
  match x.settleSince with
  | some t => if x.bellows = .acquiring ∧ t + 100 ≤ d.tally.now ∧ clockPresent d (islandRegion i) then acquire i x.acqContext d else d
  | none => d

/-- BELLOWS_SETTLE_DONE (R118). -/
def execBellowsSettleDone (island : Nat) (s : State) : Host.Outcome State Fault Refusal := run (isIsland island) (settleDone island) s

/-- R106, R107: released injection resumes with an injection period, once the run of sixteen cycles is complete, the region clock is
present and no forecast window is open. -/
def injectionResume (i : Nat) (d : Die) : Die :=
  let x := (island d i).ring
  if x.bellows = .released ∧ 16 ≤ x.goodRun ∧ clockPresent d (islandRegion i) ∧ !inWindow x x.now x.count then
    modRing i (fun x => { x with bellows := .injected, released := false, goodRun := 0, slot := 0, interval := x.intervalDue.getD x.interval, intervalDue := none }) d
  else d

/-- INJECTION_RESUME (R106, R107). -/
def execInjectionResume (island : Nat) (s : State) : Host.Outcome State Fault Refusal := run (isIsland island) (injectionResume island) s

/-- R116: one step of a phase request falls due in the period in progress; an advancing one only where the period does not fall below the
floor, and none while the region is fenced (Table 11.2). The injection phase offset moves with it. -/
def phaseStep (i tFree : Nat) (d : Die) : Die :=
  let x := (island d i).ring
  let v : Int := if 0 < x.phaseLeft then 1 else -1
  let fits := decide (0 < v) || decide (floorPeriod d i x.opp + Config.fineStep x.opp ≤ rawPeriod d i { tFree := tFree })
  if x.phaseLeft ≠ 0 ∧ !(region d (islandRegion i)).fenced ∧ x.gate ∧ x.bellows ≠ .yoke ∧ x.stepDue = 0 ∧ 8 ≤ x.sinceStep ∧ fits then
    modRing i (fun x => { x with phase := x.phase + v, phaseLeft := x.phaseLeft - v, stepDue := v, sinceStep := 0 }) d
  else d

/-- PHASE_STEP (R116). -/
def execPhaseStep (island tFree : Nat) (s : State) : Host.Outcome State Fault Refusal := run (isIsland island) (phaseStep island tFree) s

end Sys2Proof.Machine
end

