-- ==== Sys2Proof/Machine/Stops.lean ====
section
/-! DEFINITION. The caps and loans of the pool (R248, R250, R268–R272), the die stop (R264–R267), the uncorrectable fabric fault (R415) and the records of a reset (R429, R443). -/

namespace Sys2Proof.Machine
open Sys2Proof

/-! ## Caps and loans -/

/-- Total lent, and total borrowed, 0.1 W (R268, R269). -/
def lentTotal (d : Die) : Nat := total ((List.range 32).map (fun l => (link d l).pool.loan.toNat))
def borrowedTotal (d : Die) : Nat := total ((List.range 32).map (fun l => (-(link d l).pool.loan).toNat))

/-- The sustained cap in force, mW: the base cap less what is lent plus what is borrowed (R248, R268). -/
def sustainedMw (d : Die) : Nat := d.limits.base * 1000 + 100 * borrowedTotal d - 100 * lentTotal d

/-- The greatest burst credit, fJ (R250). -/
def creditMax (d : Die) : Nat := (d.limits.burst * 1000 - sustainedMw d) * 5000 * 1000000

/-- A change of the sustained cap by the pool clamps the credit and leaves the flag (R250). -/
def clampCredit (d : Die) : Die := { d with limits := { d.limits with credit := min d.limits.credit (creditMax d) } }

/-- Changes the loan of a link. -/
def setLoan (l : Nat) (v : Int) (d : Die) : Die := clampCredit (modLink l (fun x => { x with pool := { x.pool with loan := v } }) d)

/-- A POOL frame waits for its lane: kinds 0 STATUS, 1 GRANT, 2 RETURN, 3 RECALL (R269, R462). -/
def sendPool (l kind ack amount : Nat) (d : Die) : Die :=
  modLink l (fun x =>
    let q := (x.pool.seq + 1) % 65536
    { x with pool := { x.pool with seq := q, outstanding := x.pool.outstanding || decide (kind ≠ 0) }, waitPool := x.waitPool ++ [.pool kind q ack x.pool.want x.pool.offer amount x.pool.loan] }) d

/-- The three pool records: amount, role 0 lender or 1 borrower, and the sustained cap now, W. -/
def poolRecord (code l amount role : Nat) (d : Die) : Die :=
  emit code (.link l) (le 2 amount ++ le 1 role ++ zeros 1 ++ le 2 (sustainedMw d / 1000)) d

/-- The borrower returns the whole loan of a link: its cap falls first, then RETURN goes out (R272). -/
def returnLoan (l ack : Nat) (d : Die) : Die :=
  let n := (-(link d l).pool.loan).toNat
  if n = 0 then d else poolRecord 0x0702 l n 1 (sendPool l 2 ack n (setLoan l 0 d))

/-! ## The stop -/

/-- Synthesizers of a region stop, unless a commit past its decision has still to switch it (R264, R501). -/
def stopSynths (r : Nat) (d : Die) : Die :=
  let keep := match pendingCommit d r with | some c => c.decided && !bit (c.switched ||| c.refused) r | none => false
  if keep then d else powerSynth r 1 (powerSynth r 0 (deselect r d))

/-- LIMIT_DRAIN_END (R255, R267). -/
def drainEnd (x : LimitDrain) (d : Die) : Die :=
  emit 0x0608 .none (le 1 x.loop ++ le 1 (if x.loop = 1 ∨ x.loop = 2 then x.index else 0xFF) ++ le 2 (if x.loop = 3 then x.index else 0xFFFF)
    ++ le 4 (d.tally.now - x.since) ++ le 1 x.lowest) d

/-- Every drain ends (R267). -/
def endDrains (d : Die) : Die := each d.limits.drains drainEnd { d with limits := { d.limits with drains := [] } }

/-- The steps of Table 10.5 that end in the retention writes: commits not past their decision abort with CEILING, every island halts,
synthesizers stop and the rails go to the retention voltage (R264, R415). Start-up halts in its step (R425). -/
def haltDie (coolant : Bool) (d : Die) : Die :=
  let d := abortWhere (fun _ _ => true) 3 0xFF d
  let d := match d.store.assay with | some a => (match a.region with | some r => assayAbort r 2 d | none => d) | none => d
  let d := { d with stop := { d.stop with stopped := true, resumeAt := none }, startup := { d.startup with begun := false }, store := { d.store with assay := match d.store.assay with | some a => if a.region.isNone then none else some a | none => none } }
  let d := iff' coolant (fun d => each (presentRegions d) (fun r d => setCeiling 11 r (some 0) d) d) d
  let d := each (presentIslands d) stopBellows d
  let d := each (presentRegions d) stopSynths d
  let d := allRetention (endDrains d)
  each (List.range 32) (fun l d => returnLoan l 0xFFFF d) d

/-- A cause is detected: 1 COOLANT, 2 TRIP, 3 ESTOP_N, 4 REGISTER (R264, R266, R267). A scheduled release is cancelled; the Ledger
freezes and THERMTRIP_N asserts for COOLANT and TRIP. -/
def stopDie (cause sensor : Nat) (d : Die) : Die :=
  let was := d.stop.stopped && d.stop.resumeAt.isNone
  let d := { d with stop := { d.stop with
    coolant := d.stop.coolant || decide (cause = 1)
    trip := d.stop.trip || decide (cause = 2)
    estop := d.stop.estop || decide (cause = 3)
    register := d.stop.register || decide (cause = 4)
    thermtrip := d.stop.thermtrip || decide (cause ≤ 2)
    stood := d.stop.stood ||| 2 ^ (cause - 1)
    td := d.tally.now
    resumeAt := none } }
  let d := fabricInt 1 (emit 0x060E .none (le 1 cause ++ zeros 1 ++ le 2 sensor ++ le 8 d.tally.now) d)
  let d := if was then iff' (decide (cause = 1 ∨ cause = 3)) (fun d => each (presentRegions d) (fun r d => setCeiling 11 r (some 0) d) d) d
    else haltDie (decide (cause = 1 ∨ cause = 3)) d
  throttleAll (if cause ≤ 2 then freeze cause d else d)

/-- FABRIC_FAULT (R415, Table 16.3): the record, the freeze, the fault indication and, for causes 1, 2 and 4, the fault stop. -/
def fabricFault (cause detail : Nat) (d : Die) : Die :=
  let d := { d with stop := { d.stop with fault := cause, faultDetail := detail } }
  let d := fabricInt 0 (emit 0x0B02 .none (le 1 cause ++ zeros 3 ++ le 4 detail) d)
  let d := freeze 3 d
  if cause = 3 then d
  else
    let was := d.stop.stopped && d.stop.resumeAt.isNone
    let d := { d with stop := { d.stop with faultStop := some cause, td := if d.stop.stopped then d.stop.td else d.tally.now, resumeAt := none } }
    if was then d else throttleAll (haltDie true d)

/-- BOTH_ROOTS_LOST (R79, Table 16.3): Tally holds, the fault stop acts, and fabric fault 2 names the failures counted of each root. -/
def bothRootsLost (d : Die) : Die :=
  fabricFault 2 (d.clocks.root0.failures.length + 256 * d.clocks.root1.failures.length) { d with tally := { d.tally with running := false } }

/-! ## The rise to OPP 0 (R266, R424) -/

/-- Every region takes OPP 0 and the rails go to its targets (R180, R185): step 7 of start-up, and a resume. -/
def raiseDie (d : Die) : Die :=
  let d := each (presentRegions d) (fun r d => modRegion r (fun x => { x with opp := 0, test := none, fast := none, settleDue := none, restoreDue := none }) d) d
  each (List.range 5) retarget d

/-- A rail stands at its target, as far as a rise to OPP 0 waits for it (R185). -/
def railStands (x : Rail) : Bool := x.retention || x.confirmed

/-- A rise to OPP 0 is in progress: a resume is scheduled, or step 7 or a later one has begun. -/
def rising (d : Die) : Bool := d.stop.resumeAt.isSome || (decide (7 ≤ d.startup.step ∧ d.startup.ready ≠ 1) && d.startup.begun && !d.stop.stopped)

/-- A region that has left Bank waits for its rails (Table 17.6): its synthesizers are powered down and nothing else stands against it. -/
def awaitsRails (d : Die) (r : Nat) : Bool :=
  let down := fun (x : Nat) => decide ((synth d r x).phase = .off)
  decide (d.startup.ready = 1) && !d.stop.stopped && (region d r).select.isNone && down 0 && down 1 && !(region d r).retired && !inBank d r && (region d r).reset.isNone

/-- The regions that have left Bank acquire both synthesizers once their rails are confirmed (Table 17.6). -/
def bankAcquire (d : Die) : Die :=
  each ((presentRegions d).filter (awaitsRails d)) (fun r d =>
    if railStands (rail d (regionRail r)) ∧ (72 ≤ r ∨ railStands (rail d 4)) then acquireBoth r .startup d else d) d

/-- Once every rail is confirmed, both synthesizers of every region acquire OPP 0, except of those in Bank (R266, R424). -/
def railsUp (d : Die) : Die :=
  if rising d ∧ (List.range 5).all (fun k => railStands (rail d k)) then
    each (presentRegions d) (fun r d => if (region d r).retired ∨ inBank d r ∨ (region d r).select.isSome then d else acquireBoth r .startup d) d
  else bankAcquire d

/-! ## Reset records -/

/-- RESET (R429): origins 0 pin, 1 host, 2 fabric. -/
def emitReset (kind phase origin : Nat) (l : Loc) (d : Die) : Die := emit 0x0B03 l (le 1 kind ++ le 1 phase ++ le 1 origin) d

/-- The bitmap of SETTINGS_DEFAULTED for reset kinds 1 to 3 (R443). -/
def defaultedMap (kind : Nat) : Nat :=
  if kind = 1 then 0x1FFFFFFFDFF else if kind = 2 then 0x1FFFFFFE4CA else 0x1FFFFFFE4CE

/-- SETTINGS_DEFAULTED (R443). -/
def settingsDefaulted (kind : Nat) (d : Die) : Die := emit 0x0B05 .none (le 8 (defaultedMap kind) ++ le 1 kind) d

end Sys2Proof.Machine
end

