-- ==== Sys2Proof/Machine/Commit.lean ====
section
/-! DEFINITION. Commits from acceptance to the voltage fall (R181–R191, R501), pause-switches (R195, R196), settlement and restoring requests (R194, R247), and the actions a region input applies (R192, R225, R281). -/

namespace Sys2Proof.Machine
open Sys2Proof

/-! ## Acceptance -/

/-- PATTERN_GRANT (R215): the commit form with the late and re-grant marks in byte 6, and the deferred regions. -/
def patternGrant (c : Commit) (late regrant : Bool) (deferred : RegionSet) (d : Die) : Die :=
  emit 0x0509 (.other c.context) (commitForm c (b1 late + 2 * b1 regrant) 0xFF ++ le 10 deferred) d

/-- The Chandler accepts the first waiting commit of the Pattern engine or the limit unit, at the first legal count (R181, R194, R215, R247).
Members with an obstacle are deferred. No commit is accepted while the die is stopped (R265). -/
def commitAccept (d : Die) : Die :=
  match d.commitReqs with
  | [] => d
  | q :: t =>
    if !chandlerRuns d || d.stop.stopped then d
    else
      let d := { d with commitReqs := t }
      let free := (setRegions q.members).filter (fun r => !commitBlocked d r)
      let kept := (setRegions q.members).filter (fun r => commitBlocked d r && !(region d r).retired)
      let members := regionSet free
      if members = 0 then d
      else
        let id := d.nextCommit
        let d := acceptCommit q.source q.target members (firstCount d) q.context q.aborts none d
        match q.source with
        | .pattern => match commitOf d id with
          | some c => patternGrant c q.late q.regrant (q.deferred ||| regionSet kept) d
          | none => d
        | _ => d

/-- COMMIT_ACCEPT (R181). -/
def execCommitAccept (s : State) : Host.Outcome State Fault Refusal := run true commitAccept s

/-! ## Voltage rise and decision -/

/-- A synthesizer is locked for commit `id` at region r: its idle one, or the sole one of a pause-switch (R184, R195). -/
def memberLocked (d : Die) (c : Commit) (r : Nat) : Bool :=
  let x := region d r
  if bit c.pausing r then
    let s := synth d r x.live
    bit c.lent r && s.lock && decide (s.use = .pause c.id)
  else
    let s := synth d r (idleOf x)
    s.lock && decide (s.use = .commit c.id)

/-- Rails whose target the commit's rise would raise (R180, R185). -/
def risingRails (d : Die) (c : Commit) : List Nat :=
  let d' := modCommit c.id (fun e => { e with riseWritten := true }) d
  (List.range 5).filter (fun k => decide ((rail d k).target < (ruleTarget d' k).getD 0))

/-- R185: from T − 25 µs, once every synthesizer is locked, the Chandler writes the targets that rise. -/
def voltageRise (id : Nat) (d : Die) : Die :=
  match commitOf d id with
  | some c =>
    let locked := (setRegions (c.retuned ||| c.pausing)).all (memberLocked d c)
    if c.riseWritten ∨ c.decided ∨ d.tally.now + 25000 < c.count ∨ !locked ∨ !chandlerRuns d then d
    else
      let l := risingRails d c
      let d := modCommit id (fun e => { e with riseWritten := true, raised := l.foldl (fun m k => m ||| 2 ^ k) 0 }) d
      each l retarget d
  | none => d

/-- COMMIT_VOLTAGE_RISE (R185). -/
def execCommitVoltageRise (commit : Nat) (s : State) : Host.Outcome State Fault Refusal := run true (voltageRise commit) s

/-- Rails that a commit had to raise and that are not confirmed (R185, R191). -/
def unconfirmed (d : Die) (c : Commit) : List Nat :=
  if c.riseWritten then (List.range 5).filter (fun k => bit c.raised k && !(rail d k).confirmed) else risingRails d c

/-- The lowest member on a rail (R189). -/
def memberOnRail (c : Commit) (k : Nat) : Nat :=
  ((setRegions c.members).find? (fun r => if k = 4 then decide (r < 72) else decide (regionRail r = k))).getD (lowestOf c.members)

/-- Why a commit fails its decision, if it does: reason, region and fault field (R189, R190, R501, Table 7.3). -/
def decisionFailure (d : Die) (c : Commit) : Option (Nat × Nat × Nat) :=
  match (setRegions c.retuned).find? (fun r => !memberLocked d c r) with
  | some r => some (1, r, idleOf (region d r))
  | none => match unconfirmed d c with
    | k :: _ => some (2, memberOnRail c k, k)
    | [] => match (setRegions c.members).find? (fun r => let g := tget 0 c.grants r; decide (regionCeiling (region d r) < g ∧ (region d r).opp < g)) with
      | some r => some (3, r, 0xFF)
      | none => match (setRegions c.pausing).find? (fun r => !memberLocked d c r) with
        | some r => some (8, r, 0xFF)
        | none => none

/-- R501: at T − 10 ns the commit aborts, or passes its decision. -/
def commitDecision (id : Nat) (d : Die) : Die :=
  match commitOf d id with
  | some c =>
    if c.decided ∨ d.tally.now + 10 < c.count then d
    else match decisionFailure d c with
      | some (reason, r, fault) => abortCommit id reason r fault d
      | none => modCommit id (fun e => { e with decided := true }) d
  | none => d

/-- COMMIT_DECISION (R501). -/
def execCommitDecision (commit : Nat) (s : State) : Host.Outcome State Fault Refusal := run true (commitDecision commit) s

/-- R186: at T the strobe makes the switches of a decided commit due. A member that needs no retune has nothing to switch (R181). -/
def commitStrobe (id : Nat) (d : Die) : Die :=
  match commitOf d id with
  | some c =>
    if !c.decided ∨ c.strobed ∨ d.tally.now < c.count then d
    else
      let still := regionSet ((setRegions c.members).filter (fun r => !bit (c.retuned ||| c.pausing) r))
      commitDone id (modCommit id (fun e => { e with strobed := true, switched := still }) d)
  | none => d

/-- COMMIT_STROBE (R186). -/
def execCommitStrobe (commit : Nat) (s : State) : Host.Outcome State Fault Refusal := run true (commitStrobe commit) s

/-! ## The switch -/

/-- R195: at the switch of a pause-switch member each running gate closes at its next low phase, and the Bellows adopts the new values and
acquires injection; a Yoke island restarts with the region clock (R125). -/
def pauseIslands (r k t : Nat) (d : Die) : Die :=
  each (regionIslands r) (fun i d =>
    let x := (island d i).ring
    if x.gate ∧ x.bellows ≠ .yoke then
      let d := modRing i (fun x => { x with gate := false, now := .idle, cause := 0, pauseFrom := some t, opp := k, oppDue := none, released := false, goodRun := 0 }) d
      acquire i .pauseSwitch d
    else modRing i (fun x => { x with opp := k, oppDue := none }) d) d

/-- The member's operating point, and what follows from it: the alert runs (R142), the fast step (R192) and the standby (R87). -/
def memberSwitched (c : Commit) (r : Nat) (offset : Int) (d : Die) : Die :=
  let g := tget 0 c.grants r
  let d := clearRuns r (modRegion r (fun x => { x with opp := g }) d)
  let d := modCommit c.id (fun e => { e with
    switched := e.switched ||| 2 ^ r
    earliest := some (match e.earliest with | some v => min v offset | none => offset)
    latest := some (match e.latest with | some v => max v offset | none => offset) }) d
  fastStep r d

/-- R88, R186, R195, R501: the region's multiplexer switches to the synthesizer of the commit, if its lock flag is set; else the switch is
refused and the region keeps its operating point. On a stopped die the synthesizers stop after the switch. -/
def switchingInstant (r : Nat) (offset : Int) (d : Die) : Die :=
  match pendingCommit d r with
  | some c =>
    let x := region d r
    if !c.strobed ∨ bit (c.switched ||| c.refused) r then d
    else
      let sy := if bit c.pausing r then x.live else idleOf x
      if (synth d r sy).lock then
        let g := tget 0 c.grants r
        let d :=
          if bit c.pausing r then
            let d := selectSynth r sy (pauseIslands r g c.count d)
            pauseEnd r (modRegion r (fun x => { x with pause := some (c.id, c.count, x.opp, g) }) d)
          else adoptOpp r g (selectSynth r sy d)
        let d := memberSwitched c r offset d
        let d := if bit c.pausing r then d else retuneStandby r d
        let d := if d.stop.stopped then stopSynths r d else d
        commitDone c.id d
      else
        let d := emit 0x0109 (.region r) (le 1 sy ++ le 1 0) d
        commitDone c.id (modCommit c.id (fun e => { e with refused := e.refused ||| 2 ^ r, grants := tset 0 e.grants r x.opp }) d)
  | none => d

/-- REGION_SWITCHING_INSTANT (R88, R186): the instant less T comes in 1/16 ns. -/
def execRegionSwitchingInstant (region : Nat) (offset : Int) (s : State) : Host.Outcome State Fault Refusal :=
  run (isRegion region) (switchingInstant region offset) s

/-- R184, R189: 2 µs after T, or after the abort, the rails go to their targets under R180. A stopped die keeps its rails at retention. -/
def voltageFall (id : Nat) (d : Die) : Die :=
  match d.commits.find? (fun c => decide (c.id = id) && c.done) with
  | some c =>
    if d.tally.now < c.count + 2000 ∨ !chandlerRuns d then d
    else
      let d := { d with commits := d.commits.filter (fun e => decide (e.id ≠ id) || !e.done) }
      if d.stop.stopped then d else each (List.range 5) retarget d
  | none => d

/-- COMMIT_VOLTAGE_FALL (R184, R189). -/
def execCommitVoltageFall (commit : Nat) (s : State) : Host.Outcome State Fault Refusal := run true (voltageFall commit) s

/-! ## Settlement and restoring -/

/-- R194: the limit unit requests a settlement commit to the ceiling, unless an obstacle stands. -/
def settlementRequest (r : Nat) (d : Die) : Die :=
  let x := region d r
  match x.settleDue with
  | some t =>
    if d.tally.now < t ∨ commitBlocked d r then d
    else
      let d := modRegion r (fun x => { x with settleDue := none }) d
      if regionCeiling x < x.opp then joinRequest .settlement (regionCeiling x) 0 r d else d
  | none => d

/-- SETTLEMENT_COMMIT_REQUEST (R194). -/
def execSettlementCommitRequest (region : Nat) (s : State) : Host.Outcome State Fault Refusal := run (isRegion region) (settlementRequest region) s

/-- R194, R247: 1 ms after an abort the limit unit asks again. -/
def restoringRetry (r : Nat) (d : Die) : Die :=
  let d := settlementRequest r d
  match (region d r).restoreDue with
  | some t => if d.tally.now < t ∨ commitBlocked d r then d else restore r (modRegion r (fun x => { x with restoreDue := none }) d)
  | none => d

/-- RESTORING_COMMIT_RETRY (R194, R247). -/
def execRestoringCommitRetry (region : Nat) (s : State) : Host.Outcome State Fault Refusal := run (isRegion region) (restoringRetry region) s

/-! ## Pause-switch -/

/-- R195: at T − 120 µs the lane is lent, the multiplexer deselects the sole synthesizer, and it is written with the new setting; without a
lender the commit aborts with ROUTE. -/
def pauseLend (r : Nat) (d : Die) : Die :=
  match pendingCommit d r with
  | some c =>
    if !bit c.pausing r ∨ bit c.lent r ∨ c.decided ∨ d.tally.now + 120000 < c.count then d
    else match droverLend r 5 d with
      | none => abortCommit c.id 6 r 0xFF d
      | some d =>
        let d := modCommit c.id (fun e => { e with lent := e.lent ||| 2 ^ r }) (deselect r d)
        writeSynth r (region d r).live (ladderSetting (tget 0 c.grants r)) (.pause c.id) false d
  | none => d

/-- PAUSE_SWITCH_LEND (R195). -/
def execPauseSwitchLend (region : Nat) (s : State) : Host.Outcome State Fault Refusal := run (isRegion region) (pauseLend region) s

/-- R195: at T + 1,500 ns the gate of an island without injection lock opens on the free ring. -/
def pauseGate (i : Nat) (d : Die) : Die :=
  match (island d i).ring.pauseFrom with
  | some t =>
    if t + 1500 ≤ d.tally.now then
      pauseEnd (islandRegion i) (modRing i (fun x => { x with gate := islandMayRun d i, pauseFrom := none }) d)
    else d
  | none => d

/-- PAUSE_SWITCH_GATE_TIMEOUT (R195). -/
def execPauseSwitchGateTimeout (island : Nat) (s : State) : Host.Outcome State Fault Refusal := run (isIsland island) (pauseGate island) s

/-! ## The region action input -/

/-- FENCE_ON and FENCE_OFF at a region (R281–R283): sources 0 tenant queue, 1 queue 0, 2 Pattern. -/
def applyFence (r : Nat) (on : Bool) (source : Nat) (d : Die) : Die :=
  let x := region d r
  if on = x.fenced then d
  else if on then
    let d := emit 0x0708 (.region r) (le 1 source ++ le 1 x.opp ++ le 1 x.injection) d
    changeCeilings r (fun x => { x with fenced := true, pin := some x.opp }) d
  else
    let d := emit 0x0709 (.region r) (le 1 source) d
    let d := changeCeilings r (fun x => { x with fenced := false, pin := none }) d
    if (presentRegions d).any (fun q => (region d q).fenced && decide ((region d q).owner = x.owner)) then d
    else each (presentRegions d) (fun q d => changeCeilings q (fun y => { y with guards := tset 16 y.guards x.owner 16 }) d) d

/-- R192, R225, R281: what the region input has accepted takes effect: the fence, and the fast step of the ceiling now in force. -/
def actionApply (r : Nat) (d : Die) : Die :=
  let d := match (region d r).fenceDue with
    | some (on, src) => applyFence r on src (modRegion r (fun x => { x with fenceDue := none }) d)
    | none => d
  if (region d r).actionDue then fastStep r (modRegion r (fun x => { x with actionDue := false }) d) else d

/-- REGION_ACTION_APPLY (R192, R225). -/
def execRegionActionApply (region : Nat) (s : State) : Host.Outcome State Fault Refusal := run (isRegion region) (actionApply region) s

end Sys2Proof.Machine
end

