-- ==== Sys2Proof/Machine/Plumb.lean ====
section
/-! DEFINITION. Replica failures (R137–R141), alert runs and the sustained-margin request (R142–R145), and the steps of islands without a plan (R135, R171). -/

namespace Sys2Proof.Machine
open Sys2Proof

/-- Kind of a replica: 0 MAC, 1 SRAM, 2 WIRE (Table 5.1). -/
def replicaKind (j : Nat) : Nat := j / 2

/-- The replica is out of service. -/
def replicaRetired (d : Die) (i j : Nat) : Bool := (tget {} (island d i).margin.replicas j).retired

/-- R139: no working replica of kind k is left: PLUMB_BLIND, and the Bellows is retired into Yoke mode. -/
def blindCheck (i k : Nat) (d : Die) : Die :=
  if replicaRetired d i (2 * k) && replicaRetired d i (2 * k + 1) then
    bellowsRetire i 1 0 (emit 0x0205 (.island i) (le 1 k) (modMargin i (fun x => { x with blind := true }) d))
  else d

/-- R138, R140: a failed replica is retired; a working spare of its kind joins the active set in its place. -/
def replicaFail (i j : Nat) (d : Die) : Die :=
  let mask := activeMask d i
  let twin := if j % 2 = 0 then j + 1 else j - 1
  let d := modMargin i (fun x => { x with replicas := tmod {} x.replicas j (fun y => { y with retired := true, remeasure := none }) }) d
  let d := emitRetire 1 j 1 (.island i) i (emit 0x0203 (.island i) (le 1 j) d)
  let d :=
    if bit mask j then
      let m := mask - 2 ^ j
      if !bit mask twin && !replicaRetired d i twin then
        let m := m + 2 ^ twin
        emit 0x0204 (.island i) (le 1 twin ++ le 1 j ++ le 1 m) (modMargin i (fun x => { x with active := some m }) d)
      else modMargin i (fun x => { x with active := some m }) d
    else d
  blindCheck i (replicaKind j) d

/-- R137: three re-measures are complete: transient if any agreed, else the replica has failed. -/
def disagreementResolved (i j : Nat) (d : Die) : Die :=
  let x := tget {} (island d i).margin.replicas j
  match x.remeasure with
  | some (n, a) =>
    if n < 3 ∨ x.retired then d
    else if 0 < a then
      emit 0x0202 (.island i) (le 1 j ++ le 1 x.main ++ le 1 x.check)
        (modMargin i (fun y => { y with replicas := tmod {} y.replicas j (fun z => { z with remeasure := none, main := 0, check := 0 }) }) d)
    else replicaFail i j d
  | none => d

/-- PLUMB_DISAGREEMENT_RESOLVED (R137). -/
def execPlumbDisagreementResolved (island replica : Nat) (s : State) : Host.Outcome State Fault Refusal :=
  run (isIsland island && decide (replica < 6)) (disagreementResolved island replica) s

/-- R142: the run counts: not in Gate, Hush, Bank or reset, nor under Assay. -/
def runCounts (d : Die) (i : Nat) : Bool :=
  let r := islandRegion i
  decide ((region d r).power = 0) && !d.dormant.in_ && !islandExcused d i

/-- R142: the interval of an island that ends is alerting. -/
def alerting (m : Margin) : Bool := decide (0 < m.intDelivered ∧ m.intDelivered ≤ 4 * m.intAlerts)

/-- R143, R144: the sustained-margin request of region r, which names island i; the third within 60 s latches the ceiling. -/
def marginRequest (r i : Nat) (d : Die) : Die :=
  let x := region d r
  let new := (match x.ceilings.getD 7 none with | some c => c | none => x.opp) - 1
  let reqs := (d.tally.now :: x.marginReqs).take 3
  let third : Bool := match reqs with | [_, _, t] => decide (d.tally.now ≤ t + 60000000000) | _ => false
  let d := emit 0x0206 (.region r) (le 2 i ++ le 1 x.opp ++ le 1 new) (modRegion r (fun x => { x with marginReqs := reqs }) d)
  let d := setCeiling 7 r (some new) d
  if third ∧ !x.latched then emit 0x0208 (.region r) (le 1 new) (modRegion r (fun x => { x with latched := true }) d) else d

/-- The islands of a region at the end of an alert interval: each run is updated; the first to reach 101 raises the request (R142, R143). -/
def regionInterval (r : Nat) (d : Die) : Die :=
  let l := (regionIslands r).filter (fun i => runCounts d i && alerting (island d i).margin)
  let hit := l.find? (fun i => decide ((island d i).margin.run = 100))
  let d := each (regionIslands r) (fun i d => modMargin i (fun m => { m with run := if l.contains i then min 101 (m.run + 1) else 0, intDelivered := 0, intAlerts := 0 }) d) d
  let d := if l.isEmpty then d else modRegion r (fun x => { x with quietSince := d.tally.now }) d
  match hit with
  | some i => marginRequest r i d
  | none => d

/-- R142: a 1 µs alert interval ends. -/
def alertIntervalEnd (d : Die) : Die := each (presentRegions d) regionInterval d

/-- ALERT_INTERVAL_END (R142, R143). -/
def execAlertIntervalEnd (s : State) : Host.Outcome State Fault Refusal := run true alertIntervalEnd s

/-- R144: after 1 s without an alerting interval an unlatched ceiling rises by one point. -/
def marginRelease (r : Nat) (d : Die) : Die :=
  let x := region d r
  match x.ceilings.getD 7 none with
  | some c =>
    if !x.latched ∧ x.quietSince + 1000000000 ≤ d.tally.now then
      let new := risen (some c)
      setCeiling 7 r new (emit 0x0207 (.region r) (le 1 (new.getD 0xFF)) (modRegion r (fun x => { x with quietSince := d.tally.now }) d))
    else d
  | none => d

/-- MARGIN_RELEASE_TIMEOUT (R144). -/
def execMarginReleaseTimeout (region : Nat) (s : State) : Host.Outcome State Fault Refusal := run (isRegion region) (marginRelease region) s

/-- Clears an island's margin and hold step registers (R135, R168, R169, R171). -/
def clearStep (i : Nat) (d : Die) : Die :=
  modIsland i (fun x => { x with
    margin := { x.margin with stepMin := none, stepRep := 0, below := 0, firstBelow := 0, alerts := 0, spanWindows := 0 }
    holds := { x.holds with byCause := [], byEdge := [], late := 0, overflow := 0, poison := 0, highWater := 0, highEdge := 0, highLogged := false, pace := 0 } }) d

/-- R135, R171: each aligned 1 ms is a step for an island of no loaded plan. -/
def unplannedStep (d : Die) : Die :=
  each (presentIslands d) (fun i d => if inPlan d (islandRegion i) then d else clearStep i d) d

/-- UNPLANNED_STEP_BOUNDARY (R135). -/
def execUnplannedStepBoundary (s : State) : Host.Outcome State Fault Refusal := run true unplannedStep s

end Sys2Proof.Machine
end

