-- ==== Sys2Proof/Machine/Pattern.lean ====
section
/-! DEFINITION. The Pattern engine (R198–R226): records as they are read and chained, their application island by island, step marks, and the issue of operating-point requests. -/

namespace Sys2Proof.Machine
open Sys2Proof

/-! ## Records (R202–R205) -/

/-- Action code and action of a record (Tables 8.1 and 8.2); NOP and END have no action. None for a reserved encoding or a reserved field that is not
zero (R205). -/
def parseRecord (b : Bytes) : Option (Nat × Option Action) :=
  let mask := fld b 4 2
  let b7 := fld b 7 1
  let rest := fun (o : Nat) => decide (unle (b.drop o) = 0)
  let edges := ((List.range 4).map (fun j => fld b (8 + 2 * j) 2)).filter (· ≠ 0xFFFF)
  match fld b 6 1 with
  | 0 => if mask = 0 ∧ b7 = 0 ∧ rest 8 then some (0, none) else none
  | 1 => if mask < 256 ∧ b7 < 16 ∧ rest 12 then some (1, some (.oppRequest b7 (fld b 8 4))) else none
  | 2 => if mask < 256 ∧ 0 < b7 ∧ rest 10 then some (2, some (.forecast b7 (fldI b 8 2))) else none
  | 3 => if mask < 256 ∧ 0 < b7 ∧ b7 < 64 ∧ 0 < fld b 8 1 ∧ rest 9 then some (3, some (.prestretch b7 (fld b 8 1))) else none
  | 4 => if mask < 256 ∧ b7 < 3 ∧ rest 8 then some (4, some (.injection b7)) else none
  | 5 => if mask = 0 ∧ b7 = 0 ∧ edges ≠ [] ∧ edges.all (· < 2332) then some (5, some (.couple true edges)) else none
  | 6 => if mask = 0 ∧ b7 = 0 ∧ edges ≠ [] ∧ edges.all (· < 2332) then some (6, some (.couple false edges)) else none
  | 7 => if mask = 0 ∧ b7 = 0 ∧ rest 12 then some (7, some (.stepMark (fld b 8 4))) else none
  | 8 => if mask = 0 ∧ b7 < 2 ∧ rest 8 then some (8, some (.fence (decide (b7 = 1)))) else none
  | 9 => if mask = 0 ∧ b7 = 0 ∧ rest 8 then some (9, none) else none
  | _ => none

/-- Entry m of the region-mask table (R204). -/
def maskEntry (x : Context) (m : Nat) : RegionSet := if m = 0 then x.regions else tget 0 x.masks m

/-- The regions a record addresses: those of its mask entry, entry 0 for marks and fences, that are not retired (R204, R206). -/
def addressed (d : Die) (x : Context) (w : WinRecord) : List Nat :=
  match w.action with
  | .couple _ _ => []
  | _ => (setRegions (maskEntry x w.mask)).filter (fun r => present d r && !(region d r).retired)

/-- The islands that a record asks to apply it: those of its regions, or those at the ends of its edges (R206). -/
def askedIslands (d : Die) (x : Context) (w : WinRecord) : List Nat :=
  match w.action with
  | .couple _ edges => (edges.flatMap (fun e => [(edgeIslands e).1, (edgeIslands e).2])).filter (fun i => !(region d (islandRegion i)).retired)
  | .oppRequest _ _ => []
  | _ => (addressed d x w).flatMap regionIslands

/-- Application cycle of a record at an island (R206). -/
def applicationCycle (x : Context) (w : WinRecord) : Nat :=
  match w.action with
  | .forecast _ _ => max (w.cycle - 32) x.startCount
  | _ => w.cycle

/-- Issue cycle of an operating-point request (R214). -/
def issueCycle (x : Context) (w : WinRecord) : Nat :=
  match w.action with
  | .oppRequest _ advance => max (w.cycle - advance) x.startCount
  | _ => w.cycle

/-- Issuing island of a request: the reference island of the lowest addressed region (R214). -/
def issuer (d : Die) (x : Context) (w : WinRecord) : Option Nat := (addressed d x w).head?.map refIsland

/-! ## Retiring records (R208, R209, R223, R395) -/

/-- Raw, calibrated, dynamic and leakage energy, and throttle time, of a region pass to the certificate and start afresh (R235, R397). -/
def passAccounts (c r : Nat) (d : Die) : Die :=
  let y := region d r
  let counts := throttleCounts d r
  let deltas := (List.range 12).map (fun j => counts.getD j 0 - y.throttle.atMark.getD j 0)
  let d := modRegion r (fun y => { y with
    energy := { y.energy with accRaw := 0, accCal := 0, accDyn := 0, accLeak := 0 }
    throttle := { y.throttle with atMark := counts } }) d
  modContext c (fun x => { x with gather := { x.gather with regions := tmod {} x.gather.regions r (fun g => { g with throttle := deltas, rawDyn := y.energy.accDyn, rawLeak := y.energy.accLeak, raw := y.energy.accRaw, calibrated := y.energy.accCal }) } }) d

/-- Flags with which a region enters a step: what stands at it now (R400). -/
def entryFlags (d : Die) (r : Nat) (g : CertRegion) : CertRegion :=
  { g with assayed := g.assayed || underAssay d r, reset := g.reset || inReset d r, retired := g.retired || (region d r).retired }

/-- A step mark is retired: STEP_MARK is written, the step that ended waits for its certificate, and the next one gathers (R223, R395). -/
def markRetired (c : Nat) (w : WinRecord) (step : Nat) (d : Die) : Die :=
  let d := emit 0x050C (.other c) (le 4 step ++ le 8 w.cycle) d
  match context d c with
  | none => d
  | some x =>
    let d := each ((setRegions x.regions).filter (fun r => (tget {} x.gather.regions r).stop.isNone)) (passAccounts c) d
    let g := match context d c with | some y => y.gather | none => x.gather
    let t := d.tally
    let g := if g.next.isEmpty then { g with epochNext := t.epoch, flagsNext := b1 t.holdover + 2 * b1 t.slewing + 4 * b1 t.settled } else g
    let next : CertWork := { step := step, startCycle := w.cycle, epochStart := g.epochNext, flagsStart := g.flagsNext, frozen := d.ledger.frozen, regions := (setRegions x.regions).foldl (fun t r => tset {} t r (entryFlags d r (tget {} g.next r))) [], outside := g.outside }
    modContext c (fun x => { x with
      step := some (step, w.cycle)
      gather := next
      ready := match x.step with
        | some (s, a) => x.ready ++ [{ g with step := s, startCycle := a, endCycle := w.cycle, next := [] }]
        | none => x.ready }) d

/-- Every island asked has applied the record or is excused, so that it leaves the window (R209). -/
def retirable (d : Die) (x : Context) (w : WinRecord) : Bool :=
  match w.action with
  | .oppRequest _ _ => false
  | _ => (askedIslands d x w).all (fun i => w.applied.contains i || islandExcused d i)

/-- Regions that miss a record as it is retired (R208). -/
def missing (d : Die) (x : Context) (w : WinRecord) : List Nat :=
  (List.range 80).filter (fun r => (askedIslands d x w).any (fun i => decide (islandRegion i = r) && !w.applied.contains i))

/-- Retires record w of context c: the regions that miss it count it, once each (R208). -/
def retireRecord (c : Nat) (w : WinRecord) (d : Die) : Die :=
  match context d c with
  | none => d
  | some x =>
    let d := each (missing d x w) (fun r d => modRegion r (fun y => { y with missed := y.missed + 1, missedContext := c }) d) d
    let d := setContext c (some { x with window := x.window.erase w }) d
    match w.action with
    | .stepMark s => markRetired c w s d
    | _ => d

/-- Every record of context c that can be retired is (R209). -/
def retirePass (c : Nat) (d : Die) : Die :=
  match context d c with
  | some x => if x.released then each (x.window.filter (retirable d x)) (retireRecord c) d else d
  | none => d

/-- PATTERN_MISSED at the end of a region's excuse (R208). The excuse still stands while the records it lets go are retired. -/
def missedEnd (r : Nat) (d : Die) : Die :=
  let d := match (region d r).plan with | some c => retirePass c d | none => d
  missedRecord r d

/-! ## Reading (R199–R201, R205, R209–R213) -/

/-- PATTERN_SEGMENT (R199). -/
def segmentFreed (c : Nat) (g : Segment) (d : Die) : Die := emit 0x0503 (.other c) (le 4 g.records ++ le 8 g.base) d

/-- PATTERN_FAULT: reasons 1 DENSITY, 2 READ, 3 CHAIN (R212). -/
def patternFault (c reason : Nat) (d : Die) : Die :=
  match context d c with
  | some x =>
    let g := x.segments.headD { base := 0, records := 0 }
    emit 0x0507 (.other c) (le 1 reason ++ zeros 3 ++ le 4 g.read ++ le 8 g.base) (setContext c (some { x with state := .fault reason }) d)
  | none => d

/-- An island may not begin its next cycle (R210). -/
def atHorizon (x : Context) (count : Nat) : Bool := decide (x.last < count + 34)

/-- R211: the window is full, no record in it can be retired or is due, and every island of the plan that is not excused stands at the horizon. -/
def dense (d : Die) (x : Context) : Bool :=
  let live := ((setRegions x.regions).flatMap regionIslands).filter (fun i => !islandExcused d i)
  x.released && live.all (fun i => atHorizon x (island d i).ring.count)
    && x.window.all (fun w => match w.action with
      | .oppRequest _ _ => match issuer d x w with | some i => decide ((island d i).ring.count < issueCycle x w) | none => false
      | _ => !retirable d x w && (askedIslands d x w).all (fun i => islandExcused d i || w.applied.contains i || decide ((island d i).ring.count < applicationCycle x w)))

/-- Edges of a record that it changes; COUPLE_REFUSED for each of the others (R222). -/
def allowedEdges (d : Die) (x : Context) (edges : List Nat) : List Nat := edges.filter (fun e => (refusal d (bit x.regions) e).isNone)

/-- COUPLE_REFUSED for the edges a record may not change. -/
def refuseEdges (x : Context) (edges : List Nat) (d : Die) : Die :=
  each edges (fun e d => match refusal d (bit x.regions) e with
    | some j => coupleRefused (edgeIslands e).1 e j 2 d
    | none => d) d

/-- A good record with an action enters the window (R209); a request whose issuing island is past its issue cycle is late (R214). -/
def enterWindow (c cycle mask : Nat) (a : Action) (d : Die) : Die :=
  match context d c with
  | none => d
  | some x =>
    let d := match a with | .couple _ edges => refuseEdges x edges d | _ => d
    let w : WinRecord := { cycle := cycle, mask := mask, action := match a with | .couple on edges => .couple on (allowedEdges d x edges) | _ => a }
    let late := x.released && match a, issuer d x w with
      | .oppRequest _ _, some i => decide (issueCycle x w < (island d i).ring.count)
      | _, _ => false
    setContext c (some { x with window := x.window ++ [{ w with late := late }], lastMark := match a with | .stepMark _ => some cycle | _ => x.lastMark }) d

/-- PATTERN_END (R201): the segments still queued are freed, and the horizon opens. -/
def patternEnd (c cycle : Nat) (d : Die) : Die :=
  match context d c with
  | none => d
  | some x =>
    let d := each x.segments (segmentFreed c) d
    emit 0x0504 (.other c) (le 8 cycle ++ le 1 (x.segments.length - 1)) (setContext c (some { x with state := .ended, open_ := true, segments := [] }) d)

/-- The record at the head has been read: the last of its segment frees it, and the last of the last one starves the context (R199, R213). -/
def recordDone (c : Nat) (d : Die) : Die :=
  match context d c with
  | some x => match x.segments with
    | [] => d
    | g :: t =>
      if g.read + 1 < g.records then setContext c (some { x with segments := { g with read := g.read + 1 } :: t }) d
      else segmentFreed c g (setContext c (some { x with segments := t, state := if t.isEmpty then .starved else x.state }) d)
  | none => d

/-- Reading resumes after starvation: PATTERN_STARVED with its duration, if its onset was written (R213). -/
def readingResumes (c : Nat) (x : Context) (d : Die) : Die :=
  match x.state with
  | .starved =>
    let d := setContext c (some { x with state := .started, starvedSince := none }) d
    match x.starvedSince with
    | some t => emit 0x0508 (.other c) (le 1 1 ++ zeros 3 ++ le 8 (d.tally.now - t)) d
    | none => d
  | _ => d

/-- A record of cycle `cycle` takes its place in the chain and is delivered (R200, R205, R209). -/
def takeRecord (c cycle : Nat) (b : Bytes) (d : Die) : Die :=
  match context d c with
  | none => d
  | some x =>
    let g := x.segments.headD { base := 0, records := 0 }
    let parsed := match parseRecord b with
      | some (7, a) => if x.lastMark = some cycle then none else some (7, a)
      | p => p
    let d := setContext c (some { x with last := cycle }) d
    match parsed with
    | none => recordDone c (emit 0x0505 (.other c) (le 8 g.base ++ le 4 g.read) d)
    | some (9, _) => patternEnd c cycle d
    | some (_, some a) => retirePass c (recordDone c (enterWindow c cycle (fld b 4 2) a d))
    | some (_, none) => recordDone c d

/-- PATTERN_RECORD_READ: the engine reads the next record of the head segment, if its context reads and its window has room (R209). A segment's first
record waits for a Chandler, which arms the stream (R213). -/
def recordRead (c : Nat) (b : Bytes) (d : Die) : Die :=
  let d := retirePass c d
  match context d c with
  | none => d
  | some x =>
    let reads : Bool := match x.state with | .started => true | .starved => true | _ => false
    match x.segments with
    | [] => d
    | g :: _ =>
      if !reads || (decide (g.read = 0) && !chandlerRuns d) then d
      else if 256 ≤ x.window.length then (if dense d x then patternFault c 1 d else d)
      else
        let d := readingResumes c x d
        let cycle := x.last + fld b 0 4
        if 2 ^ 56 - 1 < cycle then patternFault c 3 d else takeRecord c cycle b d

/-- PATTERN_RECORD_READ (R209). -/
def execPatternRecordRead (context : Nat) (record : Bytes) (s : State) : Host.Outcome State Fault Refusal :=
  run (isContext context && hasLength 16 record) (recordRead context record) s

/-! ## Application (R206, R207, R219–R224) -/

/-- Forecast stretch k of a record at a region's operating point (R219). -/
def forecastStretch (gain : Nat) (di : Int) : Nat :=
  if di ≤ 0 then 0 else min 63 ((di.toNat * gain + 4095) / 4096)

/-- A forecast window opens on an island; injection is suspended at once where the cycle in progress lies in it (R107, R109). -/
def openWindow (i k first last : Nat) (d : Die) : Die :=
  if k = 0 ∨ last < first then d
  else modRing i (fun x =>
    let x : Ring := { x with windows := x.windows ++ [({ k := k, first := first, last := last } : Window)] }
    match x.bellows with
    | .injected => if inWindow x x.now x.count then { x with bellows := .suspended } else x
    | _ => x) d

/-- PATTERN_OVERRIDDEN (R221, R226): reasons 0 priority, 1 FENCE. -/
def overridden (r code reason cycle : Nat) (d : Die) : Die := emit 0x050B (.region r) (le 1 code ++ le 1 reason ++ zeros 2 ++ le 8 cycle) d

/-- A host action accepted in the cycle that the boundary now passed has ended takes effect at this boundary too (R225). -/
def meets (accepted : Option Nat) (count : Nat) : Bool := match accepted with | some a => decide (a + 1 = count) | none => false

/-- An INJECTION record at an island (R221): without effect in a fenced region, and where a host interval meets it (Table 8.3). -/
def applyInjection (i code cycle : Nat) (d : Die) : Die :=
  let r := islandRegion i
  let x := (island d i).ring
  let isRef := decide (i = refIsland r)
  if x.bellows = .yoke then d
  else if (region d r).fenced then (if isRef then overridden r 4 1 cycle d else d)
  else if meets x.hostAt x.count then (if isRef then overridden r 4 0 cycle d else d)
  else
    let d := modRing i (fun x => { x with intervalDue := some code }) d
    if isRef then modRegion r (fun y => { y with injection := code }) d else d

/-- A COUPLE or UNCOUPLE record at the ends that an island is (R151, R222); a host change that meets it stands. -/
def applyCouple (i : Nat) (on : Bool) (edges : List Nat) (cycle : Nat) (d : Die) : Die :=
  each edges (fun e d =>
    each ((if (edgeIslands e).1 = i then [2 * e] else []) ++ (if (edgeIslands e).2 = i then [2 * e + 1] else [])) (fun k d =>
      if meets (edgeEnd d k).hostAt (island d i).ring.count then overridden (islandRegion i) (if on then 5 else 6) 0 cycle d
      else if on then coupleEnd 2 k d else uncoupleEnd 2 k d) d) d

/-- The island at which a region passes a boundary: its reference island, or the lowest that is not excused (R396). -/
def boundaryIsland (d : Die) (r : Nat) : Option Nat :=
  if islandExcused d (refIsland r) then (regionIslands r).find? (fun i => !islandExcused d i) else some (refIsland r)

/-- Code of Table 5.2. -/
def slackCode (m : Option Nat) : Nat := match m with | none => 15 | some s => min 14 s

/-- An island's step registers pass to the certificate (R135, R171, R397). -/
def passRegisters (i : Nat) (x : Island) (g : CertWork) : CertWork :=
  let m := x.margin
  let n := b1 (decide (0 < m.below))
  { g with
    regions := tmod {} g.regions (islandRegion i) (fun c => { c with
      slack := lset 15 c.slack (islandIndex i) (slackCode m.stepMin)
      below := c.below + n
      holds := (List.range 8).map (fun j => c.holds.getD j 0 + x.holds.byCause.getD j 0)
      spans := c.spans + m.spanWindows })
    belowTotal := g.belowTotal + n
    first := if m.below = 0 then g.first
      else match g.first with
        | none => some (m.firstBelow, i)
        | some (a, j) => if m.firstBelow < a ∨ (m.firstBelow = a ∧ i < j) then some (m.firstBelow, i) else some (a, j) }

/-- A region passes its step boundary (R396): its end instant, its energy and throttle time, and the start instant of the next step. -/
def regionBoundary (c r : Nat) (d : Die) : Die :=
  let t := d.tally
  let f := b1 t.holdover + 2 * b1 t.slewing + 4 * b1 t.settled
  let d := passAccounts c r d
  modContext c (fun x =>
    let g := x.gather
    let fresh := g.next.isEmpty
    { x with gather := { g with
      regions := tmod {} g.regions r (fun y => { y with stop := some t.now })
      epochEnd := t.epoch
      flagsEnd := f
      epochNext := if fresh then t.epoch else g.epochNext
      flagsNext := if fresh then f else g.flagsNext
      next := tset {} g.next r (entryFlags d r { start := some t.now }) } }) d

/-- A STEP_MARK at an island (R223). -/
def applyMark (c i : Nat) (d : Die) : Die :=
  let x := island d i
  let d := modContext c (fun y => { y with gather := passRegisters i x y.gather }) d
  let d := clearStep i d
  if boundaryIsland d (islandRegion i) = some i then regionBoundary c (islandRegion i) d else d

/-- A FENCE record at an island (R224, R281): the region follows at its reference island, unless a host setting meets it. A tenant's regions outside
the plan take it through their inputs; service regions are never fenced. -/
def applyFenceRecord (c i : Nat) (on : Bool) (cycle : Nat) (d : Die) : Die :=
  let r := islandRegion i
  if i ≠ refIsland r ∨ 72 ≤ r then d
  else if (region d r).fenceDue.isSome then overridden r 8 0 cycle d
  else
    let d := applyFence r on 2 d
    match context d c with
    | none => d
    | some x =>
      if x.owner = 0 ∨ (tenant d x.owner).fence = on then d
      else
        let d := modTenant x.owner (fun t => { t with fence := on }) d
        each ((presentRegions d).filter (fun q => decide ((region d q).owner = x.owner) && !bit x.regions q)) (fun q d => modRegion q (fun y => { y with fenceDue := some (on, 2) }) d) d

/-- Island i applies record w of context c; a Yoke island ignores stretches and intervals (R125, R208). -/
def applyRecord (c i : Nat) (x : Context) (w : WinRecord) (d : Die) : Die :=
  let yoke := decide ((island d i).ring.bellows = .yoke)
  match w.action with
  | .oppRequest _ _ => d
  | .forecast n di =>
    let k := forecastStretch (tget 0x0400 x.gains (16 * islandRegion i + (island d i).ring.opp)) di
    if yoke ∨ w.cycle + n < 33 then d else openWindow i k (max (w.cycle - 32) x.startCount) (w.cycle + n - 33) d
  | .prestretch k n => if yoke then d else openWindow i k w.cycle (w.cycle + n - 1) d
  | .injection code => applyInjection i code w.cycle d
  | .couple on edges => applyCouple i on edges w.cycle d
  | .stepMark _ => applyMark c i d
  | .fence on => applyFenceRecord c i on w.cycle d

/-- The island has applied record n of its context's window. -/
def markApplied (c n i : Nat) (d : Die) : Die :=
  modContext c (fun x => { x with window := (List.range x.window.length).filterMap (fun m => (x.window[m]?).map (fun w => if m = n then { w with applied := i :: w.applied } else w)) }) d

/-- Record n of the window is applied by island i if its application cycle has come (R206). -/
def applyOne (c i n : Nat) (d : Die) : Die :=
  match context d c with
  | none => d
  | some x => match x.window[n]? with
    | none => d
    | some w =>
      if (askedIslands d x w).contains i && !w.applied.contains i && decide (applicationCycle x w ≤ (island d i).ring.count) then
        applyRecord c i x w (markApplied c n i d)
      else d

/-- PATTERN_ACTION_APPLY: the island applies, in stream order, every record whose application cycle it has reached (R206, R207). -/
def actionsAt (i : Nat) (d : Die) : Die :=
  match (region d (islandRegion i)).plan with
  | none => d
  | some c =>
    match context d c with
    | none => d
    | some x =>
      if !x.released then d
      else if islandExcused d i then retirePass c d
      else retirePass c (each (List.range x.window.length) (applyOne c i) d)

/-- PATTERN_ACTION_APPLY (R206). -/
def execPatternActionApply (island : Nat) (s : State) : Host.Outcome State Fault Refusal := run (isIsland island) (actionsAt island) s

/-! ## Operating-point requests (R214, R215) -/

/-- R214, R215: at issue the targets are set and a commit is formed of the regions without an obstacle; the others are deferred. -/
def issueRequest (c opp : Nat) (regions : List Nat) (late : Bool) (d : Die) : Die :=
  let d := each regions (fun r d => throttleUpdate r (modRegion r (fun y => { y with patternTarget := some opp, patternContext := c }) d)) d
  let free := regions.filter (fun r => !commitBlocked d r)
  let held := regions.filter (commitBlocked d)
  if free.isEmpty then d
  else { d with commitReqs := d.commitReqs ++ [{ source := .pattern, target := opp, members := regionSet free, since := d.tally.now, context := c, late := late, deferred := regionSet held }] }

/-- OPP_REQUEST_ISSUE: the first request of the window whose issuing island has begun its issue cycle is issued; one that addresses no region is
retired (R204, R214). -/
def requestIssue (c : Nat) (d : Die) : Die :=
  match context d c with
  | none => d
  | some x =>
    let due := fun (w : WinRecord) => match w.action with
      | .oppRequest _ _ => match issuer d x w with | some i => decide (issueCycle x w ≤ (island d i).ring.count) | none => true
      | _ => false
    if !x.released then d
    else match x.window.find? due with
      | none => d
      | some w =>
        let d' := setContext c (some { x with window := x.window.erase w }) d
        match w.action with
        | .oppRequest opp _ => issueRequest c opp (addressed d x w) w.late d'
        | _ => d'

/-- OPP_REQUEST_ISSUE (R214). -/
def execOppRequestIssue (context : Nat) (s : State) : Host.Outcome State Fault Refusal := run (isContext context) (requestIssue context) s

end Sys2Proof.Machine
end

