-- ==== Sys2Proof/Machine/Tenants.lean ====
section
/-! DEFINITION. Tenants (R249, R275–R283): fractions, a move of a region that takes effect, and the end of a fence. -/

namespace Sys2Proof.Machine
open Sys2Proof

/-- Fraction of a region in force, 1/4096 (R249). -/
def fractionOf (d : Die) (r : Nat) : Nat :=
  match (region d r).fraction with
  | some f => f
  | none =>
    if !present d r then 0
    else if 72 ≤ r then 44
    else
      let l := (List.range 72).filter (present d)
      3744 / l.length + b1 (decide (l.idxOf r < 3744 % l.length))

/-- Sum of the fractions of a list of regions. -/
def fractions (d : Die) (l : List Nat) : Nat := total (l.map (fractionOf d))

/-- Present regions of an owner (R275). -/
def ownedRegions (d : Die) (o : Nat) : List Nat := (presentRegions d).filter (fun r => decide ((region d r).owner = o))

/-- Edges that a region's new owner makes borders are moved to UNCOUPLED at both ends (R277). -/
def uncoupleBorders (r : Nat) (d : Die) : Die :=
  each ((regionIslands r).flatMap islandEnds) (fun k d =>
    if edgeExists d (k / 2) && borderEdge d (k / 2) then uncoupleEnd 3 (farEnd k) (uncoupleEnd 3 k d) else d) d

/-- A move takes effect (R276, R277, R280): TENANT_MAP, the strict flag, borders, and the fence of the old and of the new owner. -/
def moveRegion (r : Nat) (d : Die) : Die :=
  match (region d r).ownerDue with
  | none => d
  | some o =>
    let old := (region d r).owner
    let d := applyFence r false 1 (modRegion r (fun x => { x with ownerDue := none, fenceDue := none }) d)
    let d := emit 0x0706 (.region r) (le 1 old ++ le 1 o) (modRegion r (fun x => { x with owner := o, strict := decide (o ≠ 0), fraction := some (fractionOf d r) }) d)
    let d := uncoupleBorders r d
    if o ≠ 0 ∧ (tenant d o).fence then modRegion r (fun x => { x with fenceDue := some (true, 1) }) d else d

/-- An accepted move of region r to owner o waits for the next interval (R276). -/
def acceptMove (r o : Nat) (d : Die) : Die :=
  modRegion r (fun x => { x with ownerDue := if x.owner = o then none else some o }) d

end Sys2Proof.Machine
end

