-- ==== Sys2Proof/Machine/Assay.lean ====
section
/-! DEFINITION. Assay (R289–R312): measurements that agree, items with their stored values and fallbacks, the power-up schedule and Assay on command. -/

namespace Sys2Proof.Machine
open Sys2Proof

/-! ## Measuring twice (R290) -/

/-- The item's vector as R290 compares it: TRACK forms κ in Q2.14 from its two periods (R298), FLOOR its code from a0 (R304). -/
def itemVector (item : Nat) (m : List Int) : List Int :=
  match item, m with
  | 4, [p, q] => [if p + q = 0 then 0 else (p - q) * 26 * 16384 / (p + q)]
  | 7, [a0, trim] => [min 10 (a0 - 4), trim]
  | _, l => l

/-- Tolerance of each element of an item's vector (Table 12.1); none is not compared. SENSOR: offset in 1/16 °C and diode; CELLS: delays in 1/16 ps;
DUTY: trim and error in 1/16 %. PLUMB is compared replica by replica. -/
def tolerances (item : Nat) : List (Option Nat) :=
  match item with
  | 0 => [some 4, some 0]
  | 1 => [some 20]
  | 2 => List.replicate 128 (some 1)
  | 3 => List.replicate 80 (some 24)
  | 4 => [some 819]
  | 5 => [none, some 8]
  | 6 => [some 1]
  | 7 => [some 0, some 1]
  | _ => []

/-- Distance of two numbers. -/
def dist (a b : Int) : Nat := (a - b).natAbs

/-- Two measurements agree in every element (R290). -/
def agrees (tol : List (Option Nat)) (a b : List Int) : Bool :=
  decide (a.length = tol.length ∧ b.length = tol.length)
    && (List.range tol.length).all (fun j => match tol.getD j none with | some t => decide (dist (a.getD j 0) (b.getD j 0) ≤ t) | none => true)

/-- Greatest difference of the compared elements: the closest pair has the least. -/
def spread (tol : List (Option Nat)) (a b : List Int) : Nat :=
  (List.range tol.length).foldl (fun m j => if (tol.getD j none).isSome then max m (dist (a.getD j 0) (b.getD j 0)) else m) 0

/-- The pair whose mean the item takes: the first two where they agree, else the closest pair that agrees, ties to the earlier (R290). -/
def agreeing (tol : List (Option Nat)) (x y z : List Int) : Option (List Int × List Int) :=
  if agrees tol x y then some (x, y)
  else match agrees tol x z, agrees tol y z with
    | true, true => if spread tol x z ≤ spread tol y z then some (x, z) else some (y, z)
    | true, false => some (x, z)
    | false, true => some (y, z)
    | false, false => none

/-- Mean of two vectors, truncated (R9, R290). -/
def meanOf (p : List Int × List Int) : List Int := List.zipWith (fun a b => (a + b) / 2) p.1 p.2

/-! ## Values -/

def modAssay (f : Assay → Assay) (d : Die) : Die := { d with store := { d.store with assay := d.store.assay.map f } }
def modRegionCal (r : Nat) (f : RegionCal → RegionCal) (c : Calib) : Calib := { c with regions := tmod {} c.regions r f }
def modIslandCal (i : Nat) (f : IslandCal → IslandCal) (c : Calib) : Calib := { c with islands := tmod {} c.islands i f }
def modOpp (i k : Nat) (f : OppCal → OppCal) (c : Calib) : Calib := modIslandCal i (fun x => { x with opp := lset {} x.opp k (f (x.opp.getD k {})) }) c

/-- Calibration of the current slot, if any is valid (R291, R316). -/
def currentSlot (d : Die) : Option Slot :=
  match d.store.current with | some 0 => some d.store.slot0 | some _ => some d.store.slot1 | none => none

/-- Stored record of a region, and of an island (R291). -/
def storedRegion (d : Die) (r : Nat) : Option RegionCal :=
  match currentSlot d with | some s => (s.cal.regions.find? (fun e => e.1 = r)).map (·.2) | none => none
def storedIsland (d : Die) (i : Nat) : Option IslandCal :=
  match currentSlot d with | some s => (s.cal.islands.find? (fun e => e.1 = i)).map (·.2) | none => none

/-- ASSAY_ITEM_FLAGGED (R292). -/
def flagItem (item st opp rep : Nat) (l : Loc) (d : Die) : Die :=
  emit 0x0904 l (le 1 item ++ le 1 st ++ le 1 opp ++ le 1 rep) (modAssay (fun a => { a with flagged := a.flagged + 1 }) d)

/-- Puts measured values, and flags them where their status is 1 or 2. -/
def takeValue (item st opp : Nat) (l : Loc) (f : Calib → Calib) (d : Die) : Die :=
  let d := modAssay (fun a => { a with values := f a.values }) d
  if st = 0 then d else flagItem item st opp 0xFF l d

/-- A fallback that costs the island its Bellows (Table 12.2). -/
def fall (st i : Nat) (d : Die) : Die := if st = 2 then modAssay (fun a => { a with fallen := i :: a.fallen.erase i }) d else d

/-- Cells of the ring: the 8 fastest and the 8 slowest of 80 are dropped, ties keeping the lower index (R297). -/
def cellMap (t : List Int) : Nat :=
  let n := List.range 80
  let faster := fun (j : Nat) => n.countP (fun m => decide (t.getD m 0 < t.getD j 0 ∨ (t.getD m 0 = t.getD j 0 ∧ j < m)))
  let slower := fun (j : Nat) => n.countP (fun m => decide (t.getD j 0 < t.getD m 0 ∨ (t.getD m 0 = t.getD j 0 ∧ j < m)))
  total ((n.filter (fun j => decide (8 ≤ faster j ∧ 8 ≤ slower j))).map (2 ^ ·))

/-- Largest gap between adjacent bands, MHz, from frequencies in 0.1 MHz (Table 12.8). -/
def bandGap (l : List Nat) : Nat :=
  sat 8 ((List.range 128).foldl (fun m j => if j % 64 = 63 then m else max m (max (l.getD j 0) (l.getD (j + 1) 0) - min (l.getD j 0) (l.getD (j + 1) 0))) 0 / 10)

/-- The status and values of one item other than PLUMB: the mean of the pair that agrees; else the stored value, or the fallback of Table 12.2. -/
def takeItem (a : AssayItem) (d : Die) : Die :=
  let tol := tolerances a.item
  let pair := agreeing tol (itemVector a.item a.m1) (itemVector a.item a.m2) (itemVector a.item a.m3)
  let v := (pair.map meanOf).getD []
  let n := fun (j : Nat) => (v.getD j 0).toNat
  let q := sat 8 a.quality
  let r := a.id
  let si := storedIsland d a.id
  let st := fun (stored : Bool) => if pair.isSome then 0 else if stored then 1 else 2
  match a.item with
  | 0 =>
    let s := (storedRegion d (a.id / 4)).map (fun x => x.sensors.getD (a.id % 4) {})
    let c : SensorCal := if pair.isSome then { offset := v.getD 0 0, diode := n 1, residual := q } else s.getD {}
    takeValue 0 (st s.isSome) 0xFF (.sensor a.id) (modRegionCal (a.id / 4) (fun x => { x with sensors := lset {} x.sensors (a.id % 4) { c with status := st s.isSome } })) d
  | 1 =>
    let s := storedRegion d r
    takeValue 1 (st s.isSome) 0xFF (.region r) (modRegionCal r (fun x => { x with
      spineStatus := st s.isSome
      spine := if pair.isSome then n 0 else (s.map (·.spine)).getD 0
      spineRes := if pair.isSome then q else (s.map (·.spineRes)).getD 0 })) d
  | 2 =>
    let s := storedRegion d r
    let b := v.map (fun x => sat 16 (5 * x.toNat))
    takeValue 2 (st s.isSome) 0xFF (.region r) (modRegionCal r (fun x => { x with
      bandsStatus := st s.isSome
      bands := if pair.isSome then b else (s.map (·.bands)).getD []
      bandGap := if pair.isSome then bandGap b else (s.map (·.bandGap)).getD 0 })) d
  | 3 =>
    fall (st si.isSome) a.id (takeValue 3 (st si.isSome) 0xFF (.island a.id) (modIslandCal a.id (fun x => { x with
      cellsStatus := st si.isSome
      cells := if pair.isSome then cellMap v else (si.map (·.cells)).getD (2 ^ 64 - 1)
      inl := if pair.isSome then q else (si.map (·.inl)).getD 0 })) d)
  | 4 =>
    takeValue 4 (st si.isSome) 0xFF (.island a.id) (modIslandCal a.id (fun x => { x with
      trackStatus := st si.isSome
      track := if pair.isSome then sat 16 (n 0) else (si.map (·.track)).getD 0x4666 })) d
  | 5 =>
    takeValue 5 (st si.isSome) 0xFF (.island a.id) (modIslandCal a.id (fun x => { x with
      dutyStatus := st si.isSome
      dutyTrim := if pair.isSome then n 0 % 16 else (si.map (·.dutyTrim)).getD 8
      dutyErr := if pair.isSome then (v.getD 1 0 % 256).toNat else (si.map (·.dutyErr)).getD 0 })) d
  | 6 =>
    let s := si.map (fun x => x.opp.getD a.opp {})
    fall (st s.isSome) a.id (takeValue 6 (st s.isSome) a.opp (.island a.id) (modOpp a.id a.opp (fun x => { x with
      biasStatus := st s.isSome
      bias := if pair.isSome then n 0 % 256 else (s.map (·.bias)).getD 128
      periodErr := if pair.isSome then q else (s.map (·.periodErr)).getD 0 })) d)
  | 7 =>
    let s := si.map (fun x => x.opp.getD a.opp {})
    let short := pair.isSome && decide (v.getD 0 0 < 3)
    let code := if short then 2 else st s.isSome
    takeValue 7 code a.opp (.island a.id) (modOpp a.id a.opp (fun x => { x with
      floorStatus := code
      floorD := if short then 3 else if pair.isSome then n 0 else (s.map (·.floorD)).getD 3
      floorTrim := if pair.isSome then n 1 % 256 else (s.map (·.floorTrim)).getD 255
      floorExcess := if pair.isSome then q else (s.map (·.floorExcess)).getD 0 })) d
  | _ => d

/-! ## PLUMB (R300–R302) -/

/-- A canary sweep: a10, a50, a90 and, for each replica, its mean raw reading and standard deviation, all in 1/16 fine step, and the trims of its main
and check lines. -/
def sweepOf (j : Nat) (m : List Int) : List Int :=
  if m.length = 27 then [m.getD 0 0, m.getD 1 0, m.getD 2 0] ++ ((m.drop (3 + 4 * j)).take 4) else []

/-- PLUMB agrees within one fine step on a50 and one code on each trim (Table 12.1). -/
def plumbTol : List (Option Nat) := [none, some 16, none, none, none, some 1, some 1]

/-- Replica j of a PLUMB item: offset, u, trims and status (R301). -/
def plumbReplica (a : AssayItem) (s : Option OppCal) (j : Nat) : Nat × Nat × Nat × Nat × Nat :=
  match agreeing plumbTol (sweepOf j a.m1) (sweepOf j a.m2) (sweepOf j a.m3) with
  | some p =>
    let v := meanOf p
    let o := clamp 0 63 ((v.getD 3 0 - v.getD 1 0 + 15) / 16)
    let u := (v.getD 2 0 - v.getD 0 0) / 2 + (dist (p.1.getD 1 0) (p.2.getD 1 0) / 2 : Nat) + v.getD 4 0
    (o.toNat, u.toNat, (v.getD 5 0).toNat % 256, (v.getD 6 0).toNat % 256, 0)
  | none => match s with
    | some x => (x.offsets.getD j 0, x.u, x.trims.getD (2 * j) 0, x.trims.getD (2 * j + 1) 0, 1)
    | none => (0, 0xFF, 0, 0, 2)

/-- A PLUMB item of an island at one operating point; a replica out of service is not flagged. -/
def takePlumb (a : AssayItem) (d : Die) : Die :=
  let s := (storedIsland d a.id).map (fun x => x.opp.getD a.opp {})
  let l := (List.range 6).map (plumbReplica a s)
  let works := (List.range 6).filter (fun j => !replicaRetired d a.id j)
  let st := fun (j : Nat) => (l.getD j (0, 0, 0, 0, 0)).2.2.2.2
  let worst := works.foldl (fun m j => max m (st j)) 0
  let d := modAssay (fun x => { x with
    us := tset [] x.us (16 * a.id + a.opp) (l.map (·.2.1))
    values := modOpp a.id a.opp (fun y => { y with
      plumbStatus := worst
      offsets := l.map (·.1)
      trims := l.flatMap (fun e => [e.2.2.1, e.2.2.2.1]) }) x.values }) d
  fall worst a.id (each (works.filter (fun j => st j ≠ 0)) (fun j d => flagItem 8 (st j) a.opp j (.island a.id) d) d)

/-- Least of a list of replicas by u at OPP 12, ties to the lower index (R302). -/
def leastU (u : List Nat) (l : List Nat) : Option Nat :=
  l.foldl (fun m j => match m with | some k => if u.getD j 0 < u.getD k 0 then some j else some k | none => some j) none

/-- The active mask chosen from the u_j at OPP 12 (R302). -/
def chooseActive (d : Die) (i : Nat) (u : List Nat) : Nat :=
  let works := (List.range 6).filter (fun j => !replicaRetired d i j)
  let three := (List.range 3).filterMap (fun k => leastU u (works.filter (fun j => decide (j / 2 = k))))
  let fourth := leastU u (works.filter (fun j => !three.contains j))
  total ((three ++ fourth.toList).map (2 ^ ·))

/-- Replica selection at the close: the active mask, and u at each operating point measured as the largest over the active set (R301, R302). -/
def selectReplicas (i : Nat) (d : Die) : Die :=
  match d.store.assay with
  | none => d
  | some a =>
    let mask := match tget [] a.us (16 * i + 12) with | [] => activeMask d i | u => chooseActive d i u
    let d := modAssay (fun x => { x with values := modIslandCal i (fun c => { c with active := mask }) x.values }) d
    each ((List.range 16).filter (fun k => tget [] a.us (16 * i + k) ≠ [])) (fun k d =>
      let u := tget [] a.us (16 * i + k)
      let worst := ((List.range 6).filter (bit mask)).foldl (fun m j => max m (u.getD j 0)) 0
      let d := modAssay (fun x => { x with values := modOpp i k (fun c => { c with u := sat 8 worst }) x.values }) d
      if 64 < worst ∧ worst < 0xFF then flagItem 8 0 k 0xFF (.island i) d else d) d

/-! ## The schedule (R305–R311) -/

/-- Islands under an Assay. -/
def assayRegions (d : Die) (a : Assay) : List Nat := match a.region with | some r => [r] | none => presentRegions d

/-- Duration, ns (R305, R310). -/
def assayLength (a : Assay) : Nat := match a.region with | some _ => 15000000 + 3000000 * a.covered.length | none => 210000000

/-- End of the phase or sub-step in progress, after the start of the Assay (Table 12.3, R310). -/
def phaseEndNs (a : Assay) : Nat :=
  match a.region, a.phase with
  | none, 0 => 3000000
  | none, 1 => 5000000
  | none, 2 => 5500000 + 500000 * a.sub
  | none, 3 => 14000000
  | none, 4 => 14000000 + 3000000 * (a.sub + 1)
  | some _, 1 => 2000000
  | some _, 2 => 3000000
  | some _, 3 => 11000000
  | some _, 4 => 11000000 + 3000000 * (a.sub + 1)
  | _, _ => assayLength a

/-- Operating point of the ladder sub-step in progress. -/
def ladderOpp' (a : Assay) : Nat := match a.region with | some _ => a.covered.getD a.sub 0 | none => a.sub / 4

/-- Region of an item. -/
def itemRegion (a : AssayItem) : Nat := if a.item = 0 then a.id / 4 else if a.item ≤ 2 then a.id else islandRegion a.id

/-- The phase in progress measures the item (R305, R306, R310). -/
def phaseMeasures (d : Die) (a : Assay) (m : AssayItem) : Bool :=
  let r := itemRegion m
  let items := match a.phase with | 0 => [0] | 1 => [1] | 2 => [2] | 3 => (if a.region.isSome then [3, 5] else [3, 4, 5]) | 4 => (if a.region.isSome then [6, 8] else [6, 7, 8]) | _ => []
  items.contains m.item && (assayRegions d a).contains r && !(region d r).retired
    && (decide (a.phase ≠ 4) || (decide (m.opp = ladderOpp' a) && (a.region.isSome || decide (d.startup.fuses.bins.getD r 0 = a.sub % 4))))
    && (decide (a.phase ≠ 2) || a.region.isNone || (match (region d r).drover with | .borrowing _ => true | _ => false))

/-- Measurements of the phase enter the values that wait for the close; an item that is not listed is carried (R292, R308). -/
def takeMeasured (l : List AssayItem) (d : Die) : Die :=
  match d.store.assay with
  | some a => each (l.filter (phaseMeasures d a)) (fun m d => if m.item = 8 then takePlumb m d else takeItem m d) d
  | none => d

/-- The phase that follows (Table 12.3, R310). -/
def nextPhase (a : Assay) : Assay :=
  match a.region, a.phase with
  | none, 2 => if a.sub = 0 then { a with sub := 1 } else { a with phase := 3, sub := 0 }
  | none, 4 => if a.sub < 63 then { a with sub := a.sub + 1 } else { a with phase := 5, sub := 0 }
  | some _, 3 => if a.covered = [] then { a with phase := 5 } else { a with phase := 4, sub := 0 }
  | some _, 4 => if a.sub + 1 < a.covered.length then { a with sub := a.sub + 1 } else { a with phase := 5, sub := 0 }
  | _, _ => { a with phase := a.phase + 1, sub := 0 }

/-- Quadrant rails at f, and the SRAM rail by R180. -/
def assayRails (f : Nat → Nat) (d : Die) : Die :=
  writeTarget 4 ((List.range 4).foldl (fun m k => max m (f k)) 700) false (each (List.range 4) (fun k d => writeTarget k (f k) false d) d)

/-- Requirement of a quadrant rail at operating point k (R180). -/
def railAt (d : Die) (k opp : Nat) : Nat := (railRegions d k).foldl (fun m r => max m (requirement d r opp)) 0

/-- The rails of the phase that begins, at power-up (Table 12.3, R306). -/
def phaseRails (d : Die) : Die :=
  match d.store.assay with
  | some a =>
    if a.region.isSome then d
    else match a.phase with
      | 1 => assayRails (fun k => railAt d k 12) d
      | 3 => assayRails (fun _ => 780) d
      | 4 => assayRails (fun _ => ((Config.typicalMv.getD (a.sub / 4) 0 : Int) + 5 * offsetCode d (a.sub / 4) (a.sub % 4)).toNat) d
      | 5 => assayRails (fun k => railAt d k 12) d
      | _ => d
  | none => d

/-- On command, the loops of a region open for BANDS while its lane is lent (R296). -/
def openLoops (r : Nat) (d : Die) : Die :=
  match droverLend r 1 d with
  | some d => powerSynth r 1 (powerSynth r 0 (deselect r d))
  | none => d

/-- They close again at the end of the phase. -/
def closeLoops (r : Nat) (d : Die) : Die := if (region d r).select.isNone then acquireBoth r .recover d else d

/-- The turn from one phase to the next, at the region of an Assay on command. -/
def commandTurn (before after : Assay) (d : Die) : Die :=
  match before.region with
  | some r => if after.phase = 2 then openLoops r d else if before.phase = 2 then closeLoops r d else d
  | none => d

/-- Status codes of an Assay that begins: every item is carried until it is measured (R292). -/
def carriedCal (d : Die) (a : Assay) : Calib :=
  let w := d.store.work
  let w := (assayRegions d a).foldl (fun w r => modRegionCal r (fun x => { x with spineStatus := 3, bandsStatus := 3, sensors := (List.range 4).map (fun j => { (x.sensors.getD j {}) with status := 3 }) }) w) w
  ((assayRegions d a).flatMap regionIslands).foldl (fun w i => modIslandCal i (fun x => { x with cellsStatus := 3, trackStatus := 3, dutyStatus := 3, opp := (List.range 16).map (fun k => { (x.opp.getD k {}) with biasStatus := 3, floorStatus := 3, plumbStatus := 3 }) }) w) w

/-- Operating points an Assay on command covers: those whose requirement is at or below the rail target (R310). -/
def coveredBy (d : Die) (r : Nat) : List Nat :=
  (List.range 16).filter (fun k => decide (requirement d r k ≤ (rail d (regionRail r)).target))

/-- ASSAY_START (R305, R309); calibration windows see the Assay (R237). -/
def assayStarted (a : Assay) (d : Die) : Die :=
  let d := { d with store := { d.store with assay := some { a with values := carriedCal d a } } }
  let rails := match a.region with | some r => [regionRail r, 4] | none => List.range 5
  let d := each rails (fun k d => modRail k (fun x => { x with sawAssay := true }) d) d
  emit 0x0901 (match a.region with | some r => .region r | none => .none) (le 1 (b1 a.region.isSome) ++ zeros 3 ++ le 4 (assayLength a / 1000)) d

/-- Power-up Assay begins (R305). -/
def powerUpAssay (d : Die) : Die :=
  assayStarted { region := none, phase := 0, sub := 0, since := d.tally.now, covered := List.range 16, values := {} } d

/-- An Assay on command begins: the region's islands stop and are excused (R309). -/
def assayBegin (r : Nat) (d : Die) : Die :=
  let d := assayStarted { region := some r, phase := 1, sub := 0, since := d.tally.now, covered := coveredBy d r, values := {} } d
  let d := certMark r (fun x => { x with assayed := true }) d
  each (regionIslands r) (fun i d => refreshIsland i (stopBellows i d)) d

/-- ASSAY_PHASE_END (R305, R310): the phase's measurements are taken and the next phase begins. An Assay on command that waits for a commit begins once none is
pending (R309). -/
def assayPhaseEnd (l : List AssayItem) (d : Die) : Die :=
  match d.store.assay with
  | none => d
  | some a =>
    if a.waiting then
      match a.region with
      | some r => if (pendingCommit d r).isSome then d else assayBegin r d
      | none => d
    else if d.tally.now < a.since + phaseEndNs a ∨ a.phase = 5 then d
    else
      let d := takeMeasured l d
      let d := modAssay nextPhase d
      phaseRails (commandTurn a (nextPhase a) d)

/-- ASSAY_PHASE_END (R305). -/
def execAssayPhaseEnd (measured : List AssayItem) (s : State) : Host.Outcome State Fault Refusal := run true (assayPhaseEnd measured) s

/-! ## The close (R308, R311) -/

/-- A sensor whose item is flagged is invalid, and one whose item is measured is no longer (R257, R410). -/
def sensorFlags (c : Calib) (n : Nat) (d : Die) : Die :=
  let st := ((tget {} c.regions (n / 4)).sensors.getD (n % 4) {}).status
  let x := sensor d n
  if st = 0 then modSensor n (fun x => { x with assayFlag := false }) d
  else if (st = 1 ∨ st = 2) ∧ !x.assayFlag then
    let d := modSensor n (fun x => { x with assayFlag := true }) d
    if x.retired then d else emit 0x060B (.sensor n) (le 1 1 ++ zeros 1 ++ leI 2 x.reading) d
  else d

/-- Bellows that a fallback has cost (Table 12.2). -/
def retireFallen (a : Assay) (d : Die) : Die := each (a.fallen.filter (fun i => !(region d (islandRegion i)).retired)) (fun i d => bellowsRetire i 2 0 d) d

/-- Measured values enter the working calibration, all at once (R308). -/
def loadValues (a : Assay) (d : Die) : Die :=
  let regions := assayRegions d a
  let islands := regions.flatMap regionIslands
  let d := each islands selectReplicas d
  match d.store.assay with
  | none => d
  | some a =>
    let w := d.store.work
    let w := regions.foldl (fun w r => modRegionCal r (fun _ => tget {} a.values.regions r) w) w
    let w := islands.foldl (fun w i => modIslandCal i (fun _ => tget {} a.values.islands i) w) w
    let d := { d with store := { d.store with work := w, flagged := a.flagged } }
    let d := each islands (fun i d => modMargin i (fun m => { m with active := none }) d) d
    each (regions.flatMap regionSensors) (sensorFlags w) d

/-- ASSAY_DONE. -/
def assayDone (a : Assay) (d : Die) : Die :=
  emit 0x0902 (match a.region with | some r => .region r | none => .none) (le 1 (b1 a.region.isSome) ++ zeros 1 ++ le 2 (sat 16 d.store.flagged)) d

/-- Both hop caches of a region are invalid (R92). -/
def clearHops (r : Nat) (d : Die) : Die := each [0, 1] (fun x d => modSynth r x (fun s => { s with cache := [] }) d) d

/-- ASSAY_CLOSE (R308, R311). Power-up Assay stops every ring and gate; Assay on command restarts its region. -/
def assayClose (d : Die) : Die :=
  match d.store.assay with
  | none => d
  | some a =>
    if a.waiting ∨ a.phase ≠ 5 ∨ d.tally.now < a.since + assayLength a then d
    else
      let d := loadValues a d
      let d := each (assayRegions d a) clearHops d
      match a.region with
      | none => assayDone a (retireFallen a { d with store := { d.store with assay := none } })
      | some r =>
        let d := if (region d r).latched then setCeiling 7 r none (modRegion r (fun x => { x with latched := false }) d) else d
        let d := missedEnd r d
        let d := { d with store := { d.store with assay := none, assayKey := none } }
        assayDone a (assayRestart r (retireFallen a d))

/-- ASSAY_CLOSE (R311). -/
def execAssayClose (s : State) : Host.Outcome State Fault Refusal := run true assayClose s

end Sys2Proof.Machine
end

