-- ==== Sys2Proof/Machine/Energy.lean ====
section
/-! DEFINITION. Energy attribution (R227–R243): the estimate of each 1 µs interval, the burst credit (R250), the 10 µs windows of the limit loops, and the 1 ms calibration against telemetry (R236–R239). -/

namespace Sys2Proof.Machine
open Sys2Proof

/-! ## Tables -/

/-- Coefficient table of a region (R229). -/
def coefsOf (d : Die) (r : Nat) : List Nat :=
  match tget [] d.store.work.coefs r with | [] => Config.coefDefault | l => l

/-- Default leakage table and share of a region (R231). -/
def defaultLeak (r : Nat) : Leak :=
  let den := if r < 72 then 15185664 else 30371328
  { table := (List.range 64).map (fun n => let v := 500 + 60 * (n / 8); v * v * v * (16 + 5 * (n % 8)) / den), share := if r < 72 then 0x2000 else 0 }

/-- Leakage table and share of a region (R231). -/
def leakOf (d : Die) (r : Nat) : Leak :=
  match d.store.work.leaks.find? (fun e => e.1 = r) with | some e => e.2 | none => defaultLeak r

/-- Temperature of a region for leakage, 1/16 °C (R232). -/
def energyTemp (d : Die) (r : Nat) : Int :=
  let l := (regionSensors r).filter (sensorValid d)
  match l with
  | _ :: _ => (l.foldl (fun a n => a + (sensor d n).reading) (0 : Int)) / (l.length : Int)
  | [] => (hottestOf d (((railRegions d (regionRail r)).filter (· ≠ r)).flatMap regionSensors)).getD d.limits.hard

/-! ## The estimate (R230–R235) -/

/-- The eight figures of a region in one interval, fJ. -/
structure Figures where
  rawQ : Nat
  rawS : Nat
  calQ : Nat
  calS : Nat
  dynQ : Nat
  dynS : Nat
  leakQ : Nat
  leakS : Nat

/-- Scale factor of a rail, Q2.14 (R230). -/
def scaleOf (mv : Nat) : Nat := mv * mv * 16384 / 608400

/-- Leakage of a region, mW, by bilinear interpolation (R232). -/
def leakage (table : List Nat) (v t : Int) : Nat :=
  let iv := clamp 0 6 ((v - 500) / 60)
  let wv := clamp 0 256 ((v - 500 - 60 * iv) * 256 / 60)
  let it := clamp 0 6 ((t - 400) / 240)
  let wt := clamp 0 256 ((t - 400 - 240 * it) * 256 / 240)
  let at_ := fun (i j : Int) => ((table.getD (8 * i + j).toNat 0 : Nat) : Int)
  ((at_ iv it * (256 - wv) * (256 - wt) + at_ (iv + 1) it * wv * (256 - wt) + at_ iv (it + 1) * (256 - wv) * wt
    + at_ (iv + 1) (it + 1) * wv * wt) / 65536).toNat

/-- Sum of counts times coefficients over a list of classes. -/
def priced (n coef : List Nat) (classes : List Nat) : Nat := total (classes.map (fun c => n.getD c 0 * coef.getD c 0))

/-- Number of present regions over which a rail's offset is shared (R233). -/
def sharers (d : Die) (k : Nat) : Nat := (railRegions d k).length

/-- Calibrated part: the dynamic part by the gain, the leakage part, and the share of the offset, never below zero (R233). -/
def calibrated (x : Rail) (dyn leakMw n : Nat) : Nat :=
  (((dyn * x.gain / 16384 + leakMw * 1000000 : Nat) : Int) + x.offset * 1000000 / (n : Int)).toNat

/-- Coefficient table in force for the interval in progress (R229, R243). -/
def coefsNow (d : Die) (r : Nat) : List Nat := (region d r).energy.coefHeld.getD (coefsOf d r)

/-- The figures of region r for counts n (R233, R234). -/
def figures (d : Die) (r : Nat) (n : List Nat) : Figures :=
  let e := (region d r).energy
  let q := rail d (regionRail r)
  let s := rail d 4
  let coef := coefsNow d r
  let lk := e.leakHeld.getD (leakOf d r)
  let p := leakage lk.table q.startMv e.temp
  let ls := p * lk.share / 65536
  let lq := p - ls
  let dq := priced n coef [0, 1, 2, 3, 4, 7, 8, 9, 10, 11] * scaleOf q.startMv / 16384
  let ds := priced n coef [5, 6] * scaleOf s.startMv / 16384
  let onQ := !q.startOff
  let onS := !s.startOff && decide (r < 72)
  { dynQ := if onQ then dq else 0, leakQ := if onQ then lq * 1000000 else 0, rawQ := if onQ then dq + lq * 1000000 else 0
    calQ := if onQ then calibrated q dq lq (sharers d (regionRail r)) else 0
    dynS := if onS then ds else 0, leakS := if onS then ls * 1000000 else 0, rawS := if onS then ds + ls * 1000000 else 0
    calS := if onS then calibrated s ds ls (sharers d 4) else 0 }

/-- The figures of the last interval, which an assayed region repeats (R234). -/
def lastFigures (e : RegionEnergy) : Figures :=
  { rawQ := e.rawQ, rawS := e.rawS, calQ := e.calQ, calS := e.calS, dynQ := e.dynQ, dynS := e.dynS, leakQ := e.leakQ, leakS := e.leakS }

/-- A rail takes up a region's part of its figures (R233, R236, R251). -/
def chargeRail (k dyn leak cal : Nat) (d : Die) : Die :=
  modRail k (fun x => { x with sumDyn := x.sumDyn + dyn, sumLeak := x.sumLeak + leak, sumCal := x.sumCal + cal, window := x.window + cal }) d

/-- An account of a tenant, or of owner 0, takes up energy (R240, R242). -/
def chargeTenant (o raw cal : Nat) (d : Die) : Die := modTenant o (fun t => { t with raw := t.raw + raw, cal := t.cal + cal }) d

/-- Raw and calibrated energy of the hops of source s in region r (R242). -/
def hopEnergy (d : Die) (r : Nat) (hops : List Nat) (s : Nat) : Nat × Nat :=
  let q := rail d (regionRail r)
  let raw := if q.startOff then 0 else hops.getD s 0 * (coefsNow d r).getD 7 0 * scaleOf q.startMv / 16384
  (raw, raw * q.gain / 16384)

/-- The energy of a region goes to its owner, except the hops of other sources, which go to theirs (R242). -/
def creditOwners (r : Nat) (f : Figures) (hops : List Nat) (d : Die) : Die :=
  let o := (region d r).owner
  let others := (List.range 17).filter (fun s => decide (s ≠ o ∧ 0 < hops.getD s 0))
  let raw := total (others.map (fun s => (hopEnergy d r hops s).1))
  let cal := total (others.map (fun s => (hopEnergy d r hops s).2))
  each others (fun s e => chargeTenant s (hopEnergy d r hops s).1 (hopEnergy d r hops s).2 e) (chargeTenant o (f.rawQ + f.rawS - raw) (f.calQ + f.calS - cal) d)

/-- One region's interval: its figures, its accounts and its charges on the rails (R233–R235, R242). -/
def regionInterval' (counts : List Activity) (r : Nat) (d : Die) : Die :=
  let e := (region d r).energy
  let stale := underAssay d r
  let a := counts.find? (fun c => c.region = r)
  let live := !stale && !(region d r).retired
  let n := match a with | some c => if live then c.classes else [] | none => []
  let hops := match a with | some c => if live then c.hops else [] | none => []
  let f := if stale then lastFigures e else figures d r n
  let d := creditOwners r f hops d
  let d := chargeRail 4 f.dynS f.leakS f.calS (chargeRail (regionRail r) f.dynQ f.leakQ f.calQ d)
  let key := 32 * regionRail r + (region d r).owner
  let d := { d with limits := { d.limits with window := d.limits.window + f.calQ + f.calS, roundEnergy := d.limits.roundEnergy + f.calQ + f.calS, ownerNow := tmod 0 d.limits.ownerNow key (· + f.calQ) } }
  modRegion r (fun x => { x with energy := { x.energy with
    rawQ := f.rawQ, rawS := f.rawS, calQ := f.calQ, calS := f.calS, dynQ := f.dynQ, dynS := f.dynS, leakQ := f.leakQ, leakS := f.leakS
    stale := stale
    accRaw := x.energy.accRaw + f.rawQ + f.rawS
    accCal := x.energy.accCal + f.calQ + f.calS
    accDyn := x.energy.accDyn + f.dynQ + f.dynS
    accLeak := x.energy.accLeak + f.leakQ + f.leakS
    winQ := x.energy.winQ + f.calQ
    winS := x.energy.winS + f.calS } }) d

/-! ## Burst credit and windows (R250, R251, R284) -/

/-- Budget in force, mW (R250). -/
def budgetMw (d : Die) : Nat := if d.limits.flag then d.limits.burst * 1000 else sustainedMw d

/-- The burst credit after an interval of package energy e (R250). -/
def creditUpdate (e : Nat) (d : Die) : Die :=
  let cmax := creditMax d
  let c := min cmax (d.limits.credit + sustainedMw d * 1000000 - e)
  let flag := if cmax / 2 ≤ c then true else if c = 0 then false else d.limits.flag
  { d with limits := { d.limits with credit := c, flag := flag } }

/-- Disturbance of a region in the window that ends: the excess of its islands over the number of them that delivered cycles (R284). -/
def disturbance (d : Die) (r : Nat) : Nat :=
  let l := (regionIslands r).map (fun i => (island d i).margin)
  let n := l.countP (fun m => 0 < m.exCycles)
  if n = 0 then 0 else total (l.map (·.excess)) / n

/-- A window's value enters a history of at most n, newest first; a history of zeros is not begun. -/
def pushHistory (n v : Nat) (l : List Nat) : List Nat := if l.isEmpty ∧ v = 0 then [] else (v :: l).take n

/-- Variation of owner o on rail k takes up the window that ends (R284). -/
def pushVariation (key : Nat) (d : Die) : Die :=
  let a := tget 0 d.limits.ownerLast key
  let b := tget 0 d.limits.ownerNow key
  { d with limits := { d.limits with variation := tmod [] d.limits.variation key (pushHistory 100 (max a b - min a b)) } }

/-- A 10 µs window ends at e: its figures wait for the evaluation at e + 2 µs (R251), and the disturbances and variations are taken (R284). -/
def closeWindow (e : Nat) (d : Die) : Die :=
  let d := each (List.range 5) (fun k d => modRail k (fun x => { x with windowDone := x.window, window := 0 }) d) d
  let d := each (presentRegions d) (fun r d => modRegion r (fun x => { x with energy := { x.energy with
    doneQ := x.energy.winQ, doneS := x.energy.winS, winQ := 0, winS := 0
    history := pushHistory 1000 (x.energy.winQ + x.energy.winS) x.energy.history
    disturb := pushHistory 100000 (disturbance d r) x.energy.disturb } }) d) d
  let d := each ((List.range 4).flatMap (fun k => (List.range 17).map (fun o => 32 * k + o))) pushVariation d
  let d := each (d.islands.map (·.1)) (modMargin · (fun m => { m with excess := 0, exCycles := 0 })) d
  { d with limits := { d.limits with windowDone := d.limits.window, window := 0, budgetDone := budgetMw d, windowEnd := some e, ownerLast := d.limits.ownerNow, ownerNow := [] } }

/-- What the next interval holds from its start: rail targets, temperatures, tables and owners (R230, R232, R243, R276). -/
def beginInterval (d : Die) : Die :=
  let d := each (List.range 5) (fun k d => modRail k (fun x => { x with startMv := if x.retention then Config.retentionMv else x.target, startOff := x.off }) d) d
  let d := each (presentRegions d) (fun r d => modRegion r (fun x => { x with energy := { x.energy with temp := energyTemp d r, coefHeld := none, leakHeld := none } }) d) d
  each (presentRegions d) moveRegion d

/-- ENERGY_INTERVAL_END (R228, R233, R250): the interval that ends at the last multiple of 1,000 ns is priced, once. -/
def intervalEnd (counts : List Activity) (d : Die) : Die :=
  let e := d.tally.now / 1000 * 1000
  if e = d.limits.intervalEnd then d
  else
    let before := d.limits.window
    let d := { d with limits := { d.limits with intervalEnd := e } }
    let d := each (presentRegions d) (regionInterval' counts) d
    let d := creditUpdate (d.limits.window - before) d
    let d := if e % 10000 = 0 then closeWindow e d else d
    beginInterval d

/-- ENERGY_INTERVAL_END (R233). -/
def execEnergyIntervalEnd (counts : List Activity) (s : State) : Host.Outcome State Fault Refusal := run true (intervalEnd counts) s

/-! ## Telemetry and calibration (R236–R239) -/

/-- R236, R453: the Chandler begins READ_POUT on each rail that is on and not at the retention voltage. -/
def telemetryStart (d : Die) : Die :=
  each (List.range 5) (fun k d => modRail k (fun x =>
    if x.off ∨ x.retention then { x with sawOff := true }
    else if !chandlerRuns d then { x with sawNoChandler := true }
    else if x.pmbus.isSome then x else { x with pmbus := some true, pmbusAt := d.tally.now }) d) d

/-- TELEMETRY_READ_START (R236). -/
def execTelemetryReadStart (s : State) : Host.Outcome State Fault Refusal := run true telemetryStart s

/-- Measured mean, and raw dynamic, leakage and calibrated means of a window, mW (R236). -/
def measuredMw (x : Rail) : Nat := if x.reads = 0 then 0 else x.sumMw / x.reads
def dynMw (x : Rail) : Nat := x.sumDyn / 1000000000
def leakMw (x : Rail) : Nat := x.sumLeak / 1000000000

/-- The estimate with the gain and offset in force lies more than m / 2 from m (Table 9.2, code 8). -/
def implausible (x : Rail) : Bool :=
  let m : Int := measuredMw x
  let e : Int := ((dynMw x * x.gain / 16384 + leakMw x : Nat) : Int) + x.offset
  decide (m < 2 * (max m e - min m e))

/-- Why a window is skipped; 0 where it is used (R237, Table 9.2). -/
def skipReason (d : Die) (x : Rail) : Nat :=
  if x.sawOff then 7
  else if x.reads < 8 then 1
  else if (match x.changedAt with | some t => decide (d.tally.now ≤ t + 1100000) | none => false) then 2
  else if x.sawAlert then 3
  else if x.sawAssay then 4
  else if x.sawHost then 5
  else if x.sawNoChandler || !chandlerRuns d then 6
  else if implausible x then 8 else 0

/-- The condition on d that lets the gain move (R238). -/
def gainMoves (x : Rail) : Bool := decide (2000 ≤ dynMw x ∧ measuredMw x ≤ 4 * dynMw x)

/-- Gain and offset after a window that is used (R238). -/
def updated (x : Rail) : Nat × Int :=
  let m : Int := measuredMw x
  let dd : Int := dynMw x
  let l : Int := leakMw x
  let g : Int := if gainMoves x then
      let gi := (m - l - x.offset) * 16384 / dd
      clamp 0x2000 0x8000 (x.gain + (gi - x.gain) / 64)
    else x.gain
  let oi := m - g * dd / 16384 - l
  (g.toNat, clamp (-524288) 524287 (x.offset + (oi - x.offset) / 64))

/-- The rail energy record of the window that ends (Table 9.6). -/
def railRecord (k now reason : Nat) (x : Rail) (g : Nat) (o : Int) : Bytes :=
  le 1 k ++ le 1 (b1 (decide (reason = 0)) + 2 * b1 (decide (reason = 0) && !gainMoves x) + 4 * b1 x.sawAssay + 8 * b1 (decide (g = 0x2000 ∨ g = 0x8000)))
    ++ le 1 reason ++ le 1 x.reads ++ le 8 now ++ le 4 (if x.reads < 8 then 0 else measuredMw x) ++ le 4 (dynMw x) ++ le 4 (leakMw x)
    ++ le 4 (x.sumCal / 1000000000) ++ le 2 g ++ zeros 2 ++ leI 4 o ++ zeros 4

/-- A rail's window ends (R237–R239): it is skipped, or its update is computed to apply 20 µs later; a host write takes effect at the boundary and skips
the window that begins, and its value stands over the update. -/
def railWindowEnd (k : Nat) (d : Die) : Die :=
  let x := rail d k
  let reason := skipReason d x
  let u := if reason = 0 then updated x else (x.gain, x.offset)
  let after := x.hostWrite.getD u
  let d :=
    if reason ≠ 0 then (if x.skipped = 0 then emit 0x0602 (.rail k) (le 1 reason) d else d)
    else if 0 < x.skipped then emit 0x0603 (.rail k) (le 4 x.skipped) d else d
  let assay := (railRegions d k).any (underAssay d)
  modRail k (fun y => { y with
    record := railRecord k d.tally.now reason x after.1 after.2
    skipped := if reason = 0 then 0 else x.skipped + 1
    update := if reason = 0 ∧ x.hostWrite.isNone then some (u.1, u.2, d.tally.now + 20000) else none
    gain := (x.hostWrite.map (·.1)).getD x.gain
    offset := (x.hostWrite.map (·.2)).getD x.offset
    sawHost := x.hostWrite.isSome || x.hostNext
    hostNext := false
    hostWrite := none
    reads := 0
    sumMw := 0
    sumDyn := 0
    sumLeak := 0
    sumCal := 0
    sawAlert := false
    sawAssay := assay
    sawNoChandler := false
    sawOff := x.off || x.retention }) d

/-- CALIBRATION_WINDOW_END (R237, R238). -/
def calibrationWindowEnd (d : Die) : Die := each (List.range 5) railWindowEnd d

def execCalibrationWindowEnd (s : State) : Host.Outcome State Fault Refusal := run true calibrationWindowEnd s

/-- CALIBRATION_UPDATE_APPLY (R238): 20 µs after a window's end the new gain and offset take effect; ENERGY_GAIN_LIMIT at each arrival at a bound. -/
def updateApply (k : Nat) (d : Die) : Die :=
  let x := rail d k
  match x.update with
  | some (g, o, t) =>
    if d.tally.now < t then d
    else
      let d := modRail k (fun y => { y with gain := g, offset := o, update := none }) d
      if (g = 0x2000 ∨ g = 0x8000) ∧ g ≠ x.gain then emit 0x0604 (.rail k) (le 2 g) d else d
  | none => d

def calibrationUpdateApply (d : Die) : Die := each (List.range 5) updateApply d

/-- CALIBRATION_UPDATE_APPLY (R238). -/
def execCalibrationUpdateApply (s : State) : Host.Outcome State Fault Refusal := run true calibrationUpdateApply s

end Sys2Proof.Machine
end

