-- ==== Sys2Proof/Machine/Limits.lean ====
section
/-! DEFINITION. The limit loops (R251–R255), and the regulator alerts and failed falls (R256, R412). -/

namespace Sys2Proof.Machine
open Sys2Proof

/-! ## Loops -/

/-- One loop as an evaluation finds it: loop and index as in `LimitDrain`, the throttle reason it sets, whether it is over, its limit in mW, its energy
in fJ, and the regions over their share. -/
structure Loop where
  loop : Nat
  index : Nat
  reason : Nat
  exceeds : Bool
  limit : Nat
  energy : Nat
  targets : List Nat

/-- One milliwatt over a 10 µs window, fJ. -/
def mwWindow : Nat := 10000000

/-- Calibrated energy of a region, and its part on a rail, in the window evaluated. -/
def regionWindow (d : Die) (r : Nat) : Nat := (region d r).energy.doneQ + (region d r).energy.doneS
def railPart (d : Die) (k r : Nat) : Nat := if k = 4 then (region d r).energy.doneS else (region d r).energy.doneQ

/-- Rail power cap, and rail current limit as power at the rail target, mW (R252). -/
def railCapMw (d : Die) (k : Nat) : Nat := (rail d k).capW.getD (Config.railCapW.getD k 0) * 1000
def railCurrentMw (d : Die) (k : Nat) : Nat := (rail d k).limitA.getD (Config.railLimitA.getD k 0) * (rail d k).target

/-- The package loop (R251); while the die has lent budget that would cover the excess, it sets POOL_LENT in place of PKG_CAP. -/
def packageLoop (d : Die) : Loop :=
  let b := d.limits.budgetDone
  let e := d.limits.windowDone
  { loop := 0, index := 0, reason := if 0 < lentTotal d ∧ e ≤ (b + 100 * lentTotal d) * mwWindow then 10 else 0
    exceeds := decide (b * mwWindow < e), limit := b, energy := e
    targets := (presentRegions d).filter (fun r => decide (b * fractionOf d r * mwWindow < regionWindow d r * 4096)) }

/-- A rail loop against a limit in mW (R252). -/
def railLoop (d : Die) (loop k limit : Nat) : Loop :=
  let l := railRegions d k
  { loop := loop, index := k, reason := loop, exceeds := decide (limit * mwWindow < (rail d k).windowDone), limit := limit, energy := (rail d k).windowDone
    targets := l.filter (fun r => decide (limit * mwWindow * fractionOf d r < railPart d k r * fractions d l)) }

/-- The strict loop of region r, against the sustained cap (R253). -/
def strictLoop (d : Die) (r : Nat) : Loop :=
  let f := fractionOf d r
  { loop := 3, index := r, reason := 3, exceeds := (region d r).strict && decide (sustainedMw d * f * mwWindow < regionWindow d r * 4096)
    limit := sustainedMw d * f / 4096, energy := regionWindow d r, targets := [r] }

/-- The loops of an evaluation. -/
def loops (d : Die) : List Loop :=
  packageLoop d :: ((List.range 5).flatMap (fun k => [railLoop d 1 k (railCapMw d k), railLoop d 2 k (railCurrentMw d k)]) ++ (presentRegions d).map (strictLoop d))

/-- The history of a reason on a region. -/
def raiseOf (x : Region) (j : Nat) : Raise := tget {} x.raises j
def modRaise (r j : Nat) (f : Raise → Raise) (d : Die) : Die := modRegion r (fun x => { x with raises := tmod {} x.raises j f }) d

/-- A loop lowers a region's ceiling to v (R251). -/
def lowerCeiling (j v r : Nat) (d : Die) : Die :=
  if ceilingAt (region d r) j = some v then d
  else setCeiling j r (some v) (modRaise r j (fun x => { x with lastLower := some d.tally.now }) d)

/-- The drain of a loop, while one is open. -/
def drainOf (d : Die) (l : Loop) : Option LimitDrain := d.limits.drains.find? (fun x => decide (x.loop = l.loop ∧ x.index = l.index))

/-- The bytes 0–3 that the drain records share (Table 15.3). -/
def drainHead (l : Loop) : Bytes := le 1 l.loop ++ le 1 (if l.loop = 1 ∨ l.loop = 2 then l.index else 0xFF) ++ le 2 (if l.loop = 3 then l.index else 0xFFFF)

/-- A drain ends: LIMIT_DRAIN_END (R255). -/
def closeDrain (x : LimitDrain) (d : Die) : Die :=
  drainEnd x { d with limits := { d.limits with drains := d.limits.drains.filter (fun y => !decide (y.loop = x.loop ∧ y.index = x.index)) } }

/-- Replaces the drain of a loop. -/
def setDrain (x : LimitDrain) (d : Die) : Die :=
  { d with limits := { d.limits with drains := d.limits.drains.filter (fun y => !decide (y.loop = x.loop ∧ y.index = x.index)) ++ [x] } }

/-- A loop that is over lowers its regions by the step of R251 from the ceilings `base` of the evaluation's start; a drain of 2 ms sets them to OPP 0,
and LIMIT_FORCED is written (R255). -/
def loopOver (base : Nat → Nat) (l : Loop) (d : Die) : Die :=
  let fresh := (drainOf d l).isNone
  let x := (drainOf d l).getD { loop := l.loop, index := l.index, since := d.tally.now, lowest := 0xFF }
  let force := !x.forced && decide (x.since + 2000000 ≤ d.tally.now)
  let d := if fresh then emit 0x0607 .none (drainHead l ++ le 4 l.limit ++ le 4 (l.energy / mwWindow)) d else d
  let d := if force then emit 0x0609 .none (drainHead l ++ le 1 l.targets.length) d else d
  let lowTo := fun r => if force then 0 else base r
  let d := setDrain { x with forced := x.forced || force, lowest := l.targets.foldl (fun m r => min m (lowTo r)) x.lowest } d
  each l.targets (fun r d => lowerCeiling l.reason (lowTo r) r d) d

/-- One loop acts (R251–R253, R255). -/
def runLoop (base : Nat → Nat) (l : Loop) (d : Die) : Die :=
  if l.exceeds then loopOver base l d
  else match drainOf d l with
    | some x => closeDrain x d
    | none => d

/-- The quantity of a loop, or the region's part of it, is at or below 90 % of its limit (R254). -/
def calm (energy limit part share : Nat) : Bool := decide (10 * energy ≤ 9 * limit) || decide (10 * part ≤ 9 * share)

/-- The window is quiet for reason j on region r (R254). -/
def quietFor (d : Die) (j r : Nat) : Bool :=
  let f := fractionOf d r
  let onRail := fun (limit : Nat → Nat) => ([regionRail r] ++ (if r < 72 then [4] else [])).all (fun k =>
    calm (rail d k).windowDone (limit k * mwWindow) (railPart d k r * fractions d (railRegions d k)) (limit k * mwWindow * f))
  if j = 1 then onRail (railCapMw d)
  else if j = 2 then onRail (railCurrentMw d)
  else if j = 3 then decide (10 * regionWindow d r * 4096 ≤ 9 * sustainedMw d * f * mwWindow)
  else calm d.limits.windowDone (d.limits.budgetDone * mwWindow) (regionWindow d r * 4096) (d.limits.budgetDone * f * mwWindow)

/-- An instant lies at least n ns back. -/
def agoAtLeast (now n : Nat) (t : Option Nat) : Bool := match t with | some v => decide (v + n ≤ now) | none => true

/-- R254: the ceiling of reason j rises by one point where its conditions hold. `acted` tells that a loop lowers it in this evaluation. -/
def raiseCeiling (quiet acted : Bool) (j r : Nat) (d : Die) : Die :=
  let d := modRaise r j (fun x => { x with quiet := (quiet :: x.quiet).take 10 }) d
  let x := raiseOf (region d r) j
  match ceilingAt (region d r) j with
  | some c =>
    if !acted && decide (x.quiet.length = 10) && x.quiet.all id && agoAtLeast d.tally.now 1000000 x.lastLower && agoAtLeast d.tally.now 100000 x.lastRise then
      setCeiling j r (risen (some c)) (modRaise r j (fun x => { x with lastRise := some d.tally.now }) d)
    else d
  | none => d

/-- LIMIT_EVALUATION (R251–R255): the loops of the window that waits act, each from the ceilings of the evaluation's start, and then the rises. -/
def limitEvaluation (d : Die) : Die :=
  match d.limits.windowEnd with
  | none => d
  | some e =>
    if d.tally.now < e + 2000 then d
    else
      let ls := loops d
      let d0 := d
      let base := fun r => stepBelow (region d0 r)
      let d := { d with limits := { d.limits with windowEnd := none } }
      let d := each ls (runLoop base) d
      each (presentRegions d0) (fun r d => each [0, 1, 2, 3, 10] (fun j d =>
        raiseCeiling (quietFor d0 j r) (ls.any (fun l => l.exceeds && decide (l.reason = j) && l.targets.contains r)) j r d) d) d

/-- LIMIT_EVALUATION (R251). -/
def execLimitEvaluation (s : State) : Host.Outcome State Fault Refusal := run true limitEvaluation s

/-! ## Regulator alerts (R256, R412, R450) -/

/-- A rail is alerting by its status, or by three failed transactions (R256, R412). -/
def railAlerting (x : Rail) : Bool := x.alert || x.dead

/-- REGULATOR_ALERT: phase 0 onset or 1 release, kind 0 status or 1 fall, and the status word. -/
def alertEvent (k phase kind word : Nat) (d : Die) : Die := emit 0x060A (.rail k) (le 1 phase ++ le 1 kind ++ le 2 word) d

/-- The record is written with the word at hand, or waits for a status read (R256). -/
def alertLog (k phase kind : Nat) (word : Option Nat) (d : Die) : Die :=
  match word with
  | some w => alertEvent k phase kind w d
  | none => avsPush k .status (modRail k (fun x => { x with alertRecord := x.alertRecord ++ [phase + 2 * kind] }) d)

/-- A rail's demand on a region's VRM_ALERT ceiling; the ceiling is the lowest of them (R256). -/
def setVrm (slot r : Nat) (v : Option Nat) (d : Die) : Die :=
  let d := modRegion r (fun x => { x with vrm := lset none x.vrm slot v }) d
  setCeiling 6 r ((region d r).vrm.foldl minOpt none) d

/-- Place of rail k among a region's two: 0 the quadrant rail, 1 the SRAM rail. -/
def vrmSlot (k : Nat) : Nat := if k = 4 then 1 else 0

/-- While a rail alerts, the ceiling of its regions falls one point per 10 µs (R256). -/
def alertLower (k : Nat) (d : Die) : Die :=
  let x := rail d k
  if railAlerting x ∧ x.alertStep + 10000 ≤ d.tally.now then
    each (railRegions d k) (fun r d => setVrm (vrmSlot k) r (some (stepBelow (region d r))) d) (modRail k (fun x => { x with alertStep := d.tally.now, sawAlert := true }) d)
  else d

/-- A source of the alert changes: onset and release are recorded, and the first point falls at the onset (R256). -/
def alertSource (k : Nat) (on : Bool) (word : Option Nat) (f : Rail → Rail) (d : Die) : Die :=
  let was := railAlerting (rail d k)
  let d := alertLog k (b1 (!on)) 0 word (modRail k f d)
  let d := modRail k (fun x => if railAlerting x then { x with clearSince := none, alertStep := if was then x.alertStep else 0 } else { x with clearSince := some d.tally.now }) d
  alertLower k d

/-- What a response's status says (R256, R450): the word, where the response is one of a status read. -/
def statusSeen (k : Nat) (alert : Bool) (word : Option Nat) (d : Die) : Die :=
  let d := match word with | some w => modRail k (fun x => { x with status := w }) d | none => d
  let d := if (rail d k).alert = alert then d else alertSource k alert word (fun x => { x with alert := alert }) d
  alertLower k d

/-- A status word has an alert bit set (R450). -/
def wordAlerts (w : Nat) : Bool := w &&& Config.alertBits != 0

/-- VRM_STATUS_POLL (R256): the 10 µs poll of a rail that is on. -/
def statusPoll (k status : Nat) (d : Die) : Die := if (rail d k).off then d else statusSeen k (wordAlerts status) (some status) d

/-- VRM_STATUS_POLL (R256). -/
def execVrmStatusPoll (rail status : Nat) (s : State) : Host.Outcome State Fault Refusal := run (isRail rail) (statusPoll rail status) s

/-- A failed fall that has been confirmed for 1 ms leaves the ceiling (R256). -/
def fallCleared (k : Nat) (d : Die) : Die :=
  match (rail d k).fallClear with
  | some t =>
    if t + 1000000 ≤ d.tally.now then each (railRegions d k) (fun r d => setVrm (2 + vrmSlot k) r none d) (modRail k (fun x => { x with fallClear := none }) d)
    else d
  | none => d

/-- VRM_ALERT_RISE (R256): 1 ms after the alert cleared, and every 100 µs after that, the ceiling rises one point. -/
def alertRises (k : Nat) (d : Die) : Die :=
  let d := fallCleared k d
  let x := rail d k
  match x.clearSince with
  | some t =>
    if t + 1000000 ≤ d.tally.now ∧ x.alertRise + 100000 ≤ d.tally.now ∧ !railAlerting x then
      each (railRegions d k) (fun r d => setVrm (vrmSlot k) r (risen ((region d r).vrm.getD (vrmSlot k) none)) d) (modRail k (fun x => { x with alertRise := d.tally.now }) d)
    else d
  | none => d

/-- VRM_ALERT_RISE (R256). -/
def execVrmAlertRise (rail : Nat) (s : State) : Host.Outcome State Fault Refusal := run (isRail rail) (alertRises rail) s

/-- VOLTAGE_FALL_TIMEOUT (R256): a fall that is not confirmed within its allowance holds the regions of its rail at their operating points, and the target
is written again every 100 µs. -/
def fallTimeout (k status : Nat) (d : Die) : Die :=
  let x := rail d k
  match x.writtenAt with
  | some t =>
    if x.falling ∧ !x.confirmed ∧ !x.fallFailed ∧ t + x.allowance ≤ d.tally.now then
      let d := modRail k (fun x => { x with fallFailed := true, fallClear := none, rewriteAt := d.tally.now + 100000, sawAlert := true }) d
      let d := alertEvent k 0 1 status d
      each (railRegions d k) (fun r d => setVrm (2 + vrmSlot k) r (some (region d r).opp) d) d
    else d
  | none => d

/-- VOLTAGE_FALL_TIMEOUT (R256). -/
def execVoltageFallTimeout (rail status : Nat) (s : State) : Host.Outcome State Fault Refusal := run (isRail rail) (fallTimeout rail status) s

/-- FALL_TARGET_REWRITE (R256): every 100 µs the Chandler writes the target again. -/
def fallRewrite (k : Nat) (d : Die) : Die :=
  let x := rail d k
  if x.fallFailed ∧ x.rewriteAt ≤ d.tally.now ∧ chandlerRuns d then
    avsPush k (.target x.target) (modRail k (fun x => { x with rewriteAt := d.tally.now + 100000 }) d)
  else d

/-- FALL_TARGET_REWRITE (R256). -/
def execFallTargetRewrite (rail : Nat) (s : State) : Host.Outcome State Fault Refusal := run (isRail rail) (fallRewrite rail) s

end Sys2Proof.Machine
end

