-- ==== Sys2Proof/Machine/Bus.lean ====
section
/-! DEFINITION. The buses and streams of the boundary: AVSBus (R185, R412, R450, R451), PMBus (R236, R452, R453) and the stream engine's failures (R212, R341, R394, R466). -/

namespace Sys2Proof.Machine
open Sys2Proof

/-! ## AVSBus -/

/-- RAIL_CONFIRMATION_READ (R185): from 2 µs after the write completes, a read of the rail's voltage falls due until the rail is confirmed. -/
def confirmationRead (k : Nat) (d : Die) : Die :=
  let x := rail d k
  match x.writtenAt with
  | some t => if !x.confirmed ∧ t + 2000 ≤ d.tally.now then avsPush k .confirm d else d
  | none => d

/-- RAIL_CONFIRMATION_READ (R185). -/
def execRailConfirmationRead (rail : Nat) (s : State) : Host.Outcome State Fault Refusal := run (isRail rail) (confirmationRead rail) s

/-- The rail is confirmed; a failed fall is released (R185, R256). -/
def railConfirmed (k : Nat) (d : Die) : Die :=
  let x := rail d k
  let d := railsUp (modRail k (fun x => { x with confirmed := true }) d)
  if x.fallFailed then alertLog k 1 1 none (modRail k (fun x => { x with fallFailed := false, fallClear := some d.tally.now }) d) else d

/-- The regulator alerts that wait for a status read are written with its word (R256). -/
def flushAlerts (k word : Nat) (d : Die) : Die :=
  each (rail d k).alertRecord (fun c d => alertEvent k (c % 2) (c / 2) word d) (modRail k (fun x => { x with alertRecord := [] }) d)

/-- A response is a failed transaction (R450). -/
def avsFailed (resp : AvsResponse) : Bool := !(resp.arrived && resp.crcOk && resp.ackOk)

/-- The write or read that has completed (R185, R256). -/
def avsDone (k : Nat) (op : AvsOp) (resp : AvsResponse) (d : Die) : Die :=
  match op with
  | .retention => modRail k (fun x => { x with writtenAt := some d.tally.now }) d
  | .target mv => modRail k (fun x => if mv = x.target then { x with writtenAt := some d.tally.now } else x) d
  | .confirm =>
    let x := rail d k
    if !x.confirmed ∧ x.writtenAt.isSome ∧ !resp.alert ∧ resp.data ≤ x.target + 10 ∧ x.target ≤ resp.data + 10 then railConfirmed k d else d
  | .status => flushAlerts k resp.data d

/-- A third failure in a row (R412): the rail alerts, with status word 0xFFFF; a write that was not answered still starts its allowance. -/
def avsDead (k : Nat) (op : AvsOp) (d : Die) : Die :=
  let d := modRail k (fun x => { x with busy := none, failed := 0 }) d
  let d := if (rail d k).dead then d else alertSource k true (some 0xFFFF) (fun x => { x with dead := true }) d
  let d := match op with
    | .status => flushAlerts k 0xFFFF d
    | .target mv => modRail k (fun x => if mv = x.target then { x with writtenAt := some d.tally.now } else x) d
    | _ => d
  avsStart k d

/-- AVSBUS_FRAME_END (R412, R450, R451, R459): a failed frame, and every frame while a test instruction drives the pins, is repeated at once, at most twice; a good one takes effect, its status counts as a poll, and the next
waiting transaction starts. -/
def avsFrameEnd (k : Nat) (resp : AvsResponse) (d : Die) : Die :=
  match (rail d k).busy with
  | none => d
  | some op =>
    if avsFailed resp ∨ d.stop.testForce then
      if (rail d k).failed + 1 < 3 then modRail k (fun x => { x with failed := x.failed + 1 }) d else avsDead k op d
    else
      let isStatus : Bool := match op with | .status => true | _ => false
      let word := if isStatus then some resp.data else none
      let d := modRail k (fun x => { x with busy := none, failed := 0 }) d
      let d := if (rail d k).dead then alertSource k false word (fun x => { x with dead := false }) d else d
      let d := statusSeen k (resp.alert || (isStatus && wordAlerts resp.data)) word d
      avsStart k (avsDone k op resp d)

/-- AVSBUS_FRAME_END (R451). -/
def execAvsbusFrameEnd (rail : Nat) (resp : AvsResponse) (s : State) : Host.Outcome State Fault Refusal := run (isRail rail) (avsFrameEnd rail resp) s

/-! ## PMBus -/

/-- Power of a LINEAR11 word, mW, truncated (R236); the mean is formed of unsigned readings, so one below zero counts as zero. -/
def linear11 (w : Nat) : Nat :=
  let y : Int := if bit w 10 then (bits w 10 0 : Int) - 2048 else bits w 10 0
  let n := bits w 15 11
  (if n < 16 then y * 1000 * 2 ^ n else y * 1000 / 2 ^ (32 - n)).toNat

/-- PMBUS_TRANSACTION_COMPLETE (R236, R452, R453): a READ_POUT counts where it is valid. -/
def pmbusDone (k : Nat) (resp : PmbusResponse) (d : Die) : Die :=
  modRail k (fun x => match x.pmbus with
    | some true =>
      if resp.ok ∧ !resp.fault ∧ resp.elapsedNs ≤ 20000 ∧ !d.stop.testForce then { x with pmbus := none, reads := x.reads + 1, sumMw := x.sumMw + linear11 resp.word }
      else { x with pmbus := none }
    | some false => { x with pmbus := none }
    | none => x) d

/-- PMBUS_TRANSACTION_COMPLETE (R452). -/
def execPmbusTransactionComplete (rail : Nat) (resp : PmbusResponse) (s : State) : Host.Outcome State Fault Refusal :=
  run (isRail rail) (pmbusDone rail resp) s

/-- PMBUS_READ_TIMEOUT (R453): a read without its stop condition after 20 µs is invalid. -/
def pmbusTimeout (k : Nat) (d : Die) : Die :=
  modRail k (fun x => if x.pmbus = some true ∧ x.pmbusAt + 20000 ≤ d.tally.now then { x with pmbus := none } else x) d

/-- PMBUS_READ_TIMEOUT (R453). -/
def execPmbusReadTimeout (rail : Nat) (s : State) : Host.Outcome State Fault Refusal := run (isRail rail) (pmbusTimeout rail) s

/-! ## Streams -/

/-- HOST_ACCESS_FAIL (Table 15.3). -/
def accessFail (l : Loc) (address opcode : Nat) (d : Die) : Die := emit 0x0A04 l (le 8 address ++ le 2 opcode) d

/-- A ledger.drain that waits for its stop completes (R343, R394). -/
def drainDone (cause : Nat) (d : Die) : Die :=
  match (queue d 0).exec with
  | some e => if fld e.desc 0 2 = 0x0702 ∧ chandlerRuns d then finish 0 (if cause = 1 then .refuse stFailed 0xFFFF else .done 0 none) d else d
  | none => d

/-- The drain stops: DRAIN_STOP with its cause, 0 host or 1 stream failure (R394). -/
def drainStop (cause : Nat) (d : Die) : Die :=
  let x := d.ledger.drain
  let d := { d with ledger := { d.ledger with drain := { x with running := false, stopping := false, partialDue := false, failed := decide (cause = 1), outstanding := [], next := x.firstUndelivered } } }
  let d := emit 0x0004 .none (le 1 cause ++ zeros 3 ++ le 4 x.tail) d
  let d := if cause = 1 then fabricInt 4 d else d
  if x.stopping then drainDone cause d else d

/-- Opcodes of the commands that stream 17 serves (R341). -/
def streamOpcodes : List Nat := [0x0703, 0x0801, 0x0901, 0x0902]

/-- STREAM_ACCESS_FAIL (R466): a Pattern read ends in a READ fault (R212), a drain stops (R394), and a command that reaches host memory ends with FAILED
(R341). -/
def streamFail (s address : Nat) (d : Die) : Die :=
  if s < 16 then
    match context d s with
    | some x =>
      let reads : Bool := match x.state with | .started => true | .starved => true | _ => false
      if reads ∧ x.segments ≠ [] then patternFault s 2 (accessFail .none address 0xFFFF d) else d
    | none => d
  else if s = 16 then (if d.ledger.drain.running then drainStop 1 (accessFail .none address 0xFFFF d) else d)
  else
    match (List.range 17).find? (fun q => match (queue d q).exec with | some e => streamOpcodes.contains (fld e.desc 0 2) | none => false) with
    | some q => match (queue d q).exec with
      | some e => if chandlerRuns d then finish q (.refuse stFailed 0xFFFF) (accessFail (.queue q) address (fld e.desc 0 2) d) else d
      | none => d
    | none => d

/-- STREAM_ACCESS_FAIL (R466). -/
def execStreamAccessFail (stream address : Nat) (s : State) : Host.Outcome State Fault Refusal :=
  run (decide (stream < 18)) (streamFail stream address) s

end Sys2Proof.Machine
end

