-- ==== Sys2Proof/Machine/Cert.lean ====
section
/-! DEFINITION. Step certificates (R395–R401, R502): the header of Table 15.5, the region summaries of Table 15.6, and their assembly. -/

namespace Sys2Proof.Machine
open Sys2Proof

/-- Count code of a value (R398). -/
def countCode (v : Nat) : Nat :=
  if 2 ^ 42 ≤ v then 0xFFFF else if v < 2048 then v
  else let e := Nat.log2 v - 10; 2048 * e + (v / 2 ^ (e - 1) - 2048)

/-- Share of a part, 0–15 (R398). -/
def share (part sum : Nat) : Nat := if sum = 0 then 0 else (30 * part + sum) / (2 * sum)

/-- Shares of n parts, part j at bits [4j+3:4j]. -/
def shares (n : Nat) (l : List Nat) : Nat := total ((List.range n).map (fun j => 16 ^ j * share (l.getD j 0) (total l)))

/-- A region instant relative to the header's, or the mark of a boundary that no island crossed (Table 15.6). -/
def relative (base : Nat) : Option Nat → Bytes
  | some t => leI 4 (clamp (-2147483647) 2147483647 ((t : Int) - base))
  | none => le 4 0x80000000

/-- Eight bytes of slack codes (Table 15.6). -/
def slackBytes (l : List Nat) : Bytes := (List.range 8).map (fun j => BitVec.ofNat 8 (l.getD (2 * j) 15 + 16 * l.getD (2 * j + 1) 15))

/-- A region of the plan is suspect by its summary (Table 15.5). -/
def regionSuspect (g : CertRegion) : Bool := decide (0 < g.below) || g.stale || g.poison

/-- A region of the plan leaves the step incomplete (Table 15.5, R400). -/
def regionIncomplete (g : CertRegion) : Bool := g.assayed || g.reset || g.retired

/-- Summary of a region of the plan (Table 15.6). -/
def summary (g : CertRegion) (startTally endTally : Nat) : Bytes :=
  le 1 (3 + 4 * b1 g.assayed + 8 * b1 g.reset + 16 * b1 g.retired + 32 * b1 g.stale + 64 * b1 g.poison) ++ le 1 g.below ++ slackBytes g.slack
    ++ relative startTally g.start ++ relative endTally g.stop ++ le 2 (countCode (total g.holds)) ++ le 4 (shares 8 g.holds)
    ++ le 2 (countCode (total g.throttle)) ++ le 6 (shares 12 g.throttle) ++ le 8 (g.rawDyn / 1000) ++ le 8 (g.rawLeak / 1000) ++ le 8 (g.raw / 1000)
    ++ le 8 (g.calibrated / 1000)

/-- Summary of a region that is not in the plan, is fused off, or is not the reader's (R399). -/
def emptySummary (here : Bool) : Bytes := le 1 (b1 here) ++ zeros 1 ++ List.replicate 8 0xFF#8 ++ le 4 0x80000000 ++ le 4 0x80000000 ++ zeros 46

/-- Lowest instant of a list. -/
def leastOf (l : List Nat) : Option Nat := l.foldl (fun m t => some (match m with | some v => min v t | none => t)) none

/-- Highest instant of a list. -/
def greatestOf (l : List Nat) : Option Nat := l.foldl (fun m t => some (match m with | some v => max v t | none => t)) none

/-- Regions of the plan that are present, with what they gathered. -/
def certRegions (d : Die) (x : Context) (g : CertWork) : List (Nat × CertRegion) :=
  ((setRegions x.regions).filter (present d)).map (fun r => (r, tget {} g.regions r))

/-- Excursions outside the plan in the step's span (R400, R502). -/
def outsideCount (g : CertWork) (startTally endTally : Nat) : Nat := (g.outside.filter (fun t => startTally ≤ t ∧ t ≤ endTally)).length

/-- Outcome byte of a certificate (Table 15.5, R400). -/
def outcomeOf (l : List (Nat × CertRegion)) (g : CertWork) (outside : Nat) : Nat :=
  let stale := l.any (fun x => x.2.stale)
  let poison := l.any (fun x => x.2.poison)
  let res := if l.any (fun x => regionIncomplete x.2) then 2
    else if 0 < g.belowTotal ∨ 0 < outside ∨ stale ∨ poison then 1 else 0
  res + 4 * b1 stale + 8 * b1 poison + 16 * b1 (decide (0 < outside))
    + 32 * b1 (decide (g.epochStart ≠ g.epochEnd) || bit g.flagsStart 1 || bit g.flagsEnd 1) + 64 * b1 g.frozen

/-- Bytes 0–251 of the header (Table 15.5). -/
def certHeader (d : Die) (c : Nat) (x : Context) (g : CertWork) (l : List (Nat × CertRegion)) (startTally endTally outside : Nat) : Bytes :=
  le 4 0x4A435343 ++ le 1 1 ++ le 1 (outcomeOf l g outside) ++ le 1 c ++ le 1 d.startup.fuses.variant ++ le 4 g.step ++ le 2 x.tag ++ zeros 2
    ++ le 8 d.startup.fuses.serial ++ le 4 d.chandler.version ++ le 1 d.startup.fuses.stepping ++ zeros 3 ++ le 8 g.startCycle ++ le 8 g.endCycle
    ++ le 8 startTally ++ le 8 endTally ++ le 1 g.epochStart ++ le 1 g.epochEnd ++ le 1 g.flagsStart ++ le 1 g.flagsEnd ++ le 10 x.regions
    ++ le 2 g.belowTotal ++ le 2 (match g.first with | some f => f.2 | none => 0xFFFF) ++ le 1 (l.countP (fun y => regionSuspect y.2))
    ++ le 1 (l.countP (fun y => regionIncomplete y.2)) ++ le 1 (sat 8 outside) ++ zeros 3 ++ le 8 (match g.first with | some f => f.1 | none => 0)
    ++ ((List.range 80).map (fun r => BitVec.ofNat 8 (match l.find? (fun y => y.1 = r) with | some y => sat 8 y.2.spans | none => 0))) ++ zeros 76

/-- The 80 region summaries. -/
def certSummaries (d : Die) (l : List (Nat × CertRegion)) (startTally endTally : Nat) : Bytes :=
  (List.range 80).flatMap (fun r => match l.find? (fun y => y.1 = r) with
    | some y => summary y.2 startTally endTally
    | none => emptySummary (present d r))

/-- A header and summaries with the CRC of bytes 0–251 and 256–5,375 between them (Table 15.5). -/
def sealCert (head body : Bytes) : Bytes := head ++ le 4 (crc32c (head ++ body)) ++ body

/-- CERT_ASSEMBLY (R395, R400, R502): the certificate of the first step that waits is assembled and kept, and CERT is written. The header instants of a
step whose boundaries no region crossed are not stated (free values, log 11). -/
def certAssembly (c : Nat) (d : Die) : Die :=
  match context d c with
  | none => d
  | some x => match x.ready with
    | [] => d
    | g :: t =>
      let l := certRegions d x g
      let a := (leastOf (l.filterMap (fun y => y.2.start))).getD (Config.freeNat d.fresh)
      let b := (greatestOf (l.filterMap (fun y => y.2.stop))).getD (Config.freeNat (d.fresh + 1))
      let n := outsideCount g a b
      let cert : Cert := { step := g.step, outcome := outcomeOf l g n, bytes := sealCert (certHeader d c x g l a b n) (certSummaries d l a b) }
      let d := drawFree (drawFree (setContext c (some { x with ready := t, certs := (cert :: x.certs).take 2 }) d))
      emit 0x050D (.other c) (le 4 g.step ++ le 1 cert.outcome ++ le 1 (l.countP (fun y => regionSuspect y.2)) ++ le 1 (l.countP (fun y => regionIncomplete y.2))
        ++ zeros 1 ++ le 2 g.belowTotal) d

/-- CERT_ASSEMBLY (R395). -/
def execCertAssembly (context : Nat) (s : State) : Host.Outcome State Fault Refusal := run (isContext context) (certAssembly context) s

end Sys2Proof.Machine
end

