-- ==== Sys2Proof/Machine/Chandler.lean ====
section
/-! DEFINITION. The Chandler pair (R322–R325, R333, R411): heartbeats, failures, takeover and restart. -/

namespace Sys2Proof.Machine
open Sys2Proof

def core (d : Die) (n : Nat) : Core := if n = 0 then d.chandler.core0 else d.chandler.core1

def modCore (n : Nat) (f : Core → Core) (d : Die) : Die :=
  if n = 0 then { d with chandler := { d.chandler with core0 := f d.chandler.core0 } }
  else { d with chandler := { d.chandler with core1 := f d.chandler.core1 } }

def setPair (p : Pair) (d : Die) : Die := { d with chandler := { d.chandler with pair := p } }

/-- The shadow's number. -/
def shadow (d : Die) : Nat := 1 - d.chandler.primary

/-- A primary executes (Table 13.1). -/
def primaryRuns (d : Die) : Bool :=
  match d.chandler.pair with
  | .synced => true | .syncing => true | .restarting => true | .single => true
  | .boot => false | .none_ => false | .takeover => false

/-- CHANDLER is set on queue 0 and on every bound queue (R339). -/
def chandlerInt (d : Die) : Die :=
  each ((List.range 17).filter (fun q => decide (q = 0) || (queue d q).bound)) (queueInt · 2) d

/-- A failure of a core is counted (R402, R411). -/
def coreFailure (n : Nat) (d : Die) : Die := modCore n (fun x => { x with failures := addFailure d.tally.now x.failures }) d

/-- CHANDLER_RESTART (R324, R429): the core is held in reset and restarted. -/
def restartCore (n : Nat) (d : Die) : Die :=
  let d := modCore n (fun x => { x with restart := some d.tally.now, attempt := x.attempt + 1 }) (setPair .restarting d)
  emitReset 6 0 2 .none (emit 0x0A06 .none (le 1 n ++ le 1 (sat 8 (core d n).attempt)) d)

/-- CHANDLER_SINGLE (R411): the core is held in reset for the rest of the power cycle. -/
def holdOut (n : Nat) (d : Die) : Die :=
  emit 0x0A08 .none (le 1 n) (setPair .single (modCore n (fun x => { x with heldOut := true, restart := none, attempt := 0 }) d))

/-- What becomes of a failed core beside an executing primary: restarted, or held out at its third failure within 10 s (R324, R325, R411). -/
def restartOrHold (n : Nat) (d : Die) : Die := if permanent (core d n).failures then holdOut n d else restartCore n d

/-- The pair enters NONE, and fabric fault 3 follows (R323, Table 16.3). -/
def pairLost (cause : Nat) (d : Die) : Die := fabricFault 3 cause (setPair .none_ d)

/-- The executing primary is declared failed (R323): causes 0 heartbeat, 1 watchdog, 2 SRAM error, 3 trap. A SYNCED shadow takes over; without one the pair
is lost. The number of the last committed change is a free value (log 11). -/
def primaryFailed (cause : Nat) (d : Die) : Die :=
  let old := d.chandler.primary
  let d := coreFailure old d
  match d.chandler.pair with
  | .synced =>
    let d := { d with chandler := { d.chandler with pair := .takeover, primary := 1 - old } }
    chandlerInt (emit 0x0A05 .none (le 1 (1 - old) ++ le 1 cause ++ zeros 2 ++ le 4 (Config.freeNat d.fresh)) (drawFree d))
  | _ => pairLost cause d

/-- CHANDLER_HEARTBEAT (R323): at 50,000 + 100,000 × k ns the executing primary sends a heartbeat. -/
def heartbeat (d : Die) : Die :=
  if primaryRuns d ∧ d.tally.now % 100000 = 50000 then { d with chandler := { d.chandler with lastBeat := d.tally.now } } else d

/-- CHANDLER_HEARTBEAT (R323). -/
def execChandlerHeartbeat (s : State) : Host.Outcome State Fault Refusal := run true heartbeat s

/-- CHANDLER_HEARTBEAT_TIMEOUT (R323): 150 µs without a heartbeat. -/
def heartbeatTimeout (d : Die) : Die :=
  if primaryRuns d ∧ d.chandler.lastBeat + 150000 ≤ d.tally.now then primaryFailed 0 d else d

/-- CHANDLER_HEARTBEAT_TIMEOUT (R323). -/
def execChandlerHeartbeatTimeout (s : State) : Host.Outcome State Fault Refusal := run true heartbeatTimeout s

/-- CHANDLER_FAULT_SIGNAL (R323, R325): the primary fails at once; a shadow that mirrors, copies or restarts is restarted without a break of service; a new
primary that fails in its takeover leaves none. -/
def faultSignal (n cause : Nat) (d : Die) : Die :=
  match d.chandler.pair with
  | .boot => d
  | .none_ => d
  | .takeover => if n = d.chandler.primary then pairLost cause (coreFailure n d) else d
  | .single => if n = d.chandler.primary then primaryFailed cause d else d
  | _ => if n = d.chandler.primary then primaryFailed cause d else restartOrHold n (coreFailure n d)

/-- CHANDLER_FAULT_SIGNAL (R323, R325). -/
def execChandlerFaultSignal (core cause : Nat) (s : State) : Host.Outcome State Fault Refusal := run (isPair core) (faultSignal core cause) s

/-- An Assay meets a takeover: one on command ends, power-up Assay starts again from its first phase (R308, R312). -/
def takeoverAssay (d : Die) : Die :=
  match d.store.assay with
  | some a => match a.region with
    | some r => assayAbort r 3 d
    | none => powerUpAssay d
  | none => d

/-- CHANDLER_TAKEOVER_COMPLETE (R323, R333): each open command will execute again, marked; the new primary serves the queues, and the former one is
restarted or held out. -/
def takeoverComplete (d : Die) : Die :=
  match d.chandler.pair with
  | .takeover =>
    let d := each (List.range 17) (fun q d => modQueue q (fun x => { x with exec := x.exec.map (fun e => { e with reexecuted := true }) }) d) d
    let d := { d with chandler := { d.chandler with lastBeat := d.tally.now } }
    takeoverAssay (restartOrHold (shadow d) d)
  | _ => d

/-- CHANDLER_TAKEOVER_COMPLETE (R333). -/
def execChandlerTakeoverComplete (s : State) : Host.Outcome State Fault Refusal := run true takeoverComplete s

/-- CHANDLER_RESTART_VERIFIED (R324): the full copy begins. -/
def restartVerified (d : Die) : Die := match d.chandler.pair with | .restarting => setPair .syncing d | _ => d

/-- CHANDLER_RESTART_VERIFIED (R324). -/
def execChandlerRestartVerified (s : State) : Host.Outcome State Fault Refusal := run true restartVerified s

/-- CHANDLER_SYNCED (R324, R339): the restarted core mirrors as shadow. -/
def chandlerSynced (d : Die) : Die :=
  match d.chandler.pair with
  | .syncing =>
    let n := shadow d
    let us := (d.tally.now - (core d n).restart.getD d.tally.now) / 1000
    let d := modCore n (fun x => { x with restart := none, attempt := 0 }) (setPair .synced d)
    emitReset 6 1 2 .none (chandlerInt (emit 0x0A07 .none (le 1 n ++ zeros 3 ++ le 4 us) d))
  | _ => d

/-- CHANDLER_SYNCED (R324). -/
def execChandlerSynced (s : State) : Host.Outcome State Fault Refusal := run true chandlerSynced s

/-- CHANDLER_SYNC_TIMEOUT (R324, R411): a restart that is not SYNCED within 20 ms has failed. -/
def syncTimeout (d : Die) : Die :=
  let n := shadow d
  let restarts : Bool := match d.chandler.pair with | .restarting => true | .syncing => true | _ => false
  match (core d n).restart with
  | some t => if restarts ∧ t + 20000000 ≤ d.tally.now then restartOrHold n (coreFailure n d) else d
  | none => d

/-- CHANDLER_SYNC_TIMEOUT (R324). -/
def execChandlerSyncTimeout (s : State) : Host.Outcome State Fault Refusal := run true syncTimeout s

end Sys2Proof.Machine
end

