-- ==== Sys2Proof/Machine/Operands.lean ====
section
/-! DEFINITION. The operand forms that arrive as bytes: sideband frames (Tables 2.1, 6.3 and 10.6) with the checks of R56, and the frames the die forms. -/

namespace Sys2Proof.Machine
open Sys2Proof

/-- The last four bytes of a frame are the CRC-32C of those before (R56). -/
def crcOk (f : Bytes) : Bool := decide (fld f (f.length - 4) 4 = crc32c (f.take (f.length - 4)))

/-- A frame with its CRC-32C added. -/
def sealFrame (b : Bytes) : Bytes := b ++ le 4 (crc32c b)

/-- A frame of Table 2.1 of the given type with its reserved fields zero and a good CRC (R56). -/
def tallyFrameOk (kind : Nat) (f : Bytes) : Bool :=
  decide (fld f 0 1 = kind ∧ bits (fld f 4 2) 15 14 < 3 ∧ fld f 6 2 < 2 ^ 14 ∧ fld f 8 1 < 16 ∧ fld f 12 1 < 8 ∧ fld f 14 2 < 2 ^ 14)
    && (decide (kind = 0x11) || decide (fld f 24 8 = 0 ∧ fld f 32 8 = 0)) && crcOk f

/-- A frame of Table 6.3 with its reserved fields zero and a good CRC (R56). -/
def hoopFrameOk (f : Bytes) : Bool := decide (fld f 0 1 = 0x20 ∧ fld f 1 1 < 64) && crcOk f

/-- A frame of Table 10.6 of the given kind with its reserved fields zero and a good CRC (R56, R269). -/
def poolFrameOk (kind : Nat) (f : Bytes) : Bool :=
  decide (fld f 0 1 = 0x30 ∧ fld f 1 1 = kind ∧ fld f 4 2 < 2 ^ 14 ∧ fld f 26 2 = 0) && decide (kind ≠ 0 ∨ fld f 20 2 = 0) && crcOk f

/-- What a Tally frame says of its sender (R52, R53). -/
def partnerOf (f : Bytes) (old : Partner) (sync : Bool) : Partner :=
  { die := fld f 4 2 % 2 ^ 14, master := fld f 6 2, masterPrio := fld f 9 1, hops := fld f 8 1, epoch := fld f 1 1,
    flags := fld f 12 1, beacon := fld f 10 2, rate := fldI f 40 4,
    candPrio := if sync then fld f 13 1 else old.candPrio, cand := if sync then fld f 14 2 else old.cand }

/-- HOLDOVER, SLEWING and SETTLED as bits 0–2 (R42, Table 2.1). -/
def tallyFlags (t : Tally) : Nat := b1 t.holdover + 2 * b1 t.slewing + 4 * b1 t.settled

/-- Rank of a priority and die ID: lower is better (R51). -/
def rank (prio die : Nat) : Nat := prio * 2 ^ 14 + die

/-- The link carries Tally frames from a partner: up, its sideband up and not absent (R53, R56, R461). -/
def tallyLink (x : Link) : Bool := (x.up || x.retrain.isSome) && x.rxUp && !x.absent && x.tallyHeard

/-- The best candidate heard from partners further from the master than this die (R52); priority 255 marks none. -/
def bestCandidate (d : Die) : Nat × Nat :=
  (List.range 32).foldl (fun b l =>
    let x := link d l
    if tallyLink x ∧ d.tally.hops < x.partner.hops ∧ x.partner.candPrio ≠ 255 ∧ rank x.partner.candPrio x.partner.cand < rank b.1 b.2 then
      (x.partner.candPrio, x.partner.cand) else b) (255, 0)

/-- The candidate a SYNC carries: the best of this die, unless it is master, and of its subtree (Table 2.1). -/
def syncCandidate (d : Die) : Nat × Nat :=
  let b := bestCandidate d
  if d.tally.role ≠ 1 ∧ d.tally.priority ≠ 255 ∧ rank d.tally.priority (d.tally.dieId.getD 0) < rank b.1 b.2 then
    (d.tally.priority, d.tally.dieId.getD 0) else b

/-- The fields that SYNC and REPLY share up to byte 15 (Table 2.1). -/
def tallyHead (d : Die) (kind seq candPrio cand : Nat) : Bytes :=
  let t := d.tally
  le 1 kind ++ le 1 t.epoch ++ le 2 seq ++ le 2 (t.dieId.getD 0 + 2 ^ 14 * t.role) ++ le 2 (t.master.getD 0) ++ le 1 t.hops ++ le 1 t.masterPrio
    ++ le 2 t.beacon ++ le 1 (tallyFlags t) ++ le 1 candPrio ++ le 2 (if candPrio = 255 then 0 else cand)

/-- A SYNC frame stamped t1 (Table 2.1, R463). -/
def syncBytes (d : Die) (seq t1 : Nat) : Bytes :=
  let c := syncCandidate d
  sealFrame (tallyHead d 0x10 seq c.1 c.2 ++ le 8 t1 ++ zeros 16 ++ leI 4 d.tally.rate)

/-- A REPLY frame stamped t3 (Table 2.1, R463). -/
def replyBytes (d : Die) (seq t1 t2 t3 : Nat) : Bytes :=
  sealFrame (tallyHead d 0x11 seq d.tally.backupPrio (d.tally.backup.getD 0) ++ le 8 t1 ++ le 8 t2 ++ le 8 t3 ++ leI 4 d.tally.rate)

/-- A Hoop frame (Table 6.3). -/
def hoopBytes (flags tag count held : Nat) : Bytes := sealFrame (le 1 0x20 ++ le 1 flags ++ le 2 tag ++ le 6 (count % 2 ^ 48) ++ le 2 held)

/-- A POOL frame (Table 10.6). -/
def poolBytes (d : Die) (kind seq ack want offer amount : Nat) (loan : Int) : Bytes :=
  sealFrame (le 1 0x30 ++ le 1 kind ++ le 2 d.limits.pool ++ le 2 (d.tally.dieId.getD 0) ++ le 2 seq ++ le 2 ack ++ le 2 d.limits.share
    ++ le 2 d.limits.base ++ le 2 want ++ le 2 offer ++ leI 2 loan ++ le 2 amount ++ le 2 (lentTotal d) ++ le 2 (borrowedTotal d) ++ zeros 2)

/-- The bytes of a waiting frame as it goes onto the lane now. -/
def frameBytes (d : Die) : Frame → Bytes
  | .hoop flags tag count held => hoopBytes flags tag count held
  | .reply seq t1 t2 => replyBytes d seq t1 t2 d.tally.now
  | .sync seq => syncBytes d seq d.tally.now
  | .pool kind seq ack want offer amount loan => poolBytes d kind seq ack want offer amount loan

end Sys2Proof.Machine
end

