-- ==== Sys2Proof/Machine/TallyNet.lean ====
section
/-! DEFINITION. The Tally tree (R51–R65): frames, parent, master, election, offset averages, join and rejoin. -/

namespace Sys2Proof.Machine
open Sys2Proof

/-- Changes the Tally registers. -/
def modTally (f : Tally → Tally) (d : Die) : Die := { d with tally := f d.tally }

/-- A change of parent, epoch or mastership clears SETTLED and starts the 2 s of R55. -/
def unsettle (d : Die) : Die :=
  modTally (fun t => { t with settled := false, changedAt := t.now, inBound := 0, offsets := [] }) d

/-- The parent is the partner with the lowest hop count to the master followed; ties go to the lowest link (R53). -/
def bestParent (d : Die) : Option Nat :=
  ((List.range 32).filter (fun l => let x := link d l; tallyLink x && decide (x.partner.hops < 14 ∧ some x.partner.master = d.tally.master))).foldl
    (fun b l => match b with | none => some l | some m => if (link d l).partner.hops < (link d m).partner.hops then some l else some m) none

/-- TALLY_PARENT_CHANGE (R53): a die that is not a master takes the best parent it has; a change clears SETTLED and keeps the epoch.
Without one it stands outside the tree at hop count 15. -/
def chooseParent (d : Die) : Die :=
  if d.tally.role = 1 ∨ d.tally.foreign then d
  else
    let p := bestParent d
    let d := if p = d.tally.parent then d else unsettle (modTally (fun t => { t with parent := p }) d)
    modTally (fun t => { t with hops := match p with | some l => (link d l).partner.hops + 1 | none => 15 }) d

/-- The master names the best-ranked reachable die other than itself as backup (R52). -/
def nameBackup (d : Die) : Die :=
  if d.tally.role = 1 then
    let b := bestCandidate d
    modTally (fun t => { t with backup := if b.1 = 255 then none else some b.2, backupPrio := b.1 }) d
  else d

/-- TALLY_MASTER: causes 0 backup takeover, 1 adopted, 2 election. -/
def masterRecord (prev cause : Nat) (d : Die) : Die :=
  emit 0x0802 .none (le 2 (d.tally.master.getD 0xFFFF) ++ le 2 prev ++ le 1 d.tally.epoch ++ le 1 d.tally.role ++ le 1 cause) d

/-- A die becomes master of a new epoch with HOLDOVER, its rate word as it stands (R59): TALLY_MASTER and TALLY_EPOCH. -/
def takeMastership (cause : Nat) (d : Die) : Die :=
  let prev := d.tally.master.getD 0xFFFF
  let old := d.tally.epoch
  let d := modTally (fun t => { t with role := 1, master := t.dieId, masterPrio := t.priority, epoch := (old + 1) % 256, holdover := true, slewing := false, hops := 0, parent := none, waitingSince := none, rejoinEpoch := none, slewSince := none, beaconAt := t.now, beaconSent := t.now }) d
  let d := nameBackup (unsettle d)
  emit 0x0803 .none (le 1 old ++ le 1 d.tally.epoch) (masterRecord prev cause d)

/-- A die with no master heard becomes its own, with Tally and epoch as they stand and HOLDOVER clear (R64). -/
def ownMaster (d : Die) : Die :=
  unsettle (modTally (fun t => { t with role := 1, master := t.dieId, masterPrio := t.priority, holdover := false, hops := 0, parent := none, joined := true, beaconAt := t.now, beaconSent := t.now }) d)

/-- Epoch a is newer than epoch b (R61). -/
def newerEpoch (a b : Nat) : Bool := let x := (a + 256 - b) % 256; decide (1 ≤ x ∧ x ≤ 127)

/-- R62: the partner's lineage wins: its epoch is older, or neither is older and its master ranks better. -/
def partnerWins (t : Tally) (p : Partner) : Bool :=
  if newerEpoch t.epoch p.epoch then true
  else if newerEpoch p.epoch t.epoch then false
  else decide (rank p.masterPrio p.master < rank t.masterPrio (t.master.getD 0))

/-- Adopts the master that the partner of link l follows. -/
def followPartner (l : Nat) (d : Die) : Die :=
  let p := (link d l).partner
  unsettle (modTally (fun t => { t with role := 0, master := some p.master, masterPrio := p.masterPrio, parent := some l, hops := p.hops + 1, waitingSince := none, beacon := p.beacon, beaconAt := t.now, backup := none, backupPrio := 255 }) d)

/-- What a valid frame on link l means for the tree (R52, R53, R57, R59, R62, R64). -/
def considerPartner (l : Nat) (d : Die) : Die :=
  let p := (link d l).partner
  let t := d.tally
  if t.dieId.isNone ∨ t.foreign then d
  else
    let d :=
      if 14 ≤ p.hops ∨ some p.master = t.dieId then d
      else match t.master with
        | none => followPartner l d
        | some m =>
          if t.waitingSince.isSome ∧ newerEpoch p.epoch t.epoch then
            let d := modTally (fun t => { t with epoch := p.epoch, holdover := bit p.flags 0 }) (followPartner l d)
            masterRecord m 1 d
          else if p.master ≠ m ∧ t.waitingSince.isNone ∧ partnerWins t p then
            modTally (fun t => { t with rejoinEpoch := some p.epoch, slewSince := none }) (followPartner l d)
          else d
    let d := chooseParent d
    let d :=
      if d.tally.parent = some l ∧ d.tally.role ≠ 1 then
        let fresh := let x := (p.beacon + 65536 - d.tally.beacon) % 65536; decide (1 ≤ x ∧ x < 32768)
        modTally (fun t => { t with
          beacon := if fresh then p.beacon else t.beacon
          beaconAt := if fresh then t.now else t.beaconAt
          parentRate := p.rate
          holdover := if p.epoch = t.epoch ∧ t.joined then bit p.flags 0 else t.holdover
          rejoinEpoch := if p.epoch ≠ t.epoch ∧ t.joined ∧ t.rejoinEpoch.isNone then some p.epoch else t.rejoinEpoch }) d
      else d
    nameBackup d

/-- R56: a frame is discarded; the sixteenth in a row makes the link absent for Tally and Hoop and writes TALLY_LINK_BAD. -/
def discardFrame (l : Nat) (d : Die) : Die :=
  let n := (link d l).discarded + 1
  let d := modLink l (fun x => { x with discarded := min 65535 n }) d
  if n = 16 then chooseParent (emit 0x0801 (.link l) (le 2 n) (modLink l (fun x => { x with absent := true }) d)) else d

/-- A valid frame has arrived: the link is present again (R56). -/
def validFrame (l : Nat) (d : Die) : Die := modLink l (fun x => { x with discarded := 0, absent := false }) d

/-- SIDEBAND_FRAME_DISCARDED (R56). -/
def execSidebandFrameDiscarded (link : Nat) (s : State) : Host.Outcome State Fault Refusal := run (isLink link) (discardFrame link) s

/-- R54: every 100 µs of Tally a SYNC is queued on a link whose sideband is up. -/
def tallySyncSend (l : Nat) (d : Die) : Die :=
  let x := link d l
  let due := match x.syncAt with | none => true | some t => decide (t + 100000 ≤ d.tally.now)
  if x.rxUp && d.tally.running && d.tally.dieId.isSome && due then
    let q := (x.syncSeq + 1) % 65536
    modLink l (fun x => { x with syncSeq := q, syncT1 := none, syncAt := some d.tally.now, waitSync := x.waitSync ++ [.sync q] }) d
  else d

/-- TALLY_SYNC_SEND (R54). -/
def execTallySyncSend (link : Nat) (s : State) : Host.Outcome State Fault Refusal := run (isLink link) (tallySyncSend link) s

/-- R54: a SYNC is stamped t2, a REPLY is queued, and candidate and election data are taken. -/
def tallySyncReceived (l : Nat) (f : Bytes) (d : Die) : Die :=
  if tallyFrameOk 0x10 f then
    let d := modLink l (fun x => { x with tallyHeard := true, partner := partnerOf f x.partner true, waitReply := if d.tally.dieId.isSome then x.waitReply ++ [.reply (fld f 2 2) (fld f 16 8) d.tally.now] else x.waitReply }) (validFrame l d)
    considerPartner l d
  else discardFrame l d

/-- TALLY_SYNC_RECEIVED (R52–R54). -/
def execTallySyncReceived (link : Nat) (frame : Bytes) (s : State) : Host.Outcome State Fault Refusal :=
  run (isLink link && hasLength 48 frame) (tallySyncReceived link frame) s

/-- Steps Tally (R41): TALLY_STEP with causes 0 join, 1 realign. -/
def tallyStep (by_ : Int) (epoch cause : Nat) (d : Die) : Die :=
  let d := modTally (fun t => { t with now := (((t.now : Int) + by_) % (2 ^ 64 : Nat)).toNat, epoch := epoch }) d
  let d := modTally (fun t => { t with beaconAt := t.now }) (unsettle d)
  emit 0x0805 .none (leI 8 by_ ++ le 1 cause) d

/-- R54: the REPLY to the SYNC outstanding gives offset and delay; the parent's gives backup, rate and offsets, or the join step of R64. -/
def tallyReplyReceived (l : Nat) (f : Bytes) (d : Die) : Die :=
  if tallyFrameOk 0x11 f then
    let t4 := d.tally.now
    let x := link d l
    let mine := decide (fld f 2 2 = x.syncSeq ∧ x.syncT1 = some (fld f 16 8))
    let t1 : Int := fld f 16 8
    let out : Int := (fld f 24 8 : Int) - t1
    let back : Int := (t4 : Int) - fld f 32 8
    let d := modLink l (fun x => { x with tallyHeard := true, partner := partnerOf f x.partner false, syncT1 := if mine then none else x.syncT1 }) (validFrame l d)
    let d := considerPartner l d
    if mine ∧ d.tally.parent = some l ∧ d.tally.role ≠ 1 then
      let off := (out - back).tdiv 2
      let d := modTally (fun t => { t with
        delay := (out + back).tdiv 2
        backup := if fld f 13 1 = 255 then none else some (fld f 14 2)
        backupPrio := fld f 13 1
        role := if fld f 13 1 ≠ 255 ∧ t.dieId = some (fld f 14 2) then 2 else 0 }) d
      if !d.tally.joined ∧ d.startup.ready = 0 then
        tallyStep off (fld f 1 1) 0 (modTally (fun t => { t with joined := true, rejoinEpoch := none, holdover := bit (fld f 12 1) 0 }) d)
      else modTally (fun t => { t with offsets := (off :: t.offsets).take 16 }) d
    else d
  else discardFrame l d

/-- TALLY_REPLY_RECEIVED (R52–R54, R57, R62, R64). -/
def execTallyReplyReceived (link : Nat) (frame : Bytes) (s : State) : Host.Outcome State Fault Refusal :=
  run (isLink link && hasLength 48 frame) (tallyReplyReceived link frame) s

/-- Greatest rate word (R40). -/
def rateLimit : Int := 54975581

/-- TALLY_FOREIGN (R65): the die stays its own master outside the tree. -/
def tallyForeign (avg : Int) (d : Die) : Die :=
  let l := d.tally.parent.getD 0
  let p := (link d l).partner
  let d := modTally (fun t => { t with foreign := true, foreignLink := l, foreignMaster := p.master, foreignEpoch := p.epoch, foreignOffset := avg, role := 1, master := t.dieId, masterPrio := t.priority, parent := none, hops := 15, rejoinEpoch := none, slewSince := none, slewing := false }) d
  emit 0x0806 (.link l) (leI 8 avg ++ le 2 p.master) (unsettle d)

/-- R55: the rate word after an average: the parent's plus what removes the offset in 16 ms, limited; SLEWING while limited. -/
def steer (avg : Int) (d : Die) : Die :=
  let want := d.tally.parentRate + (avg * 2 ^ 40).tdiv 16000000
  let got := clamp (-rateLimit) rateLimit want
  modTally (fun t => { t with rate := got, slewing := decide (got ≠ want), average := avg, offsets := [], inBound := if -2 ≤ avg ∧ avg ≤ 2 then min 16 (t.inBound + 1) else 0 }) d

/-- TALLY_REJOIN (R62): at the first average the slew begins; once the average lies within ±2 ns the die takes the winner's epoch and
clears HOLDOVER. -/
def tallyRejoin (avg : Int) (e : Nat) (d : Die) : Die :=
  let l := d.tally.parent.getD 0
  let d := match d.tally.slewSince with
    | some _ => d
    | none => emit 0x0804 (.link l) (le 1 0 ++ le 1 d.tally.epoch ++ le 1 e ++ zeros 1 ++ leI 4 avg ++ zeros 4) (modTally (fun t => { t with slewSince := some t.now }) d)
  if -2 ≤ avg ∧ avg ≤ 2 then
    let took := (d.tally.now - d.tally.slewSince.getD d.tally.now) / 1000
    let d := emit 0x0804 (.link l) (le 1 1 ++ le 1 d.tally.epoch ++ le 1 e ++ zeros 1 ++ leI 4 avg ++ le 4 took) d
    unsettle (modTally (fun t => { t with epoch := e, holdover := false, rejoinEpoch := none, slewSince := none }) d)
  else d

/-- R55, R62, R65: sixteen exchanges with the parent are averaged. -/
def tallyOffsetAverage (d : Die) : Die :=
  let t := d.tally
  if t.offsets.length < 16 ∨ t.parent.isNone ∨ t.waitingSince.isSome then d
  else
    let avg := (t.offsets.foldl (· + ·) 0).tdiv 16
    match t.rejoinEpoch with
    | some e =>
      if t.slewSince.isNone ∧ (avg < -10000000 ∨ 10000000 < avg) then tallyForeign avg d
      else tallyRejoin avg e (steer avg d)
    | none => steer avg d

/-- TALLY_OFFSET_AVERAGE (R55, R62, R65). -/
def execTallyOffsetAverage (s : State) : Host.Outcome State Fault Refusal := run true tallyOffsetAverage s

/-- R55: SETTLED after 2 s without a change, and for a die with a parent sixteen averages within ±2 ns. -/
def tallySettled (d : Die) : Die :=
  let t := d.tally
  if t.running ∧ t.changedAt + 2000000000 ≤ t.now ∧ t.master.isSome ∧ d.stop.fault ≠ 1 ∧ (t.role = 1 ∨ (t.parent.isSome ∧ t.inBound = 16)) then
    modTally (fun t => { t with settled := true }) d
  else d

/-- TALLY_SETTLED (R55). -/
def execTallySettled (s : State) : Host.Outcome State Fault Refusal := run true tallySettled s

/-- R57: the master increments its beacon every 100 µs of its Tally. -/
def tallyBeacon (d : Die) : Die :=
  if d.tally.running ∧ d.tally.role = 1 ∧ d.tally.beaconSent + 100000 ≤ d.tally.now then
    modTally (fun t => { t with beacon := (t.beacon + 1) % 65536, beaconSent := t.now, beaconAt := t.now }) d
  else d

/-- TALLY_BEACON_INCREMENT (R57). -/
def execTallyBeaconIncrement (s : State) : Host.Outcome State Fault Refusal := run true tallyBeacon s

/-- R59: the beacon has not advanced for 1 ms: the backup becomes master, another die waits for a newer one. -/
def tallyMasterLost (d : Die) : Die :=
  let t := d.tally
  if t.running ∧ t.role ≠ 1 ∧ t.master.isSome ∧ t.waitingSince.isNone ∧ t.beaconAt + 1000000 ≤ t.now then
    if t.role = 2 then takeMastership 0 d else modTally (fun t => { t with waitingSince := some t.now }) d
  else d

/-- TALLY_MASTER_LOST (R59). -/
def execTallyMasterLost (s : State) : Host.Outcome State Fault Refusal := run true tallyMasterLost s

/-- The best candidate heard on any usable link (R59). -/
def bestHeard (d : Die) : Nat × Nat :=
  (List.range 32).foldl (fun b l =>
    let x := link d l
    if tallyLink x ∧ x.partner.candPrio ≠ 255 ∧ rank x.partner.candPrio x.partner.cand < rank b.1 b.2 then (x.partner.candPrio, x.partner.cand) else b) (255, 0)

/-- R59: after 2 ms without a new master an election is held among the dies that can be reached; the best-ranked becomes master. A die
that is not the best, or has priority 255, waits on for the master elected. -/
def tallyWaitExpiry (d : Die) : Die :=
  match d.tally.waitingSince with
  | some t =>
    let b := bestHeard d
    if t + 2000000 ≤ d.tally.now then
      if d.tally.priority ≠ 255 ∧ rank d.tally.priority (d.tally.dieId.getD 0) ≤ rank b.1 b.2 then takeMastership 2 d
      else modTally (fun x => { x with waitingSince := some x.now }) d
    else d
  | none => d

/-- TALLY_MASTER_WAIT_EXPIRY (R59). -/
def execTallyMasterWaitExpiry (s : State) : Host.Outcome State Fault Refusal := run true tallyWaitExpiry s

end Sys2Proof.Machine
end

