-- ==== Sys2Proof/Machine/Clocks.lean ====
section
/-! DEFINITION. References and roots (R71–R79, R404, R408, R409): qualification, switchover, the root pair and its failures. -/

namespace Sys2Proof.Machine
open Sys2Proof

/-- A reference may be selected: qualified and not retired (R73, R409). -/
def refUsable (d : Die) (n : Nat) : Bool := (ref d n).qualified && !(ref d n).retired

/-- REF_SWITCH (R74): causes 0 activity, 1 frequency, 2 host, 3 revert. The loops restart on the new reference. -/
def refSwitch (n cause : Nat) (d : Die) : Die :=
  emit 0x0101 (.other n) (le 1 cause) { d with clocks := { d.clocks with selected := n, held := false, noneSince := none, everQualified := true } }

/-- Fabric fault 1 (Table 16.3): its detail is the last window counts; Tally runs on and SETTLED clears. -/
def noReference (d : Die) : Die :=
  let d := { d with clocks := { d.clocks with noneSince := none } }
  fabricFault 1 (sat 16 d.clocks.refA.lastCount + 65536 * sat 16 d.clocks.refB.lastCount) (modTally (fun t => { t with settled := false }) d)

/-- A reference loses qualification (R72, R402, R404, R409): causes 0 activity, 1 frequency. -/
def refLost (n cause : Nat) (d : Die) : Die :=
  let x := ref d n
  let l := if x.retired then x.failures else addFailure d.tally.now x.failures
  let d := modRef n (fun x => { x with qualified := false, good := 0, failures := l }) d
  let d := emit 0x0102 (.other n) (le 1 cause ++ zeros 3 ++ le 4 x.lastCount) d
  let spare := refUsable d (1 - n)
  let gone := !x.retired && permanent l
  let d := if gone ∧ spare then emitRetire 6 0 l.length (.other n) n (modRef n (fun x => { x with retired := true, failures := [] }) d) else d
  if d.clocks.selected ≠ n ∨ x.retired then d
  else if spare then refSwitch (1 - n) cause d
  else
    let d := { d with clocks := { d.clocks with held := true, lostCause := cause, noneSince := some (d.clocks.noneSince.getD d.tally.now) } }
    if gone then noReference d else d

/-- R72: no rising edge for 15 ns. -/
def refActivityLoss (n : Nat) (d : Die) : Die :=
  if (ref d n).qualified then refLost n 0 d else modRef n (fun x => { x with good := 0 }) d

/-- REF_ACTIVITY_LOSS (R72, R74). -/
def execRefActivityLoss (ref : Nat) (s : State) : Host.Outcome State Fault Refusal := run (isPair ref) (refActivityLoss ref) s

/-- R73, R75: what a reference that has just qualified is selected for. -/
def refSelect (n : Nat) (d : Die) : Die :=
  let c := d.clocks
  if (ref d n).retired then d
  else if !c.everQualified then { d with clocks := { c with selected := n, everQualified := true, held := false } }
  else if c.selected = n then { d with clocks := { c with held := false, noneSince := none } }
  else if !refUsable d c.selected then refSwitch n c.lostCause d
  else if c.preferred = n ∧ !d.tally.running then { d with clocks := { c with selected := n } }
  else if c.preferred = n ∧ c.revertive then refSwitch n 3 d
  else d

/-- R72: a window is good within ±20 counts of 10,000, or ±5 % before the first root lock; twenty good ones in a row qualify the input. -/
def refWindow (n count : Nat) (d : Die) : Die :=
  let tol := if d.tally.running then 20 else 500
  let d := modRef n (fun x => { x with lastCount := count % 2 ^ 32 }) d
  let x := ref d n
  if 10000 ≤ count + tol ∧ count ≤ 10000 + tol then
    if x.qualified then d
    else if x.good + 1 < 20 then modRef n (fun x => { x with good := x.good + 1 }) d
    else refSelect n (emit 0x0103 (.other n) [] (modRef n (fun x => { x with qualified := true, good := 20 }) d))
  else if x.qualified then refLost n 1 d else modRef n (fun x => { x with good := 0 }) d

/-- REF_FREQUENCY_WINDOW_END (R72, R73). -/
def execRefFrequencyWindowEnd (ref count : Nat) (s : State) : Host.Outcome State Fault Refusal := run (isPair ref) (refWindow ref count) s

/-- R75: neither reference has been qualified for 1 ms. -/
def noReferenceTimeout (d : Die) : Die :=
  match d.clocks.noneSince with
  | some t => if t + 1000000 ≤ d.tally.now then noReference d else d
  | none => d

/-- NO_REFERENCE_TIMEOUT (R75). -/
def execNoReferenceTimeout (s : State) : Host.Outcome State Fault Refusal := run true noReferenceTimeout s

/-- A root fails: the failure is counted, and it is acquired again 10 µs later, or retired where the other root is live and locked
(R402, R404, R408). -/
def rootFail (n : Nat) (d : Die) : Die :=
  let l := addFailure d.tally.now (root d n).failures
  let d := modRoot n (fun x => { x with locked := false, acquiring := none, failures := l, retryAt := some (d.tally.now + 10000) }) d
  if permanent l ∧ (root d (1 - n)).locked ∧ d.clocks.liveRoot = 1 - n then
    emitRetire 5 0 l.length (.other n) n (modRoot n (fun x => { x with retired := true, failures := [], retryAt := none }) d)
  else d

/-- ROOT_SWITCH: the warm root becomes live with the measured error (R78): causes 0 lock loss, 1 disagreement. -/
def rootSwitch (cause : Nat) (errorNs : Int) (d : Die) : Die :=
  let n := 1 - d.clocks.liveRoot
  emit 0x0104 (.other n) (le 1 cause ++ zeros 3 ++ leI 4 errorNs) { d with clocks := { d.clocks with liveRoot := n } }

/-- R78, R79: the live root loses lock. -/
def rootLockLoss (errorNs : Int) (d : Die) : Die :=
  let n := d.clocks.liveRoot
  if !(root d n).locked then d
  else if (root d (1 - n)).locked then rootFail n (rootSwitch 0 errorNs d)
  else
    let d := rootFail n d
    bothRootsLost (modRoot 1 (fun x => { x with retryAt := none, acquiring := none }) (modRoot 0 (fun x => { x with retryAt := none, acquiring := none }) d))

/-- ROOT_LOCK_LOSS (R78, R79). -/
def execRootLockLoss (errorNs : Int) (s : State) : Host.Outcome State Fault Refusal := run true (rootLockLoss errorNs) s

/-- R78, R408: the roots disagree; the switch counts no failure, and the next two lock windows decide. -/
def rootDisagreement (errorNs : Int) (d : Die) : Die :=
  if (root d 0).locked ∧ (root d 1).locked then
    let d := rootSwitch 1 errorNs d
    { d with clocks := { d.clocks with confirming := true } }
  else d

/-- ROOT_DISAGREEMENT (R78). -/
def execRootDisagreement (errorNs : Int) (s : State) : Host.Outcome State Fault Refusal := run true (rootDisagreement errorNs) s

/-- R408: the roots that failed a window after the switch. One that is live is left for the other; the error then measured is a free
value (log 11). -/
def rootConfirm (fail0 fail1 : Bool) (d : Die) : Die :=
  if d.clocks.confirming then
    let d := { d with clocks := { d.clocks with confirming := false } }
    let live := d.clocks.liveRoot
    let failLive := if live = 0 then fail0 else fail1
    let failWarm := if live = 0 then fail1 else fail0
    let d := if failWarm ∧ (root d (1 - live)).locked then rootFail (1 - live) d else d
    if failLive then rootLockLoss (Config.freeInt d.fresh) (drawFree d) else d
  else d

/-- ROOT_SWITCH_CONFIRM (R408). -/
def execRootSwitchConfirm (fail0 fail1 : Bool) (s : State) : Host.Outcome State Fault Refusal := run true (rootConfirm fail0 fail1) s

/-- R408: a failed root is acquired again 10 µs after its failure. -/
def rootReacquire (n : Nat) (d : Die) : Die :=
  match (root d n).retryAt with
  | some t => if t ≤ d.tally.now ∧ !(root d n).retired then modRoot n (fun x => { x with retryAt := none, acquiring := some d.tally.now }) d else d
  | none => d

/-- ROOT_REACQUIRE (R408). -/
def execRootReacquire (root : Nat) (s : State) : Host.Outcome State Fault Refusal := run (isPair root) (rootReacquire root) s

/-- R408: an acquired root locks and becomes the warm root; the first to lock after a package warm reset has ended the loss of both becomes live, and
Tally runs again (Table 16.3). -/
def rootLocked (n : Nat) (d : Die) : Die :=
  if (root d n).acquiring.isSome then
    let d := modRoot n (fun x => { x with acquiring := none, locked := true }) d
    if !d.tally.running ∧ 4 ≤ d.startup.step then { d with tally := { d.tally with running := true }, clocks := { d.clocks with liveRoot := n } } else d
  else d

/-- ROOT_LOCK_DECLARED (R408). -/
def execRootLockDeclared (root : Nat) (s : State) : Host.Outcome State Fault Refusal := run (isPair root) (rootLocked root) s

end Sys2Proof.Machine
end

