-- ==== Sys2Proof/Machine/Store.lean ====
section
/-! DEFINITION. The calibration store (R313–R321): images, the load at start-up with what the retirement list takes out of service (R413), and the stages of a write. -/

namespace Sys2Proof.Machine
open Sys2Proof

/-! ## Images -/

/-- A leakage entry that no table holds, so that every stored one is listed. -/
def noLeak : Leak := { table := [], share := 0x10000 }

/-- Puts an item's entries into canonical order. -/
def canonical {α : Type} [DecidableEq α] (d : α) (l : Tbl α) : Tbl α := l.foldl (fun t e => tset d t e.1 e.2) []

/-- The values a slot holds, as the working calibration holds them. -/
def loadedCal (c : Calib) : Calib :=
  { c with regions := canonical {} c.regions, islands := canonical {} c.islands, coefs := canonical [] c.coefs, leaks := canonical noLeak c.leaks }

/-- Gains and offsets in force (R239). -/
def gainsOf (d : Die) : List (Nat × Int) := (List.range 5).map (fun k => ((rail d k).gain, (rail d k).offset))

/-- The working calibration as a slot takes it: a record for every present region and island (Table 12.7). -/
def workImage (d : Die) : Calib :=
  let w := d.store.work
  { regions := (presentRegions d).map (fun r => (r, tget {} w.regions r))
    islands := (presentIslands d).map (fun i => (i, tget {} w.islands i))
    coefs := (presentRegions d).map (fun r => (r, coefsOf d r))
    leaks := (presentRegions d).map (fun r => (r, leakOf d r))
    energy := some (gainsOf d)
    retire := w.retire }

/-- The image of a write of source RETIRE: the records of the current slot with the working list, or the working calibration where no slot is valid
(R317). -/
def retireImage (d : Die) : Calib :=
  match currentSlot d with | some s => { s.cal with retire := d.store.work.retire } | none => workImage d

/-! ## Start-up (R291, R313, R316, R413) -/

/-- CAL_SLOT_INVALID (R316). -/
def slotRecord (n : Nat) (x : Slot) (d : Die) : Die :=
  if x.valid then d else emit 0x0906 .none (le 1 n ++ le 1 x.badCause ++ zeros 2 ++ le 4 x.badAt) d

/-- Generation a is newer than b (R316). -/
def newerGeneration (a b : Nat) : Bool := let x := (a + 2 ^ 32 - b) % 2 ^ 32; decide (1 ≤ x ∧ x ≤ 2 ^ 31 - 1)

/-- The current slot: the newer of the valid ones, slot 0 where their generations are equal (R316). -/
def chooseSlot (a b : Slot) : Option Nat :=
  if a.valid ∧ b.valid then some (if newerGeneration b.generation a.generation then 1 else 0)
  else if a.valid then some 0 else if b.valid then some 1 else none

/-- The start of the first interval that begins after now (R229). -/
def firstInterval (d : Die) : Nat := (d.tally.now / 1000 + 1) * 1000

/-- ENERGY_COEF_CHANGE (R229, R231): kinds 2 coefficients, 3 leakage or share. -/
def coefChange (kind r : Nat) (d : Die) : Die := emit 0x0601 (.region r) (le 1 kind ++ zeros 3 ++ le 8 (firstInterval d)) d

/-- A region that takes a default table says so (R231). -/
def defaultTables (r : Nat) (d : Die) : Die :=
  let d := if (d.store.work.coefs.find? (fun e => e.1 = r)).isSome then d else coefChange 2 r d
  if (d.store.work.leaks.find? (fun e => e.1 = r)).isSome then d else coefChange 3 r d

/-- A floor code outside 3–10 is never loaded (R113). -/
def checkFloors (i : Nat) (d : Die) : Die :=
  each (List.range 16) (fun k d =>
    let c := (oppCal d i k).floorD
    if 3 ≤ c ∧ c ≤ 10 then d
    else
      let d := { d with store := { d.store with work := modOpp i k (fun x => { x with floorD := 3, floorStatus := 2 }) d.store.work } }
      emit 0x0904 (.island i) (le 1 7 ++ le 1 2 ++ le 1 k ++ le 1 0xFF) d) d

/-- A listed element is out of service from the start (R413). -/
def applyRetired (e : RetireEntry) (d : Die) : Die :=
  match e.kind with
  | 1 => modMargin e.id (fun x => { x with replicas := tmod {} x.replicas e.sub (fun y => { y with retired := true }) }) d
  | 3 => modSynth e.id (e.sub % 2) (fun x => { x with retired := true, phase := .off, lock := false }) d
  | 4 => modRegion e.id (fun x => { x with retired := true }) d
  | 5 => modRoot e.id (fun x => { x with retired := true, locked := false }) d
  | 6 => modRef e.id (fun x => { x with retired := true }) d
  | 7 => emit 0x060B (.sensor e.id) (zeros 2 ++ leI 2 (sensor d e.id).reading) (modSensor e.id (fun x => { x with retired := true }) d)
  | _ => d

/-- Islands with a listed replica. -/
def islandsListed (l : List RetireEntry) : List Nat := ((l.filter (fun e => e.kind = 1)).map (·.id)).eraseDups

/-- The retirement list acts at start-up; an island left without a kind of replica is blind (R413). -/
def applyList (d : Die) : Die :=
  let d := each d.store.work.retire applyRetired d
  each (islandsListed d.store.work.retire) (fun i d => blindCheck i 2 (blindCheck i 1 (blindCheck i 0 d))) d

/-- The working calibration is loaded from the current slot (R289, R291, R239). -/
def loadWork (d : Die) : Die :=
  match currentSlot d with
  | some s =>
    let w := loadedCal s.cal
    let d := { d with store := { d.store with work := w } }
    let d := each (List.range 5) (fun k d => modRail k (fun x => { x with gain := ((w.energy.getD []).getD k (0x4000, 0)).1, offset := ((w.energy.getD []).getD k (0x4000, 0)).2 }) d) d
    each (w.islands.map (·.1)) checkFloors d
  | none => d

/-- Step 5 of start-up: the flash is identified, both slots are read, and the working calibration is loaded (R313, R316, R423). -/
def loadStore (seen : StartupInput) (d : Die) : Die :=
  let d := if seen.flash = 0 then
      let d := { d with store := { d.store with absent := false, slot0 := seen.slot0, slot1 := seen.slot1, current := chooseSlot seen.slot0 seen.slot1 } }
      slotRecord 1 seen.slot1 (slotRecord 0 seen.slot0 d)
    else emit 0x0905 .none (le 3 seen.jedec ++ le 1 (seen.flash - 1)) { d with store := { d.store with absent := true, current := none } }
  applyList (each (presentRegions d) defaultTables (loadWork d))

/-! ## Writes (R317–R320) -/

def setSlot (n : Nat) (x : Slot) (d : Die) : Die :=
  if n = 0 then { d with store := { d.store with slot0 := x } } else { d with store := { d.store with slot1 := x } }

/-- Generation of a slot. -/
def slotOfN (d : Die) (n : Nat) : Slot := if n = 0 then d.store.slot0 else d.store.slot1

/-- Generation the next write carries (R318). -/
def nextGeneration (d : Die) : Nat := match currentSlot d with | some s => (s.generation + 1) % 2 ^ 32 | none => 1

/-- A write begins at the non-current slot, slot 0 of an empty store; its erase ends that slot's validity (R318). -/
def beginWrite (source : Nat) (image : Calib) (key : Option (Nat × Nat)) (d : Die) : Die :=
  let slot := match d.store.current with | some n => 1 - n | none => 0
  let g := nextGeneration d
  let d := setSlot slot {} d
  { d with store := { d.store with
    write := some { slot := slot, source := source, generation := g, stage := 0, image := image, since := d.tally.now, begun := d.tally.now, firmware := d.chandler.version, key := key }
    lastTally := d.tally.now } }

/-- CAL_WRITE_FAIL (R318): stages 0 erase, 1 program, 2 verify, 3 time-out. A failed write of source RETIRE is due again 10 s later (R317). -/
def writeFail (w : StoreWrite) (stage address : Nat) (d : Die) : Die :=
  let again := d.tally.now + 10000000000
  let d := { d with store := { d.store with
    write := none
    lastFailed := true
    lastTally := d.tally.now
    retireDue := if w.source = 3 then some (min again (d.store.retireDue.getD again)) else d.store.retireDue } }
  emit 0x0908 .none (le 1 w.slot ++ le 1 w.source ++ le 1 stage ++ zeros 1 ++ le 4 w.generation ++ le 4 address) d

/-- CAL_WRITE_DONE (R318): the target becomes current. -/
def writeDone (w : StoreWrite) (d : Die) : Die :=
  let d := setSlot w.slot { valid := true, generation := w.generation, source := w.source, firmware := w.firmware, tally := w.begun, cal := w.image } d
  let d := { d with store := { d.store with write := none, lastFailed := false, lastTally := d.tally.now, current := some w.slot } }
  emit 0x0907 .none (le 1 w.slot ++ le 1 w.source ++ zeros 2 ++ le 4 w.generation) d

/-- Flash address of a failure: the block being erased; in the other stages the manual leaves it to the flash (log 11). -/
def failAddress (d : Die) (w : StoreWrite) : Nat := if w.stage = 0 then w.slot * 0x200000 + w.blocks * 0x10000 else Config.freeNat d.fresh % 2 ^ 32

/-- FLASH_OPERATION_COMPLETE (R318): a block erased, the records programmed, or the slot read back. -/
def flashComplete (ok : Bool) (d : Die) : Die :=
  match d.store.write with
  | none => d
  | some w =>
    if !ok then writeFail w w.stage (failAddress d w) (if w.stage = 0 then d else drawFree d)
    else if w.stage = 2 then writeDone w d
    else
      let w' := if w.stage = 0 then (if w.blocks + 1 < 32 then { w with blocks := w.blocks + 1, since := d.tally.now } else { w with blocks := 32, stage := 1, since := d.tally.now })
        else { w with stage := 2, since := d.tally.now }
      { d with store := { d.store with write := some w' } }

/-- FLASH_OPERATION_COMPLETE (R318). -/
def execFlashOperationComplete (ok : Bool) (s : State) : Host.Outcome State Fault Refusal := run true (flashComplete ok) s

/-- FLASH_OPERATION_TIMEOUT (R313): a program or erase has taken twice its maximum time. -/
def flashTimeout (d : Die) : Die :=
  match d.store.write with
  | some w => if w.stage < 2 then writeFail w 3 (failAddress d w) (if w.stage = 0 then d else drawFree d) else d
  | none => d

/-- FLASH_OPERATION_TIMEOUT (R313). -/
def execFlashOperationTimeout (s : State) : Host.Outcome State Fault Refusal := run true flashTimeout s

/-- A write of source RETIRE begins where one is due and no write is in progress (R317). -/
def retireWrite (d : Die) : Die :=
  match d.store.retireDue with
  | some t =>
    if d.tally.now < t ∨ d.store.write.isSome ∨ d.store.absent ∨ !chandlerRuns d then d
    else beginWrite 3 (retireImage d) none { d with store := { d.store with retireDue := none } }
  | none => d

/-- STORE_WRITE_RETIRE (R317). -/
def execStoreWriteRetire (s : State) : Host.Outcome State Fault Refusal := run true retireWrite s

/-- STORE_WRITE_RETRY (R317): the same write, again, 10 s after it failed. -/
def storeRetry (d : Die) : Die := if d.store.lastFailed then retireWrite d else d

/-- STORE_WRITE_RETRY (R317). -/
def execStoreWriteRetry (s : State) : Host.Outcome State Fault Refusal := run true storeRetry s

/-- A reset of kinds 2 and 3 abandons a store write (R320, R430). -/
def abandonWrite (d : Die) : Die :=
  match d.store.write with | some w => writeFail w 3 (failAddress d w) (if w.stage = 0 then d else drawFree d) | none => d

end Sys2Proof.Machine
end

