-- ==== Sys2Proof/Machine/CalImage.lean ====
section
/-! DEFINITION. The records of the calibration store as bytes (R314, R315, Tables 12.6–12.9): what cal.read and cal.export write, and what cal.write and cal.set read. -/

namespace Sys2Proof.Machine
open Sys2Proof

/-! ## Payloads written -/

/-- A REGION_CAL payload (Table 12.8). -/
def regionCalBytes (r : Nat) (x : RegionCal) : Bytes :=
  le 2 r ++ le 2 (x.spineStatus % 4 + 4 * (x.bandsStatus % 4)) ++ le 2 x.spine ++ le 1 x.spineRes ++ le 1 x.bandGap
    ++ (List.range 4).flatMap (fun j =>
      let s := x.sensors.getD j {}
      leI 2 s.offset ++ le 1 (s.diode % 4 + 4 * (s.status % 4)) ++ le 1 s.residual)
    ++ (List.range 128).flatMap (fun j => le 2 (x.bands.getD j 0))

/-- An entry of ISLAND_CAL (Table 12.9). -/
def oppCalBytes (x : OppCal) : Bytes :=
  le 1 x.bias ++ le 1 (x.floorD % 16) ++ le 1 x.floorTrim ++ le 1 (x.biasStatus % 4 + 4 * (x.floorStatus % 4) + 16 * (x.plumbStatus % 4)) ++ le 1 x.u
    ++ le 1 x.periodErr ++ le 1 x.floorExcess ++ zeros 1 ++ (List.range 6).flatMap (fun j => le 1 (x.offsets.getD j 0))
    ++ (List.range 12).flatMap (fun j => le 1 (x.trims.getD j 0)) ++ zeros 2

/-- An ISLAND_CAL payload (Table 12.9). -/
def islandCalBytes (i : Nat) (x : IslandCal) : Bytes :=
  le 2 i ++ le 2 (x.cellsStatus % 4 + 4 * (x.trackStatus % 4) + 16 * (x.dutyStatus % 4)) ++ le 10 x.cells ++ le 2 x.track ++ le 1 (x.dutyTrim % 16)
    ++ le 1 (x.active % 64) ++ le 1 x.inl ++ le 1 x.dutyErr ++ zeros 4 ++ (List.range 16).flatMap (fun k => oppCalBytes (x.opp.getD k {}))

/-- A COEF payload (R229). -/
def coefBytes (l : List Nat) : Bytes := (List.range 12).flatMap (fun j => le 2 (l.getD j 0))

/-- A LEAKAGE payload (R231). -/
def leakBytes (x : Leak) : Bytes := (List.range 64).flatMap (fun j => le 2 (x.table.getD j 0)) ++ le 2 x.share ++ zeros 6

/-- An ENERGY payload (R239). -/
def energyBytes (l : List (Nat × Int)) : Bytes := (List.range 5).flatMap (fun k => le 2 (l.getD k (0x4000, 0)).1 ++ zeros 2 ++ leI 4 (l.getD k (0x4000, 0)).2)

/-- A RETIRE payload whose count is that of the whole list, with at most `most` of its entries (R369). -/
def retireBytes (l : List RetireEntry) (most : Nat) : Bytes :=
  le 2 l.length ++ zeros 6 ++ (l.take most).flatMap (fun e => le 1 e.kind ++ le 1 e.sub ++ le 2 e.id ++ zeros 4 ++ le 8 e.tally)

/-! ## A slot, byte for byte (R314, R315, R321) -/

/-- A record with its Hallmark (Table 12.6). -/
def storeRecord (g type instance_ : Nat) (payload : Bytes) : Bytes :=
  let b := le 1 type ++ le 1 1 ++ le 2 payload.length ++ le 2 instance_ ++ zeros 2 ++ payload ++ le 4 g
  b ++ le 4 (crc32c b)

/-- SLOT_HEADER of a slot (Table 12.7). -/
def headerPayload (d : Die) (s : Slot) : Bytes :=
  le 4 0x4A434653 ++ le 2 1 ++ le 1 s.source ++ le 1 d.startup.fuses.variant ++ le 8 d.startup.fuses.serial ++ le 4 s.firmware ++ zeros 4 ++ le 8 s.tally

/-- Records of a slot between its header and its SEAL, in the order of Table 12.7 (R318). -/
def slotRecords (s : Slot) : List Bytes :=
  let g := s.generation
  let c := s.cal
  c.regions.map (fun e => storeRecord g 2 e.1 (regionCalBytes e.1 e.2)) ++ c.islands.map (fun e => storeRecord g 3 e.1 (islandCalBytes e.1 e.2))
    ++ c.coefs.map (fun e => storeRecord g 4 e.1 (coefBytes e.2)) ++ c.leaks.map (fun e => storeRecord g 5 e.1 (leakBytes e.2))
    ++ (c.energy.toList.map (fun l => storeRecord g 6 0 (energyBytes l))) ++ [storeRecord g 7 0 (retireBytes c.retire c.retire.length)]

/-- The 2 MiB of a slot: its records, the SEAL, and erased bytes after it (R314). -/
def slotBytes (d : Die) (s : Slot) : Bytes :=
  let l := storeRecord s.generation 1 0 (headerPayload d s) :: slotRecords s
  let b := l.flatMap (fun x => x) ++ storeRecord s.generation 0x0F 0 (le 4 l.length ++ zeros 4)
  b ++ List.replicate (0x200000 - b.length) 0xFF#8

/-! ## Payloads read -/

/-- A REGION_CAL payload as read (Table 12.8). -/
def readRegionCal (b : Bytes) : RegionCal :=
  { spineStatus := fld b 2 2 % 4, bandsStatus := fld b 2 2 / 4 % 4, spine := fld b 4 2, spineRes := fld b 6 1, bandGap := fld b 7 1
    sensors := (List.range 4).map (fun j => { offset := fldI b (8 + 4 * j) 2, diode := fld b (10 + 4 * j) 1 % 4, status := fld b (10 + 4 * j) 1 / 4 % 4, residual := fld b (11 + 4 * j) 1 })
    bands := (List.range 128).map (fun j => fld b (24 + 2 * j) 2) }

/-- An entry of ISLAND_CAL as read. -/
def readOppCal (b : Bytes) : OppCal :=
  { bias := fld b 0 1, floorD := fld b 1 1 % 16, floorTrim := fld b 2 1, biasStatus := fld b 3 1 % 4, floorStatus := fld b 3 1 / 4 % 4, plumbStatus := fld b 3 1 / 16 % 4
    u := fld b 4 1, periodErr := fld b 5 1, floorExcess := fld b 6 1, offsets := (List.range 6).map (fun j => fld b (8 + j) 1), trims := (List.range 12).map (fun j => fld b (14 + j) 1) }

/-- An ISLAND_CAL payload as read (Table 12.9). -/
def readIslandCal (b : Bytes) : IslandCal :=
  { cellsStatus := fld b 2 2 % 4, trackStatus := fld b 2 2 / 4 % 4, dutyStatus := fld b 2 2 / 16 % 4, cells := fld b 4 10, track := fld b 14 2
    dutyTrim := fld b 16 1 % 16, active := fld b 17 1 % 64, inl := fld b 18 1, dutyErr := fld b 19 1
    opp := (List.range 16).map (fun k => readOppCal (b.drop (24 + 28 * k))) }

/-- COEF, LEAKAGE and ENERGY payloads as read (R229, R231, R239). -/
def readCoef (b : Bytes) : List Nat := (List.range 12).map (fun j => fld b (2 * j) 2)
def readLeak (b : Bytes) : Leak := { table := (List.range 64).map (fun j => fld b (2 * j) 2), share := fld b 128 2 }
def readEnergy (b : Bytes) : List (Nat × Int) := (List.range 5).map (fun k => (fld b (8 * k) 2, fldI b (8 * k + 4) 4))

/-! ## An image from host memory (R317, R367) -/

/-- One record of an image enters the values it spells; header, SEAL, RETIRE and unlisted types do not (R316, R317). -/
def imageRecord (type inst : Nat) (p : Bytes) (c : Calib) : Calib :=
  match type with
  | 2 => { c with regions := c.regions ++ [(inst, readRegionCal p)] }
  | 3 => { c with islands := c.islands ++ [(inst, readIslandCal p)] }
  | 4 => { c with coefs := c.coefs ++ [(inst, readCoef p)] }
  | 5 => { c with leaks := c.leaks ++ [(inst, readLeak p)] }
  | 6 => { c with energy := some (readEnergy p) }
  | _ => c

/-- The records of an image up to its SEAL. -/
def readImage : Nat → Bytes → Calib → Calib
  | 0, _, c => c
  | n + 1, b, c =>
    if b.length < 16 ∨ fld b 0 1 = 0x0F then c
    else readImage n (b.drop (16 + fld b 2 2)) (imageRecord (fld b 0 1) (fld b 4 2) ((b.drop 8).take (fld b 2 2)) c)

/-- The image begins with an intact SLOT_HEADER of this die (R316, R367). -/
def imageHeaderOk (d : Die) (b : Bytes) : Bool :=
  decide (fld b 0 1 = 1 ∧ fld b 1 1 = 1 ∧ fld b 2 2 = 32 ∧ 48 ≤ b.length ∧ fld b 8 4 = 0x4A434653 ∧ fld b 12 2 = 1 ∧ fld b 15 1 = d.startup.fuses.variant
    ∧ fld b 16 8 = d.startup.fuses.serial ∧ fld b 44 4 = crc32c (b.take 44))

/-- The values a write of source HOST stores (R317). -/
def hostImage (d : Die) (b : Bytes) : Calib := { readImage (b.length / 16) b {} with retire := d.store.work.retire }

end Sys2Proof.Machine
end

