-- ==== Sys2Proof/Machine/Startup.lean ====
section
/-! DEFINITION. Start-up (R419–R428), the always-on rail (R419, R445, R485) and the resets of the die (R430, R434, R442, R443). -/

namespace Sys2Proof.Machine
open Sys2Proof

/-! ## Holds (R261, R263, R449) -/

/-- THERMTRIP_N is driven low while a hold or a stop of cause COOLANT or TRIP stands (R449). -/
def refreshTrip (d : Die) : Die :=
  { d with stop := { d.stop with thermtrip := d.stop.coolant || d.stop.trip || d.stop.trayHold || d.stop.thermalHold } }

/-- TRAY_HOLD and TRAY_RELEASE (R263). -/
def trayRecord (code : Nat) (d : Die) : Die := fabricInt 6 (emit code .none (le 2 d.stop.senseMv ++ le 1 (b1 d.stop.flowOk)) d)

/-! ## The steps of Table 17.1 -/

def setStep (n : Nat) (d : Die) : Die := { d with startup := { d.startup with step := n, begun := false } }
def setBegun (d : Die) : Die := { d with startup := { d.startup with begun := true } }

/-- Tray, trip and every stop cause are released (R419, R448). -/
def holdsReleased (d : Die) : Bool := decide (stopCauses d = 0)

/-- The topology check starts where step 9 stands and a descriptor has been accepted (R427). -/
def startCheck (d : Die) : Die :=
  if d.startup.step = 9 ∧ d.startup.descriptor.isSome ∧ d.startup.checkSince.isNone then
    { d with startup := { d.startup with checkSince := some d.tally.now } } else d

/-- The step in progress begins, or begins again after a stop, once its conditions hold (R419, R425, R430): step 6 with Assay after a cold power-on
and without it after another reset, steps 7 and 8 with the rise to OPP 0. -/
def startupGo (d : Die) : Die :=
  if d.startup.begun ∨ d.stop.stopped ∨ d.startup.ready = 1 ∨ !holdsReleased d ∨ !chandlerRuns d ∨ d.stop.faultStop.isSome then d
  else if d.startup.step = 6 then
    if d.startup.kind = 1 then powerUpAssay (setBegun d) else railsUp (raiseDie (setBegun (setStep 7 d)))
  else if 7 ≤ d.startup.step then railsUp (raiseDie (setBegun d))
  else d

/-- What the release of a stop cause leads to before READY: with every cause released the stop ends without fabric.resume, and start-up goes on from its
step (R425). -/
def causeReleased (d : Die) : Die :=
  let d := refreshTrip d
  if d.startup.ready = 1 then throttleAll d
  else
    let d := if d.stop.stopped ∧ d.stop.faultStop.isNone ∧ stopCauses d = 0 then
        let d := { d with stop := { d.stop with stopped := false, stood := 0 } }
        throttleAll (each (presentRegions d) (fun r d => setCeiling 11 r none d) d)
      else throttleAll d
    startupGo d

/-- Both synthesizers of a region are locked, or retired (Table 17.1). -/
def pairLocked (d : Die) (r : Nat) : Bool :=
  (region d r).retired || [0, 1].all (fun x => (synth d r x).retired || (synth d r x).lock)

/-- An island runs under R118 or in Yoke mode (Table 17.1). -/
def islandUp (d : Die) (i : Nat) : Bool :=
  (region d (islandRegion i)).retired || match (island d i).ring.bellows with
    | .injected => true | .suspended => true | .released => true | .yoke => true | .stopped => false | .acquiring => false

/-- Step 1 (R420, R422, R443, R454, Table 17.2): the fuses are read, the rails are turned on and the tray hold is entered. -/
def bootDone (seen : StartupInput) (d : Die) : Die :=
  let d := { d with startup := { d.startup with fuses := seen.fuses, fusesRead := true } }
  let d := each (List.range 5) railOn d
  setStep 2 (trayRecord 0x060C (settingsDefaulted 1 (emitReset 1 0 0 .none d)))

/-- Step 3 (R77, R420): root 0 is live, root 1 warm, and Tally counts from 0. -/
def rootsDone (d : Die) : Die :=
  let d := modRoot 1 (fun x => { x with locked := true }) (modRoot 0 (fun x => { x with locked := true }) d)
  setStep 4 { d with clocks := { d.clocks with liveRoot := 0 }, tally := { d.tally with running := true, now := 0, frac := 0 } }

/-- Step 7 done: every Bellows starts (R118). -/
def bellowsStep (d : Die) : Die :=
  let d := setBegun (setStep 8 d)
  each ((presentIslands d).filter (fun i => !(region d (islandRegion i)).retired)) startBellows d

/-- STARTUP_STEP_COMPLETE (R419): the step in progress completes where its row of Table 17.1 holds, and the next begins. A step that a hold or a stop has kept
from beginning begins here. -/
def startupStep (seen : StartupInput) (d : Die) : Die :=
  if d.stop.stopped ∨ d.stop.faultStop.isSome ∨ !d.stop.aonGood then d
  else match d.startup.step with
    | 1 => bootDone seen d
    | 2 => if refUsable d 0 ∨ refUsable d 1 then setStep 3 d else d
    | 3 => rootsDone d
    | 4 => if chandlerRuns d then setStep 5 d else d
    | 5 => if chandlerRuns d ∧ (List.range 5).all (fun k => (rail d k).confirmed) then startupGo (setStep 6 (loadStore seen d)) else d
    | 6 => if d.startup.begun then (if d.store.assay.isNone then startupGo (setStep 7 d) else d) else startupGo d
    | 7 =>
      if !d.startup.begun then startupGo d
      else if (List.range 5).all (fun k => railStands (rail d k)) ∧ (presentRegions d).all (pairLocked d) then bellowsStep d else d
    | 8 => if !d.startup.begun then startupGo d else if (presentIslands d).all (islandUp d) then startCheck (setBegun (setStep 9 d)) else d
    | _ => startupGo d

/-- STARTUP_STEP_COMPLETE (R419). -/
def execStartupStepComplete (seen : StartupInput) (s : State) : Host.Outcome State Fault Refusal := run true (startupStep seen) s

/-! ## Firmware (R421) -/

/-- BOOT_IMAGE: results 0 verified, 1 signature failed, 2 hash failed. -/
def bootImage (n result version : Nat) (d : Die) : Die :=
  let result := if result = 0 ∧ !d.startup.fuses.keyOk then 1 else result
  let d := modCore n (fun x => { x with verified := decide (result = 0) }) d
  emit 0x0B08 .none (le 1 n ++ le 1 result ++ zeros 2 ++ le 4 version) (if result = 0 then { d with chandler := { d.chandler with version := version } } else d)

/-- The pair starts with both cores, with core n primary. -/
def startPair (p : Pair) (n : Nat) (d : Die) : Die :=
  { d with chandler := { d.chandler with pair := p, primary := n, lastBeat := d.tally.now } }

/-- A core may take an image: it has none that verifies, or the window after a package warm reset is open (R421, R430). -/
def takesImage (d : Die) (n : Nat) : Bool :=
  !(core d n).heldOut && (!(core d n).verified || (match d.startup.imageUntil with | some t => decide (d.tally.now ≤ t) | none => false))

/-- FIRMWARE_BROADCAST (R421): each waiting core checks the image; both verified start SYNCED. A second core that verifies later joins as shadow under R324. -/
def firmwareBroadcast (r0 r1 version : Nat) (d : Die) : Die :=
  if d.startup.step < 4 then d
  else
    let t0 := takesImage d 0
    let t1 := takesImage d 1
    if !t0 ∧ !t1 then d
    else
      let d := if t0 then bootImage 0 r0 version d else d
      let d := if t1 then bootImage 1 r1 version d else d
      match d.chandler.pair with
      | .boot =>
        if d.chandler.core0.verified ∧ d.chandler.core1.verified then startPair .synced 0 d
        else { d with chandler := { d.chandler with broadcastAt := some d.tally.now } }
      | .single => if (core d (shadow d)).verified ∧ !(core d (shadow d)).heldOut then setPair .syncing (restartCore (shadow d) d) else d
      | _ => d

/-- FIRMWARE_BROADCAST (R421). -/
def execFirmwareBroadcast (result0 result1 version : Nat) (s : State) : Host.Outcome State Fault Refusal :=
  run true (firmwareBroadcast result0 result1 version) s

/-- BOOT_IMAGE_TIMEOUT (R421): 4 ms after the broadcast with one core verified, it starts alone. -/
def bootImageTimeout (d : Die) : Die :=
  match d.chandler.pair, d.chandler.broadcastAt with
  | .boot, some t =>
    if d.tally.now < t + 4000000 then d
    else if d.chandler.core0.verified ∧ !d.chandler.core1.verified then startPair .single 0 { d with chandler := { d.chandler with broadcastAt := none } }
    else if d.chandler.core1.verified ∧ !d.chandler.core0.verified then startPair .single 1 { d with chandler := { d.chandler with broadcastAt := none } }
    else d
  | _, _ => d

/-- BOOT_IMAGE_TIMEOUT (R421). -/
def execBootImageTimeout (s : State) : Host.Outcome State Fault Refusal := run true bootImageTimeout s

/-! ## The topology check (R422, R426–R428) -/

/-- The fused variant agrees with the number of present compute regions (R422). -/
def variantOk (d : Die) : Bool :=
  let n := ((List.range 72).filter (present d)).length
  match d.startup.fuses.variant with | 0 => decide (n = 72) | 1 => decide (n = 64) | 2 => decide (n = 56) | _ => false

/-- A link counts as up (R427). -/
def linkIsUp (x : Link) : Bool := x.up && x.tallyHeard

/-- Differences of the die from a descriptor, each as kind, ID, expected and found, in the order of Table 17.4. -/
def differences (d : Die) (b : Bytes) (hbm : Nat) : List (Nat × Nat × Nat × Nat) :=
  let partner := fun (l : Nat) => fld b (48 + 2 * l) 2 % 2 ^ 14
  let links := List.range 32
  let serial := fld b 8 8
  (if variantOk d ∧ fld b 5 1 = d.startup.fuses.variant then [] else [(1, 0xFFFF, fld b 5 1, if variantOk d then d.startup.fuses.variant else 0xFF)])
    ++ (if serial = 0 ∨ serial = d.startup.fuses.serial then [] else [(2, 0xFFFF, serial % 2 ^ 32, d.startup.fuses.serial % 2 ^ 32)])
    ++ (((List.range 80).filter (fun r => bit (fld b 16 10) r ≠ present d r)).map (fun r => (3, r, b1 (bit (fld b 16 10) r), b1 (present d r))))
    ++ (((List.range 80).filter (fun r => (region d r).retired && !bit (fld b 26 10) r)).map (fun r => (4, r, 0, 1)))
    ++ (((presentIslands d).filter (fun i => !(region d (islandRegion i)).retired && !bit (fld b 112 156) i && (match (island d i).ring.bellows with | .yoke => true | _ => false))).map (fun i => (5, i, 0, 1)))
    ++ ((links.filter (fun l => bit (fld b 36 4) l && !linkIsUp (link d l))).map (fun l => (6, l, partner l, 0xFFFFFFFF)))
    ++ ((links.filter (fun l => bit (fld b 36 4) l && linkIsUp (link d l) && decide ((link d l).partner.die ≠ partner l))).map (fun l => (7, l, partner l, (link d l).partner.die)))
    ++ ((links.filter (fun l => !bit (fld b 36 4) l && linkIsUp (link d l))).map (fun l => (8, l, 0xFFFFFFFF, (link d l).partner.die)))
    ++ (((List.range 48).filter (fun j => bit (fld b 40 6) j && !bit hbm j)).map (fun j => (9, 1152 + j, 1, 0)))
    ++ (match d.tally.dieId with | some v => if v = fld b 6 2 % 2 ^ 14 then [] else [(10, 0xFFFF, fld b 6 2 % 2 ^ 14, v)] | none => [])

/-- TOPOLOGY_DIFF (R427). -/
def diffRecord (x : Nat × Nat × Nat × Nat) (d : Die) : Die :=
  emit 0x0B07 (.other x.2.1) (le 1 x.1 ++ zeros 1 ++ le 2 x.2.1 ++ le 4 x.2.2.1 ++ le 4 x.2.2.2) d

/-- By READY the die has a place in the Tally tree: it takes its own mastership where it has heard no master, and a lineage it has heard but not joined is one
it meets after READY (R64, R65). -/
def joinByReady (d : Die) : Die :=
  if d.tally.joined then d
  else match d.tally.master, d.tally.parent with
    | none, _ => ownMaster d
    | some _, some l => { d with tally := { d.tally with joined := true, rejoinEpoch := some (link d l).partner.epoch } }
    | some _, none => { d with tally := { d.tally with joined := true } }

/-- READY_STATE (R428): READY ends the reset that brought the die up (R429). -/
def readyState (n : Nat) (d : Die) : Die :=
  let st := if n = 0 then 1 else 2
  let d := { d with startup := { d.startup with ready := st, step := 10 } }
  let d := fabricInt 2 (emit 0x0B06 .none (le 1 st ++ zeros 1 ++ le 2 (sat 16 n)) d)
  if n = 0 then emitReset d.startup.kind 1 (b1 (decide (d.startup.kind = 3))) .none (joinByReady d) else d

/-- The comparison (R427, R428): a die that is READY keeps its state. fabric.topology, where it waits for the check, completes with the count. -/
def compareTopology (hbm : Nat) (d : Die) : Die :=
  match d.startup.descriptor with
  | none => d
  | some b =>
    let l := differences d b hbm
    let d := { d with startup := { d.startup with checkSince := none, differences := l.length } }
    let d := each l diffRecord d
    let d := if d.startup.ready = 1 then d else readyState l.length d
    match (queue d 0).exec with
    | some e => if fld e.desc 0 2 = 0x0E04 ∧ chandlerRuns d then finish 0 (.done l.length none) d else d
    | none => d

/-- Every expected link is up (R427). -/
def linksUp (d : Die) : Bool :=
  match d.startup.descriptor with
  | some b => (List.range 32).all (fun l => !bit (fld b 36 4) l || linkIsUp (link d l))
  | none => false

/-- TOPOLOGY_CHECK_TIMEOUT (R427): the check has waited 500 ms. -/
def topologyTimeout (hbm : Nat) (d : Die) : Die :=
  match d.startup.checkSince with
  | some t => if t + 500000000 ≤ d.tally.now ∧ chandlerRuns d then compareTopology hbm d else d
  | none => d

/-- TOPOLOGY_CHECK_TIMEOUT (R427). -/
def execTopologyCheckTimeout (hbmTrained : Nat) (s : State) : Host.Outcome State Fault Refusal := run true (topologyTimeout hbmTrained) s

/-- TOPOLOGY_CHECK_COMPLETE (R427): every expected link is up. -/
def topologyComplete (hbm : Nat) (d : Die) : Die :=
  match d.startup.checkSince with
  | some t => if (linksUp d ∨ t + 500000000 ≤ d.tally.now) ∧ chandlerRuns d then compareTopology hbm d else d
  | none => d

/-- TOPOLOGY_CHECK_COMPLETE (R427). -/
def execTopologyCheckComplete (hbmTrained : Nat) (s : State) : Host.Outcome State Fault Refusal := run true (topologyComplete hbmTrained) s

/-! ## The always-on rail (R419, R445, R485) -/

/-- AON_POWER_GOOD (R419): cold power-on begins, and every row of Table 17.7 is at its default. What the board and host memory hold stands. -/
def aonPowerGood (d : Die) : Die :=
  if d.stop.aonGood then d
  else
    let clean : Die := {}
    { clean with
      stop := { clean.stop with aonGood := true, testForce := d.stop.testForce }
      links := canonical {} (d.links.map (fun e => (e.1, { up := e.2.up, rxUp := e.2.rxUp })))
      hbm := d.hbm
      streams := d.streams
      fresh := d.fresh }

/-- AON_POWER_GOOD (R419). -/
def execAonPowerGood (s : State) : Host.Outcome State Fault Refusal := run true aonPowerGood s

/-- AON_POWER_FAIL (R445, R485): the fabric drives no pin. -/
def aonPowerFail (d : Die) : Die := { d with stop := { d.stop with aonGood := false } }

/-- AON_POWER_FAIL (R485). -/
def execAonPowerFail (s : State) : Host.Outcome State Fault Refusal := run true aonPowerFail s

/-- AON_UNDERVOLTAGE (R415, R485): 2 µs below 0.700 V, fabric fault 4. -/
def aonUndervoltage (mv : Nat) (d : Die) : Die :=
  if d.stop.aonGood ∧ mv < 700 ∧ d.stop.fault ≠ 4 then
    fabricFault 4 (sat 16 mv) { d with stop := { d.stop with aonLowest := min d.stop.aonLowest mv } }
  else d

/-- AON_UNDERVOLTAGE (R485). -/
def execAonUndervoltage (lowestMv : Nat) (s : State) : Host.Outcome State Fault Refusal := run true (aonUndervoltage lowestMv) s

/-! ## Package warm reset and fabric reset (R430, R442) -/

/-- A queue at a reset of the die: the command in execution ends with ABORTED, and the queue is reset (R338, R430). -/
def resetQueue (cause q : Nat) (d : Die) : Die :=
  let used := decide (q = 0) || (queue d q).bound
  let d := finish q (.refuse stAborted 0xFFFF) (modQueue q (fun x => { x with resetting := none }) d)
  let d := if used then queueReset q cause d else d
  modQueue q (fun _ => {}) d

/-- An island at its defaults: what the retirement list says of it, and the core stop line, stand. -/
def resetIsland (x : Island) : Island :=
  { ring := { coreStopped := x.ring.coreStopped }
    margin := { replicas := x.margin.replicas.filterMap (fun e => if e.2.retired then some (e.1, { retired := true }) else none), active := x.margin.active, blind := x.margin.blind }
    holds := {} }

/-- A region at its defaults; retirement, the wake line and the energy figures stand. -/
def resetRegion (x : Region) : Region := { retired := x.retired, wake := x.wake, energy := x.energy }

def resetSynth (x : Synth) : Synth := { retired := x.retired }

/-- A link at its defaults: coupling and the pool; what the link layer, the sideband and the Tally tree hold stands. -/
def resetLink (x : Link) : Link :=
  { x with waitPool := [], heldForYou := 0, state := .uncoupled, coupled := false, tag := 0, lead := 0, mismatch := false, stale := none, since := 0, pool := {} }

/-- A rail at its defaults, at the retention voltage and on (R430). -/
def resetRail (x : Rail) : Rail :=
  { x with off := false, capW := none, limitA := none, fallFailed := false, fallClear := none, alertRecord := [], alert := false, dead := false, clearSince := none, pmbus := none, hostWrite := none, hostNext := false }

/-- The synthesizers, islands and regions at their defaults. -/
def resetFabric (d : Die) : Die :=
  { d with
    islands := canonical {} (d.islands.map (fun e => (e.1, resetIsland e.2)))
    regions := canonical {} (d.regions.map (fun e => (e.1, resetRegion e.2)))
    synths := canonical {} (d.synths.map (fun e => (e.1, resetSynth e.2)))
    links := canonical {} (d.links.map (fun e => (e.1, resetLink e.2)))
    rails := canonical {} (d.rails.map (fun e => (e.1, resetRail e.2)))
    sensors := canonical {} (d.sensors.map (fun e => (e.1, { e.2 with converted := false, failures := [] })))
    ends := [], lanes := [], contexts := [], commits := [], commitReqs := [], nextCommit := 1
    watches := [], tenants := [], dormant := {} }

/-- References at a reset: preference, mode and selection return to default; at a fabric reset every input is unqualified, and the one selected keeps driving
the roots (R430). -/
def resetRefs (kind : Nat) (d : Die) : Die :=
  let c := d.clocks
  let wipe := fun (x : Ref) => { x with failures := [], qualified := if kind = 3 then false else x.qualified, good := if kind = 3 then 0 else x.good }
  let root' := fun (x : Root) => { x with failures := [], retryAt := if d.tally.running then x.retryAt else none, acquiring := if d.tally.running ∨ x.retired then x.acquiring else some d.tally.now }
  { d with clocks := { c with
    refA := wipe c.refA
    refB := wipe c.refB
    preferred := 0
    revertive := false
    selected := if kind = 2 ∧ c.refA.qualified ∧ !c.refA.retired then 0 else c.selected
    everQualified := decide (kind = 2) && c.everQualified
    noneSince := if kind = 3 then none else c.noneSince
    root0 := root' c.root0
    root1 := root' c.root1 } }

/-- The Chandler cores restart from the images their SRAM holds (R430); a package warm reset examines a core that was held out (R411). -/
def resetCores (kind : Nat) (d : Die) : Die :=
  let fresh := fun (x : Core) => { x with failures := [], restart := none, attempt := 0, heldOut := decide (kind = 3) && x.heldOut }
  let d := { d with chandler := { d.chandler with pair := .boot, core0 := fresh d.chandler.core0, core1 := fresh d.chandler.core1, broadcastAt := none } }
  let ok := fun (n : Nat) => (core d n).verified && !(core d n).heldOut
  let a := ok 0
  let b := ok 1
  let v := d.chandler.version
  let d := if a then emit 0x0B08 .none (zeros 4 ++ le 4 v) d else d
  let d := if b then emit 0x0B08 .none (le 1 1 ++ zeros 3 ++ le 4 v) d else d
  if a ∧ b then startPair .synced 0 d else if a then startPair .single 0 d else if b then startPair .single 1 d else d

/-- The stop state that a reset leaves: both holds stand, ESTOP_N and flow start in their unsafe states (R261, R263, R448). A package warm reset ends faults 2 to
4 (Table 16.3). -/
def resetStop (kind : Nat) (d : Die) : Die :=
  let x := d.stop
  let ended := decide (kind = 2 ∧ x.fault ≠ 1)
  { d with stop := { x with
    coolant := false
    trip := true
    estop := true
    register := false
    trayHold := true
    thermalHold := true
    flow := false
    thermtrip := true
    stopped := false
    stood := 0
    resumeAt := none
    tripBelow := none
    fault := if ended then 0 else x.fault
    faultStop := if ended then none else x.faultStop } }

/-- The limit unit, the pool and the accounts at their defaults. -/
def resetLimits (d : Die) : Die :=
  let x := d.limits
  { d with limits := { caused := x.caused, suffered := x.suffered, lastCaused := x.lastCaused, lastSuffered := x.lastSuffered, share := x.share, shareEnd := x.shareEnd, intervalEnd := x.intervalEnd } }

/-- The drain stops with its pointers kept (Table 19.5), the span share, the priority and the interrupts return to default. -/
def resetRegs (d : Die) : Die :=
  let g := d.ledger
  { d with
    ledger := { g with share := 64, drain := { g.drain with running := false, stopping := false, partialDue := false, outstanding := [], next := g.drain.firstUndelivered } }
    tally := { d.tally with priority := 128 }
    regs := { d.regs with fintStatus := 0, fintEnable := 0 } }

/-- Package warm reset (kind 2) and fabric reset (kind 3), in the order of R430. -/
def dieReset (kind : Nat) (d : Die) : Die :=
  let d := settingsDefaulted kind (emitReset kind 0 (b1 (decide (kind = 3))) .none d)
  let d := abortWhere (fun _ _ => true) 5 0xFF d
  let d := match d.store.assay with
    | some a => match a.region with | some r => assayAbort r 0 d | none => { d with store := { d.store with assay := none } }
    | none => d
  let d := endDrains d
  let d := each (List.range 17) (resetQueue (if kind = 3 then 3 else 4)) d
  let d := abandonWrite d
  let d := each (presentIslands d) stopBellows d
  let d := allRetention (resetFabric d)
  let d := resetStop kind (resetLimits (resetRegs (resetRefs kind d)))
  let d := trayRecord 0x060C d
  let d := { d with startup := { d.startup with step := 6, ready := 0, kind := kind, descriptor := none, differences := 0, checkSince := none, begun := false, imageUntil := if kind = 2 then some (d.tally.now + 50000000) else none } }
  resetCores kind d

/-- PACKAGE_WARM_RESET (R430, R434): a cold power-on that has not passed Assay has the lower kind, and goes on. -/
def packageWarmReset (d : Die) : Die :=
  if !d.stop.aonGood ∨ (d.startup.kind = 1 ∧ d.startup.ready = 0 ∧ d.startup.step < 7) then d else dieReset 2 d

/-- PACKAGE_WARM_RESET (R430). -/
def execPackageWarmReset (s : State) : Host.Outcome State Fault Refusal := run true packageWarmReset s

/-- FABRIC_RESET_WRITE (R479): only 0x4A52_0001 acts, and only while no reset of kind 1, 2 or 3 is in progress. -/
def fabricResetWrite (value : Nat) (d : Die) : Die :=
  if value = 0x4A520001 ∧ d.startup.ready = 1 then dieReset 3 d else d

/-- FABRIC_RESET_WRITE (R479). -/
def execFabricResetWrite (value : Nat) (s : State) : Host.Outcome State Fault Refusal := run true (fabricResetWrite value) s

end Sys2Proof.Machine
end

