-- ==== Sys2Proof/Machine/Power.lean ====
section
/-! DEFINITION. Region and island resets (R431–R434), the return of elements at a reset (R371), and the low-power states (R437–R441). -/

namespace Sys2Proof.Machine
open Sys2Proof

/-! ## Elements that return at a reset (R371) -/

/-- The working retirement list holds an entry. -/
def listed (d : Die) (kind sub id : Nat) : Bool := d.store.work.retire.any (fun e => decide (e.kind = kind ∧ e.sub = sub ∧ e.id = id))

/-- The retired replicas of an island that the list no longer holds return; one joins the active set where its kind has none there (R371). -/
def returnReplicas (i : Nat) (d : Die) : Die :=
  each (List.range 6) (fun j d =>
    if replicaRetired d i j ∧ !listed d 1 j i then
      let mask := activeMask d i
      let joins := !bit mask j && !bit mask (if j % 2 = 0 then j + 1 else j - 1)
      modMargin i (fun m => { m with
        replicas := tset {} m.replicas j {}
        active := if joins then some (mask + 2 ^ j) else m.active
        blind := m.blind && !joins }) d
    else d) d

/-- The retired synthesizers of a region that the list no longer holds return. -/
def returnSynths (r : Nat) (d : Die) : Die :=
  each [0, 1] (fun x d => if (synth d r x).retired ∧ !listed d 3 x r then modSynth r x (fun y => { y with retired := false, failures := [], mustSearch := true }) d else d) d

/-- What a region reset returns of its region (R371). -/
def returnRegion (r : Nat) (d : Die) : Die :=
  let d := returnSynths r d
  let d := if (region d r).retired ∧ !listed d 4 0 r then modRegion r (fun x => { x with retired := false }) d else d
  each (regionIslands r) returnReplicas d

/-! ## Low-power states (R437–R439) -/

/-- POWER_STATE: 0 running, 1 Gate, 2 Hush, 3 Bank, 4 Dormant. -/
def powerRecord (l : Loc) (new old tolerance : Nat) (d : Die) : Die := emit 0x0B04 l (le 1 new ++ le 1 old ++ zeros 2 ++ le 4 tolerance) d

/-- A region is idle (R437). -/
def regionIdle (d : Die) (r : Nat) : Bool :=
  present d r && !inPlan d r && (pendingCommit d r).isNone && !inReset d r && !underAssay d r && !(region d r).retired && !(region d r).wake

/-- Deepest state whose exit latency is at or below the tolerance (Table 17.6). -/
def deepest (tolerance : Nat) : Nat := if 120000 ≤ tolerance then 3 else if 1500 ≤ tolerance then 2 else if 40 ≤ tolerance then 1 else 0

/-- The state in which a region belongs (R437). -/
def powerWanted (d : Die) (r : Nat) : Nat := if regionIdle d r then deepest (region d r).tolerance else 0

/-- Sets the state of a region, with its record. -/
def setPower (r n : Nat) (d : Die) : Die :=
  let x := region d r
  if x.power = n then d else powerRecord (.region r) n x.power x.tolerance (modRegion r (fun x => { x with power := n }) d)

/-- The synthesizers of a region are powered down, its islands are excused, and the rails follow (R437, R439). -/
def bankRegion (r : Nat) (d : Die) : Die :=
  let d := powerSynth r 1 (powerSynth r 0 (deselect r d))
  let d := each (regionIslands r) (fun i d => refreshIsland i (stopBellows i d)) d
  each (List.range 5) retarget d

/-- Entry into Bank, where a lender is eligible for the Drover lane; else the region waits in Hush (R438). -/
def enterBank (r : Nat) (d : Die) : Die :=
  match droverLend r 2 d with
  | some d => bankRegion r (setPower r 3 d)
  | none => each (regionIslands r) stopBellows (setPower r 2 d)

/-- An island's gate opens again where its ring runs (R437). -/
def reopen (i : Nat) (d : Die) : Die :=
  let up : Bool := match (island d i).ring.bellows with
    | .injected => true | .suspended => true | .released => true | .yoke => clockPresent d (islandRegion i) | .acquiring => false | .stopped => false
  if up ∧ islandMayRun d i ∧ (island d i).ring.pauseFrom.isNone then modRing i (fun x => { x with gate := true }) d else d

/-- A region leaves Bank for state n (Table 17.6): its rails rise, its synthesizers are acquired, its Bellows start with its clock, and its edges rejoin. -/
def leaveBank (r n : Nat) (d : Die) : Die :=
  let d := setPower r n (missedEnd r d)
  let d := each (regionIslands r) refreshIsland d
  let d := if d.stop.stopped then d else bankAcquire (each (List.range 5) retarget d)
  restore r (regrant r d)

/-- A region moves to state n (R437). -/
def movePower (r n : Nat) (d : Die) : Die :=
  let old := (region d r).power
  if old = n then d
  else if n = 3 then enterBank r d
  else if old = 3 then leaveBank r n d
  else
    let d := setPower r n d
    let d := if n = 2 then each (regionIslands r) stopBellows d
      else if n = 1 then each (regionIslands r) (fun i d => if old = 2 ∧ ringMayRun d i then startBellows i d else closeGate i d) d
      else each (regionIslands r) (fun i d => if old = 2 then (if ringMayRun d i then startBellows i d else d) else reopen i d) d
    if n = 0 then restore r (regrant r d) else d

/-! ## Dormant (R440, R441) -/

/-- Every present region is idle with a tolerance of at least 4 ms (R440). -/
def dormantWanted (d : Die) : Bool := (presentRegions d).all (fun r => regionIdle d r && decide (4000000 ≤ (region d r).tolerance))

/-- Lowest tolerance of the present regions. -/
def lowestTolerance (d : Die) : Nat := (presentRegions d).foldl (fun m r => min m (region d r).tolerance) (2 ^ 32 - 1)

/-- The state that the Chandler saves at the entry into Dormant (R440). -/
def saveDormant (d : Die) : Die :=
  { d with dormant := {
      in_ := true
      saved := (presentIslands d).map (fun i => let x := (island d i).ring; { island := i, count := x.count, phase := x.phase, bellows := x.bellows })
      savedRegions := (presentRegions d).map (fun r => let x := region d r; { region := r, injection := x.injection, bandTable := x.bandTable, bands := x.bands, cacheA := (synth d r 0).cache, cacheB := (synth d r 1).cache }) } }

/-- Entry into Dormant (R440): every region goes to Bank with its Drover lane stopped, the state is saved and the quadrant rails are turned off. -/
def enterDormant (d : Die) : Die :=
  let low := lowestTolerance d
  let d := each (presentRegions d) (fun r d => if (region d r).power = 3 then d else bankRegion r (setPower r 3 d)) d
  let d := each (presentRegions d) (fun r d => droverStop r d) d
  let d := powerRecord .none 4 3 low (saveDormant d)
  each (List.range 4) railOff d

/-- The saved count, phase offset and Bellows state of each island are restored (R441); what a region keeps in place has not changed. -/
def restoreDormant (d : Die) : Die :=
  let saved := d.dormant.saved
  let d := each saved (fun e d => modRing e.island (fun x => { x with count := e.count, phase := e.phase, bellows := e.bellows }) d) d
  { d with dormant := {} }

/-- The exit from Dormant begins (R441): the quadrant rails are turned on at the retention voltage. -/
def leaveDormant (d : Die) : Die := each (List.range 4) railOn { d with dormant := { d.dormant with leaving := true } }

/-- The exit ends once the rails are confirmed and every sensor has converted (R441): the state is restored, and the regions move to the states they now
belong in. -/
def endDormant (d : Die) : Die :=
  if d.dormant.leaving ∧ (List.range 4).all (fun k => (rail d k).confirmed) ∧ chandlerRuns d then
    let low := lowestTolerance d
    let d := powerRecord .none 3 4 low (restoreDormant d)
    each (presentRegions d) (fun r d => if powerWanted d r = 3 then d else leaveBank r (powerWanted d r) d) d
  else d

/-- REGION_IDLE_CHANGE (R437, R438, R440, R441). -/
def idleChange (r : Nat) (d : Die) : Die :=
  if !present d r then d
  else if d.dormant.in_ then (if dormantWanted d ∨ d.dormant.leaving ∨ !chandlerRuns d then d else leaveDormant d)
  else if dormantWanted d ∧ chandlerRuns d ∧ !d.stop.stopped then enterDormant d
  else movePower r (powerWanted d r) d

/-- REGION_IDLE_CHANGE (R437). -/
def execRegionIdleChange (region : Nat) (s : State) : Host.Outcome State Fault Refusal := run (isRegion region) (idleChange region) s

/-- WAKE_LINE (R465): the wake input of a region, which its idleness follows. -/
def execWakeLine (region : Nat) (level : Bool) (s : State) : Host.Outcome State Fault Refusal :=
  run (isRegion region) (modRegion region (fun x => { x with wake := level })) s

/-! ## Region reset (R431, R432) -/

/-- A compute island stops for a reset: its Bellows stops, and its step registers and alert run are cleared (R431). -/
def resetStops (i : Nat) (d : Die) : Die := modMargin i (fun m => { m with run := 0 }) (clearStep i (stopBellows i d))

/-- Acceptance of a region reset (R431, R432). What the retirement list no longer holds returns (R371). -/
def beginRegionReset (r : Nat) (withSynth : Bool) (d : Die) : Die :=
  let d := assayAbort r 0 (abortRegion r 5 0xFF (emitReset 4 0 1 (.region r) d))
  let returns := (region d r).retired
  let d := returnRegion r (setPower r 0 d)
  let d := each (regionIslands r) (fun i d => modRing i (fun x => { x with resetSince := none }) d) d
  let d := modRegion r (fun x => { x with reset := some { since := d.tally.now, synth := withSynth } }) d
  let d := if r < 72 then each (regionIslands r) (fun i d => refreshIsland i (resetStops i d)) d else d
  if withSynth ∨ returns then
    let d := match droverLend r 0 d with | some d => d | none => d
    acquireBoth r .recover (modRegion r (fun x => { x with test := none }) (deselect r d))
  else d

/-- An island whose region was in reset when its plan was started takes the start count as the reset ends (R349). -/
def joinPlan (i : Nat) (d : Die) : Die :=
  match (region d (islandRegion i)).plan with
  | some c => match context d c with
    | some x => if (island d i).ring.startDue then modRing i (fun y => { y with count := x.startCount, own3 := x.startCount, own2 := x.startCount, own1 := x.startCount, startDue := false }) d else d
    | none => d
  | none => d

/-- REGION_RESET_END (R431, R432): after 1 µs, and with SYNTH once a synthesizer is selected and the Drover lane is back, the Bellows start, the edges rejoin
and the Pattern target is granted again. -/
def regionResetEnd (r : Nat) (d : Die) : Die :=
  match (region d r).reset with
  | none => d
  | some t =>
    if d.tally.now < t.since + 1000 ∨ (t.synth ∧ (!t.relocked ∨ (region d r).drover ≠ .own)) then d
    else
      let d := modRegion r (fun x => { x with reset := none }) (missedEnd r d)
      let d := if r < 72 then each (regionIslands r) (fun i d =>
          let d := joinPlan i d
          refreshIsland i (if ringMayRun d i then startBellows i d else d)) d else d
      restore r (regrant r (emitReset 4 1 1 (.region r) d))

/-- REGION_RESET_END (R431). -/
def execRegionResetEnd (region : Nat) (s : State) : Host.Outcome State Fault Refusal := run (isRegion region) (regionResetEnd region) s

/-! ## Island reset (R433) -/

/-- Acceptance of an island reset (R433). -/
def beginIslandReset (i : Nat) (d : Die) : Die :=
  let d := emitReset 5 0 1 (.island i) d
  refreshIsland i (resetStops i (modRing i (fun x => { x with resetSince := some d.tally.now }) d))

/-- ISLAND_RESET_END (R433, R126): the Bellows, or the Yoke path, starts, and the edges rejoin. A Bellows that the retirement list no longer holds leaves Yoke
mode. -/
def islandResetEnd (i : Nat) (d : Die) : Die :=
  match (island d i).ring.resetSince with
  | none => d
  | some t =>
    if d.tally.now < t + 1000 then d
    else
      let yokeEnds := !bellowsRetired d i
      let d := missedEnd (islandRegion i) d
      let d := modRing i (fun x => { x with resetSince := none, bellows := if yokeEnds then .stopped else x.bellows }) d
      let d := joinPlan i d
      let d := refreshIsland i (if ringMayRun d i then startBellows i d else d)
      emitReset 5 1 1 (.island i) d

/-- ISLAND_RESET_END (R433). -/
def execIslandResetEnd (island : Nat) (s : State) : Host.Outcome State Fault Refusal := run (isIsland island) (islandResetEnd island) s

end Sys2Proof.Machine
end

