-- ==== Sys2Proof/Machine/CmdPlan.lean ====
section
/-! DEFINITION. The plan commands (R348–R352) and the release of a plan at its start Tally (R149, R349). -/

namespace Sys2Proof.Machine
open Sys2Proof

/-! ## Shared by the commands -/

/-- Queue and sequence number of the command in execution (R344). -/
def keyOf (q : Nat) (e : Exec) : Nat × Nat := (q, fld e.desc 4 4)

/-- Bits `mask` of payload byte `off` are reserved and must be zero (check 6). -/
def bitsCheck (p : Bytes) (off mask : Nat) : Bool × Nat × Nat := (fld p off 1 &&& mask != 0, stBadField, 16 + off)

/-- A field whose encoding is reserved (check 6). -/
def fieldCheck (bad : Bool) (off : Nat) : Bool × Nat × Nat := (bad, stBadField, 16 + off)

/-- A value outside its range (R342). -/
def rangeCheck (bad : Bool) (off : Nat) : Bool × Nat × Nat := (bad, stRange, 16 + off)

/-- BUSY without a region to name. -/
def busyCheck (bad : Bool) : Bool × Nat × Nat := (bad, stBusy, 0xFFFF)

/-- Lowest region that a tenant queue names and does not own (Table 11.1). -/
def regionScope (d : Die) (q r : Nat) : Bool × Nat × Nat := (decide (q ≠ 0 ∧ (region d r).owner ≠ q), stNoPrivilege, r)

/-- NOT_FOUND for a region outside the die (R341). -/
def regionFound (d : Die) (r : Nat) : Bool × Nat × Nat := (!(decide (r < 80) && present d r), stNotFound, r)

/-- NOT_FOUND for an island outside the die (R341). -/
def islandFound (d : Die) (i : Nat) : Bool × Nat × Nat := (!(decide (i < 1248) && present d (islandRegion i)), stNotFound, i)

/-- The context that a context byte names: 0xFF is the plan of the queue's owner (Table 14.3). -/
def namedCtx (d : Die) (q b : Nat) : Option Nat :=
  if b = 0xFF then (List.range 16).find? (fun c => match context d c with | some x => decide (x.owner = q) | none => false)
  else if b < 16 ∧ (context d b).isSome then some b else none

/-- NO_PRIVILEGE for the plan of another owner (Table 11.1). -/
def ctxScope (d : Die) (q b : Nat) : Bool × Nat × Nat :=
  (decide (q ≠ 0) && (match namedCtx d q b with | some c => (match context d c with | some x => decide (x.owner ≠ q) | none => false) | none => false), stNoPrivilege, b)

/-- The checks of a context byte at payload offset `off`: RANGE for 16–254, NOT_FOUND where it names no context in use (R341, R342). -/
def ctxChecks (d : Die) (q b off : Nat) : List (Bool × Nat × Nat) :=
  [rangeCheck (decide (16 ≤ b ∧ b ≠ 0xFF)) off, ((namedCtx d q b).isNone, stNotFound, if b < 16 then b else 0xFFFF)]

/-- The context named, for a command that has passed its checks. -/
def ctxOf (d : Die) (q b : Nat) : Nat × Context :=
  let c := (namedCtx d q b).getD 0
  (c, (context d c).getD {})

/-! ## plan.load (R198, R204, R348) -/

/-- Compute region of the island that link l attaches to (Table 1.1). -/
def linkRegion (l : Nat) : Nat := islandRegion (attachment (1200 + l)).1

/-- First mask entry that names a region outside the set, as its staging offset (R204). -/
def badMask (b : Bytes) (m : RegionSet) : Option Nat :=
  ((List.range 255).find? (fun j => fld b (10 * j) 10 &&& m != fld b (10 * j) 10)).map (fun j =>
    10 * j + (((List.range 80).find? (fun r => bit (fld b (10 * j) 10) r && !bit m r)).getD 0) / 8)

/-- A coupled on-die edge is legal: it exists, both ends lie in the set, and it is no border edge (R348). -/
def edgeLegal (d : Die) (m : RegionSet) (e : Nat) : Bool :=
  edgeExists d e && !borderEdge d e && bit m (islandRegion (edgeIslands e).1) && bit m (islandRegion (edgeIslands e).2)

/-- First coupled edge or link that is not legal, as its staging offset (R348). -/
def badEdge (d : Die) (b : Bytes) (m : RegionSet) : Option Nat :=
  match (List.range 2332).find? (fun e => bit (fld b 2550 292) e && !edgeLegal d m e) with
  | some e => some (2550 + e / 8)
  | none => ((List.range 32).find? (fun l => bit (fld b 2842 4) l && !bit m (linkRegion l))).map (fun l => 2842 + l / 8)

/-- Staged mask entries, those that name a region (R204). -/
def stagedMasks (b : Bytes) : Tbl Nat := (List.range 255).filterMap (fun j => if fld b (10 * j) 10 = 0 then none else some (j + 1, fld b (10 * j) 10))

/-- Staged gains, by 16r + k, those that are not the default of R218. -/
def stagedGains (b : Bytes) : Tbl Nat :=
  (List.range 1280).filterMap (fun j => let g := fld b (2848 + 2 * j) 2; if g = 0xFFFF ∨ g = 0x0400 then none else some (j, g))

/-- First free context. -/
def freeContext (d : Die) : Option Nat := (List.range 16).find? (fun c => (context d c).isNone)

/-- The context that a key has created. -/
def keyedContext (d : Die) (k : Nat × Nat) : Option Nat :=
  (List.range 16).find? (fun c => match context d c with | some x => decide (x.key = some k) | none => false)

/-- A context is created (R198, R348). -/
def createContext (q : Nat) (e : Exec) (c : Nat) (d : Die) : Die :=
  let p := e.desc.drop 16
  let x : Context := { tag := fld p 10 2, owner := q, regions := fld p 0 10, masks := stagedMasks e.staged, gains := stagedGains e.staged
                       edges := fld e.staged 2550 292 % 2 ^ 2332, links := fld e.staged 2842 4, key := some (keyOf q e) }
  each (setRegions x.regions) (fun r d => modRegion r (fun y => { y with plan := some c }) d) (setContext c (some x) d)

/-- plan.load. -/
def planLoadBody (q : Nat) (e : Exec) (p : Bytes) (d : Die) : Die × Reply :=
  let m := fld p 0 10
  match (if e.reexecuted then keyedContext d (keyOf q e) else none) with
  | some c => (d, .done c none)
  | none =>
    checked [fieldCheck (decide (fld p 10 2 = 0)) 10, zeroCheck p 14 16,
      (decide (16 ≤ fld e.staged 2841 1), stBadField, 0x8000 + 2841),
      (decide (fld e.staged 2846 1 ≠ 0), stBadField, 0x8000 + 2846), (decide (fld e.staged 2847 1 ≠ 0), stBadField, 0x8000 + 2847),
      (!ownedBy d q m, stNoPrivilege, (firstRegion m (fun r => decide ((region d r).owner ≠ q))).getD 0xFFFF),
      readyCheck d, emptyCheck m 0, rangeCheck (decide (fld p 12 2 ≠ 5408)) 12, absentCheck d m,
      ((badMask e.staged m).isSome, stRange, 0x8000 + (badMask e.staged m).getD 0),
      ((badEdge d e.staged m).isSome, stRange, 0x8000 + (badEdge d e.staged m).getD 0),
      regionCheck m (fun r => (region d r).retired || inPlan d r) stBusy,
      busyCheck ((namedCtx d q 0xFF).isSome), busyCheck (freeContext d).isNone]
      (fun d => let c := (freeContext d).getD 0; (createContext q e c d, .done c none)) d

/-- PLAN_LOAD (R348). -/
def execPlanLoad (queue : Nat) (s : State) : Host.Outcome State Fault Refusal := run (isQueue queue) (command queue 0x0101 (planLoadBody queue)) s

/-! ## plan.start and the release (R149, R349) -/

/-- A Tally argument is a multiple of 10 ns that lies `least` to 10 s after acceptance. -/
def legalTally (d : Die) (t least : Nat) : Bool := decide (t % 10 = 0 ∧ d.tally.now + least ≤ t ∧ t ≤ d.tally.now + 10000000000)

/-- An island of the plan stops and takes the start count, or takes it as its reset ends (R349). -/
def takeCount (count i : Nat) (d : Die) : Die :=
  let held := inReset d (islandRegion i) || (island d i).ring.resetSince.isSome
  modRing i (fun x => if held then { x with startDue := true } else { x with count := count, own3 := count, own2 := count, own1 := count }) (closeGate i d)

/-- Acceptance of plan.start (R349): the islands stop and take the count, the engine begins to read, and PLAN_START is written. -/
def startPlan (c count tally : Nat) (d : Die) : Die :=
  match context d c with
  | none => d
  | some x =>
    let d := setContext c (some { x with state := .started, startCount := count, startTally := tally, last := count }) d
    let d := each ((setRegions x.regions).flatMap regionIslands) (takeCount count) d
    emit 0x0501 (.other c) (le 2 x.tag ++ zeros 2 ++ le 8 tally ++ le 8 count) d

/-- plan.start. -/
def planStartBody (q : Nat) (e : Exec) (p : Bytes) (d : Die) : Die × Reply :=
  let b := fld p 0 1
  let cx := ctxOf d q b
  let x := cx.2
  let loaded : Bool := match x.state with | .loaded => true | _ => false
  let begun := e.reexecuted && !loaded && decide (x.startTally = fld p 16 8 ∧ x.startCount = fld p 8 8)
  checked ([zeroCheck p 1 8, zeroCheck p 15 16, ctxScope d q b, readyCheck d] ++ ctxChecks d q b 0 ++
    [busyCheck (!begun && !loaded), (!begun && (firstRegion x.regions (fun r => underAssay d r || inBank d r)).isSome, stBusy, (firstRegion x.regions (fun r => underAssay d r || inBank d r)).getD 0xFFFF),
     busyCheck (!begun && d.stop.stopped), (!begun && !legalTally d (fld p 16 8) 200000, stStale, 0xFFFF)])
    (fun d => (if begun then d else startPlan cx.1 (fld p 8 8) (fld p 16 8) d, .done 0 none)) d

/-- PLAN_START (R349). -/
def execPlanStart (queue : Nat) (s : State) : Host.Outcome State Fault Refusal := run (isQueue queue) (command queue 0x0102 (planStartBody queue)) s

/-- One on-die edge of the coupling map is coupled at the release (R151, R153). -/
def releaseEdge (e : Nat) (d : Die) : Die :=
  match refusal d (fun _ => true) e with
  | some reason => coupleRefused (edgeIslands e).1 e reason 0 d
  | none => coupleEnd 0 (2 * e + 1) (coupleEnd 0 (2 * e) d)

/-- PLAN_RELEASE (R149, R349): at the start Tally the islands are released together, and every coupled edge of the map enters PENDING. -/
def planRelease (c : Nat) (d : Die) : Die :=
  match context d c with
  | none => d
  | some x =>
    let started : Bool := match x.state with | .loaded => false | _ => true
    if !started ∨ x.released ∨ d.tally.now < x.startTally then d
    else
      let d := setContext c (some { x with released := true }) d
      let d := each ((List.range 2332).filter (bit x.edges)) releaseEdge d
      let d := each ((List.range 32).filter (bit x.links)) (fun l d => coupleLink l x.tag d) d
      retirePass c (each ((setRegions x.regions).flatMap regionIslands) reopen d)

/-- PLAN_RELEASE (R149). -/
def execPlanRelease (context : Nat) (s : State) : Host.Outcome State Fault Refusal := run (isContext context) (planRelease context) s

/-! ## plan.arm and plan.read (R199, R212, R350) -/

/-- plan.arm. -/
def planArmBody (q : Nat) (_e : Exec) (p : Bytes) (d : Die) : Die × Reply :=
  let b := fld p 0 1
  let resume := bit (fld p 1 1) 0
  let n := fld p 4 4
  let base := fld p 8 8
  let cx := ctxOf d q b
  let x := cx.2
  let reason : Nat := match x.state with | .fault r => r | _ => 0
  let ended : Bool := match x.state with | .ended => true | _ => false
  checked ([bitsCheck p 1 0xFE, zeroCheck p 2 4, fieldCheck (decide (2 ^ 25 ≤ n)) 7, fieldCheck (!resume && decide (fld p 16 4 ≠ 0)) 16, zeroCheck p 20 24,
      ctxScope d q b, readyCheck d] ++ ctxChecks d q b 0 ++
    [rangeCheck (decide (n = 0 ∨ 2 ^ 24 < n)) 4, rangeCheck (decide (base % 16 ≠ 0)) 8, rangeCheck (resume && decide (n ≤ fld p 16 4)) 16,
     busyCheck (ended || decide (reason = 1 ∨ reason = 3) || (resume && decide (reason ≠ 2)) || (!resume && decide (reason = 2 ∨ 4 ≤ x.segments.length)))])
    (fun d =>
      let y : Context := if resume then { x with state := .started, segments := { base := base, records := n, read := fld p 16 4 } :: x.segments.tail }
        else { x with segments := x.segments ++ [{ base := base, records := n }], open_ := false }
      (setContext cx.1 (some y) d, .done (4 - y.segments.length) none)) d

/-- PLAN_ARM (R350). -/
def execPlanArm (queue : Nat) (s : State) : Host.Outcome State Fault Refusal := run (isQueue queue) (command queue 0x0103 (planArmBody queue)) s

/-- State code of plan.read (R350). -/
def ctxCode : CtxState → Nat
  | .loaded => 0 | .started => 1 | .ended => 2 | .fault _ => 3 | .starved => 4

/-- The context word (R350). -/
def contextWord (c : Nat) (x : Context) : Nat :=
  ctxCode x.state + 16 * (4 - x.segments.length) + 256 * (match x.state with | .fault r => r | _ => 0) + 4096 * c + 65536 * x.tag

/-- plan.read. -/
def planReadBody (q : Nat) (_e : Exec) (p : Bytes) (d : Die) : Die × Reply :=
  let b := fld p 0 1
  checked ([zeroCheck p 1 4, ctxScope d q b] ++ ctxChecks d q b 0) (fun d => let cx := ctxOf d q b; (d, .done (contextWord cx.1 cx.2) none)) d

/-- PLAN_READ (R350). -/
def execPlanRead (queue : Nat) (s : State) : Host.Outcome State Fault Refusal := run (isQueue queue) (command queue 0x0106 (planReadBody queue)) s

/-! ## plan.unload (R351) -/

/-- Ends of the on-die edges between islands of a set of regions. -/
def innerEnds (m : RegionSet) : List Nat :=
  ((setRegions m).flatMap regionIslands).flatMap (fun i => (islandEnds i).filter (fun k => bit m (islandRegion (endIsland (farEnd k)))))

/-- The context is freed: its Pattern stops, its targets are cleared, its edges are uncoupled, and the fence of owner 0 over it ends (R281, R351). -/
def unloadPlan (c : Nat) (d : Die) : Die :=
  match context d c with
  | none => d
  | some x =>
    let rs := setRegions x.regions
    let d := emit 0x0502 (.other c) (le 2 x.tag ++ zeros 2 ++ le 4 (match x.step with | some s => s.1 | none => 0)) d
    let d := { d with commitReqs := d.commitReqs.filter (fun r => !(decide (r.source = .pattern) && decide (r.context = c) && decide ((r.members ||| r.deferred) &&& x.regions ≠ 0))) }
    let d := each rs clearTarget d
    let d := each (innerEnds x.regions) (uncoupleEnd 1) d
    let d := each ((List.range 32).filter (fun l => bit x.regions (linkRegion l))) uncoupleLink d
    let d := each rs (fun r d => modRegion r (fun y => { y with plan := none, fenceDue := if y.owner = 0 ∧ y.fenced then some (false, 1) else y.fenceDue }) d) d
    let d := each (rs.flatMap regionIslands) (fun i d => reopen i (modRing i (fun y => { y with startDue := false }) d)) d
    setContext c none d

/-- plan.unload. -/
def planUnloadBody (q : Nat) (_e : Exec) (p : Bytes) (d : Die) : Die × Reply :=
  let b := fld p 0 1
  checked ([zeroCheck p 1 4, ctxScope d q b] ++ ctxChecks d q b 0) (fun d => (unloadPlan (ctxOf d q b).1 d, .done 0 none)) d

/-- PLAN_UNLOAD (R351). -/
def execPlanUnload (queue : Nat) (s : State) : Host.Outcome State Fault Refusal := run (isQueue queue) (command queue 0x0104 (planUnloadBody queue)) s

/-! ## plan.couple (R151–R153, R177, R352) -/

/-- The edges of a plan.couple, with the payload offset of each. -/
def coupleEdges (p : Bytes) : List (Nat × Nat) := ((List.range 8).map (fun j => (fld p (4 + 2 * j) 2, 4 + 2 * j))).filter (fun e => e.1 ≠ 0xFFFF)

/-- An edge field has a value of Table 14.3. -/
def edgeField (v : Nat) : Bool := decide (v < 2332 ∨ (0x8000 ≤ v ∧ v < 0x8020))

/-- The edge lies inside the plan (R352). -/
def edgeInside (x : Context) (v : Nat) : Bool :=
  if v < 2332 then bit x.regions (islandRegion (edgeIslands v).1) && bit x.regions (islandRegion (edgeIslands v).2) else bit x.regions (linkRegion (v - 0x8000))

/-- An end notes the count at which a host change was accepted (R225). -/
def noteHost (k : Nat) (d : Die) : Die := modEnd k (fun x => { x with hostAt := some (island d (endIsland k)).ring.count }) d

/-- One edge is changed by the host; with it, whether it changed. -/
def hostEdge (on : Bool) (tag v : Nat) (d : Die) : Die × Bool :=
  if v < 2332 then
    let e := v
    if on then
      match refusal d (fun _ => true) e with
      | some reason => (coupleRefused (edgeIslands e).1 e reason 1 d, false)
      | none =>
        let changes := [2 * e, 2 * e + 1].any (fun k => !(edgeEnd d k).coupled || decide ((edgeEnd d k).state = .released))
        (noteHost (2 * e + 1) (noteHost (2 * e) (coupleEnd 1 (2 * e + 1) (coupleEnd 1 (2 * e) d))), changes)
    else
      let changes := [2 * e, 2 * e + 1].any (fun k => (edgeEnd d k).coupled)
      (noteHost (2 * e + 1) (noteHost (2 * e) (uncoupleEnd 1 (2 * e + 1) (uncoupleEnd 1 (2 * e) d))), changes)
  else
    let l := v - 0x8000
    if on then (coupleLink l tag d, !(link d l).coupled || decide ((link d l).state = .released))
    else (uncoupleLink l d, (link d l).coupled)

/-- Every edge in turn, with the number changed. -/
def hostEdges (on : Bool) (tag : Nat) : List Nat → Die → Die × Nat
  | [], d => (d, 0)
  | v :: t, d =>
    let a := hostEdge on tag v d
    let b := hostEdges on tag t a.1
    (b.1, b.2 + b1 a.2)

/-- plan.couple. -/
def planCoupleBody (q : Nat) (_e : Exec) (p : Bytes) (d : Die) : Die × Reply :=
  let b := fld p 0 1
  let l := coupleEdges p
  let cx := ctxOf d q b
  let outside := l.find? (fun v => !edgeInside cx.2 v.1)
  let missingEdge := l.find? (fun v => decide (v.1 < 2332) && !edgeExists d v.1)
  checked ([fieldCheck (decide (1 < fld p 1 1)) 1, zeroCheck p 2 4, fieldCheck (l.any (fun v => !edgeField v.1)) (((l.find? (fun v => !edgeField v.1)).getD (0, 0)).2),
      fieldCheck l.isEmpty 4, ctxScope d q b, readyCheck d] ++ ctxChecks d q b 0 ++
    [rangeCheck outside.isSome (outside.getD (0, 0)).2, (missingEdge.isSome, stNotFound, (missingEdge.getD (0, 0)).1)])
    (fun d => let r := hostEdges (decide (fld p 1 1 = 1)) cx.2.tag (l.map (·.1)) d; (r.1, .done r.2 none)) d

/-- PLAN_COUPLE (R352). -/
def execPlanCouple (queue : Nat) (s : State) : Host.Outcome State Fault Refusal := run (isQueue queue) (command queue 0x0105 (planCoupleBody queue)) s

end Sys2Proof.Machine
end

