-- ==== Sys2Proof/Machine/Sideband.lean ====
section
/-! DEFINITION. The sideband lanes (R460–R464): receivers, and the choice of the next frame. -/

namespace Sys2Proof.Machine
open Sys2Proof

/-- SIDEBAND_RECEIVER_UP (R461). -/
def receiverUp (l : Nat) (d : Die) : Die := modLink l (fun x => { x with rxUp := true }) d

def execSidebandReceiverUp (link : Nat) (s : State) : Host.Outcome State Fault Refusal := run (isLink link) (receiverUp link) s

/-- SIDEBAND_RECEIVER_DOWN (R461): the link is absent for Tally and Hoop, so the die may take another parent (R53). -/
def receiverDown (l : Nat) (d : Die) : Die := chooseParent (modLink l (fun x => { x with rxUp := false }) d)

def execSidebandReceiverDown (link : Nat) (s : State) : Host.Outcome State Fault Refusal := run (isLink link) (receiverDown link) s

/-- The oldest waiting Tally or POOL frame, REPLY before SYNC before POOL, with the link that no longer holds it (R462). -/
def otherFrame (x : Link) : Option (Frame × Link) :=
  match x.waitReply, x.waitSync, x.waitPool with
  | f :: t, _, _ => some (f, { x with waitReply := t })
  | [], f :: t, _ => some (f, { x with waitSync := t })
  | [], [], f :: t => some (f, { x with waitPool := t })
  | [], [], [] => none

/-- The waiting Hoop frame, with the link that no longer holds it. -/
def hoopFrame (x : Link) : Option (Frame × Link) := x.waitHoop.map (fun f => (f, { x with waitHoop := none }))

/-- What the engine sends next (R462). -/
def nextFrame (x : Link) : Option (Frame × Link) :=
  if x.lastHoop then (otherFrame x).orElse (fun _ => hoopFrame x) else (hoopFrame x).orElse (fun _ => otherFrame x)

/-- A frame is a Hoop frame. -/
def isHoop : Frame → Bool
  | .hoop _ _ _ _ => true
  | _ => false

/-- A frame is a SYNC. -/
def isSync : Frame → Bool
  | .sync _ => true
  | _ => false

/-- R462–R464: at a frame boundary the next frame goes onto the lane, stamped t1 or t3 with the Tally of the boundary; without a root or a
die ID, or with none waiting, idle blocks go out. -/
def frameBoundary (l : Nat) (d : Die) : Die :=
  if d.tally.running && d.tally.dieId.isSome then
    match nextFrame (link d l) with
    | some (f, x) => modLink l (fun _ => { x with onLane := some (frameBytes d f), lastHoop := isHoop f, syncT1 := if isSync f then some d.tally.now else x.syncT1 }) d
    | none => modLink l (fun x => { x with onLane := none }) d
  else modLink l (fun x => { x with onLane := none }) d

/-- SIDEBAND_FRAME_BOUNDARY (R54, R462, R463). -/
def execSidebandFrameBoundary (link : Nat) (s : State) : Host.Outcome State Fault Refusal := run (isLink link) (frameBoundary link) s

end Sys2Proof.Machine
end

