-- ==== Sys2Proof/Machine/Hoop.lean ====
section
/-! DEFINITION. The Hoop's edges and links (R152–R177, R435, R436): activation, frames, staleness, link loss and retraining. -/

namespace Sys2Proof.Machine
open Sys2Proof

/-- The signed difference of two counts of which the second is known to 48 bits (R39, R150). -/
def countDiff (own remote : Nat) : Int := sgn 6 (((own : Int) - remote) % (2 ^ 48 : Nat)).toNat

/-- R154: a PENDING end takes its lead from the full counts and becomes ACTIVE, unless its neighbour is excused. -/
def edgeActivation (k : Nat) (d : Die) : Die :=
  let x := edgeEnd d k
  if edgeExists d (k / 2) && x.coupled && decide (x.state = .pending) && !islandExcused d (endIsland (farEnd k)) then
    let nb := (island d (endIsland (farEnd k))).ring.count
    modEnd k (fun x => { x with state := .active, lead := sat16 (((island d (endIsland k)).ring.own3 : Int) - nb), prev := nb % 256, neighbour := nb % 2 ^ 48, bad := 0, stale := none }) d
  else d

/-- EDGE_ACTIVATION (R154). -/
def execEdgeActivation (edge side : Nat) (s : State) : Host.Outcome State Fault Refusal :=
  run (isEdgeEnd edge side) (edgeActivation (2 * edge + side)) s

/-- The flags of a Hoop frame (Table 6.3). -/
def hoopFlagsOf (d : Die) (l : Nat) : Nat :=
  let x := link d l
  let i := island d (1200 + l)
  b1 (x.coupled && decide (x.state ≠ .released)) + 2 * b1 (islandExcused d (1200 + l)) + 4 * b1 i.holds.lastHeld + 8 * i.ring.cause

/-- The lead of a link: own count at the last formation less the count of the last valid frame (R158). -/
def linkLead (x : Link) : Int := sat16 (countDiff x.hoopCount x.remote)

/-- R157, R462: a frame is formed at the 16-cycle cadence, at a change of flags, or 1,000 ns after the last; it replaces one that waits,
whose held_for_you it takes over. The own sample of the lead is latched. -/
def hoopForm (l : Nat) (d : Die) : Die :=
  let x := link d l
  let c := (island d (1200 + l)).ring.count
  let fl := hoopFlagsOf d l
  if present d (islandRegion (1200 + l)) ∧ (x.hoopCount / 16 ≠ c / 16 ∨ fl ≠ x.hoopFlags ∨ x.hoopAt + 1000 ≤ d.tally.now) then
    let held := match x.waitHoop with | some (.hoop _ _ _ h) => h | _ => 0
    let x := { x with waitHoop := some (.hoop fl x.tag (c % 2 ^ 48) (sat 16 (x.heldForYou + held))), hoopAt := d.tally.now, hoopCount := c, hoopFlags := fl, heldForYou := 0 }
    modLink l (fun _ => { x with lead := if x.state = .active then linkLead x else 0 }) d
  else d

/-- HOOP_FRAME_FORM (R157, R462). -/
def execHoopFrameForm (link : Nat) (s : State) : Host.Outcome State Fault Refusal := run (isLink link) (hoopForm link) s

/-- HOOP_STALE_END at a link: the edge named is the link number (log 13). -/
def linkStaleEnd (l : Nat) (d : Die) : Die :=
  match (link d l).stale with
  | some t => emit 0x0307 (.island (1200 + l)) (le 2 l ++ zeros 2 ++ le 4 (d.tally.now - t)) (modLink l (fun x => { x with stale := none }) d)
  | none => d

/-- R152: the partner does not hold the coupling under this end's tag. -/
def tagMismatch (x : Link) : Bool := x.coupled && decide (x.state ≠ .released) && !(x.remoteCoupled && decide (x.tag ≠ 0 ∧ x.remoteTag = x.tag))

/-- State of a link end after a valid frame: excused with its neighbour, and from PENDING to ACTIVE once the tags match (R152, R154). -/
def linkStateAfter (x : Link) : EndState :=
  if !x.coupled then .uncoupled
  else match x.state with
    | .released => .released
    | .uncoupled => .pending
    | .excused => if x.remoteExcused then .excused else .pending
    | s => if x.remoteExcused then .excused else if tagMismatch x then s else .active

/-- R152, R157, R158, R172, R175: a valid Hoop frame gives the partner's count, tag, flags and cause; HOOP_TAG_MISMATCH is written once
for each onset. -/
def hoopReceived (l : Nat) (f : Bytes) (d : Die) : Die :=
  if hoopFrameOk f then
    let d := linkStaleEnd l (validFrame l d)
    let fl := fld f 1 1
    let x := { link d l with remote := fld f 4 6, remoteTag := fld f 2 2, remoteCoupled := bit fl 0, remoteExcused := bit fl 1, remoteCause := bits fl 5 3, hoopHeard := some d.tally.now }
    let x := { x with state := linkStateAfter x }
    let x := { x with lead := if x.state = .active then linkLead x else 0 }
    let onset := tagMismatch x && !x.mismatch
    let d := modLink l (fun _ => { x with mismatch := tagMismatch x }) d
    let d := { d with limits := { d.limits with caused := d.limits.caused + fld f 10 2 } }
    if onset then emit 0x0303 (.link l) (le 2 x.tag ++ le 2 x.remoteTag ++ le 1 (b1 x.remoteCoupled)) d else d
  else discardFrame l d

/-- HOOP_FRAME_RECEIVED (R152, R158). -/
def execHoopFrameReceived (link : Nat) (frame : Bytes) (s : State) : Host.Outcome State Fault Refusal :=
  run (isLink link && hasLength 16 frame) (hoopReceived link frame) s

/-- R175: an ACTIVE link edge on a link that is up is stale after 2 µs of Tally without a valid frame. -/
def hoopTimeout (l : Nat) (d : Die) : Die :=
  let x := link d l
  let quiet : Bool := match x.hoopHeard with | some t => decide (t + 2000 ≤ d.tally.now) | none => true
  if x.up && decide (x.state = .active) && x.stale.isNone && quiet then
    emit 0x0306 (.island (1200 + l)) (le 2 l ++ le 6 x.remote) (modLink l (fun x => { x with stale := some d.tally.now }) d)
  else d

/-- HOOP_LINK_FRAME_TIMEOUT (R175). -/
def execHoopLinkFrameTimeout (link : Nat) (s : State) : Host.Outcome State Fault Refusal := run (isLink link) (hoopTimeout link) s

/-- HOOP_RELEASE with the stale flag at island i, and the flag of the step's certificate (R175). -/
def staleRecord (i e : Nat) (d : Die) : Die :=
  certMark (islandRegion i) (fun x => { x with stale := true }) (emit 0x0308 (.island i) (le 2 e ++ le 1 1) d)

/-- R175: 100 µs after its onset a stale edge moves to RELEASED with the stale flag. -/
def staleRelease (h : HoopEnd) (d : Die) : Die :=
  match h with
  | .die e side =>
    match (edgeEnd d (2 * e + side)).stale with
    | some t => if t + 100000 ≤ d.tally.now then
        staleRecord (endIsland (2 * e + side)) e (modEnd (2 * e + side) (fun x => { x with state := .released, lead := 0, stale := none }) d)
      else d
    | none => d
  | .link l =>
    match (link d l).stale with
    | some t => if t + 100000 ≤ d.tally.now then
        staleRecord (1200 + l) l (modLink l (fun x => { x with state := .released, lead := 0, stale := none }) d)
      else d
    | none => d

/-- HOOP_STALE_RELEASE (R175). -/
def execHoopStaleRelease (hoopEnd : HoopEnd) (s : State) : Host.Outcome State Fault Refusal := run (isHoopEnd hoopEnd) (staleRelease hoopEnd) s

/-- R172: at the end of each 10 ms the counts and the share, truncated to Q0.16, are latched. -/
def criticalPathEnd (d : Die) : Die :=
  let g := d.limits
  let e := d.tally.now / 10000000 * 10000000
  if g.shareEnd < e then
    let t := g.caused + g.suffered
    { d with limits := { g with lastCaused := g.caused, lastSuffered := g.suffered, share := if t = 0 then 0 else min 0xFFFF (g.caused * 65536 / t), shareEnd := e, caused := 0, suffered := 0 } }
  else d

/-- CRITICAL_PATH_INTERVAL_END (R172). -/
def execCriticalPathIntervalEnd (s : State) : Host.Outcome State Fault Refusal := run true criticalPathEnd s

/-- R174: the link edge moves to RELEASED, its lanes are emptied (R168), and HOOP_LINK_DOWN is written: causes 0 link down, 1 retraining. -/
def releaseLink (l cause : Nat) (d : Die) : Die :=
  let d := modLink l (fun x => { x with up := false, state := if x.coupled then .released else .uncoupled, lead := 0, stale := none, mismatch := false }) d
  emit 0x0305 (.link l) (le 1 cause) (clearLinkLanes l d)

/-- R273: a loan ends at a link that goes down: the borrower removes it at once, the lender restores its cap after 30 ms. Causes 0 link
down, 1 silent 20 ms. -/
def poolLost (l cause : Nat) (d : Die) : Die :=
  let v := (link d l).pool.loan
  if v < 0 then emit 0x0704 (.link l) (leI 2 v ++ le 1 cause) (setLoan l 0 d)
  else if 0 < v ∧ cause = 0 then modLink l (fun x => { x with pool := { x.pool with restoreAt := some (d.tally.now + 30000000) } }) d
  else d

/-- R53, R168, R174, R273: the link layer reports a link down. -/
def linkDownOp (l : Nat) (d : Die) : Die :=
  let d := poolLost l 0 (releaseLink l 0 (modLink l (fun x => { x with retrain := none }) d))
  chooseParent d

/-- LINK_DOWN (R174). -/
def execLinkDown (link : Nat) (s : State) : Host.Outcome State Fault Refusal := run (isLink link) (linkDownOp link) s

/-- R273: a link that returns starts its loan at zero; the coupling stays RELEASED until it is re-issued (R177). A lender's cap whose
restore is still due is restored with it. -/
def linkUpOp (l : Nat) (d : Die) : Die :=
  if (link d l).up then d
  else
    let v := (link d l).pool.loan
    let d := if v = 0 then d else emit 0x0704 (.link l) (leI 2 v ++ zeros 1) d
    setLoan l 0 (modLink l (fun x => { x with up := true, pool := { x.pool with restoreAt := none, idle := 0, mismatches := 0, outstanding := false } }) d)

/-- LINK_UP (R273). -/
def execLinkUp (link : Nat) (s : State) : Host.Outcome State Fault Refusal := run (isLink link) (linkUpOp link) s

/-- RETRAIN: phase, and the duration at its end, µs. -/
def retrainRecord (l : Loc) (phase us : Nat) (d : Die) : Die := emit 0x0B09 l (le 1 phase ++ zeros 3 ++ le 4 us) d

/-- R435: the edge of a link that begins retraining is released; the sideband, Tally and loans go on. -/
def retrainBegin (l : Nat) (d : Die) : Die :=
  if (link d l).retrain.isSome then d
  else retrainRecord (.link l) 0 0 (releaseLink l 1 (modLink l (fun x => { x with retrain := some d.tally.now }) d))

/-- LINK_RETRAIN_BEGIN (R435). -/
def execLinkRetrainBegin (link : Nat) (s : State) : Host.Outcome State Fault Refusal := run (isLink link) (retrainBegin link) s

/-- R435: retraining ends; the edge stays RELEASED. -/
def retrainEnd (l : Nat) (d : Die) : Die :=
  match (link d l).retrain with
  | some t => retrainRecord (.link l) 1 ((d.tally.now - t) / 1000) (modLink l (fun x => { x with up := true, retrain := none }) d)
  | none => d

/-- LINK_RETRAIN_END (R435). -/
def execLinkRetrainEnd (link : Nat) (s : State) : Host.Outcome State Fault Refusal := run (isLink link) (retrainEnd link) s

/-- R436: an HBM controller island keeps its clock, count and coupling while its interface retrains. -/
def hbmBegin (i : Nat) (d : Die) : Die :=
  if (tget none d.hbm i).isSome then d
  else retrainRecord (.island i) 0 0 { d with hbm := tset none d.hbm i (some d.tally.now) }

/-- HBM_RETRAIN_BEGIN (R436). -/
def execHbmRetrainBegin (island : Nat) (s : State) : Host.Outcome State Fault Refusal :=
  run (decide (1152 ≤ island ∧ island < 1200)) (hbmBegin island) s

/-- R436: the end of an HBM retraining, with its duration. -/
def hbmEnd (i : Nat) (d : Die) : Die :=
  match tget none d.hbm i with
  | some t => retrainRecord (.island i) 1 ((d.tally.now - t) / 1000) { d with hbm := tset none d.hbm i none }
  | none => d

/-- HBM_RETRAIN_END (R436). -/
def execHbmRetrainEnd (island : Nat) (s : State) : Host.Outcome State Fault Refusal :=
  run (decide (1152 ≤ island ∧ island < 1200)) (hbmEnd island) s

end Sys2Proof.Machine
end

