-- ==== Sys2Proof/Machine/Pool.lean ====
section
/-! DEFINITION. The job power pool (R268–R274): STATUS rounds, grants, returns, recalls, silent links and mismatched loans. -/

namespace Sys2Proof.Machine
open Sys2Proof

/-- Changes the pool side of a link. -/
def modPool (l : Nat) (f : PoolLink → PoolLink) (d : Die) : Die := modLink l (fun x => { x with pool := f x.pool }) d

/-- The die pools over a link: its partner has sent POOL frames of the same pool, and the sideband is up (R268). -/
def poolLink (d : Die) (l : Nat) : Bool := decide (d.limits.pool ≠ 0) && (link d l).pool.member && (link d l).rxUp

/-- Number of the die's pool links (R270). -/
def poolLinks (d : Die) : Nat := ((List.range 32).filter (poolLink d)).length

/-- 20 % of the base cap, 0.1 W (R268). -/
def fifth (d : Die) : Nat := d.limits.base * 2

/-- The time a region accrued under PKG_CAP, or under POOL_LENT, in the round that ends. -/
def roundTime (d : Die) (r j : Nat) : Nat :=
  (throttleCounts d r).getD (if j = 0 then 0 else 10) 0 - (region d r).throttle.atRound.getD j 0

/-- A region accrued at least 1 ms of PKG_CAP time in the round; `lent` counts POOL_LENT time as well (R270, R272). -/
def capped (d : Die) (lent : Bool) : Bool :=
  (presentRegions d).any (fun r => decide (1000000 ≤ roundTime d r 0) || (lent && decide (1000000 ≤ roundTime d r 1)))

/-- Mean calibrated package power of the round, mW. -/
def roundMean (d : Die) : Nat := d.limits.roundEnergy / (d.tally.now - d.limits.roundStart) / 1000

/-- What the die asks of each partner (R270). -/
def wantNow (d : Die) : Nat :=
  if 0x8000 ≤ d.limits.share ∧ capped d false ∧ !d.stop.stopped then min 100 ((fifth d - borrowedTotal d) / poolLinks d) else 0

/-- What the die offers each partner (R265, R270). -/
def offerNow (d : Die) : Nat :=
  let cs := sustainedMw d
  let mean := roundMean d
  if d.limits.share ≤ 0x4000 ∧ borrowedTotal d = 0 ∧ mean + 50000 ≤ cs ∧ !d.stop.stopped then
    min 100 (min (fifth d - lentTotal d) ((cs - 50000 - mean) / 100) / poolLinks d)
  else 0

/-- One link at a STATUS (R270, R272): want and offer are set, a loan idle for three rounds is returned, a loan is recalled, and the frame waits for its lane. -/
def statusLink (want offer : Nat) (recalling : Bool) (l : Nat) (d : Die) : Die :=
  let on := poolLink d l
  let d := modPool l (fun p => { p with
    want := if on then want else 0
    offer := if on then offer else 0
    idle := if p.loan < 0 ∧ (want = 0 ∨ !on) then p.idle + 1 else 0 }) d
  let d := if 3 ≤ (link d l).pool.idle then modPool l (fun p => { p with idle := 0 }) (returnLoan l 0xFFFF d) else d
  let lent := (link d l).pool.loan.toNat
  let d := if recalling ∧ 0 < lent then poolRecord 0x0703 l lent 0 (sendPool l 3 0xFFFF lent d) else d
  sendPool l 0 0xFFFF 0 d

/-- A new round begins (R270). -/
def beginRound (d : Die) : Die :=
  let d := each (presentRegions d) (fun r d => modRegion r (fun x => { x with throttle := { x.throttle with
    atRound := [(throttleCounts d r).getD 0 0, (throttleCounts d r).getD 10 0] } }) d) d
  { d with limits := { d.limits with roundEnergy := 0, roundStart := d.tally.now } }

/-- POOL_STATUS_SEND (R270, R272, R273): every 10 ms, from an executing Chandler, on each link whose sideband is up. -/
def statusSend (d : Die) : Die :=
  if d.limits.pool = 0 ∨ !chandlerRuns d ∨ d.tally.now / 10000000 * 10000000 ≤ d.limits.roundStart then d
  else
    let want := wantNow d
    let offer := offerNow d
    let recalling := decide (0x6000 < d.limits.share) || capped d true
    beginRound (each ((List.range 32).filter (fun l => (link d l).rxUp)) (statusLink want offer recalling) d)

/-- POOL_STATUS_SEND (R270). -/
def execPoolStatusSend (s : State) : Host.Outcome State Fault Refusal := run true statusSend s

/-- A frame of this pool has arrived (R268, R273): the partner pools with the die. A frame of another pool ends that. -/
def poolFrame (kind l : Nat) (f : Bytes) (effect : Die → Die) (d : Die) : Die :=
  if !(link d l).rxUp then d
  else if poolFrameOk kind f then
    let d := validFrame l d
    if d.limits.pool ≠ 0 ∧ fld f 2 2 = d.limits.pool then
      let d := modPool l (fun p => { p with member := true, lastValid := some d.tally.now }) d
      if chandlerRuns d then effect d else d
    else modPool l (fun p => { p with member := false }) d
  else discardFrame l d

/-- POOL_MISMATCH (R274): each end adopts the reading less favourable to itself, which is the greater one as the die signs a loan. -/
def resolveLoan (l : Nat) (theirs : Int) (d : Die) : Die :=
  let own := (link d l).pool.loan
  let v := max own (-theirs)
  emit 0x0705 (.link l) (leI 2 own ++ leI 2 theirs ++ leI 2 v) (setLoan l v (modPool l (fun p => { p with mismatches := 0 }) d))

/-- A STATUS shows the partner's reading of the loan (R274). The first after a frame of this die's own that moves or asks back budget does not count. -/
def checkLoan (l : Nat) (f : Bytes) (d : Die) : Die :=
  let p := (link d l).pool
  let theirs := fldI f 18 2
  if p.outstanding then modPool l (fun p => { p with outstanding := false, mismatches := 0 }) d
  else if theirs = -p.loan then modPool l (fun p => { p with mismatches := 0 }) d
  else if p.mismatches = 0 then modPool l (fun p => { p with mismatches := 1 }) d
  else resolveLoan l theirs d

/-- A want that meets an offer is lent (R271): the die's own cap falls first, then GRANT goes out. -/
def lend (l : Nat) (f : Bytes) (d : Die) : Die :=
  let p := (link d l).pool
  let n := min (min (fld f 14 2) p.offer) (fifth d - lentTotal d)
  if n = 0 ∨ d.stop.stopped ∨ borrowedTotal d ≠ 0 ∨ !(link d l).up then d
  else
    let d := setLoan l (p.loan + n) (modPool l (fun p => { p with offer := p.offer - n }) d)
    poolRecord 0x0701 l n 0 (sendPool l 1 (fld f 6 2) n d)

/-- POOL_STATUS_RECEIVED (R271, R274). -/
def statusReceived (l : Nat) (f : Bytes) (d : Die) : Die := poolFrame 0 l f (fun d => lend l f (checkLoan l f d)) d

/-- POOL_STATUS_RECEIVED (R271). -/
def execPoolStatusReceived (link : Nat) (frame : Bytes) (s : State) : Host.Outcome State Fault Refusal :=
  run (isLink link && hasLength 32 frame) (statusReceived link frame) s

/-- The part of an amount that R268 lets the die borrow, 0.1 W. -/
def borrowable (d : Die) (n : Nat) : Nat :=
  if d.stop.stopped ∨ 0 < lentTotal d then 0
  else min n (min (fifth d - borrowedTotal d) ((1150000 - sustainedMw d) / 100))

/-- POOL_GRANT_RECEIVED (R271): the cap rises by the part that fits, and the rest is returned. -/
def grantReceived (l : Nat) (f : Bytes) (d : Die) : Die :=
  poolFrame 1 l f (fun d =>
    let g := fld f 20 2
    let n := borrowable d g
    let d := poolRecord 0x0701 l n 1 (setLoan l ((link d l).pool.loan - n) d)
    if n < g then poolRecord 0x0702 l (g - n) 1 (sendPool l 2 (fld f 6 2) (g - n) d) else d) d

/-- POOL_GRANT_RECEIVED (R271). -/
def execPoolGrantReceived (link : Nat) (frame : Bytes) (s : State) : Host.Outcome State Fault Refusal :=
  run (isLink link && hasLength 32 frame) (grantReceived link frame) s

/-- POOL_RETURN_RECEIVED (R272): the lender's cap rises by what it gets back. -/
def returnReceived (l : Nat) (f : Bytes) (d : Die) : Die :=
  poolFrame 2 l f (fun d =>
    let n := min (fld f 20 2) (link d l).pool.loan.toNat
    if n = 0 then d
    else poolRecord 0x0702 l n 0 (setLoan l ((link d l).pool.loan - n) (modPool l (fun p => { p with outstanding := false }) d))) d

/-- POOL_RETURN_RECEIVED (R272). -/
def execPoolReturnReceived (link : Nat) (frame : Bytes) (s : State) : Host.Outcome State Fault Refusal :=
  run (isLink link && hasLength 32 frame) (returnReceived link frame) s

/-- POOL_RECALL_RECEIVED (R272): the borrower returns the whole loan of the link. -/
def recallReceived (l : Nat) (f : Bytes) (d : Die) : Die :=
  poolFrame 3 l f (fun d => if (link d l).pool.loan < 0 then returnLoan l (fld f 6 2) (poolRecord 0x0703 l (fld f 20 2) 1 d) else d) d

/-- POOL_RECALL_RECEIVED (R272). -/
def execPoolRecallReceived (link : Nat) (frame : Bytes) (s : State) : Host.Outcome State Fault Refusal :=
  run (isLink link && hasLength 32 frame) (recallReceived link frame) s

/-- POOL_LINK_SILENT (R273): no valid POOL frame for 20 ms, and the borrower removes the loan. -/
def linkSilent (l : Nat) (d : Die) : Die :=
  match (link d l).pool.lastValid with
  | some t => if t + 20000000 ≤ d.tally.now then poolLost l 1 d else d
  | none => d

/-- POOL_LINK_SILENT (R273). -/
def execPoolLinkSilent (link : Nat) (s : State) : Host.Outcome State Fault Refusal := run (isLink link) (linkSilent link) s

/-- The lender's cap returns: POOL_LINK_LOST names the loan removed and the cause, 0 link down or 1 silent (R273). -/
def restoreCap (l cause : Nat) (d : Die) : Die :=
  emit 0x0704 (.link l) (leI 2 (link d l).pool.loan ++ le 1 cause) (setLoan l 0 (modPool l (fun p => { p with restoreAt := none }) d))

/-- POOL_LENDER_RESTORE (R273): 30 ms after the link-down, or after the last valid frame. -/
def lenderRestore (l : Nat) (d : Die) : Die :=
  let p := (link d l).pool
  if p.loan ≤ 0 then d
  else match p.restoreAt, p.lastValid with
    | some t, _ => if t ≤ d.tally.now then restoreCap l 0 d else d
    | none, some t => if t + 30000000 ≤ d.tally.now then restoreCap l 1 d else d
    | none, none => d

/-- POOL_LENDER_RESTORE (R273). -/
def execPoolLenderRestore (link : Nat) (s : State) : Host.Outcome State Fault Refusal := run (isLink link) (lenderRestore link) s

end Sys2Proof.Machine
end

