-- ==== Sys2Proof/Machine/CmdOpp.lean ====
section
/-! DEFINITION. The operating-point, cap and pool commands (R353–R359). -/

namespace Sys2Proof.Machine
open Sys2Proof

/-! ## opp (R353–R355) -/

/-- The tests of R353 that make a region of an opp.commit BUSY: those of R182, and a test setting in force. -/
def oppBusy (d : Die) (m : RegionSet) : Bool × Nat × Nat := regionCheck m (commitBlocked d) stBusy

/-- The commit that a key has formed (R344). -/
def keyedCommit (d : Die) (k : Nat × Nat) : Option Commit := d.commits.find? (fun c => decide (c.key = some k))

/-- opp.commit. -/
def oppCommitBody (q : Nat) (e : Exec) (p : Bytes) (d : Die) : Die × Reply :=
  let m := fld p 0 10
  match (if e.reexecuted then keyedCommit d (keyOf q e) else none) with
  | some c => (d, .done c.id none)
  | none =>
    checked [bitsCheck p 10 0xF0, zeroCheck p 11 16,
      (!ownedBy d q m, stNoPrivilege, (firstRegion m (fun r => decide ((region d r).owner ≠ q))).getD 0xFFFF),
      readyCheck d, emptyCheck m 0, absentCheck d m, oppBusy d m, busyCheck d.stop.stopped,
      (!legalTally d (fld p 16 8) Config.commitLead, stStale, 0xFFFF)]
      (fun d => (acceptCommit .host (fld p 10 1 % 16) m (fld p 16 8) 0 0 (some (keyOf q e)) d, .done d.nextCommit none)) d

/-- OPP_COMMIT (R353). -/
def execOppCommit (queue : Nat) (s : State) : Host.Outcome State Fault Refusal := run (isQueue queue) (command queue 0x0201 (oppCommitBody queue)) s

/-- An ID that has been issued since the last reset of the count (R353, R354). -/
def idIssued (d : Die) (id : Nat) : Bool := decide (id ≠ 0 ∧ id < d.nextCommit)

/-- The queue may not cancel this commit: the limit unit asked for it, or a member belongs to another owner (R354). -/
def cancelForbidden (d : Die) (q : Nat) (c : Commit) : Bool :=
  (match c.source with | .settlement => true | .restoring => true | .host => false | .pattern => false) || (decide (q ≠ 0) && !ownedBy d q c.members)

/-- opp.cancel. -/
def oppCancelBody (q : Nat) (_e : Exec) (p : Bytes) (d : Die) : Die × Reply :=
  let id := fld p 0 4
  let c := commitOf d id
  checked [((match c with | some c => cancelForbidden d q c | none => false), stNoPrivilege, 0xFFFF), readyCheck d,
    (!idIssued d id && c.isNone, stNotFound, 0xFFFF), ((match c with | some c => c.decided | none => true), stStale, 0xFFFF)]
    (fun d => (abortCommit id 7 (lowestOf ((c.map (·.members)).getD 0)) 0xFF d, .done 0 none)) d

/-- OPP_CANCEL (R354). -/
def execOppCancel (queue : Nat) (s : State) : Host.Outcome State Fault Refusal := run (isQueue queue) (command queue 0x0202 (oppCancelBody queue)) s

/-- The 144 bytes of opp.read (R355). A code that stands in an uncorrectable field reads as the +12 it is taken as (Table 18.4); an uncorrectable
bin has no stated value (log 11). -/
def oppBytes (d : Die) : Bytes :=
  let f := d.startup.fuses
  (List.range 64).flatMap (fun j => leI 1 (if f.offsetsBad then 12 else f.offsets.getD j 0))
    ++ (List.range 80).flatMap (fun r => le 1 (if !present d r then 0xFF else if 4 ≤ f.bins.getD r 0 then Config.freeNat (d.fresh + r) else f.bins.getD r 0))

/-- opp.read. -/
def oppReadBody (_q : Nat) (_e : Exec) (_p : Bytes) (d : Die) : Die × Reply := ({ d with fresh := d.fresh + 80 }, .done 0 (some (oppBytes d)))

/-- OPP_READ (R355). -/
def execOppRead (queue : Nat) (s : State) : Host.Outcome State Fault Refusal := run (isQueue queue) (command queue 0x0203 (oppReadBody queue)) s

/-! ## cap (R144, R347, R356–R358) -/

/-- Ranges of a rail's power cap and current limit (Table 10.2). -/
def capTop (k : Nat) : Nat := Config.railCapW.getD k 0
def limitTop (k : Nat) : Nat := Config.railLimitA.getD k 0
def capLeast (k : Nat) : Nat := if k = 4 then 20 else 50

/-- The value lies outside a range. -/
def outside (lo hi v : Nat) : Bool := !decide (lo ≤ v ∧ v ≤ hi)

/-- Staged fraction of region r (R356). -/
def stagedFraction (b : Bytes) (r : Nat) : Nat := fld b (2 * r) 2

/-- First staged fraction that is out of range (R356). -/
def badFraction (d : Die) (b : Bytes) : Option Nat :=
  (List.range 80).find? (fun r => decide (4096 < stagedFraction b r) || (!present d r && decide (stagedFraction b r ≠ 0)))

/-- The lowest region at which a tenant's kind 3 departs from R280 and R356. -/
def fractionBreach (d : Die) (q : Nat) (b : Bytes) : Option Nat :=
  (List.range 80).find? (fun r =>
    (decide ((region d r).owner ≠ q) && (decide (stagedFraction b r ≠ fractionOf d r) || (bit (fld b 160 10) r != (region d r).strict)))
      || ((region d r).strict && !bit (fld b 160 10) r))

/-- A tenant's kind 3 changes the sum of its own fractions (R280). -/
def sumBreach (d : Die) (q : Nat) (b : Bytes) : Bool :=
  decide (total ((ownedRegions d q).map (stagedFraction b)) ≠ fractions d (ownedRegions d q))

/-- The checks of each kind of cap.set (Table 10.2, R356). -/
def capChecks (d : Die) (q kind : Nat) (e : Exec) (p : Bytes) : List (Bool × Nat × Nat) :=
  if kind = 0 then [rangeCheck (outside 100 1150 (fld p 8 2)) 8, rangeCheck (outside (fld p 8 2) 1600 (fld p 10 2)) 10]
  else if kind = 1 then
    (List.range 5).map (fun k => rangeCheck (outside (capLeast k) (capTop k) (fld p (8 + 2 * k) 2)) (8 + 2 * k))
      ++ (List.range 5).map (fun k => rangeCheck (outside (capLeast k) (limitTop k) (fld p (18 + 2 * k) 2)) (18 + 2 * k))
  else if kind = 2 then
    [rangeCheck (!decide (1120 ≤ fldI p 8 2 ∧ fldI p 8 2 ≤ 1520)) 8, rangeCheck (!decide (fldI p 8 2 + 80 ≤ fldI p 10 2 ∧ fldI p 10 2 ≤ 1680)) 10]
  else
    [(decide (q ≠ 0) && (fractionBreach d q e.staged).isSome, stNoPrivilege, (fractionBreach d q e.staged).getD 0xFFFF),
     (decide (q ≠ 0) && sumBreach d q e.staged, stNoPrivilege, 0xFFFF),
     ((badFraction d e.staged).isSome, stRange, 0x8000 + 2 * (badFraction d e.staged).getD 0),
     (decide (total ((presentRegions d).map (stagedFraction e.staged)) ≠ 4096), stRange, 0xFFFF)]

/-- A host write of a package cap clears the burst credit and flag (R250). -/
def setPackage (base burst : Nat) (d : Die) : Die := { d with limits := { d.limits with base := base, burst := burst, credit := 0, flag := false } }

/-- The effect of cap.set (R248, R280, R356). The strict flag of a tenant's region cannot be cleared. -/
def setCaps (kind : Nat) (e : Exec) (p : Bytes) (d : Die) : Die :=
  if kind = 0 then setPackage (fld p 8 2) (fld p 10 2) d
  else if kind = 1 then each (List.range 5) (fun k d => modRail k (fun x => { x with capW := some (fld p (8 + 2 * k) 2), limitA := some (fld p (18 + 2 * k) 2) }) d) d
  else if kind = 2 then { d with limits := { d.limits with soft := fldI p 8 2, hard := fldI p 10 2 } }
  else each (List.range 80) (fun r d => modRegion r (fun x => { x with
    fraction := if present d r then some (stagedFraction e.staged r) else none
    strict := bit (fld e.staged 160 10) r || decide (x.owner ≠ 0) }) d) d

/-- First payload byte past the values of a kind (Table 14.7). -/
def capEnd (kind : Nat) : Nat := [12, 28, 12, 8].getD kind 8

/-- cap.set. -/
def capSetBody (q : Nat) (e : Exec) (p : Bytes) (d : Die) : Die × Reply :=
  let kind := fld p 0 1
  checked ([fieldCheck (decide (3 < kind)) 0, zeroCheck p 1 8, zeroCheck p (capEnd kind) 48, (decide (q ≠ 0 ∧ kind ≠ 3), stNoPrivilege, 0xFFFF)] ++ capChecks d q kind e p)
    (fun d => (setCaps kind e p d, .done 0 none)) d

/-- CAP_SET (R356). -/
def execCapSet (queue : Nat) (s : State) : Host.Outcome State Fault Refusal := run (isQueue queue) (command queue 0x0301 (capSetBody queue)) s

/-- A latched MARGIN_SUSTAINED ceiling is cleared (R144). -/
def unlatch (r : Nat) (d : Die) : Die := if (region d r).latched then setCeiling 7 r none (modRegion r (fun x => { x with latched := false }) d) else d

/-- One region of cap.ceiling (R347, R357). -/
def hostCeiling (q : Nat) (v : Option Nat) (r : Nat) (d : Die) : Die :=
  setCeiling 8 r v (modRegion r (fun x => { x with hostHeld := if q = 0 then v.isSome else x.hostHeld }) d)

/-- cap.ceiling. -/
def capCeilingBody (q : Nat) (_e : Exec) (p : Bytes) (d : Die) : Die × Reply :=
  let m := fld p 0 10
  let b := fld p 10 1
  let un := bit b 5
  checked [bitsCheck p 10 0xC0, fieldCheck (un && decide (b % 32 ≠ 0)) 10, zeroCheck p 11 16, scopeCheck d q m,
    (un && decide (q ≠ 0), stNoPrivilege, 0xFFFF), (decide (q ≠ 0) && (firstRegion m (fun r => (region d r).hostHeld)).isSome, stNoPrivilege, (firstRegion m (fun r => (region d r).hostHeld)).getD 0xFFFF),
    emptyCheck m 0, absentCheck d m]
    (fun d => (each (setRegions m) (fun r d => if un then unlatch r d else hostCeiling q (if bit b 4 then none else some (b % 16)) r d) d, .done 0 none)) d

/-- CAP_CEILING (R357). -/
def execCapCeiling (queue : Nat) (s : State) : Host.Outcome State Fault Refusal := run (isQueue queue) (command queue 0x0302 (capCeilingBody queue)) s

/-- Output of cap.read kind 0 (R358). -/
def throttleBytes (d : Die) (r : Nat) : Bytes :=
  (List.range 12).flatMap (fun j => le 8 ((throttleCounts d r).getD j 0)) ++ (List.range 12).flatMap (fun j => le 1 ((ceilingAt (region d r) j).getD 0xFF)) ++ zeros 4

/-- Output of cap.read kind 2 (R358). -/
def limitBytes (d : Die) : Bytes :=
  let x := d.limits
  le 2 x.base ++ le 2 (sustainedMw d / 1000) ++ le 2 x.burst ++ le 1 (b1 x.flag) ++ zeros 1 ++ le 8 x.credit
    ++ (List.range 5).flatMap (fun k => le 2 ((rail d k).capW.getD (capTop k))) ++ (List.range 5).flatMap (fun k => le 2 ((rail d k).limitA.getD (limitTop k)))
    ++ leI 2 x.soft ++ leI 2 x.hard ++ le 10 (regionSet ((List.range 80).filter (fun r => (region d r).strict)))
    ++ (List.range 80).flatMap (fun r => le 2 (fractionOf d r)) ++ zeros 2

/-- The output of cap.read. -/
def capBytes (d : Die) (kind k r : Nat) : Bytes := if kind = 0 then throttleBytes d r else if kind = 1 then fit 40 (rail d k).record else limitBytes d

/-- cap.read. -/
def capReadBody (q : Nat) (_e : Exec) (p : Bytes) (d : Die) : Die × Reply :=
  let kind := fld p 0 1
  let k := fld p 1 1
  let r := fld p 2 2
  checked [fieldCheck (decide (2 < kind)) 0, fieldCheck (decide (kind ≠ 1 ∧ k ≠ 0) || decide (4 < k)) 1, fieldCheck (decide (kind ≠ 0 ∧ r ≠ 0)) 2,
    (decide (q ≠ 0 ∧ kind ≠ 0), stNoPrivilege, 0xFFFF), (decide (kind = 0) && (regionScope d q r).1, stNoPrivilege, r), (decide (kind = 0) && (regionFound d r).1, stNotFound, r)]
    (fun d => (d, .done (capBytes d kind k r).length (some (capBytes d kind k r)))) d

/-- CAP_READ (R358). -/
def execCapRead (queue : Nat) (s : State) : Host.Outcome State Fault Refusal := run (isQueue queue) (command queue 0x0303 (capReadBody queue)) s

/-! ## pool (R268, R359) -/

/-- Any change of pool or base cap ends every loan as a lost link does, and lending starts again (R273, R359). -/
def setPool (pool base : Nat) (d : Die) : Die :=
  let changed := decide (pool ≠ d.limits.pool ∨ base ≠ d.limits.base)
  let d := if changed then each (List.range 32) (fun l d => modPool l (fun p => { p with want := 0, offer := 0, idle := 0, mismatches := 0, outstanding := false, member := p.member && decide (pool = d.limits.pool) }) (poolLost l 0 d)) d else d
  let d := setPackage base d.limits.burst { d with limits := { d.limits with pool := pool } }
  if changed then beginRound d else d

/-- pool.set. -/
def poolSetBody (q : Nat) (_e : Exec) (p : Bytes) (d : Die) : Die × Reply :=
  checked [rootCheck q, rangeCheck (outside 100 1150 (fld p 2 2)) 2] (fun d => (setPool (fld p 0 2) (fld p 2 2) d, .done 0 none)) d

/-- POOL_SET (R359). -/
def execPoolSet (queue : Nat) (s : State) : Host.Outcome State Fault Refusal := run (isQueue queue) (command queue 0x0401 (poolSetBody queue)) s

/-- Output of pool.read (R359). -/
def poolReadBytes (d : Die) : Bytes :=
  le 2 d.limits.pool ++ le 2 d.limits.base ++ le 2 (sustainedMw d / 1000) ++ le 2 (lentTotal d) ++ le 2 (borrowedTotal d) ++ zeros 2
    ++ le 4 (regionSet ((List.range 32).filter (poolLink d))) ++ (List.range 32).flatMap (fun l => leI 2 (link d l).pool.loan)

/-- pool.read. -/
def poolReadBody (q : Nat) (_e : Exec) (_p : Bytes) (d : Die) : Die × Reply := checked [rootCheck q] (fun d => (d, .done 0 (some (poolReadBytes d)))) d

/-- POOL_READ (R359). -/
def execPoolRead (queue : Nat) (s : State) : Host.Outcome State Fault Refusal := run (isQueue queue) (command queue 0x0402 (poolReadBody queue)) s

end Sys2Proof.Machine
end

