-- ==== Sys2Proof/Machine/LedgerOps.lean ====
section
/-! DEFINITION. The Ledger ring and its collector (R380–R384), stretch spans (R386) and the drain into host memory (R391–R394). -/

namespace Sys2Proof.Machine
open Sys2Proof

/-! ## The collector (R380, R383, R384) -/

/-- The records of an event: a head with the first 12 bytes of its payload, and continuations (R383). -/
def eventRecords (p : Pending) : List Record :=
  (List.range (recordsOf p.payload.length)).map (fun j =>
    { tally := p.tally, cycle := p.cycle, code := p.code, id := p.id, tag := if j = 0 then p.tag else p.tag + 2048, payload := fit 12 (p.payload.drop (12 * j)) })

/-- The 32 bytes of a record (Table 15.1). -/
def recordBytes (x : Record) : Bytes := le 8 x.tally ++ le 6 x.cycle ++ le 2 x.code ++ le 2 x.id ++ le 2 x.tag ++ x.payload

/-- Number, in the count of R380, of the oldest record held. -/
def oldestRecord (g : Ledger) : Nat := g.count - g.ring.length

/-- A record is written at the write index; a record that a running drain has still to deliver and that is overwritten is lost (R380, R393). -/
def writeRecord (x : Record) (d : Die) : Die :=
  let g := d.ledger
  let full := decide (Config.ledgerRecords ≤ g.ring.length)
  let lost := full && g.drain.running && decide (g.drain.next ≤ oldestRecord g)
  let drain := if lost then { g.drain with
      lost := g.drain.lost + 1
      lostTally := if g.drain.lost = 0 then (match g.ring with | y :: _ => y.tally | [] => 0) else g.drain.lostTally } else g.drain
  { d with ledger := { g with
    ring := (if full then g.ring.tail else g.ring) ++ [x]
    index := (g.index + 1) % Config.ledgerRecords
    count := g.count + 1
    drain := drain } }

/-- LEDGER_FREEZE carries the count as it stands with its own record (Table 15.3). -/
def stampFreeze (d : Die) (p : Pending) : Pending :=
  if p.code = 0x0001 then { p with payload := p.payload.take 4 ++ le 8 (d.ledger.count + 1) } else p

/-! ## The drain (R391–R394) -/

/-- Changes the drain. -/
def modDrain (f : Drain → Drain) (d : Die) : Die := { d with ledger := { d.ledger with drain := f d.ledger.drain } }

/-- The page that the drain fills (R391). -/
def fillPage (x : Drain) : Nat := (x.tail + x.outstanding.length) % 2 ^ 32

/-- The drain may write a page: it runs, fewer than eight writes are outstanding, and the host ring has room (R392, R393). -/
def drainRoom (x : Drain) : Bool :=
  x.running && decide (x.outstanding.length < 8) && decide ((fillPage x + 2 ^ 32 - x.head) % 2 ^ 32 < x.pages)

/-- Record number n, where it is held. -/
def recordNumber (g : Ledger) (n : Nat) : Option Record := if oldestRecord g ≤ n then g.ring[n - oldestRecord g]? else none

/-- Where records were lost, the drain goes on from the oldest held, with DRAIN_OVERRUN (R393). -/
def drainOverrun (d : Die) : Die :=
  let x := d.ledger.drain
  if x.lost = 0 then d
  else emit 0x0005 .none (le 4 (sat 32 x.lost) ++ le 8 x.lostTally) (modDrain (fun y => { y with next := max y.next (oldestRecord d.ledger), lost := 0 }) d)

/-- A page of the next n records, completed with NONE records, goes out (R391, R392). -/
def writePage (n : Nat) (d : Die) : Die :=
  let x := d.ledger.drain
  let recs := (List.range n).filterMap (fun j => recordNumber d.ledger (x.next + j))
  let d := streamWrite (x.base + 4096 * (fillPage x % x.pages)) (fit 4096 (recs.flatMap recordBytes)) d
  modDrain (fun y => { y with outstanding := y.outstanding ++ [(fillPage x, x.next + n, false)], next := x.next + n }) d

/-- A partial page goes out, if it holds a record (R392, R394). -/
def writePartial (d : Die) : Die :=
  if drainRoom d.ledger.drain then
    let d := drainOverrun d
    let n := d.ledger.count - d.ledger.drain.next
    if n = 0 then d else writePage (min 128 n) d
  else d

/-- Whole pages go out while the drain has room and holds 128 records (R392); of a drain that is being stopped, the partial page (R394). -/
def drainPump : Nat → Die → Die
  | 0, d => d
  | n + 1, d =>
    if !drainRoom d.ledger.drain then d
    else if d.ledger.drain.stopping then
      if d.ledger.drain.partialDue then writePartial (modDrain (fun y => { y with partialDue := false }) d) else d
    else
      let d := drainOverrun d
      if d.ledger.drain.next + 128 ≤ d.ledger.count then drainPump n (writePage 128 d) else d

/-- DRAIN_PAGE_TIMEOUT (R392): 100 µs after its first record was accepted, a partial page is written. -/
def pageTimeout (d : Die) : Die :=
  match recordNumber d.ledger (max d.ledger.drain.next (oldestRecord d.ledger)) with
  | some x => if x.tally + 100000 ≤ d.tally.now ∧ !d.ledger.drain.stopping then writePartial d else d
  | none => d

/-- DRAIN_PAGE_TIMEOUT (R392). -/
def execDrainPageTimeout (s : State) : Host.Outcome State Fault Refusal := run true pageTimeout s

/-- The tail advances over completed pages, in page order (R392). -/
def advanceTail : List (Nat × Nat × Bool) → Drain → Drain
  | (_, after, true) :: t, x => advanceTail t { x with tail := (x.tail + 1) % 2 ^ 32, firstUndelivered := after, outstanding := t }
  | _, x => x

/-- DRAIN_PAGE_WRITE_COMPLETE (R392, R394): a drain that is being stopped ends once no write is outstanding. -/
def pageComplete (page : Nat) (d : Die) : Die :=
  let x := d.ledger.drain
  if x.running ∧ x.outstanding.any (fun o => decide (o.1 = page) && !o.2.2) then
    let l := x.outstanding.map (fun o => if o.1 = page then (o.1, o.2.1, true) else o)
    let d := modDrain (fun y => advanceTail l { y with outstanding := l }) d
    let d := if d.ledger.drain.tail = x.tail then d else fabricInt 5 d
    let d := drainPump 8 d
    if d.ledger.drain.stopping ∧ d.ledger.drain.outstanding.isEmpty ∧ !d.ledger.drain.partialDue then drainStop 0 d else d
  else d

/-- DRAIN_PAGE_WRITE_COMPLETE (R392). -/
def execDrainPageWriteComplete (page : Nat) (s : State) : Host.Outcome State Fault Refusal := run true (pageComplete page) s

/-- LEDGER_RECORD_ACCEPT (R36, R384): the first waiting event is written; once the queue has room, LEDGER_DROP tells what it dropped. -/
def recordAccept (d : Die) : Die :=
  match d.ledger.queue with
  | [] => d
  | p :: t =>
    let d := each (eventRecords (stampFreeze d p)) writeRecord { d with ledger := { d.ledger with queue := t } }
    let d := if 0 < d.ledger.overflow ∧ !d.ledger.frozen then
        emit 0x0006 .none (le 4 (sat 32 d.ledger.overflow) ++ le 8 d.ledger.overflowTally) { d with ledger := { d.ledger with overflow := 0 } }
      else d
    drainPump 8 d

/-- LEDGER_RECORD_ACCEPT (R384). -/
def execLedgerRecordAccept (s : State) : Host.Outcome State Fault Refusal := run true recordAccept s

/-! ## Stretch spans (R386) -/

/-- Stretched cycles and held slots, and all slots, of the window. -/
def spanShare (m : Margin) : Nat × Nat := (m.winStretched + m.winHeld, m.winDelivered + m.winHeld)

/-- The window counts toward the span of the island (R386). -/
def spanWindow (share : Nat) (m : Margin) : Bool := decide (share * (spanShare m).2 < 256 * (spanShare m).1)

/-- Adds two lists of counts. -/
def addCounts (a b : List Nat) : List Nat := (List.range 8).map (fun j => a.getD j 0 + b.getD j 0)

/-- An island of a border edge (R277, R288). -/
def onBorder (d : Die) (i : Nat) : Bool := (islandEnds i).any (fun k => edgeExists d (k / 2) && borderEdge d (k / 2))

/-- STRETCH_SPAN at the end of a run of span windows, with its attribution on an island of a border edge (R386, R288). -/
def closeSpan (i : Nat) (d : Die) : Die :=
  let m := (island d i).margin
  match m.span with
  | none => d
  | some sp =>
    let d := emit 0x0209 (.island i) (spanPayload sp m.spanCauses false) (modMargin i (fun y => { y with span := none, spanCauses := [] }) d)
    let r := islandRegion i
    let k := regionRail r
    if onBorder d i then attribTo 0x0209 r (largestOwner (variation d k)) (shareQ8 (variation d k) (region d r).owner) i d else d

/-- STRETCH_SPAN_WINDOW_END (R386): the 10 µs window of an island ends at the last multiple of 10,000 ns. -/
def spanWindowEnd (i : Nat) (d : Die) : Die :=
  let m := (island d i).margin
  let isSpan := spanWindow d.ledger.share m
  let s := spanShare m
  let sp := m.span.getD (d.tally.now / 10000 * 10000 - 10000, 0, 0, 0, 0)
  let d := modMargin i (fun y => { y with winDelivered := 0, winHeld := 0, winStretched := 0, winCauses := [] }) d
  if isSpan then
    modMargin i (fun y => { y with
      span := some (sp.1, sp.2.1 + 1, max sp.2.2.1 (s.1 * 256 / s.2), sp.2.2.2.1 + m.winStretched, sp.2.2.2.2 + m.winHeld)
      spanCauses := addCounts y.spanCauses m.winCauses
      spanWindows := y.spanWindows + 1 }) d
  else closeSpan i d

/-- STRETCH_SPAN_WINDOW_END (R386). -/
def execStretchSpanWindowEnd (island : Nat) (s : State) : Host.Outcome State Fault Refusal := run (isIsland island) (spanWindowEnd island) s

end Sys2Proof.Machine
end

