-- ==== Sys2Proof/Machine/CmdLedger.lean ====
section
/-! DEFINITION. The Ledger and certificate commands (R365, R366, R386–R399). -/

namespace Sys2Proof.Machine
open Sys2Proof

/-- An address is not aligned as its field states (R341). -/
def alignCheck (p : Bytes) (off unit : Nat) : Bool × Nat × Nat := rangeCheck (decide (fld p off 8 % unit ≠ 0)) off

/-! ## ledger (R365, R366, R388–R394) -/

/-- A thaw is refused: a COOLANT or TRIP stop stands, or a fabric fault (R390). -/
def thawRefused (d : Die) : Bool := (d.stop.stopped && (bit d.stop.stood 0 || bit d.stop.stood 1)) || decide (d.stop.fault ≠ 0)

/-- The Ledger thaws (R390). -/
def thaw (d : Die) : Die :=
  if !d.ledger.frozen then d
  else
    let n := d.ledger.dropped
    emit 0x0002 .none (le 4 (sat 32 n) ++ le 8 d.ledger.freezeTally) { d with ledger := { d.ledger with frozen := false, dropped := 0 } }

/-- ledger.control. -/
def ledgerControlBody (q : Nat) (_e : Exec) (p : Bytes) (d : Die) : Die × Reply :=
  let op := fld p 0 1
  let share := fld p 1 1
  checked [fieldCheck (decide (2 < op)) 0, fieldCheck (decide (op ≠ 2 ∧ share ≠ 0)) 1, zeroCheck p 2 8, rootCheck q,
    rangeCheck (decide (op = 2 ∧ share = 0)) 1, busyCheck (decide (op = 1) && d.ledger.frozen && thawRefused d)]
    (fun d => (if op = 0 then freeze 4 d else if op = 1 then thaw d else { d with ledger := { d.ledger with share := share } }, .done 0 none)) d

/-- LEDGER_CONTROL (R365). -/
def execLedgerControl (queue : Nat) (s : State) : Host.Outcome State Fault Refusal := run (isQueue queue) (command queue 0x0701 (ledgerControlBody queue)) s

/-- The drain starts at the oldest record that no earlier drain has delivered (R391). -/
def startDrain (base pages : Nat) (d : Die) : Die :=
  let d := modDrain (fun x => { running := true, base := base, pages := pages, next := max x.firstUndelivered (oldestRecord d.ledger), firstUndelivered := x.firstUndelivered }) d
  drainPump 8 (emit 0x0003 .none (le 8 base ++ le 4 pages) d)

/-- The drain is told to stop: its partial page goes out as soon as there is room (R394). -/
def stopDrain (d : Die) : Die :=
  let x := d.ledger.drain
  let room := drainRoom x
  let due := decide (x.next < d.ledger.count) && !room
  modDrain (fun y => { y with stopping := true, partialDue := due }) (if room then writePartial d else d)

/-- ledger.drain; a stop completes once no write is outstanding. -/
def ledgerDrainBody (q : Nat) (_e : Exec) (p : Bytes) (d : Die) : Die × Reply :=
  let op := fld p 12 1
  checked [fieldCheck (decide (1 < op)) 12, zeroCheck p 13 24, rootCheck q, (decide (op = 1) && (alignCheck p 0 4096).1, stRange, 16),
    rangeCheck (decide (op = 1 ∧ (fld p 8 4 < 16 ∨ 1048576 < fld p 8 4))) 8, busyCheck (decide (op = 1) && d.ledger.drain.running)]
    (fun d =>
      if op = 1 then (startDrain (fld p 0 8) (fld p 8 4) d, .done 0 none)
      else if !d.ledger.drain.running then (d, .done 0 none)
      else
        let d := if d.ledger.drain.stopping then d else stopDrain d
        if d.ledger.drain.outstanding.isEmpty ∧ !d.ledger.drain.partialDue then (drainStop 0 (modDrain (fun y => { y with stopping := false }) d), .done 0 none)
        else (d, .wait)) d

/-- LEDGER_DRAIN (R391). -/
def execLedgerDrain (queue : Nat) (s : State) : Host.Outcome State Fault Refusal := run (isQueue queue) (command queue 0x0702 (ledgerDrainBody queue)) s

/-- The records that ledger.read copies: in write order, from the oldest at or after a Tally; a tenant queue's own only (R366). -/
def readRecords (d : Die) (q from_ n : Nat) : List Record :=
  ((d.ledger.ring.dropWhile (fun x => decide (x.tally < from_))).filter (fun x => decide (q = 0 ∨ x.tag % 32 = q))).take n

/-- ledger.read. -/
def ledgerReadBody (q : Nat) (_e : Exec) (p : Bytes) (d : Die) : Die × Reply :=
  checked [zeroCheck p 20 24, alignCheck p 0 32, rangeCheck (outside 1 65536 (fld p 16 4)) 16]
    (fun d =>
      let l := readRecords d q (fld p 8 8) (fld p 16 4)
      (streamWrite (fld p 0 8) (l.flatMap recordBytes) d, .done l.length none)) d

/-- LEDGER_READ (R366). -/
def execLedgerRead (queue : Nat) (s : State) : Host.Outcome State Fault Refusal := run (isQueue queue) (command queue 0x0703 (ledgerReadBody queue)) s

/-! ## cert.read (R366, R395, R399) -/

/-- A certificate as a queue reads it: for a tenant, summaries of regions it does not own are filled as for regions outside the plan, and the
certificate is sealed over what it then holds (Table 11.1). -/
def certFor (d : Die) (q : Nat) (b : Bytes) : Bytes :=
  if q = 0 then b
  else sealCert (b.take 252) ((List.range 80).flatMap (fun r => if (region d r).owner = q then (b.drop (256 + 64 * r)).take 64 else emptySummary (present d r)))

/-- cert.read. -/
def certReadBody (q : Nat) (_e : Exec) (p : Bytes) (d : Die) : Die × Reply :=
  let b := fld p 12 1
  let k := (ctxOf d q b).2.certs.find? (fun k => decide (k.step = fld p 8 4))
  checked ([zeroCheck p 13 16, ctxScope d q b] ++ ctxChecks d q b 12 ++ [alignCheck p 0 64, (k.isNone, stNotFound, 0xFFFF)])
    (fun d => match k with
      | some k => (streamWrite (fld p 0 8) (certFor d q k.bytes) d, .done k.outcome none)
      | none => (d, .refuse stNotFound 0xFFFF)) d

/-- CERT_READ (R366). -/
def execCertRead (queue : Nat) (s : State) : Host.Outcome State Fault Refusal := run (isQueue queue) (command queue 0x0801 (certReadBody queue)) s

end Sys2Proof.Machine
end

