-- ==== Sys2Proof/Machine/CmdCal.lean ====
section
/-! DEFINITION. The calibration and Assay commands (R309, R313–R321, R367–R372). -/

namespace Sys2Proof.Machine
open Sys2Proof

/-- STORE_ABSENT (R313). -/
def storeCheck (d : Die) : Bool × Nat × Nat := (d.store.absent, stStoreAbsent, 0xFFFF)

/-! ## cal.write and cal.export (R317–R319, R367, R368) -/

/-- Length of the image, as staged. -/
def imageLength (e : Exec) : Nat := fld e.staged 0 8

/-- cal.write: `image` is what host memory holds from the address named (log 5). -/
def calWriteBody (q : Nat) (image : Bytes) (e : Exec) (p : Bytes) (d : Die) : Die × Reply :=
  let src := fld p 0 1
  let b := fit (imageLength e) image
  match (if e.reexecuted then d.store.write.filter (fun w => decide (w.key = some (keyOf q e))) else none) with
  | some w => (d, .done w.generation none)
  | none =>
    checked [fieldCheck (decide (src ≠ 1 ∧ src ≠ 2)) 0, zeroCheck p 1 8, fieldCheck (decide (src = 1 ∧ fld p 8 8 ≠ 0)) 8, rootCheck q,
      (decide (src = 2) && (alignCheck p 8 8).1, stRange, 24), (decide (src = 2 ∧ (2097152 < imageLength e ∨ imageLength e % 8 ≠ 0)), stRange, 0x8000),
      rangeCheck (decide (src = 2) && !imageHeaderOk d b) 8, storeCheck d, busyCheck (d.store.write.isSome || d.store.assay.isSome)]
      (fun d => (beginWrite src (if src = 1 then workImage d else hostImage d b) (some (keyOf q e)) d, .done (nextGeneration d) none)) d

/-- CAL_WRITE (R367). -/
def execCalWrite (queue : Nat) (image : Bytes) (s : State) : Host.Outcome State Fault Refusal := run (isQueue queue) (command queue 0x0901 (calWriteBody queue image)) s

/-- The slot that cal.export names: 0 the current one, 1 the other (R321). -/
def exportSlot (d : Die) (n : Nat) : Slot := match d.store.current with | some c => slotOfN d (if n = 0 then c else 1 - c) | none => {}

/-- cal.export. -/
def calExportBody (q : Nat) (_e : Exec) (p : Bytes) (d : Die) : Die × Reply :=
  let s := exportSlot d (fld p 0 1)
  checked [fieldCheck (decide (1 < fld p 0 1)) 0, zeroCheck p 1 8, rootCheck q, alignCheck p 8 4096, (!d.store.absent && !s.valid, stNotFound, 0xFFFF), storeCheck d]
    (fun d => (streamWrite (fld p 8 8) (slotBytes d s) d, .done s.generation none)) d

/-- CAL_EXPORT (R368). -/
def execCalExport (queue : Nat) (s : State) : Host.Outcome State Fault Refusal := run (isQueue queue) (command queue 0x0902 (calExportBody queue)) s

/-! ## cal.read and cal.set (R229, R231, R239, R369, R370) -/

/-- Store status (R369). The current slot and its source where no slot is valid, and the generation of an invalid slot, are not stated (log 11). -/
def storeStatus (d : Die) : Bytes :=
  let x := d.store
  let gen := fun (s : Slot) (j : Nat) => if s.valid then s.generation else Config.freeNat (d.fresh + j)
  le 1 (x.current.getD (Config.freeNat d.fresh)) ++ le 1 (if x.absent then 0 else b1 x.slot0.valid + 2 * b1 x.slot1.valid) ++ zeros 2 ++ le 4 (gen x.slot0 1) ++ le 4 (gen x.slot1 2)
    ++ le 1 (match currentSlot d with | some s => s.source | none => Config.freeNat (d.fresh + 3)) ++ le 1 (if x.write.isSome then 1 else if x.lastFailed then 2 else 0)
    ++ le 2 x.flagged ++ le 8 x.lastTally

/-- Output of cal.read. -/
def calBytes (d : Die) (kind n : Nat) : Bytes :=
  let w := d.store.work
  match kind with
  | 0 => regionCalBytes n (tget {} w.regions n)
  | 1 => islandCalBytes n (tget {} w.islands n)
  | 2 => coefBytes (coefsOf d n)
  | 3 => leakBytes (leakOf d n)
  | 4 => energyBytes (gainsOf d)
  | 5 => retireBytes w.retire 447
  | _ => storeStatus d

/-- Region of the record that cal.read names. -/
def calRegion (kind n : Nat) : Nat := if kind = 1 then islandRegion n else n

/-- cal.read. -/
def calReadBody (q : Nat) (_e : Exec) (p : Bytes) (d : Die) : Die × Reply :=
  let kind := fld p 0 1
  let n := fld p 2 2
  checked [fieldCheck (decide (6 < kind)) 0, zeroCheck p 1 2, fieldCheck (decide (3 < kind ∧ n ≠ 0)) 2, zeroCheck p 4 8, (decide (q ≠ 0 ∧ 3 < kind), stNoPrivilege, 0xFFFF),
    (decide (kind ≤ 3) && (regionScope d q (calRegion kind n)).1, stNoPrivilege, n),
    (decide (kind ≤ 3) && (if kind = 1 then (islandFound d n).1 else (regionFound d n).1), stNotFound, n)]
    (fun d => ({ d with fresh := d.fresh + 4 }, .done (calBytes d kind n).length (some (calBytes d kind n)))) d

/-- CAL_READ (R369). -/
def execCalRead (queue : Nat) (s : State) : Host.Outcome State Fault Refusal := run (isQueue queue) (command queue 0x0903 (calReadBody queue)) s

/-- Rails that a region's tables charge (R233). -/
def tableRails (r : Nat) : List Nat := if r < 72 then [regionRail r, 4] else [regionRail r]

/-- The windows that see a table written now (R237, Table 9.2 code 5): that of the first interval the table serves. -/
def noteTables (r : Nat) (d : Die) : Die :=
  each (tableRails r) (fun k d => modRail k (fun x => if firstInterval d % 1000000 = 0 then { x with hostNext := true } else { x with sawHost := true }) d) d

/-- A coefficient table is replaced; the interval in progress keeps the old one (R229). -/
def setCoefs (r : Nat) (l : List Nat) (d : Die) : Die :=
  let old := coefsOf d r
  let d := modRegion r (fun x => { x with energy := { x.energy with coefHeld := some (x.energy.coefHeld.getD old) } }) d
  coefChange 2 r (noteTables r { d with store := { d.store with work := { d.store.work with coefs := tset [] d.store.work.coefs r l } } })

/-- A leakage table and share are replaced (R231). -/
def setLeak (r : Nat) (l : Leak) (d : Die) : Die :=
  let old := leakOf d r
  let d := modRegion r (fun x => { x with energy := { x.energy with leakHeld := some (x.energy.leakHeld.getD old) } }) d
  coefChange 3 r (noteTables r { d with store := { d.store with work := { d.store.work with leaks := tset noLeak d.store.work.leaks r l } } })

/-- Gains and offsets wait for the next window boundary (R239). -/
def setGains (l : List (Nat × Int)) (d : Die) : Die := each (List.range 5) (fun k d => modRail k (fun x => { x with hostWrite := some (l.getD k (0x4000, 0)) }) d) d

/-- First staged byte that is reserved in a payload and not zero (R9). -/
def stagedReserved (kind : Nat) (b : Bytes) : Option Nat :=
  ((if kind = 3 then [130, 131, 132, 133, 134, 135] else if kind = 4 then [2, 3, 10, 11, 18, 19, 26, 27, 34, 35] else []).find? (fun j => fld b j 1 ≠ 0))

/-- First rail whose staged offset lies beyond sQ20.0 (R370). -/
def badOffset (b : Bytes) : Option Nat := (List.range 5).find? (fun k => !decide (-524288 ≤ fldI b (8 * k + 4) 4 ∧ fldI b (8 * k + 4) 4 ≤ 524287))

/-- cal.set. -/
def calSetBody (q : Nat) (e : Exec) (p : Bytes) (d : Die) : Die × Reply :=
  let kind := fld p 0 1
  let r := fld p 2 2
  checked [fieldCheck (decide (kind < 2 ∨ 4 < kind)) 0, zeroCheck p 1 2, fieldCheck (decide (kind = 4 ∧ r ≠ 0)) 2, zeroCheck p 4 8,
    ((stagedReserved kind e.staged).isSome, stBadField, 0x8000 + (stagedReserved kind e.staged).getD 0), rootCheck q,
    (decide (kind = 4) && (badOffset e.staged).isSome, stRange, 0x8000 + 8 * (badOffset e.staged).getD 0 + 4), (decide (kind ≠ 4) && (regionFound d r).1, stNotFound, r)]
    (fun d => ((if kind = 2 then setCoefs r (readCoef e.staged) d else if kind = 3 then setLeak r (readLeak e.staged) d else setGains (readEnergy e.staged) d), .done 0 none)) d

/-- CAL_SET (R370). -/
def execCalSet (queue : Nat) (s : State) : Host.Outcome State Fault Refusal := run (isQueue queue) (command queue 0x0904 (calSetBody queue)) s

/-! ## cal.unretire (R33, R317, R371) -/

/-- The entry is one that cal.unretire names. -/
def unretires (kind sub id : Nat) (e : RetireEntry) : Bool := decide (kind = 0) || decide (e.kind = kind ∧ e.sub = sub ∧ e.id = id)

/-- What returns at once: references, roots and thermal sensors; the rest waits for a reset (R371). -/
def returnElement (e : RetireEntry) (d : Die) : Die :=
  match e.kind with
  | 5 => modRoot e.id (fun x => { x with retired := false, failures := [], retryAt := some d.tally.now }) d
  | 6 => modRef e.id (fun x => { x with retired := false, failures := [] }) d
  | 7 => modSensor e.id (fun x => { x with retired := false, flagged := false, failures := [] }) d
  | _ => d

/-- Entries leave the list, and a store write of source RETIRE is due (R317). -/
def removeEntries (kind sub id : Nat) (d : Die) : Die :=
  let l := d.store.work.retire.filter (unretires kind sub id)
  let d := { d with store := { d.store with
    work := { d.store.work with retire := d.store.work.retire.filter (fun e => !unretires kind sub id e) }
    retireDue := some (min d.tally.now (d.store.retireDue.getD d.tally.now)) } }
  each l returnElement d

/-- cal.unretire. -/
def calUnretireBody (q : Nat) (_e : Exec) (p : Bytes) (d : Die) : Die × Reply :=
  let kind := fld p 0 1
  let n := (d.store.work.retire.filter (unretires kind (fld p 1 1) (fld p 2 2))).length
  checked [fieldCheck (decide (7 < kind)) 0, zeroCheck p 4 8, rootCheck q, (decide (n = 0), stNotFound, if kind = 0 then 0xFFFF else fld p 2 2), storeCheck d]
    (fun d => (removeEntries kind (fld p 1 1) (fld p 2 2) d, .done n none)) d

/-- CAL_UNRETIRE (R371). -/
def execCalUnretire (queue : Nat) (s : State) : Host.Outcome State Fault Refusal := run (isQueue queue) (command queue 0x0905 (calUnretireBody queue)) s

/-! ## assay.region (R183, R309, R310, R372) -/

/-- Assay of the region is refused with BUSY (R309). -/
def assayRefused (d : Die) (r : Nat) : Bool :=
  (region d r).retired || inReset d r || inBank d r || (region d r).fenced || (decide ((region d r).owner ≠ 0) && (tenant d (region d r).owner).fence)
    || d.store.assay.isSome || d.store.write.isSome

/-- No lender is eligible for the region's lane (R120, R309). -/
def noLender (d : Die) (r : Nat) : Bool := (match (region d r).drover with | .borrowing _ => false | _ => true) && (lenderOf d r).isNone

/-- Assay is accepted: it begins, or waits while a commit is pending (R183, R309). -/
def acceptAssay (r : Nat) (key : Nat × Nat) (d : Die) : Die :=
  let d := if (pendingCommit d r).isSome then
      { d with store := { d.store with assay := some { region := some r, phase := 1, sub := 0, since := d.tally.now, covered := [], values := {}, waiting := true } } }
    else assayBegin r d
  { d with store := { d.store with assayKey := some key } }

/-- Duration in µs (R310). -/
def assayMicros (d : Die) (r : Nat) : Nat := 15000 + 3000 * (coveredBy d r).length

/-- assay.region. -/
def assayRegionBody (q : Nat) (e : Exec) (p : Bytes) (d : Die) : Die × Reply :=
  let r := fld p 0 2
  let again := e.reexecuted && decide (d.store.assayKey = some (keyOf q e))
  checked [zeroCheck p 2 4, rootCheck q, readyCheck d, regionFound d r, (!again && assayRefused d r, stBusy, r), (!again && noLender d r, stRouteBusy, r)]
    (fun d => (if again then d else acceptAssay r (keyOf q e) d, .done (assayMicros d r) none)) d

/-- ASSAY_REGION (R372). -/
def execAssayRegion (queue : Nat) (s : State) : Host.Outcome State Fault Refusal := run (isQueue queue) (command queue 0x0A01 (assayRegionBody queue)) s

end Sys2Proof.Machine
end

