-- ==== Sys2Proof/Machine/CmdRegion.lean ====
section
/-! DEFINITION. The island and region commands (R83, R116, R147, R171, R373–R376, R431–R433). -/

namespace Sys2Proof.Machine
open Sys2Proof

/-! ## island.read (R147, R171, R373) -/

/-- Code of a Bellows state (Table 4.7). -/
def bellowsCode : Bellows → Nat
  | .stopped => 0 | .acquiring => 1 | .injected => 2 | .suspended => 3 | .released => 4 | .yoke => 5

/-- Island state (R373): 0 running, 1 Gate, 2 Hush, 3 stopped, 4 in reset, 5 excused otherwise. -/
def islandState (d : Die) (i : Nat) : Nat :=
  let r := islandRegion i
  let x := (island d i).ring
  if x.resetSince.isSome || (decide (i < 1152) && inReset d r) then 4
  else if islandExcused d i then 5
  else if !dieRuns d || x.coreStopped || planHeld d r then 3
  else if (region d r).power = 2 then 2
  else if (region d r).power = 1 then 1 else 0

/-- The island word. -/
def islandWord (d : Die) (i : Nat) : Nat := bellowsCode (island d i).ring.bellows + 16 * islandState d i

/-- Bits of a list of tests, lowest first. -/
def packBits (l : List Bool) : Nat := l.foldr (fun b n => b1 b + 2 * n) 0

/-- The island margin record (Table 5.3). -/
def marginBytes (d : Die) (i : Nat) : Bytes :=
  let m := (island d i).margin
  let c := oppCal d i (island d i).ring.opp
  let x := region d (islandRegion i)
  let top := ceilingAt x 7
  le 1 (activeMask d i % 64) ++ le 1 (packBits ((List.range 6).map (replicaRetired d i))) ++ le 1 (evidenceFloor c % 16 + 16 * (alertSlack c % 16))
    ++ le 1 (m.last % 64 + 64 * b1 (underAssay d (islandRegion i)) + 128 * b1 m.blind) ++ le 1 (match m.stepMin with | some v => v % 64 | none => 64)
    ++ le 1 (m.stepRep % 8) ++ le 2 (sat 16 m.below) ++ le 8 (if m.below = 0 then 0 else m.firstBelow % 2 ^ 56) ++ le 2 (sat 16 m.alerts) ++ le 1 m.run
    ++ le 1 (top.getD 0 % 16 + 16 * b1 top.isSome + 32 * b1 x.latched) ++ zeros 4

/-- Coupling, state, staleness and lead of an island's edge at position p, N, E, S, W, link (R499). -/
def edgeOf (d : Die) (i p : Nat) : Option (Bool × EndState × Bool × Int) :=
  if p = 4 then (islandLink i).map (fun l => ((link d l).coupled, (link d l).state, (link d l).stale.isSome, (link d l).lead))
  else match sideEnd i p with
    | some k => if edgeExists d (k / 2) then some ((edgeEnd d k).coupled, (edgeEnd d k).state, (edgeEnd d k).stale.isSome, (edgeEnd d k).lead) else none
    | none => none

/-- A test of the edge at each position, as five bits. -/
def edgeBits (d : Die) (i : Nat) (f : Bool × EndState × Bool × Int → Bool) : Nat :=
  packBits ((List.range 5).map (fun p => match edgeOf d i p with | some e => f e | none => false))

/-- The island Hoop record (Table 6.7). -/
def islandHoopBytes (d : Die) (i : Nat) : Bytes :=
  let h := (island d i).holds
  let active := fun (e : Bool × EndState × Bool × Int) => decide (e.2.1 = .active)
  le 1 (edgeBits d i (·.1)) ++ le 1 (edgeBits d i active) ++ le 1 (edgeBits d i (fun e => decide (e.2.1 = .released)) + 32 * b1 (islandExcused d i))
    ++ le 1 (edgeBits d i (fun e => e.2.2.1))
    ++ (List.range 5).flatMap (fun p => leI 2 (match edgeOf d i p with | some e => if active e then e.2.2.2 else 0 | none => 0))
    ++ le 1 ((island d i).ring.cause % 8) ++ zeros 1 ++ (List.range 8).flatMap (fun j => le 4 (sat 32 (h.byCause.getD j 0)))
    ++ (List.range 5).flatMap (fun p => le 4 (sat 32 (h.byEdge.getD p 0))) ++ le 2 (sat 16 h.late) ++ le 2 (sat 16 h.overflow) ++ le 2 h.highWater ++ le 1 (h.highEdge % 8) ++ zeros 5

/-- Output of island.read. -/
def islandBytes (d : Die) (i kind : Nat) : Bytes :=
  if kind = 0 then marginBytes d i else if kind = 1 then islandHoopBytes d i else le 8 ((island d i).ring.count % 2 ^ 56)

/-- NO_PRIVILEGE for an island of another owner's region (Table 11.1). -/
def islandScope (d : Die) (q i : Nat) : Bool × Nat × Nat := ((regionScope d q (islandRegion i)).1, stNoPrivilege, i)

/-- island.read. -/
def islandReadBody (q : Nat) (_e : Exec) (p : Bytes) (d : Die) : Die × Reply :=
  let i := fld p 0 2
  let kind := fld p 2 1
  checked [fieldCheck (decide (2 < kind)) 2, zeroCheck p 3 4, islandScope d q i, islandFound d i] (fun d => (d, .done (islandWord d i) (some (islandBytes d i kind)))) d

/-- ISLAND_READ (R373). -/
def execIslandRead (queue : Nat) (s : State) : Host.Outcome State Fault Refusal := run (isQueue queue) (command queue 0x0B01 (islandReadBody queue)) s

/-! ## island.phase and island.reset (R116, R373, R433) -/

/-- Yoke mode refuses phase steps, and so does a fence (R116, Table 11.2). -/
def phaseRefused (d : Die) (i : Nat) : Bool := (match (island d i).ring.bellows with | .yoke => true | _ => false) || (region d (islandRegion i)).fenced

/-- island.phase: the request replaces the steps not yet applied. -/
def islandPhaseBody (q : Nat) (_e : Exec) (p : Bytes) (d : Die) : Die × Reply :=
  let i := fld p 0 2
  checked [fieldCheck (decide (fld p 2 1 = 0x80)) 2, zeroCheck p 3 4, rootCheck q, readyCheck d, islandFound d i, (phaseRefused d i, stBusy, i)]
    (fun d => (modRing i (fun x => { x with phaseLeft := fldI p 2 1 }) d, .done 0 none)) d

/-- ISLAND_PHASE (R373). -/
def execIslandPhase (queue : Nat) (s : State) : Host.Outcome State Fault Refusal := run (isQueue queue) (command queue 0x0B02 (islandPhaseBody queue)) s

/-- An island reset is refused with BUSY (R373). -/
def islandResetRefused (d : Die) (i : Nat) : Bool :=
  let r := islandRegion i
  (island d i).ring.resetSince.isSome || inReset d r || underAssay d r || inBank d r || (region d r).retired

/-- island.reset. -/
def islandResetBody (q : Nat) (e : Exec) (p : Bytes) (d : Die) : Die × Reply :=
  let i := fld p 0 2
  let again := e.reexecuted && (island d i).ring.resetSince.isSome
  checked [zeroCheck p 2 4, rootCheck q, readyCheck d, islandFound d i, (!again && islandResetRefused d i, stBusy, i)]
    (fun d => (if again then d else beginIslandReset i d, .done 0 none)) d

/-- ISLAND_RESET_CMD (R373). -/
def execIslandResetCmd (queue : Nat) (s : State) : Host.Outcome State Fault Refusal := run (isQueue queue) (command queue 0x0B03 (islandResetBody queue)) s

/-! ## region.read (R375) -/

/-- Region state: 0 running, 1 reset, 2 Assay, 3 Bank, 4 retired, 5 stopped. -/
def regionState (d : Die) (r : Nat) : Nat :=
  if (region d r).retired then 4 else if inReset d r then 1 else if underAssay d r then 2 else if inBank d r then 3 else if !dieRuns d then 5 else 0

/-- Drover lane code: 0 own, 1 borrowing, 2 stalled. -/
def droverCode : Drover → Nat
  | .own => 0 | .borrowing _ => 1 | .stopped => 2 | .stalled => 2

/-- The lender of a borrowing region, or the borrower of a lending one. -/
def droverPartner (d : Die) (r : Nat) : Nat := match (region d r).drover with | .borrowing q => q | _ => (borrowerOf d r).getD 0xFFFF

/-- The 32 bytes of region.read. -/
def regionBytes (d : Die) (r : Nat) : Bytes :=
  let x := region d r
  let a := synth d r 0
  let b := synth d r 1
  let top := regionCeiling x
  le 2 r ++ le 1 (packBits [decide (x.live = 1), a.lock, b.lock, a.retired, b.retired, x.bandTable]) ++ le 1 (x.opp % 16)
    ++ le 1 (if top < 16 then top else 16) ++ le 1 (if top < 16 then (lowestReason x).getD 0xFF else 0xFF)
    ++ le 1 ((island d (refIsland r)).ring.interval % 4 + 4 * b1 x.fenced) ++ le 1 (regionState d r) ++ le 1 (droverCode x.drover + 4 * b1 (borrowerOf d r).isSome) ++ zeros 1
    ++ le 2 (droverPartner d r) ++ le 4 (match pendingCommit d r with | some c => c.id | none => 0) ++ le 1 x.owner ++ le 1 (x.patternTarget.getD 0xFF)
    ++ le 2 (fractionOf d r) ++ zeros 12

/-- region.read. -/
def regionReadBody (q : Nat) (_e : Exec) (p : Bytes) (d : Die) : Die × Reply :=
  let r := fld p 0 2
  checked [zeroCheck p 2 4, regionScope d q r, regionFound d r] (fun d => (d, .done 0 (some (regionBytes d r)))) d

/-- REGION_READ (R375). -/
def execRegionRead (queue : Nat) (s : State) : Host.Outcome State Fault Refusal := run (isQueue queue) (command queue 0x0C01 (regionReadBody queue)) s

/-! ## region.reset and region.config (R374, R375, R431, R432) -/

/-- A region reset is refused with BUSY: the region stands on the retirement list, in reset or in Bank (R371, R374). -/
def regionResetRefused (d : Die) (r : Nat) : Bool := listed d 4 0 r || inReset d r || inBank d r

/-- region.reset. -/
def regionResetBody (q : Nat) (e : Exec) (p : Bytes) (d : Die) : Die × Reply :=
  let r := fld p 0 2
  let withSynth := bit (fld p 2 1) 0
  let again := e.reexecuted && inReset d r
  checked [bitsCheck p 2 0xFE, zeroCheck p 3 4, rootCheck q, readyCheck d, (decide (72 ≤ r ∧ r < 80) && !withSynth, stRange, 0xFFFF), regionFound d r,
    (!again && regionResetRefused d r, stBusy, r), (!again && withSynth && noLender d r, stRouteBusy, r)]
    (fun d => (if again then d else beginRegionReset r withSynth d, .done 0 none)) d

/-- REGION_RESET_CMD (R374). -/
def execRegionResetCmd (queue : Nat) (s : State) : Host.Outcome State Fault Refusal := run (isQueue queue) (command queue 0x0C02 (regionResetBody queue)) s

/-- First band table entry whose bit 6 is set (R90, R375). -/
def badBand (p : Bytes) : Option Nat := (List.range 32).find? (fun j => bit (fld p (8 + j) 1) 6)

/-- A host change of the injection interval reaches every island of the region (R102, R225). -/
def hostInterval (r code : Nat) (d : Die) : Die :=
  each (regionIslands r) (fun i d => modRing i (fun x => { x with intervalDue := some code, hostAt := some x.count }) d) (modRegion r (fun x => { x with injection := code }) d)

/-- The effect of region.config. -/
def configure (r sel : Nat) (p : Bytes) (d : Die) : Die :=
  let d := if bit sel 0 then modRegion r (fun x => { x with bandTable := decide (fld p 3 1 = 1) }) d else d
  let d := if bit sel 1 then modRegion r (fun x => { x with bands := (List.range 32).map (fun j => fld p (8 + j) 1) }) d else d
  if bit sel 2 then hostInterval r (fld p 4 1) d else d

/-- region.config. -/
def regionConfigBody (q : Nat) (_e : Exec) (p : Bytes) (d : Die) : Die × Reply :=
  let r := fld p 0 2
  let sel := fld p 2 1
  checked [bitsCheck p 2 0xF8, fieldCheck (decide (sel % 8 = 0)) 2, fieldCheck (decide (1 < fld p 3 1)) 3, fieldCheck (decide (2 < fld p 4 1)) 4, zeroCheck p 5 8,
    fieldCheck (badBand p).isSome (8 + (badBand p).getD 0), zeroCheck p 40 48, (decide (q ≠ 0 ∧ sel % 4 ≠ 0), stNoPrivilege, r), regionScope d q r, regionFound d r,
    (bit sel 2 && (region d r).fenced, stBusy, r)]
    (fun d => (configure r sel p d, .done 0 none)) d

/-- REGION_CONFIG (R375). -/
def execRegionConfig (queue : Nat) (s : State) : Host.Outcome State Fault Refusal := run (isQueue queue) (command queue 0x0C03 (regionConfigBody queue)) s

/-! ## region.test (R83, R88, R376) -/

/-- Reserved bits of a setting word (Table 3.1), as its first payload byte at fault. -/
def settingReserved (p : Bytes) : Option Nat :=
  if 64 ≤ fld p 8 1 then some 8 else if 4 ≤ fld p 12 1 then some 12 else if bit (fld p 13 1) 6 then some 13 else if fld p 14 1 ≠ 0 then some 14 else if fld p 15 1 ≠ 0 then some 15 else none

/-- The setting to which the region goes: that of the payload, or the ladder's. -/
def testTarget (d : Die) (r op : Nat) (p : Bytes) : Setting := if op = 1 then (readSetting ((p.drop 8).take 8)).getD {} else ladderSetting (region d r).opp

/-- The idle synthesizer is on its way to this setting for region.test. -/
def testRunning (d : Die) (r : Nat) (s : Setting) : Bool :=
  let x := synth d r (idleOf (region d r))
  decide (x.use = .test ∧ x.setting = s) && (match x.phase with | .searching => true | .settling => true | _ => false)

/-- region.test: the idle synthesizer is retuned, and the command completes at the switch; without a working idle synthesizer the acquisition fails. -/
def regionTestBody (q : Nat) (e : Exec) (p : Bytes) (d : Die) : Die × Reply :=
  let r := fld p 0 2
  let op := fld p 2 1
  let s := testTarget d r op p
  let again := e.reexecuted && testRunning d r s
  checked [fieldCheck (decide (1 < op)) 2, zeroCheck p 3 8, (decide (op = 0) && (reservedAt p 8 16).isSome, stBadField, (reservedAt p 8 16).getD 0xFFFF),
    fieldCheck (decide (op = 1) && (settingReserved p).isSome) ((settingReserved p).getD 8), rootCheck q, readyCheck d,
    rangeCheck (decide (op = 1) && (readSetting ((p.drop 8).take 8)).isNone) 8, regionFound d r, (decide (op = 1) && (inPlan d r || (pendingCommit d r).isSome), stBusy, r)]
    (fun d =>
      if (op = 0 ∧ (region d r).test.isNone) ∨ (e.reexecuted ∧ op = 1 ∧ (region d r).test = some s) then (d, .done 0 none)
      else if again then (d, .wait)
      else if (synth d r (idleOf (region d r))).retired then (d, .refuse stFailed 0xFFFF)
      else (writeSynth r (idleOf (region d r)) s .test false d, .wait)) d

/-- REGION_TEST (R376). -/
def execRegionTest (queue : Nat) (s : State) : Host.Outcome State Fault Refusal := run (isQueue queue) (command queue 0x0C04 (regionTestBody queue)) s

end Sys2Proof.Machine
end

