-- ==== Sys2Proof/Machine/Watches.lean ====
section
/-! DEFINITION. The watch unit (R66–R70): fires, arming and the delivery port. -/

namespace Sys2Proof.Machine
open Sys2Proof

/-- A watch stands for a fire in the slot that ends at e: registered, and not cleared in an earlier slot (R69). -/
def watchStands (x : Watch) (e : Nat) : Bool := x.used && match x.clearedAt with | some c => decide (e ≤ c) | none => true

/-- Fires that a value reached at `at_` covers beyond the first: those of C + kP that lie at or below it (R67). -/
def fireCount (x : Watch) (at_ : Nat) : Nat := if x.kind % 2 = 1 ∧ 0 < x.period then (at_ - x.condition) / x.period else 0

/-- A fire of watch w reached at value `at_`, in the slot that ends at e: one message for the fires covered; a one-time watch is then
free, a periodic one waits for the next C + kP (R66–R68). -/
def fireWatch (w at_ e tally cycle isl : Nat) (late : Bool) (d : Die) : Die :=
  let x := watch d w
  let n := fireCount x at_
  let cond := x.condition + n * x.period
  let m : WatchMsg := { slot := e, watch := w, kindFlags := watchFlags d x.kind late false, target := x.target, epoch := d.tally.epoch, merged := min 255 n, island := isl, tally := tally, cycle := cycle, condition := cond }
  modWatch w (fun y => if y.kind % 2 = 1 then { y with condition := cond + y.period } else {}) (postMessage m d)

/-- R67: at the tick V, the last multiple of 10 ns of Tally, a Tally watch whose condition holds fires; LATE where V lies past its
condition plus 10 ns. -/
def tallyWatchFire (w : Nat) (d : Die) : Die :=
  let x := watch d w
  let v := d.tally.now / 10 * 10
  if watchStands x v && x.armed && decide (x.kind < 2 ∧ x.condition ≤ v) then
    fireWatch w v v v (island d (dieRef d)).ring.count 0xFFFF (decide (x.condition + 10 < v)) d
  else d

/-- TALLY_WATCH_FIRE (R67, R68). -/
def execTallyWatchFire (watch : Nat) (s : State) : Host.Outcome State Fault Refusal := run (isWatch watch) (tallyWatchFire watch) s

/-- R67, R68: a logical watch whose count has been reached fires with its island stamp, in the slot of the first tick at or after it. -/
def cycleWatchFire (w stamp : Nat) (d : Die) : Die :=
  let x := watch d w
  let c := (island d x.island).ring.count
  if watchStands x (slotOf stamp) && x.armed && decide (2 ≤ x.kind ∧ x.condition ≤ c) then
    fireWatch w c (slotOf stamp) stamp (x.condition + fireCount x c * x.period) x.island false d
  else d

/-- CYCLE_WATCH_FIRE (R67, R68); the stamp lies within the bounds of R45. -/
def execCycleWatchFire (watch stamp : Nat) (s : State) : Host.Outcome State Fault Refusal :=
  run (isWatch watch) (cycleWatchFire watch stamp) s

/-- R67: a registered watch is armed; a logical watch whose condition has passed fires at once with LATE set. A Tally watch whose
condition has passed fires at the next tick. -/
def armWatch (w : Nat) (d : Die) : Die :=
  let x := watch d w
  let c := (island d x.island).ring.count
  if watchStands x (slotOf d.tally.now) && !x.armed then
    let d := modWatch w (fun y => { y with armed := true }) d
    if 2 ≤ x.kind ∧ x.condition ≤ c then fireWatch w c (slotOf d.tally.now) d.tally.now c x.island true d else d
  else d

/-- WATCH_ARMED (R67). -/
def execWatchArmed (watch : Nat) (s : State) : Host.Outcome State Fault Refusal := run (isWatch watch) (armWatch watch) s

/-- R68: the port offers the first message of a slot that has ended, and the synchronisation unit accepts it. -/
def deliverWatch (d : Die) : Die :=
  match d.messages with
  | m :: t => if m.slot ≤ d.tally.now then { d with messages := t, delivered := messageBytes m } else d
  | [] => d

/-- WATCH_MESSAGE_DELIVERY (R68, R70). -/
def execWatchMessageDelivery (s : State) : Host.Outcome State Fault Refusal := run true deliverWatch s

end Sys2Proof.Machine
end

