-- ==== Sys2Proof/Machine/CmdTenant.lean ====
section
/-! DEFINITION. The tenant and watch commands (R276–R283, R360–R364). -/

namespace Sys2Proof.Machine
open Sys2Proof

/-! ## tenant (R276–R283, R360–R362) -/

/-- Watches that a queue holds (R279). -/
def heldBy (d : Die) (q : Nat) : Nat :=
  ((List.range 256).filter (fun w => watchStands (watch d w) (slotOf d.tally.now) && decide ((watch d w).owner = q))).length

/-- Sum of the quotas of the tenants. -/
def quotas (d : Die) : Nat := total ((List.range 17).map (fun t => if (tenant d t).made then (tenant d t).quota else 0))

/-- A queue is reset by binding or unbinding; the command in execution on it completes first (R338). -/
def rebind (t cause : Nat) (d : Die) : Die :=
  if (queue d t).exec.isSome then modQueue t (fun x => { x with resetting := some cause }) d else queueReset t cause d

/-- A tenant is created, and its queue bound (R278, R360). -/
def createTenant (t quota : Nat) (key : Nat × Nat) (d : Die) : Die :=
  rebind t 1 (modQueue t (fun x => { x with bound := true }) (modTenant t (fun _ => { made := true, quota := quota, key := some key }) d))

/-- tenant.create. -/
def tenantCreateBody (q : Nat) (e : Exec) (p : Bytes) (d : Die) : Die × Reply :=
  let t := fld p 0 1
  let again := e.reexecuted && decide ((tenant d t).key = some (keyOf q e))
  checked [fieldCheck (decide (t = 0 ∨ 16 < t)) 0, zeroCheck p 2 4, rootCheck q,
    (!again && (tenant d t).made, stBusy, t), busyCheck (!again && decide (256 < quotas d + fld p 1 1 + heldBy d 0))]
    (fun d => (if again then d else createTenant t (fld p 1 1) (keyOf q e) d, .done 0 none)) d

/-- TENANT_CREATE (R360). -/
def execTenantCreate (queue : Nat) (s : State) : Host.Outcome State Fault Refusal := run (isQueue queue) (command queue 0x0501 (tenantCreateBody queue)) s

/-- Owner of a region once the moves accepted so far have taken effect (R276). -/
def nextOwner (d : Die) (r : Nat) : Nat := (region d r).ownerDue.getD (region d r).owner

/-- The owner has a plan loaded. -/
def hasPlan (d : Die) (o : Nat) : Bool := (List.range 16).any (fun c => match context d c with | some x => decide (x.owner = o) | none => false)

/-- The regions that a destroyed tenant gives back. -/
def givenBack (d : Die) (t : Nat) : List Nat := (presentRegions d).filter (fun r => decide (nextOwner d r = t))

/-- A tenant is destroyed (R283, R360). -/
def destroyTenant (t : Nat) (d : Die) : Die :=
  let d := each (givenBack d t) (fun r d => acceptMove r 0 d) d
  let d := each ((List.range 256).filter (fun w => decide ((watch d w).used ∧ (watch d w).owner = t))) (fun w d => modWatch w (fun _ => {}) d) d
  let d := each (presentRegions d) (fun r d => changeCeilings r (fun x => { x with guards := tset 16 x.guards t 16 }) d) d
  rebind t 2 (modQueue t (fun x => { x with bound := false }) (modTenant t (fun _ => {}) d))

/-- tenant.destroy. -/
def tenantDestroyBody (q : Nat) (_e : Exec) (p : Bytes) (d : Die) : Die × Reply :=
  let t := fld p 0 1
  checked [fieldCheck (decide (t = 0 ∨ 16 < t)) 0, zeroCheck p 1 4, rootCheck q, (!(tenant d t).made, stNotFound, t), (hasPlan d t, stBusy, t)]
    (fun d => (destroyTenant t d, .done (givenBack d t).length none)) d

/-- TENANT_DESTROY (R360). -/
def execTenantDestroy (queue : Nat) (s : State) : Host.Outcome State Fault Refusal := run (isQueue queue) (command queue 0x0502 (tenantDestroyBody queue)) s

/-- A move of the region is refused (R276). -/
def moveRefused (d : Die) (r : Nat) : Bool := inPlan d r || (pendingCommit d r).isSome || underAssay d r || (region d r).retired

/-- tenant.move. -/
def tenantMoveBody (q : Nat) (_e : Exec) (p : Bytes) (d : Die) : Die × Reply :=
  let m := fld p 0 10
  let o := fld p 10 1
  checked [zeroCheck p 9 10, zeroCheck p 11 12, rootCheck q, emptyCheck m 0, rangeCheck (decide (16 < o)) 10, absentCheck d m,
    (decide (o ≠ 0) && !(tenant d o).made, stNotFound, o), regionCheck m (moveRefused d) stBusy]
    (fun d => (each (setRegions m) (fun r d => acceptMove r o d) d, .done ((setRegions m).filter (fun r => nextOwner d r ≠ o)).length none)) d

/-- TENANT_MOVE (R361). -/
def execTenantMove (queue : Nat) (s : State) : Host.Outcome State Fault Refusal := run (isQueue queue) (command queue 0x0503 (tenantMoveBody queue)) s

/-- The fence setting of a tenant reaches the inputs of its regions (R281, R362). -/
def setFence (t src : Nat) (on : Bool) (d : Die) : Die :=
  each (ownedRegions d t) (fun r d => modRegion r (fun x => { x with fenceDue := some (on, src) }) d) (modTenant t (fun x => { x with fence := on }) d)

/-- tenant.fence. -/
def tenantFenceBody (q : Nat) (_e : Exec) (p : Bytes) (d : Die) : Die × Reply :=
  let t := fld p 0 1
  checked [fieldCheck (decide (t = 0 ∨ 16 < t)) 0, bitsCheck p 1 0xFE, zeroCheck p 2 4, (decide (q ≠ 0 ∧ q ≠ t), stNoPrivilege, t),
    readyCheck d, (!(tenant d t).made, stNotFound, t)]
    (fun d => (setFence t (if q = 0 then 1 else 0) (bit (fld p 1 1) 0) d, .done 0 none)) d

/-- TENANT_FENCE (R362). -/
def execTenantFence (queue : Nat) (s : State) : Host.Outcome State Fault Refusal := run (isQueue queue) (command queue 0x0504 (tenantFenceBody queue)) s

/-- Quota of an owner: queue 0 holds what the tenants leave (R279, R363). -/
def quotaOf (d : Die) (t : Nat) : Nat := if t = 0 then 256 - quotas d else (tenant d t).quota

/-- The owner has its fence on; that of owner 0 stands over the regions of its plan (R281). -/
def fenceOn (d : Die) (t : Nat) : Bool := if t = 0 then (ownedRegions d 0).any (fun r => (region d r).fenced) else (tenant d t).fence

/-- The 40 bytes of tenant.read (R362). A quota of 256 does not fit its byte, and the byte has no stated value (log 11). -/
def tenantBytes (d : Die) (t : Nat) : Bytes :=
  let x := tenant d t
  le 10 (regionSet (ownedRegions d t)) ++ le 1 (b1 (fenceOn d t)) ++ le 1 (if quotaOf d t < 256 then quotaOf d t else Config.freeNat d.fresh)
    ++ le 2 (fractions d (ownedRegions d t)) ++ le 2 (heldBy d t) ++ le 8 (x.raw / 1000) ++ le 8 (x.cal / 1000)
    ++ le 2 (if fenceOn d t then x.ratioMs else 0) ++ le 2 (if fenceOn d t then x.ratioS else 0) ++ zeros 4

/-- tenant.read. -/
def tenantReadBody (q : Nat) (_e : Exec) (p : Bytes) (d : Die) : Die × Reply :=
  let t := fld p 0 1
  checked [fieldCheck (decide (16 < t)) 0, zeroCheck p 1 4, (decide (q ≠ 0 ∧ q ≠ t), stNoPrivilege, t), (decide (t ≠ 0) && !(tenant d t).made, stNotFound, t)]
    (fun d => (drawFree d, .done 0 (some (tenantBytes d t)))) d

/-- TENANT_READ (R362). -/
def execTenantRead (queue : Nat) (s : State) : Host.Outcome State Fault Refusal := run (isQueue queue) (command queue 0x0505 (tenantReadBody queue)) s

/-! ## watch (R66–R69, R279, R363, R364) -/

/-- The ID is free: no watch stands under it in the slot in progress (R69). -/
def watchFree (d : Die) (w : Nat) : Bool := !watchStands (watch d w) (slotOf d.tally.now)

/-- The watch ID that watch.set takes: the one named, or the lowest free one (R363). -/
def watchId (d : Die) (p : Bytes) : Option Nat :=
  if bit (fld p 2 1) 0 then (List.range 256).find? (watchFree d) else if watchFree d (fld p 1 1) then some (fld p 1 1) else none

/-- The watch that a key has registered (R344). -/
def keyedWatch (d : Die) (k : Nat × Nat) : Option Nat := (List.range 256).find? (fun w => decide ((watch d w).used ∧ (watch d w).key = some k))

/-- Logical watches registered on an island (R66). -/
def islandWatches (d : Die) (i : Nat) : Nat := ((List.range 256).filter (fun w => !watchFree d w && decide (2 ≤ (watch d w).kind ∧ (watch d w).island = i))).length

/-- The period breaks the rule of Table 2.3. -/
def badPeriod (kind period : Nat) : Bool :=
  if kind = 1 then decide (period % 10 ≠ 0 ∨ period < 1000) else if kind = 3 then decide (period < 1024) else decide (period ≠ 0)

/-- A watch is registered (R66, R363); it is armed by WATCH_ARMED. -/
def registerWatch (q : Nat) (key : Nat × Nat) (p : Bytes) (w : Nat) (d : Die) : Die :=
  modWatch w (fun _ => { used := true, kind := fld p 0 1, island := fld p 4 2, target := fld p 6 2, condition := fld p 8 8, period := fld p 16 8, owner := q, key := some key }) d

/-- watch.set. -/
def watchSetBody (q : Nat) (e : Exec) (p : Bytes) (d : Die) : Die × Reply :=
  let kind := fld p 0 1
  let i := fld p 4 2
  let logical := decide (2 ≤ kind)
  match (if e.reexecuted then keyedWatch d (keyOf q e) else none) with
  | some w => (d, .done w none)
  | none =>
    checked [fieldCheck (decide (3 < kind)) 0, fieldCheck (bit (fld p 2 1) 0 && decide (fld p 1 1 ≠ 0)) 1, bitsCheck p 2 0xFE, zeroCheck p 3 4,
      fieldCheck (!logical && decide (i ≠ 0xFFFF)) 4, fieldCheck (logical && decide (fld p 15 1 ≠ 0)) 15,
      (logical && (regionScope d q (islandRegion i)).1, stNoPrivilege, i), readyCheck d, rangeCheck (badPeriod kind (fld p 16 8)) 16,
      (logical && (islandFound d i).1, stNotFound, i), ((watchId d p).isNone, stBusy, if bit (fld p 2 1) 0 then 0xFFFF else fld p 1 1),
      busyCheck (decide (quotaOf d q ≤ heldBy d q)), (logical && decide (4 ≤ islandWatches d i), stBusy, i)]
      (fun d => let w := (watchId d p).getD 0; (registerWatch q (keyOf q e) p w d, .done w none)) d

/-- WATCH_SET (R363). -/
def execWatchSet (queue : Nat) (s : State) : Host.Outcome State Fault Refusal := run (isQueue queue) (command queue 0x0601 (watchSetBody queue)) s

/-- watch.clear: effective from the next slot (R69). -/
def watchClearBody (q : Nat) (_e : Exec) (p : Bytes) (d : Die) : Die × Reply :=
  let w := fld p 0 1
  checked [zeroCheck p 1 4, (decide (q ≠ 0) && !watchFree d w && decide ((watch d w).owner ≠ q), stNoPrivilege, w), (watchFree d w, stNotFound, w)]
    (fun d => (modWatch w (fun x => { x with clearedAt := some (slotOf d.tally.now) }) d, .done 0 none)) d

/-- WATCH_CLEAR (R364). -/
def execWatchClear (queue : Nat) (s : State) : Host.Outcome State Fault Refusal := run (isQueue queue) (command queue 0x0602 (watchClearBody queue)) s

/-- The watch word (R364). -/
def watchWord (d : Die) (w : Nat) : Nat :=
  let x := watch d w
  if watchFree d w then 0xFFFF * 65536
  else (if d.messages.any (fun m => decide (m.watch = w)) then 2 else 1) + 256 * x.kind + 65536 * x.island

/-- watch.read; a tenant queue reads Tally watches and those of its own islands (Table 11.1). -/
def watchReadBody (q : Nat) (_e : Exec) (p : Bytes) (d : Die) : Die × Reply :=
  let w := fld p 0 1
  checked [zeroCheck p 1 4, (!watchFree d w && decide (2 ≤ (watch d w).kind) && (regionScope d q (islandRegion (watch d w).island)).1, stNoPrivilege, w)]
    (fun d => (d, .done (watchWord d w) none)) d

/-- WATCH_READ (R364). -/
def execWatchRead (queue : Nat) (s : State) : Host.Outcome State Fault Refusal := run (isQueue queue) (command queue 0x0603 (watchReadBody queue)) s

end Sys2Proof.Machine
end

