-- ==== Sys2Proof/Machine/Darni.lean ====
section
/-! DEFINITION. The mailbox queues (R326–R339): doorbells, completion heads, resets, interrupts, and the fetch of a descriptor with its checks. -/

namespace Sys2Proof.Machine
open Sys2Proof

/-! ## Registers of a queue (R326–R329, R338, R480) -/

/-- Host bytes reach the queue blocks of the command SRAM; the Chandler's own range ignores them (R326). -/
def hostCells (m : List Host.Cell) (a : Nat) : Bytes → List Host.Cell
  | [] => m
  | b :: t => hostCells (if a < 0x33000 then tset 0#8 m a b else m) (a + 1) t

/-- A host write into the command SRAM (R326). -/
def hostWrite (w : SramWrite) (d : Die) : Die := { d with sram := hostCells d.sram w.address w.data }

/-- A count modulo 2¹⁶ (R327). -/
def mod16 (v : Nat) : Nat := v % 65536

/-- Distance from count a to count b (R327). -/
def ahead (a b : Nat) : Nat := (b + 65536 - a) % 65536

/-- QUEUE_DOORBELL_WRITE (R328): a tail within 64 of the head and of the last tail is accepted; any other sets QERR and writes DOORBELL_BAD. The descriptors
that host software wrote first are in `sram` (log 4). -/
def doorbell (q tail : Nat) (sram : List SramWrite) (d : Die) : Die :=
  let d := each sram hostWrite d
  let x := queue d q
  let t := mod16 tail
  if ahead x.subHead t ≤ 64 ∧ ahead x.subTail t ≤ 64 then modQueue q (fun x => { x with subTail := t }) d
  else emit 0x0A02 (.queue q) (le 2 t ++ le 2 x.subHead ++ le 2 x.subTail) (queueInt q 1 d)

/-- QUEUE_DOORBELL_WRITE (R328). -/
def execQueueDoorbellWrite (queue tail : Nat) (sram : List SramWrite) (s : State) : Host.Outcome State Fault Refusal :=
  run (isQueue queue) (doorbell queue tail sram) s

/-- QUEUE_CQ_HEAD_WRITE (R329): a head that would pass the tail is ignored and sets QERR. -/
def cqHead (q head : Nat) (d : Die) : Die :=
  let x := queue d q
  let h := mod16 head
  if ahead x.cplHead h ≤ ahead x.cplHead x.cplTail then modQueue q (fun x => { x with cplHead := h }) d else queueInt q 1 d

/-- QUEUE_CQ_HEAD_WRITE (R329). -/
def execQueueCqHeadWrite (queue head : Nat) (s : State) : Host.Outcome State Fault Refusal := run (isQueue queue) (cqHead queue head) s

/-- QUEUE_RESET_WRITE (R338): at once, or once the command in execution has completed. -/
def resetWrite (q : Nat) (d : Die) : Die :=
  if (queue d q).resetting.isSome then d
  else if (queue d q).exec.isSome then modQueue q (fun x => { x with resetting := some 0 }) d else queueReset q 0 d

/-- QUEUE_RESET_WRITE (R338). -/
def execQueueResetWrite (queue : Nat) (s : State) : Host.Outcome State Fault Refusal := run (isQueue queue) (resetWrite queue) s

/-- QUEUE_INT_STATUS_CLEAR (R480). -/
def execQueueIntStatusClear (queue bits sameClock : Nat) (s : State) : Host.Outcome State Fault Refusal :=
  run (isQueue queue) (modQueue queue (fun x => { x with intStatus := clearBits x.intStatus bits sameClock })) s

/-- FABRIC_INT_STATUS_CLEAR (R480). -/
def execFabricIntStatusClear (bits sameClock : Nat) (s : State) : Host.Outcome State Fault Refusal :=
  run true (fun d => { d with regs := { d.regs with fintStatus := clearBits d.regs.fintStatus bits sameClock } }) s

/-! ## Fetching (R329–R337) -/

/-- The CRC of a descriptor (R332, R315). -/
def descCrcOk (b : Bytes) : Bool := decide (fld b 12 4 = crc32c (b.take 12 ++ b.drop 16))

/-- The queue can fetch (R329, R338). -/
def canFetch (x : Queue) : Bool :=
  decide (x.subHead ≠ x.subTail ∧ ahead x.cplHead x.cplTail < 64) && x.exec.isNone && x.resetting.isNone

/-- Opcode, length and staging of a descriptor's command (Table 14.1). -/
def opcodeOf (b : Bytes) : Option (Nat × Nat × Nat) := opcodes.find? (fun o => decide (o.1 = fld b 0 2))

/-- First byte in [first, 64) of a descriptor that is not zero. -/
def strayByte (b : Bytes) (first : Nat) : Option Nat := (List.range 64).find? (fun j => decide (first ≤ j ∧ fld b j 1 ≠ 0))

/-- Checks 4 to 6 as far as the header decides them (Table 13.5, R332, R340): the opcode, the length, and the reserved and STAGED bits, the reserved header
bytes and the bytes past the length. -/
def headerRefusal (b : Bytes) : Option (Nat × Nat) :=
  match opcodeOf b with
  | none => some (0x04, 0xFFFF)
  | some (op, len, stage) =>
    if fld b 8 2 ≠ len then some (0x05, 0xFFFF)
    else if 4 ≤ fld b 2 1 ∨ bit (fld b 2 1) 1 ≠ needsStaged op stage (fld b 16 1) then some (stBadField, 2)
    else if fld b 10 1 ≠ 0 then some (stBadField, 10)
    else if fld b 11 1 ≠ 0 then some (stBadField, 11)
    else (strayByte b (16 + len)).map (fun j => (stBadField, j))

/-- What a sequence number is to a queue (R334). -/
inductive SeqKind where
  | expected
  | duplicate (c : Stored)
  | bad
deriving DecidableEq, Repr

/-- The sequence check (R334). -/
def seqKind (x : Queue) (s : Nat) : SeqKind :=
  match x.expect with
  | none => .expected
  | some e => if s = e then .expected else match x.stored.find? (fun c => decide (c.seq = s)) with | some c => .duplicate c | none => .bad

/-- DESCRIPTOR_FETCH (R329–R337): the descriptor at the head passes checks 1 to 3, or completes without taking a sequence number, or is a duplicate whose
completion is posted again; it then takes its number and is refused by checks 4 to 6, or is journalled BEGIN with its staged input and is in execution. -/
def descriptorFetch (q : Nat) (d : Die) : Die :=
  let x := queue d q
  if !chandlerRuns d ∨ !canFetch x then d
  else
    let slot := x.subHead % 64
    let b := sramRead d (queueBase q + 64 * slot) 64
    let d := modQueue q (fun x => { x with subHead := mod16 (x.subHead + 1) }) d
    if !descCrcOk b then postCompletion q b slot 0x01 0 0 0xFFFF d
    else if (q ≠ 0 ∧ !x.bound) ∨ fld b 3 1 ≠ q then postCompletion q b slot stNoPrivilege 0 0 0xFFFF d
    else match seqKind x (fld b 4 4) with
      | .bad => postCompletion q b slot 0x03 0 0 0xFFFF d
      | .duplicate c => postCompletion q b slot c.status (c.flags % 2 + 2) c.result c.detail d
      | .expected =>
        let staged := if bit (fld b 2 1) 1 then sramRead d (queueBase q + 0x1400) (stagedLength (fld b 0 2)) else []
        let d := modQueue q (fun x => { x with expect := some ((fld b 4 4 + 1) % 2 ^ 32), exec := some { desc := b, slot := slot, staged := staged } }) d
        match headerRefusal b with
        | some (status, detail) => finish q (.refuse status detail) d
        | none => d

/-- DESCRIPTOR_FETCH (R330). -/
def execDescriptorFetch (queue : Nat) (s : State) : Host.Outcome State Fault Refusal := run (isQueue queue) (descriptorFetch queue) s

end Sys2Proof.Machine
end

