-- ==== Sys2Proof/Machine/Thermal.lean ====
section
/-! DEFINITION. Thermal sensors and thresholds (R257–R261, R410), the tray and the emergency stop (R262–R266) and the release of a resume (R266). -/

namespace Sys2Proof.Machine
open Sys2Proof

/-! ## Sensors (R257, R410) -/

/-- Changes the thermal state of a region. -/
def modThermal (r : Nat) (f : ThermalRegion → ThermalRegion) (d : Die) : Die := modRegion r (fun x => { x with thermal := f x.thermal }) d

/-- A reading lies within the valid range (R257). -/
def inRange (v : Int) : Bool := decide (Config.sensorLow ≤ v ∧ v ≤ Config.sensorHigh)

/-- A sensor becomes invalid: SENSOR_INVALID with cause 2 conversion or 3 range; the third onset within 10 s retires it (R410). -/
def sensorInvalid (n cause : Nat) (reading : Int) (d : Die) : Die :=
  let l := addFailure d.tally.now (sensor d n).failures
  let d := modSensor n (fun x => { x with flagged := true, failures := l }) d
  let d := emit 0x060B (.sensor n) (le 1 cause ++ zeros 1 ++ leI 2 reading) d
  if permanent l then emitRetire 7 0 3 (.sensor n) n (modSensor n (fun x => { x with retired := true }) d) else d

/-- One conversion. The reading of a conversion that failed is a free value (log 11). -/
def convert (x : SensorReading) (d : Die) : Die :=
  let s := sensor d x.sensor
  let r := x.sensor / 4
  if !present d r ∨ s.retired ∨ (rail d (regionRail r)).off then d
  else if x.ok ∧ inRange x.value then modSensor x.sensor (fun y => { y with reading := x.value, converted := true, flagged := false }) d
  else if s.flagged then (if x.ok then modSensor x.sensor (fun y => { y with reading := x.value, converted := true }) d else d)
  else if x.ok then sensorInvalid x.sensor 3 x.value (modSensor x.sensor (fun y => { y with reading := x.value, converted := true }) d)
  else sensorInvalid x.sensor 2 (Config.freeInt d.fresh) (drawFree d)

/-! ## Soft, hard and trip thresholds -/

/-- The hard threshold (R259): a region of whose rail no sensor is valid counts as at or above it (R257). -/
def evaluateHard (r : Nat) (d : Die) : Die :=
  let reached : Bool := match regionHottest d r with | some h => decide (d.limits.hard ≤ h) | none => true
  let below : Bool := match regionHottest d r with | some h => decide (h < d.limits.hard - Config.hysteresis) | none => false
  if reached then setCeiling 5 r (some 0) (modThermal r (fun t => { t with hard := true, hardBelow := none, fromReset := false }) d)
  else modThermal r (fun t => { t with hardBelow := if below then some (t.hardBelow.getD d.tally.now) else none }) d

/-- The soft threshold (R258): at assertion the ceiling falls below the lower of operating point and ceiling; a reading in the band of 3.0 °C pauses the rises. -/
def evaluateSoft (r : Nat) (d : Die) : Die :=
  let reached : Bool := match regionHottest d r with | some h => decide (d.limits.soft ≤ h) | none => true
  let below : Bool := match regionHottest d r with | some h => decide (h < d.limits.soft - Config.hysteresis) | none => false
  let x := region d r
  if reached then
    if x.thermal.soft then modThermal r (fun t => { t with softBelow := none }) d
    else setCeiling 4 r (some (stepBelow x)) (modThermal r (fun t => { t with soft := true, softStep := d.tally.now, softBelow := none, riseFrom := none }) d)
  else if below then
    modThermal r (fun t => { t with softBelow := some (t.softBelow.getD d.tally.now), riseFrom := if t.soft ∨ (ceilingAt x 4).isNone then t.riseFrom else some (t.riseFrom.getD d.tally.now) }) d
  else modThermal r (fun t => { t with softBelow := none, riseFrom := none }) d

/-- Present regions whose sensors convert: no thermal rule acts on a region whose rail is off (R440). -/
def thermalRegions (d : Die) : List Nat := (presentRegions d).filter (fun r => !(rail d (regionRail r)).off)

/-- Valid sensors of the die, ascending. -/
def validSensors (d : Die) : List Nat := ((thermalRegions d).flatMap regionSensors).filter (sensorValid d)

/-- The hottest of a list of sensors; the lowest ID of several. -/
def hottestSensor (d : Die) (l : List Nat) : Option Nat :=
  l.foldl (fun m n => match m with | none => some n | some k => if (sensor d k).reading < (sensor d n).reading then some n else some k) none

/-- The trip (R260): 115.0 °C anywhere stops the die; every valid reading below 112.0 °C begins its release. -/
def evaluateTrip (d : Die) : Die :=
  let l := validSensors d
  match hottestSensor d l with
  | none => { d with stop := { d.stop with tripBelow := none } }
  | some n =>
    if Config.trip ≤ (sensor d n).reading then
      let d := { d with stop := { d.stop with tripBelow := none } }
      if d.stop.trip then d else stopDie 2 n d
    else { d with stop := { d.stop with tripBelow := if (sensor d n).reading < Config.tripRelease then some (d.stop.tripBelow.getD d.tally.now) else none } }

/-- SENSOR_CONVERSION (R257–R260, R441). -/
def sensorConversion (readings : List SensorReading) (d : Die) : Die :=
  let d := each readings convert d
  endDormant (evaluateTrip (each (thermalRegions d) (fun r d => evaluateSoft r (evaluateHard r d)) d))

/-- SENSOR_CONVERSION (R257). -/
def execSensorConversion (readings : List SensorReading) (s : State) : Host.Outcome State Fault Refusal := run true (sensorConversion readings) s

/-- An instant that counts from `t` is n ns old. -/
def elapsed (now n : Nat) (t : Option Nat) : Bool := match t with | some v => decide (v + n ≤ now) | none => false

/-- THERMAL_SOFT_STEP (R258): one more point after each 1 ms in which the threshold stays asserted. -/
def softStep (r : Nat) (d : Die) : Die :=
  let x := region d r
  if x.thermal.soft ∧ x.thermal.softStep + 1000000 ≤ d.tally.now then
    setCeiling 4 r ((ceilingAt x 4).map (· - 1)) (modThermal r (fun t => { t with softStep := d.tally.now }) d)
  else d

/-- THERMAL_SOFT_STEP (R258). -/
def execThermalSoftStep (region : Nat) (s : State) : Host.Outcome State Fault Refusal := run (isRegion region) (softStep region) s

/-- THERMAL_SOFT_RELEASE (R258). -/
def softRelease (r : Nat) (d : Die) : Die :=
  let x := region d r
  if x.thermal.soft ∧ elapsed d.tally.now 1000000 x.thermal.softBelow then
    modThermal r (fun t => { t with soft := false, riseFrom := some d.tally.now }) d
  else d

/-- THERMAL_SOFT_RELEASE (R258). -/
def execThermalSoftRelease (region : Nat) (s : State) : Host.Outcome State Fault Refusal := run (isRegion region) (softRelease region) s

/-- THERMAL_SOFT_RISE (R258): 10 ms after the release, and after each further 10 ms; a ceiling that rises past OPP 15 is removed. -/
def softRise (r : Nat) (d : Die) : Die :=
  let x := region d r
  if !x.thermal.soft ∧ elapsed d.tally.now 10000000 x.thermal.riseFrom then
    let v := risen (ceilingAt x 4)
    setCeiling 4 r v (modThermal r (fun t => { t with riseFrom := if v.isNone then none else some d.tally.now }) d)
  else d

/-- THERMAL_SOFT_RISE (R258). -/
def execThermalSoftRise (region : Nat) (s : State) : Host.Outcome State Fault Refusal := run (isRegion region) (softRise region) s

/-- THERMAL_HARD_RELEASE (R259): the THERMAL_HARD ceiling is removed, and the soft threshold counts as asserted from this instant with its ceiling at OPP 0.
The assertion from a reset is released by its own rule, and leaves the soft threshold to its own (R261, Table 17.2). -/
def hardRelease (r : Nat) (d : Die) : Die :=
  let x := region d r
  if x.thermal.hard ∧ elapsed d.tally.now 1000000 x.thermal.hardBelow then
    let d := if x.thermal.fromReset then d
      else setCeiling 4 r (some 0) (modThermal r (fun t => { t with soft := true, softStep := d.tally.now, softBelow := none, riseFrom := none }) d)
    setCeiling 5 r none (modThermal r (fun t => { t with hard := false, fromReset := false }) d)
  else d

/-- THERMAL_HARD_RELEASE (R259). -/
def execThermalHardRelease (region : Nat) (s : State) : Host.Outcome State Fault Refusal := run (isRegion region) (hardRelease region) s

/-- THERMAL_TRIP_RELEASE (R260, R261): the trip is released, and with it the thermal hold. -/
def tripRelease (d : Die) : Die :=
  if d.stop.trip ∧ elapsed d.tally.now 10000000 d.stop.tripBelow then
    causeReleased { d with stop := { d.stop with trip := false, thermalHold := false } }
  else d

/-- THERMAL_TRIP_RELEASE (R260). -/
def execThermalTripRelease (s : State) : Host.Outcome State Fault Refusal := run true tripRelease s

/-! ## The tray (R262, R263) -/

/-- FLOW_LOSS (R262, R264): five samples have shown loss, and the die stops with cause COOLANT where flow had been released. -/
def flowLoss (mv : Nat) (ok : Bool) (d : Die) : Die :=
  if mv < 600 ∨ !ok then
    let d := { d with stop := { d.stop with senseMv := mv, flowOk := ok } }
    if d.stop.flow then stopDie 1 0xFFFF { d with stop := { d.stop with flow := false } } else d
  else d

/-- FLOW_LOSS (R262). -/
def execFlowLoss (senseMv : Nat) (flowOk : Bool) (s : State) : Host.Outcome State Fault Refusal := run true (flowLoss senseMv flowOk) s

/-- FLOW_RELEASE (R262, R263): every sample of 10 ms has shown good flow; the tray hold ends with TRAY_RELEASE. -/
def flowRelease (mv : Nat) (d : Die) : Die :=
  if 660 ≤ mv ∧ d.stop.aonGood then
    let d := { d with stop := { d.stop with senseMv := mv, flowOk := true } }
    if d.stop.flow then d
    else
      let held := d.stop.trayHold
      let d := { d with stop := { d.stop with flow := true, coolant := false, trayHold := false } }
      causeReleased (if held then trayRecord 0x060D d else d)
  else d

/-- FLOW_RELEASE (R262). -/
def execFlowRelease (senseMv : Nat) (s : State) : Host.Outcome State Fault Refusal := run true (flowRelease senseMv) s

/-! ## Emergency stop and resume (R264, R266, R475) -/

/-- ESTOP_ASSERT (R264): ESTOP_N low in two samples. -/
def estopAssert (d : Die) : Die :=
  let d := { d with stop := { d.stop with estopPin := false } }
  if d.stop.estop then d else stopDie 3 0xFFFF d

/-- ESTOP_ASSERT (R264). -/
def execEstopAssert (s : State) : Host.Outcome State Fault Refusal := run true estopAssert s

/-- ESTOP_RELEASE (R266): ESTOP_N high in every sample of 10 ms. -/
def estopRelease (d : Die) : Die :=
  let d := { d with stop := { d.stop with estopPin := true } }
  if d.stop.estop then causeReleased { d with stop := { d.stop with estop := false } } else d

/-- ESTOP_RELEASE (R266). -/
def execEstopRelease (s : State) : Host.Outcome State Fault Refusal := run true estopRelease s

/-- RESUME_RELEASE (R266): after the resume Tally, the islands are released with their counts unchanged, the COOLANT ceiling is removed, RESUME is written, and
the regions leave OPP 0. -/
def resumeRelease (d : Die) : Die :=
  match d.stop.resumeAt with
  | none => d
  | some t =>
    if d.stop.stopped ∧ t < d.tally.now then
      let causes := d.stop.stood
      let d := { d with stop := { d.stop with stopped := false, resumeAt := none, stood := 0 } }
      let d := each (presentIslands d) reopen d
      let d := fabricInt 7 (emit 0x060F .none (le 8 t ++ le 1 causes) d)
      let d := each (presentRegions d) (setCeiling 11 · none) d
      let d := throttleAll d
      each (presentRegions d) (fun r d => restore r (regrant r (fastStep r d))) d
    else d

/-- RESUME_RELEASE (R266). -/
def execResumeRelease (s : State) : Host.Outcome State Fault Refusal := run true resumeRelease s

/-- ESTOP_REGISTER_SET (R475): a stop of cause REGISTER. -/
def registerSet (d : Die) : Die := if d.stop.register then d else stopDie 4 0xFFFF d

/-- ESTOP_REGISTER_SET (R475). -/
def execEstopRegisterSet (s : State) : Host.Outcome State Fault Refusal := run true registerSet s

/-- ESTOP_REGISTER_CLEAR (R475): the REGISTER cause is released. -/
def registerClear (d : Die) : Die := if d.stop.register then causeReleased { d with stop := { d.stop with register := false } } else d

/-- ESTOP_REGISTER_CLEAR (R475). -/
def execEstopRegisterClear (s : State) : Host.Outcome State Fault Refusal := run true registerClear s

end Sys2Proof.Machine
end

