-- ==== Sys2Proof/Machine/Regs.lean ====
section
/-! DEFINITION. The MMIO window (R471–R480, Tables 19.1–19.7) and the test access port (R458, R459). -/

namespace Sys2Proof.Machine
open Sys2Proof

/-! ## What the registers read as -/

/-- State of the Chandler pair (Table 13.1). -/
def pairCode : Pair → Nat
  | .boot => 0 | .synced => 1 | .syncing => 2 | .restarting => 3 | .single => 4 | .none_ => 5 | .takeover => 6

/-- Low and high words of a 64-bit value. -/
def loWord (v : Nat) : Nat := v % 2 ^ 32
def hiWord (v : Nat) : Nat := v / 2 ^ 32 % 2 ^ 32

/-- The serial as fused, zero until step 1 completes (Table 19.1). -/
def serialNow (d : Die) : Nat := if d.startup.fusesRead then d.startup.fuses.serial else 0

/-- JCF_ID and JCF_CONFIG (Table 19.2). -/
def idWord (d : Die) : Nat := 0x4A43 + (if d.startup.fusesRead then d.startup.fuses.stepping % 256 else 0) * 2 ^ 16 + 2 ^ 24
def configWord (d : Die) : Nat :=
  if d.startup.fusesRead then
    d.startup.fuses.variant % 4 + ((List.range 72).filter (present d)).length * 2 ^ 8 + b1 d.startup.fuses.debug * 2 ^ 16
  else 0

/-- JCF_STATUS (Table 19.3). -/
def statusWord (d : Die) : Nat :=
  d.startup.ready + pairCode d.chandler.pair * 2 ^ 4 + b1 (decide (d.stop.fault ≠ 0)) * 2 ^ 8 + d.stop.fault * 2 ^ 9
    + b1 (d.stop.stopped || d.stop.faultStop.isSome) * 2 ^ 12 + b1 d.ledger.frozen * 2 ^ 13 + d.startup.step * 2 ^ 16

/-- JCF_TRAY (Table 19.3): samples read zero before step 1 completes. -/
def trayWord (d : Die) : Nat :=
  let s := d.stop
  (if d.startup.fusesRead then b1 s.flow + 2 * b1 s.flowOk + 4 * b1 s.estopPin + s.senseMv % 65536 * 2 ^ 16 else 0) + 8 * b1 s.thermtrip

/-- JCF_TALLY_STAT (Table 19.4). -/
def tallyStatWord (x : Snapshot) : Nat := x.epoch + x.flags * 2 ^ 8 + x.seq * 2 ^ 16

/-- JCF_LEDGER_STAT and JCF_DRAIN_STAT (Table 19.5). -/
def ledgerStatWord (g : Ledger) : Nat := b1 g.frozen + 2 * (if g.frozen then g.cause else 0) + g.index * 2 ^ 16
def drainStatWord (x : Drain) : Nat :=
  b1 x.running + 2 * b1 (x.running && decide ((x.tail + 2 ^ 32 - x.head) % 2 ^ 32 = x.pages)) + 4 * b1 x.failed

/-- A register of queue set q (Table 19.7). -/
def queueWord (d : Die) (q off : Nat) : Nat :=
  let x := queue d q
  if off = 0 then x.subTail
  else if off = 4 then x.subHead
  else if off = 8 then x.cplTail
  else if off = 0xC then x.cplHead
  else if off = 0x10 then
    2 * b1 x.resetting.isSome + 4 * b1 (decide (q = 0) || x.bound) + 8 * b1 x.exec.isSome + 16 * b1 x.expect.isSome
      + 32 * b1 (decide (64 ≤ ahead x.cplHead x.cplTail)) + (if x.bound then q else 0) * 2 ^ 8
  else if off = 0x14 then x.intStatus
  else if off = 0x18 then x.intEnable
  else if off = 0x1C then x.expect.getD 0
  else 0

/-- High words of the registers that R473 latches, by the offset of the _LO register. -/
def highWord (d : Die) (lo : Nat) : Nat :=
  if lo = 0x08 then hiWord (serialNow d) else if lo = 0x18 then hiWord d.regs.cmdBase else if lo = 0xC8 then hiWord d.ledger.count else 0

/-- A _HI register: the latched word where a read of its _LO register latched one, else the current word (R473). -/
def highRead (d : Die) (lo : Nat) : Nat := match d.regs.latches.find? (fun e => e.1 = lo) with | some e => e.2 | none => highWord d lo

/-- What a 32-bit word of the window reads as, without side effect (Table 19.1, R458); reserved offsets read zero (R9). -/
def mmioRead (d : Die) (off : Nat) : Nat :=
  let s := d.regs.snap
  if 0x1000 ≤ off then (if off < 0x2100 then queueWord d ((off - 0x1000) / 256) (off % 256) else 0)
  else match off with
    | 0x00 => idWord d
    | 0x04 => d.chandler.version % 2 ^ 32
    | 0x08 => loWord (serialNow d)
    | 0x0C => highRead d 0x08
    | 0x10 => configWord d
    | 0x18 => loWord d.regs.cmdBase
    | 0x1C => highRead d 0x18
    | 0x40 => statusWord d
    | 0x44 => stopCauses d
    | 0x48 => trayWord d
    | 0x4C => b1 d.stop.register
    | 0x54 => d.stop.faultDetail % 2 ^ 32
    | 0x80 => s.seq
    | 0x84 => loWord s.tally
    | 0x88 => hiWord s.tally
    | 0x8C => tallyStatWord s
    | 0x90 => loWord s.count
    | 0x94 => hiWord s.count
    | 0xC4 => ledgerStatWord d.ledger
    | 0xC8 => loWord d.ledger.count
    | 0xCC => highRead d 0xC8
    | 0xD0 => sat 32 d.ledger.dropped
    | 0xD4 => d.ledger.drain.tail
    | 0xD8 => d.ledger.drain.head
    | 0xDC => drainStatWord d.ledger.drain
    | 0x100 => d.regs.fintStatus
    | 0x104 => d.regs.fintEnable
    | 0x108 => intSummary d
    | _ => 0

/-! ## Host reads with a side effect -/

/-- TALLY_SNAPSHOT_READ (R49, R476): Tally, epoch, flags and the die reference island's count are captured, and SEQ advances. -/
def snapshotRead (d : Die) : Die :=
  let t := d.tally
  let q := (d.regs.snap.seq + 1) % 65536
  { d with regs := { d.regs with
    readValue := q
    snap := { seq := q, tally := t.now, epoch := t.epoch, flags := b1 t.holdover + 2 * b1 t.slewing + 4 * b1 t.settled, count := (island d (dieRef d)).ring.count } } }

/-- TALLY_SNAPSHOT_READ (R476). -/
def execTallySnapshotRead (s : State) : Host.Outcome State Fault Refusal := run true snapshotRead s

/-- LO_REGISTER_READ (R473): a _LO register that R473 covers latches its high word; the snapshot registers are read without latching (R476). -/
def loRead (off : Nat) (d : Die) : Die :=
  if off = 0x08 ∨ off = 0x18 ∨ off = 0xC8 then
    { d with regs := { d.regs with readValue := mmioRead d off, latches := (off, highWord d off) :: d.regs.latches.filter (fun e => e.1 ≠ off) } }
  else if off = 0x84 ∨ off = 0x90 then { d with regs := { d.regs with readValue := mmioRead d off } }
  else d

/-- LO_REGISTER_READ (R473). -/
def execLoRegisterRead (offset : Nat) (s : State) : Host.Outcome State Fault Refusal := run true (loRead offset) s

/-! ## Writes -/

/-- LEDGER_FREEZE_WRITE (R477): a write of 1 freezes the Ledger with cause HOST; a frozen one is left as it is. -/
def freezeWrite (value : Nat) (d : Die) : Die := if bit value 0 ∧ !d.ledger.frozen then freeze 4 d else d

/-- LEDGER_FREEZE_WRITE (R477). -/
def execLedgerFreezeWrite (value : Nat) (s : State) : Host.Outcome State Fault Refusal := run true (freezeWrite value) s

/-- Distance from page a to page b, modulo 2³² (R478). -/
def pagesAhead (a b : Nat) : Nat := (b + 2 ^ 32 - a) % 2 ^ 32

/-- DRAIN_HEAD_WRITE (R478): a head that does not pass the tail is accepted; any other sets DRAIN_ERR. -/
def drainHeadWrite (head : Nat) (d : Die) : Die :=
  let x := d.ledger.drain
  let h := head % 2 ^ 32
  if pagesAhead x.head h ≤ pagesAhead x.head x.tail then drainPump 8 (modDrain (fun y => { y with head := h }) d) else fabricInt 4 d

/-- DRAIN_HEAD_WRITE (R478). -/
def execDrainHeadWrite (head : Nat) (s : State) : Host.Outcome State Fault Refusal := run true (drainHeadWrite head) s

/-- A write of a field without behaviour of its own: the interrupt enables (Tables 19.6 and 19.7). Every other offset is reserved, read-only, or has its own
command, and is left as it is (R471). -/
def enableWrite (off value : Nat) (d : Die) : Die :=
  if off = 0x104 then { d with regs := { d.regs with fintEnable := value % 256 } }
  else if 0x1000 ≤ off ∧ off < 0x2100 ∧ off % 256 = 0x18 then modQueue ((off - 0x1000) / 256) (fun x => { x with intEnable := value % 8 }) d
  else d

/-- REGISTER_WRITE_GENERIC (R471): only aligned accesses of 32 bits act. -/
def genericWrite (off bytes value : Nat) (d : Die) : Die := if bytes = 4 ∧ off % 4 = 0 then enableWrite off value d else d

/-- REGISTER_WRITE_GENERIC (R471). -/
def execRegisterWriteGeneric (offset bytes value : Nat) (s : State) : Host.Outcome State Fault Refusal := run true (genericWrite offset bytes value) s

/-- A write of a queue set's word (Table 19.7). -/
def queueWrite (q off value : Nat) (d : Die) : Die :=
  if off = 0 then doorbell q value [] d
  else if off = 0xC then cqHead q value d
  else if off = 0x10 then (if bit value 0 then resetWrite q d else d)
  else if off = 0x14 then modQueue q (fun x => { x with intStatus := clearBits x.intStatus value 0 }) d
  else enableWrite (0x1000 + 256 * q + off) value d

/-- A host write of one word of the window (R471). -/
def mmioWrite (off value : Nat) (d : Die) : Die :=
  if 0x1000 ≤ off then (if off < 0x2100 then queueWrite ((off - 0x1000) / 256) (off % 256) value d else d)
  else match off with
    | 0x4C => if bit value 0 then registerSet d else registerClear d
    | 0x50 => fabricResetWrite value d
    | 0xC0 => freezeWrite value d
    | 0xD8 => drainHeadWrite value d
    | 0x100 => { d with regs := { d.regs with fintStatus := clearBits d.regs.fintStatus value 0 } }
    | _ => enableWrite off value d

/-! ## Test access (R458, R459) -/

/-- FABRIC_WORD_UPDATE (R458, R459): bits [13:0] word address, 14 write, [47:16] data. A read is captured next; a write acts as a host write where the debug
fuse is 1. -/
def fabricWord (w : Nat) (d : Die) : Die :=
  let off := 4 * (w % 2 ^ 14)
  if !d.stop.aonGood then d
  else if bit w 14 then (if d.startup.fusesRead ∧ d.startup.fuses.debug then mmioWrite off (w / 2 ^ 16 % 2 ^ 32) d else d)
  else { d with regs := { d.regs with testData := mmioRead d off } }

/-- FABRIC_WORD_UPDATE (R458). -/
def execFabricWordUpdate (word : Nat) (s : State) : Host.Outcome State Fault Refusal := run true (fabricWord word) s

/-- LEDGER_RECORD_UPDATE (R458): a record is selected for the next capture. -/
def ledgerSelect (index : Nat) (d : Die) : Die :=
  if d.stop.aonGood then { d with regs := { d.regs with testIndex := index % 65536 } } else d

/-- LEDGER_RECORD_UPDATE (R458). -/
def execLedgerRecordUpdate (index : Nat) (s : State) : Host.Outcome State Fault Refusal := run true (ledgerSelect index) s

/-- The record that Capture-DR places in LEDGER_RECORD (R458): that at the ring index selected; zeros where none has been written there. -/
def capturedRecord (d : Die) : Bytes :=
  let g := d.ledger
  let back := (g.index + Config.ledgerRecords - d.regs.testIndex) % Config.ledgerRecords
  let age := if back = 0 then Config.ledgerRecords else back
  match (if age ≤ g.ring.length then g.ring[g.ring.length - age]? else none) with | some x => recordBytes x | none => zeros 32

/-- TEST_INSTRUCTION_UPDATE (R459): the fabric stops or resumes driving the AVSBus, PMBus and CAL_SPI pins. -/
def testForce (on : Bool) (d : Die) : Die := { d with stop := { d.stop with testForce := on } }

/-- TEST_INSTRUCTION_UPDATE (R459). -/
def execTestInstructionUpdate (inForce : Bool) (s : State) : Host.Outcome State Fault Refusal := run true (testForce inForce) s

end Sys2Proof.Machine
end

