-- ==== Sys2Proof/Machine/CmdFabric.lean ====
section
/-! DEFINITION. The tally and fabric commands (R49, R51, R60, R65, R73, R266, R377–R379, R426, R437). -/

namespace Sys2Proof.Machine
open Sys2Proof

/-! ## tally (R51, R60, R65, R377) -/

/-- A new Tally priority (R51, R52): it stands in the die's next frame, which a master sends with its own. -/
def setPriority (v : Nat) (d : Die) : Die := nameBackup (modTally (fun t => { t with priority := v, masterPrio := if t.role = 1 then v else t.masterPrio }) d)

/-- tally.priority. -/
def tallyPriorityBody (q : Nat) (_e : Exec) (p : Bytes) (d : Die) : Die × Reply :=
  checked [zeroCheck p 1 4, rootCheck q] (fun d => (setPriority (fld p 0 1) d, .done 0 none)) d

/-- TALLY_PRIORITY (R377). -/
def execTallyPriority (queue : Nat) (s : State) : Host.Outcome State Fault Refusal := run (isQueue queue) (command queue 0x0D01 (tallyPriorityBody queue)) s

/-- The side's time is declared authoritative (R60). -/
def authoritative (d : Die) : Die := emit 0x0807 .none (le 1 d.tally.epoch) (modTally (fun t => { t with holdover := false }) d)

/-- A foreign die realigns: it takes the lineage it met as its own, and steps Tally by the offset it measured (R65). -/
def realign (d : Die) : Die :=
  let t := d.tally
  let p := (link d t.foreignLink).partner
  let d := followPartner t.foreignLink (modTally (fun t => { t with foreign := false, joined := true, rejoinEpoch := none, holdover := bit p.flags 0 }) d)
  tallyStep t.foreignOffset p.epoch 1 d

/-- A plan is loaded or a watch armed (R65). -/
def anyPlanOrWatch (d : Die) : Bool := (List.range 16).any (fun c => (context d c).isSome) || (List.range 256).any (fun w => !watchFree d w)

/-- tally.authority. -/
def tallyAuthorityBody (q : Nat) (_e : Exec) (p : Bytes) (d : Die) : Die × Reply :=
  let op := fld p 0 1
  checked [fieldCheck (decide (1 < op)) 0, zeroCheck p 1 4, rootCheck q, readyCheck d,
    busyCheck (decide (op = 0) && !(decide (d.tally.role = 1) && d.tally.holdover)), busyCheck (decide (op = 1) && (!d.tally.foreign || anyPlanOrWatch d))]
    (fun d => (if op = 0 then authoritative d else realign d, .done 0 none)) d

/-- TALLY_AUTHORITY (R377). -/
def execTallyAuthority (queue : Nat) (s : State) : Host.Outcome State Fault Refusal := run (isQueue queue) (command queue 0x0D02 (tallyAuthorityBody queue)) s

/-- Flags byte of tally.read. -/
def treeFlags (d : Die) : Nat :=
  let t := d.tally
  packBits [t.holdover, t.slewing, t.settled, decide (t.role = 1), decide (t.role = 2), decide (t.hops = 15), t.foreign]

/-- The 32 bytes of tally.read. -/
def tallyBytes (d : Die) : Bytes :=
  let t := d.tally
  le 8 t.now ++ le 1 t.epoch ++ le 1 (treeFlags d) ++ le 1 t.hops ++ le 1 t.priority ++ le 2 (t.master.getD 0xFFFF) ++ le 2 (t.backup.getD 0xFFFF)
    ++ leI 4 t.rate ++ le 1 (t.parent.getD 0xFF) ++ zeros 3 ++ leI 4 t.average ++ zeros 4

/-- tally.read. -/
def tallyReadBody (_q : Nat) (_e : Exec) (_p : Bytes) (d : Die) : Die × Reply := (d, .done (treeFlags d + 256 * d.tally.hops) (some (tallyBytes d)))

/-- TALLY_READ (R377). -/
def execTallyRead (queue : Nat) (s : State) : Host.Outcome State Fault Refusal := run (isQueue queue) (command queue 0x0D03 (tallyReadBody queue)) s

/-! ## fabric.read and fabric.ref (R73, R172, R378, R379) -/

/-- References byte of fabric.read. -/
def refByte (d : Die) : Nat := packBits [decide (d.clocks.selected = 1), d.clocks.refA.qualified, d.clocks.refB.qualified, decide (d.clocks.preferred = 1), d.clocks.revertive]

/-- Roots byte of fabric.read: root 1 live, the warm root locked, a root retired. -/
def rootByte (d : Die) : Nat := packBits [decide (d.clocks.liveRoot = 1), (root d (1 - d.clocks.liveRoot)).locked, d.clocks.root0.retired || d.clocks.root1.retired]

/-- The 64 bytes of fabric.read. -/
def fabricBytes (d : Die) : Bytes :=
  let x := d.limits
  le 1 d.startup.ready ++ le 1 (pairCode d.chandler.pair) ++ le 1 (refByte d) ++ le 1 (rootByte d) ++ le 1 (stopCauses d) ++ le 1 d.startup.fuses.variant
    ++ le 2 (sat 16 d.startup.differences) ++ le 10 (regionSet (presentRegions d)) ++ le 10 (regionSet ((presentRegions d).filter (fun r => (region d r).retired))) ++ zeros 4
    ++ le 8 x.lastCaused ++ le 8 x.lastSuffered ++ le 2 x.share ++ zeros 6 ++ le 8 x.shareEnd

/-- fabric.read. -/
def fabricReadBody (_q : Nat) (_e : Exec) (_p : Bytes) (d : Die) : Die × Reply := (d, .done 0 (some (fabricBytes d)))

/-- FABRIC_READ (R379). -/
def execFabricRead (queue : Nat) (s : State) : Host.Outcome State Fault Refusal := run (isQueue queue) (command queue 0x0E01 (fabricReadBody queue)) s

/-- Preference and revertive mode are set; the selection requested is made, or in revertive mode that of the preferred reference (R73). -/
def setReference (flags select : Nat) (d : Die) : Die :=
  let want := b1 (bit flags 0)
  let d := { d with clocks := { d.clocks with preferred := want, revertive := bit flags 1 } }
  if bit flags 2 then (if d.clocks.selected = select then d else refSwitch select 2 d)
  else if bit flags 1 ∧ d.clocks.everQualified ∧ d.clocks.selected ≠ want ∧ refUsable d want then refSwitch want 3 d
  else d

/-- fabric.ref. -/
def fabricRefBody (q : Nat) (_e : Exec) (p : Bytes) (d : Die) : Die × Reply :=
  let flags := fld p 0 1
  checked [bitsCheck p 0 0xF8, bitsCheck p 1 0xFE, zeroCheck p 2 4, rootCheck q, (bit flags 2 && !refUsable d (fld p 1 1 % 2), stNotLocked, fld p 1 1 % 2)]
    (fun d => (setReference flags (fld p 1 1 % 2) d, .done 0 none)) d

/-- FABRIC_REF (R378). -/
def execFabricRef (queue : Nat) (s : State) : Host.Outcome State Fault Refusal := run (isQueue queue) (command queue 0x0E02 (fabricRefBody queue)) s

/-! ## fabric.resume (R266, R378) -/

/-- A fault stop that fabric.resume cannot end, or cannot end yet: only fault 1 ends so, once a reference is qualified and a root locked (Table 16.3). -/
def faultStands (d : Die) : Bool :=
  match d.stop.faultStop with
  | none => false
  | some 1 => !((refUsable d 0 || refUsable d 1) && (d.clocks.root0.locked || d.clocks.root1.locked))
  | some _ => true

/-- The die cannot resume now (R378): it is not stopped, a cause stands, or a release is scheduled. -/
def resumeRefused (d : Die) : Bool := !d.stop.stopped || decide (stopCauses d ≠ 0) || faultStands d || d.stop.resumeAt.isSome

/-- Acceptance of fabric.resume (R266): the release is scheduled and the die rises to OPP 0. -/
def acceptResume (t : Nat) (d : Die) : Die :=
  let d := { d with stop := { d.stop with
    resumeAt := some t
    fault := if d.stop.faultStop = some 1 then 0 else d.stop.fault
    faultStop := none } }
  railsUp (raiseDie d)

/-- fabric.resume. -/
def fabricResumeBody (q : Nat) (e : Exec) (p : Bytes) (d : Die) : Die × Reply :=
  let t := fld p 0 8
  let again := e.reexecuted && decide (d.stop.resumeAt = some t)
  checked [zeroCheck p 8 16, rootCheck q, readyCheck d, busyCheck (!again && resumeRefused d), (!again && !legalTally d t 500000, stStale, 0xFFFF)]
    (fun d => (if again then d else acceptResume t d, .done 0 none)) d

/-- FABRIC_RESUME (R378). -/
def execFabricResume (queue : Nat) (s : State) : Host.Outcome State Fault Refusal := run (isQueue queue) (command queue 0x0E03 (fabricResumeBody queue)) s

/-! ## fabric.topology and fabric.power (R379, R426–R428, R437) -/

/-- First staged byte of a descriptor with a reserved bit set (Table 17.3). -/
def descriptorReserved (b : Bytes) : Option Nat :=
  ((List.range 272).find? (fun j =>
    if j = 7 ∨ (48 ≤ j ∧ j < 112 ∧ j % 2 = 1) then decide (64 ≤ fld b j 1) else if j = 46 ∨ j = 47 ∨ 268 ≤ j then decide (fld b j 1 ≠ 0) else false))

/-- First staged byte of a descriptor whose magic or version is not the one of Table 17.3. -/
def descriptorUnknown (b : Bytes) : Option Nat := if fld b 0 4 ≠ 0x4A435444 then some 0 else if fld b 4 1 ≠ 1 then some 4 else none

/-- A descriptor is accepted: the first one sets the die ID, and the check begins where step 9 has been reached (R426–R428). -/
def acceptDescriptor (b : Bytes) (d : Die) : Die :=
  let d := modTally (fun t => { t with dieId := some (t.dieId.getD (fld b 6 2 % 2 ^ 14)) }) d
  { d with startup := { d.startup with descriptor := some b, checkSince := if 9 ≤ d.startup.step then some d.tally.now else d.startup.checkSince } }

/-- The check that this fabric.topology asked for is under way. -/
def checkRuns (b : Bytes) (d : Die) : Bool := decide (d.startup.descriptor = some b) && (d.startup.checkSince.isSome || decide (d.startup.step < 9))

/-- The check runs at once where every expected link is up, else it waits (R427). -/
def beginCheck (hbm : Nat) (b : Bytes) (d : Die) : Die :=
  let d := acceptDescriptor b d
  if d.startup.checkSince.isSome ∧ linksUp d then compareTopology hbm d else d

/-- fabric.topology: it completes with its check. -/
def fabricTopologyBody (q hbm : Nat) (e : Exec) (p : Bytes) (d : Die) : Die × Reply :=
  let b := e.staged.take 272
  let again := e.reexecuted && checkRuns b d
  checked [zeroCheck p 2 8, ((descriptorReserved b).isSome, stBadField, 0x8000 + (descriptorReserved b).getD 0), rootCheck q, rangeCheck (decide (fld p 0 2 ≠ 272)) 0,
    ((descriptorUnknown b).isSome, stRange, 0x8000 + (descriptorUnknown b).getD 0)]
    (fun d => (if again then d else beginCheck hbm b d, .wait)) d

/-- FABRIC_TOPOLOGY (R379). -/
def execFabricTopology (queue hbmTrained : Nat) (s : State) : Host.Outcome State Fault Refusal := run (isQueue queue) (command queue 0x0E04 (fabricTopologyBody queue hbmTrained)) s

/-- fabric.power: the tolerance of each region of the set; the regions move at REGION_IDLE_CHANGE. -/
def fabricPowerBody (q : Nat) (_e : Exec) (p : Bytes) (d : Die) : Die × Reply :=
  let m := fld p 0 10
  checked [zeroCheck p 10 12, rootCheck q, readyCheck d, emptyCheck m 0, absentCheck d m]
    (fun d => (each (setRegions m) (fun r d => modRegion r (fun x => { x with tolerance := fld p 12 4 }) d) d, .done 0 none)) d

/-- FABRIC_POWER (R379). -/
def execFabricPower (queue : Nat) (s : State) : Host.Outcome State Fault Refusal := run (isQueue queue) (command queue 0x0E05 (fabricPowerBody queue)) s

end Sys2Proof.Machine
end

