-- ==== Sys2Proof/Machine/Guard.lean ====
section
/-! DEFINITION. The fence guard (R284, R285): the ratios of fenced tenants, the caps on owners who disturb them, and the rise of the caps. -/

namespace Sys2Proof.Machine
open Sys2Proof

/-- Fenced regions of an owner (R281). -/
def fencedRegions (d : Die) (v : Nat) : List Nat := (presentRegions d).filter (fun r => (region d r).fenced && decide ((region d r).owner = v))

/-- A region's disturbance over its last n windows, in units of `Config.ring20` (R284). -/
def disturbOver (d : Die) (n r : Nat) : Nat := total ((region d r).energy.disturb.take n)

/-- The largest disturbance over a tenant's regions, which gives its ratio (R284). -/
def worst (d : Die) (n v : Nat) : Nat := (fencedRegions d v).foldl (fun m r => max m (disturbOver d n r)) 0

/-- The ratios, Q0.16: 1 ms over 100 windows, 1 s over 100,000 (R284). -/
def ratioMs (d : Die) (v : Nat) : Nat := sat 16 (worst d 100 v * 65536 / (50000 * Config.ring20))
def ratioS (d : Die) (v : Nat) : Nat := sat 16 (worst d 100000 v * 65536 / (50000000 * Config.ring20))

/-- A disturbance exceeds 2.0 % of 1 ms, or 0.3 % of 1 s (R285). -/
def breaches (test n : Nat) : Bool := if test = 0 then decide (1000 * Config.ring20 < n) else decide (150000 * Config.ring20 < n)

/-- Windows of a test: 0 1 ms, 1 1 s. -/
def windowsOf (test : Nat) : Nat := if test = 0 then 100 else 100000

/-- The owner other than v with the largest variation on rail k; ties go to the lowest (R285). -/
def largestOther (d : Die) (k v : Nat) : Nat :=
  ((List.range 17).filter (· ≠ v)).foldl (fun b o => if variation d k b < variation d k o then o else b) (if v = 0 then 1 else 0)

/-- The guard ceiling that fenced owner v puts on region r; 16 is none (R285). -/
def setGuard (v c r : Nat) (d : Die) : Die := changeCeilings r (fun x => { x with guards := tset 16 x.guards v c }) d

/-- The guard acts on rail k for fenced tenant v (R285, R288): FENCE_GUARD, the cap of the owner found, and its attribution. -/
def guardRail (v test k : Nat) (d : Die) : Die :=
  let bad := (fencedRegions d v).filter (fun r => decide (regionRail r = k) && breaches test (disturbOver d (windowsOf test) r))
  match bad with
  | [] => d
  | r :: _ =>
    let o := largestOther d k v
    let caps := decide (variation d k v < variation d k o)
    let most := bad.foldl (fun m q => if disturbOver d (windowsOf test) m < disturbOver d (windowsOf test) q then q else m) r
    let d := emit 0x070A (.rail k) (le 1 v ++ le 1 (if caps then o else 0xFF) ++ le 1 test ++ zeros 1 ++ le 2 (ratioMs d v) ++ le 2 (ratioS d v)) d
    if caps then
      let d := each ((railRegions d k).filter (fun q => decide ((region d q).owner = o))) (setGuard v 0) d
      attribTo 0x070A most o (shareQ8 (variation d k) v) 0xFFFF d
    else d

/-- The guard acts for tenant v at the window that ends at e (R285). -/
def guardTenant (e v : Nat) (d : Die) : Die :=
  if (fencedRegions d v).isEmpty then modTenant v (fun t => { t with ratioMs := 0, ratioS := 0, calmSince := none }) d
  else
    let ms := worst d 100 v
    let s := worst d 100000 v
    let calm := decide (ms ≤ 500 * Config.ring20 ∧ s ≤ 100000 * Config.ring20)
    let d := modTenant v (fun t => { t with ratioMs := ratioMs d v, ratioS := ratioS d v, calmSince := if calm then some (t.calmSince.getD e) else none }) d
    let d := if breaches 0 ms then each (List.range 4) (guardRail v 0) d else d
    if e % 10000000 = 0 ∧ breaches 1 s then each (List.range 4) (guardRail v 1) d else d

/-- GUARD_EVALUATION (R285): 2 µs after a window's end, once. -/
def guardEvaluation (d : Die) : Die :=
  let e := d.limits.intervalEnd / 10000 * 10000
  if e ≤ d.limits.guardEnd ∨ d.tally.now < e + 2000 then d
  else each (List.range 17) (guardTenant e) { d with limits := { d.limits with guardEnd := e } }

/-- GUARD_EVALUATION (R285). -/
def execGuardEvaluation (s : State) : Host.Outcome State Fault Refusal := run true guardEvaluation s

/-- The guard ceilings that tenant v caused rise by one point at the multiple t of 10 ms, where the conditions have held for 10 ms (R285). -/
def guardRise (t v : Nat) (d : Die) : Die :=
  match (tenant d v).calmSince with
  | some c =>
    if c + 10000000 ≤ t ∧ (tenant d v).riseAt < t then
      each (presentRegions d) (fun r d => let g := tget 16 (region d r).guards v; if g < 16 then setGuard v (g + 1) r d else d)
        (modTenant v (fun x => { x with riseAt := t }) d)
    else d
  | none => d

/-- GUARD_CEILING_RISE (R285). -/
def guardCeilingRise (d : Die) : Die := each (List.range 17) (guardRise (d.tally.now / 10000000 * 10000000)) d

/-- GUARD_CEILING_RISE (R285). -/
def execGuardCeilingRise (s : State) : Host.Outcome State Fault Refusal := run true guardCeilingRise s

end Sys2Proof.Machine
end

