-- ==== Sys2Proof/Machine/Synth.lean ====
section
/-! DEFINITION. The region synthesizers' events (R91–R98, R406) and the restart of a stopped Drover lane (R123). -/

namespace Sys2Proof.Machine
open Sys2Proof

/-- The search of R91 after trial slots 1–6, whose counts come in slot order: the band, its count, and the count of band + 1. -/
def searchTrials (counts : List Nat) : Nat × Option Nat × Option Nat :=
  (List.range 6).foldl (fun (s : Nat × Option Nat × Option Nat) n =>
    let c := counts.getD n 0
    if c < 200 then (s.1 + 2 ^ (5 - n), some c, s.2.2)
    else if n = 5 then (s.1, s.2.1, some c) else s) (0, none, none)

/-- How far a count lies from the expected 200. -/
def offCount (c : Nat) : Nat := if c < 200 then 200 - c else c - 200

/-- The band the search chooses (R91); the seventh count is that of slot 7, idle when the bit-0 trial was dropped after one was kept. -/
def searchBand (counts : List Nat) : Nat :=
  let s := searchTrials counts
  let cb := match s.2.1 with | some c => c | none => counts.getD 6 0
  let cu := match s.2.1, s.2.2 with
    | none, cu => cu
    | some _, some c => some c
    | some _, none => if s.1 < 63 then some (counts.getD 6 0) else none
  match cu with
  | some c => if offCount c < offCount cb then s.1 + 1 else s.1
  | none => s.1

/-- R91, R93: the seven slots of a search end 17.00 µs after the write, and the loop closes on the band. -/
def bandSearchDone (r sy : Nat) (counts : List Nat) (d : Die) : Die :=
  let x := synth d r sy
  if x.phase = .searching ∧ x.writtenAt + 17000 ≤ d.tally.now then
    modSynth r sy (fun x => { x with phase := .settling, band := searchBand counts }) d
  else d

/-- SYNTH_BAND_SEARCH_DONE (R91). -/
def execSynthBandSearchDone (region synth : Nat) (counts : List Nat) (s : State) : Host.Outcome State Fault Refusal :=
  run (isSynth region synth) (bandSearchDone region synth counts) s

/-- R94: a lock window matches within ±1 of 2,048; the second in a row declares lock, and the second mismatch in a row loses it. -/
def lockWindow (r sy count : Nat) (d : Die) : Die :=
  let x := synth d r sy
  let ok := decide (2047 ≤ count ∧ count ≤ 2049)
  match x.phase with
  | .settling =>
    if !ok then modSynth r sy (fun x => { x with matching := 0 }) d
    else if x.matching + 1 < 2 then modSynth r sy (fun x => { x with matching := x.matching + 1 }) d
    else declareLock r sy (modSynth r sy (fun x => { x with matching := 2 }) d)
  | .locked =>
    if ok then modSynth r sy (fun x => { x with missing := 0 }) d
    else if x.missing + 1 < 2 then modSynth r sy (fun x => { x with missing := x.missing + 1 }) d
    else synthLoss r sy 0 d
  | _ => d

/-- SYNTH_LOCK_WINDOW_END (R94). -/
def execSynthLockWindowEnd (region synth count : Nat) (s : State) : Host.Outcome State Fault Refusal :=
  run (isSynth region synth) (lockWindow region synth count) s

/-- R94: while the flag is set, a count of 64 reference cycles that differs from 64 by more than 2 loses lock. -/
def excursion (r sy count : Nat) (d : Die) : Die :=
  if (synth d r sy).lock && decide (count < 62 ∨ 66 < count) then synthLoss r sy 1 d else d

/-- SYNTH_EXCURSION (R94). -/
def execSynthExcursion (region synth count : Nat) (s : State) : Host.Outcome State Fault Refusal :=
  run (isSynth region synth) (excursion region synth count) s

/-- R95: an acquisition fails 120 µs after its write. -/
def acquisitionTimeout (r sy : Nat) (d : Die) : Die :=
  let x := synth d r sy
  if (x.phase = .searching ∨ x.phase = .settling) ∧ x.writtenAt + 120000 ≤ d.tally.now then acquisitionFail r sy d else d

/-- SYNTH_ACQUISITION_TIMEOUT (R95). -/
def execSynthAcquisitionTimeout (region synth : Nat) (s : State) : Host.Outcome State Fault Refusal :=
  run (isSynth region synth) (acquisitionTimeout region synth) s

/-- R406: 10 µs after its failure a synthesizer is acquired again, by search, at the live setting. -/
def retryAcquire (r sy : Nat) (d : Die) : Die :=
  let x := synth d r sy
  match x.retryAt with
  | some t =>
    if t ≤ d.tally.now ∧ x.phase = .failed ∧ !x.retired then
      writeSynth r sy (liveSetting d r) (if (region d r).select.isNone then .recover else .standby) true d
    else d
  | none => d

/-- SYNTH_RETRY_ACQUIRE (R406). -/
def execSynthRetryAcquire (region synth : Nat) (s : State) : Host.Outcome State Fault Refusal :=
  run (isSynth region synth) (retryAcquire region synth) s

/-- R123: a lane stopped by a clock loss restarts on its own region's clock or on an eligible lender; without either, DROVER_STALL is
written once. -/
def droverRestart (r : Nat) (d : Die) : Die :=
  let x := region d r
  let go := fun (stalled : Bool) =>
    if clockPresent d r then droverReturn r d
    else match lenderOf d r with
      | some q => lendTo r q (if x.retired then 6 else 3) d
      | none => if stalled then d else emit 0x010D (.region r) [] (modRegion r (fun x => { x with drover := .stalled }) d)
  if d.dormant.in_ then d else match x.drover with
  | .stopped => go false
  | .stalled => go true
  | _ => d

/-- DROVER_RESTART (R123). -/
def execDroverRestart (region : Nat) (s : State) : Host.Outcome State Fault Refusal := run (isRegion region) (droverRestart region) s

end Sys2Proof.Machine
end

