-- ==== Sys2Proof/Machine/Dispatch.lean ====
section
/-! DEFINITION. The meaning of each command: one arm per constructor of `Instr`, in the table's order. -/

namespace Sys2Proof.Machine
open Sys2Proof

/-- The effect of a command on everything but the queue. -/
def exec (i : Instr) (s : State) : Host.Outcome State Fault Refusal :=
  match i with
  | .aonPowerGood => Sys2Proof.Machine.execAonPowerGood s
  | .aonPowerFail => Sys2Proof.Machine.execAonPowerFail s
  | .aonUndervoltage lowestMv => Sys2Proof.Machine.execAonUndervoltage lowestMv s
  | .packageWarmReset => Sys2Proof.Machine.execPackageWarmReset s
  | .startupStepComplete seen => Sys2Proof.Machine.execStartupStepComplete seen s
  | .firmwareBroadcast result0 result1 version => Sys2Proof.Machine.execFirmwareBroadcast result0 result1 version s
  | .bootImageTimeout => Sys2Proof.Machine.execBootImageTimeout s
  | .topologyCheckTimeout hbmTrained => Sys2Proof.Machine.execTopologyCheckTimeout hbmTrained s
  | .topologyCheckComplete hbmTrained => Sys2Proof.Machine.execTopologyCheckComplete hbmTrained s
  | .refActivityLoss ref => Sys2Proof.Machine.execRefActivityLoss ref s
  | .refFrequencyWindowEnd ref count => Sys2Proof.Machine.execRefFrequencyWindowEnd ref count s
  | .noReferenceTimeout => Sys2Proof.Machine.execNoReferenceTimeout s
  | .rootLockLoss errorNs => Sys2Proof.Machine.execRootLockLoss errorNs s
  | .rootDisagreement errorNs => Sys2Proof.Machine.execRootDisagreement errorNs s
  | .rootSwitchConfirm fail0 fail1 => Sys2Proof.Machine.execRootSwitchConfirm fail0 fail1 s
  | .synthBandSearchDone region synth counts => Sys2Proof.Machine.execSynthBandSearchDone region synth counts s
  | .synthLockWindowEnd region synth count => Sys2Proof.Machine.execSynthLockWindowEnd region synth count s
  | .synthExcursion region synth count => Sys2Proof.Machine.execSynthExcursion region synth count s
  | .synthAcquisitionTimeout region synth => Sys2Proof.Machine.execSynthAcquisitionTimeout region synth s
  | .synthRetryAcquire region synth => Sys2Proof.Machine.execSynthRetryAcquire region synth s
  | .injectionWindowEnd island periods => Sys2Proof.Machine.execInjectionWindowEnd island periods s
  | .injectionAcquisitionTimeout island => Sys2Proof.Machine.execInjectionAcquisitionTimeout island s
  | .bellowsSettleDone island => Sys2Proof.Machine.execBellowsSettleDone island s
  | .injectionResume island => Sys2Proof.Machine.execInjectionResume island s
  | .phaseStep island tFree => Sys2Proof.Machine.execPhaseStep island tFree s
  | .ringPeriod island obs => Sys2Proof.Machine.execRingPeriod island obs s
  | .plumbDisagreementResolved island replica => Sys2Proof.Machine.execPlumbDisagreementResolved island replica s
  | .alertIntervalEnd => Sys2Proof.Machine.execAlertIntervalEnd s
  | .marginReleaseTimeout region => Sys2Proof.Machine.execMarginReleaseTimeout region s
  | .unplannedStepBoundary => Sys2Proof.Machine.execUnplannedStepBoundary s
  | .droverRestart region => Sys2Proof.Machine.execDroverRestart region s
  | .edgeActivation edge side => Sys2Proof.Machine.execEdgeActivation edge side s
  | .hoopFrameForm link => Sys2Proof.Machine.execHoopFrameForm link s
  | .hoopFrameReceived link frame => Sys2Proof.Machine.execHoopFrameReceived link frame s
  | .hoopLinkFrameTimeout link => Sys2Proof.Machine.execHoopLinkFrameTimeout link s
  | .hoopStaleRelease hoopEnd => Sys2Proof.Machine.execHoopStaleRelease hoopEnd s
  | .criticalPathIntervalEnd => Sys2Proof.Machine.execCriticalPathIntervalEnd s
  | .linkDown link => Sys2Proof.Machine.execLinkDown link s
  | .linkUp link => Sys2Proof.Machine.execLinkUp link s
  | .linkRetrainBegin link => Sys2Proof.Machine.execLinkRetrainBegin link s
  | .linkRetrainEnd link => Sys2Proof.Machine.execLinkRetrainEnd link s
  | .hbmRetrainBegin island => Sys2Proof.Machine.execHbmRetrainBegin island s
  | .hbmRetrainEnd island => Sys2Proof.Machine.execHbmRetrainEnd island s
  | .sidebandReceiverUp link => Sys2Proof.Machine.execSidebandReceiverUp link s
  | .sidebandReceiverDown link => Sys2Proof.Machine.execSidebandReceiverDown link s
  | .sidebandFrameBoundary link => Sys2Proof.Machine.execSidebandFrameBoundary link s
  | .sidebandFrameDiscarded link => Sys2Proof.Machine.execSidebandFrameDiscarded link s
  | .tallySyncSend link => Sys2Proof.Machine.execTallySyncSend link s
  | .tallySyncReceived link frame => Sys2Proof.Machine.execTallySyncReceived link frame s
  | .tallyReplyReceived link frame => Sys2Proof.Machine.execTallyReplyReceived link frame s
  | .tallyOffsetAverage => Sys2Proof.Machine.execTallyOffsetAverage s
  | .tallySettled => Sys2Proof.Machine.execTallySettled s
  | .tallyBeaconIncrement => Sys2Proof.Machine.execTallyBeaconIncrement s
  | .tallyMasterLost => Sys2Proof.Machine.execTallyMasterLost s
  | .tallyMasterWaitExpiry => Sys2Proof.Machine.execTallyMasterWaitExpiry s
  | .tallyWatchFire watch => Sys2Proof.Machine.execTallyWatchFire watch s
  | .cycleWatchFire watch stamp => Sys2Proof.Machine.execCycleWatchFire watch stamp s
  | .watchArmed watch => Sys2Proof.Machine.execWatchArmed watch s
  | .watchMessageDelivery => Sys2Proof.Machine.execWatchMessageDelivery s
  | .commitAccept => Sys2Proof.Machine.execCommitAccept s
  | .commitVoltageRise commit => Sys2Proof.Machine.execCommitVoltageRise commit s
  | .commitDecision commit => Sys2Proof.Machine.execCommitDecision commit s
  | .commitStrobe commit => Sys2Proof.Machine.execCommitStrobe commit s
  | .regionSwitchingInstant region offset => Sys2Proof.Machine.execRegionSwitchingInstant region offset s
  | .commitVoltageFall commit => Sys2Proof.Machine.execCommitVoltageFall commit s
  | .settlementCommitRequest region => Sys2Proof.Machine.execSettlementCommitRequest region s
  | .restoringCommitRetry region => Sys2Proof.Machine.execRestoringCommitRetry region s
  | .pauseSwitchLend region => Sys2Proof.Machine.execPauseSwitchLend region s
  | .pauseSwitchGateTimeout island => Sys2Proof.Machine.execPauseSwitchGateTimeout island s
  | .regionActionApply region => Sys2Proof.Machine.execRegionActionApply region s
  | .patternRecordRead context record => Sys2Proof.Machine.execPatternRecordRead context record s
  | .patternActionApply island => Sys2Proof.Machine.execPatternActionApply island s
  | .oppRequestIssue context => Sys2Proof.Machine.execOppRequestIssue context s
  | .certAssembly context => Sys2Proof.Machine.execCertAssembly context s
  | .energyIntervalEnd counts => Sys2Proof.Machine.execEnergyIntervalEnd counts s
  | .telemetryReadStart => Sys2Proof.Machine.execTelemetryReadStart s
  | .calibrationWindowEnd => Sys2Proof.Machine.execCalibrationWindowEnd s
  | .calibrationUpdateApply => Sys2Proof.Machine.execCalibrationUpdateApply s
  | .limitEvaluation => Sys2Proof.Machine.execLimitEvaluation s
  | .vrmStatusPoll rail status => Sys2Proof.Machine.execVrmStatusPoll rail status s
  | .vrmAlertRise rail => Sys2Proof.Machine.execVrmAlertRise rail s
  | .voltageFallTimeout rail status => Sys2Proof.Machine.execVoltageFallTimeout rail status s
  | .fallTargetRewrite rail => Sys2Proof.Machine.execFallTargetRewrite rail s
  | .sensorConversion readings => Sys2Proof.Machine.execSensorConversion readings s
  | .thermalSoftStep region => Sys2Proof.Machine.execThermalSoftStep region s
  | .thermalSoftRelease region => Sys2Proof.Machine.execThermalSoftRelease region s
  | .thermalSoftRise region => Sys2Proof.Machine.execThermalSoftRise region s
  | .thermalHardRelease region => Sys2Proof.Machine.execThermalHardRelease region s
  | .thermalTripRelease => Sys2Proof.Machine.execThermalTripRelease s
  | .flowLoss senseMv flowOk => Sys2Proof.Machine.execFlowLoss senseMv flowOk s
  | .flowRelease senseMv => Sys2Proof.Machine.execFlowRelease senseMv s
  | .estopAssert => Sys2Proof.Machine.execEstopAssert s
  | .estopRelease => Sys2Proof.Machine.execEstopRelease s
  | .resumeRelease => Sys2Proof.Machine.execResumeRelease s
  | .poolStatusSend => Sys2Proof.Machine.execPoolStatusSend s
  | .poolStatusReceived link frame => Sys2Proof.Machine.execPoolStatusReceived link frame s
  | .poolGrantReceived link frame => Sys2Proof.Machine.execPoolGrantReceived link frame s
  | .poolReturnReceived link frame => Sys2Proof.Machine.execPoolReturnReceived link frame s
  | .poolRecallReceived link frame => Sys2Proof.Machine.execPoolRecallReceived link frame s
  | .poolLinkSilent link => Sys2Proof.Machine.execPoolLinkSilent link s
  | .poolLenderRestore link => Sys2Proof.Machine.execPoolLenderRestore link s
  | .guardEvaluation => Sys2Proof.Machine.execGuardEvaluation s
  | .guardCeilingRise => Sys2Proof.Machine.execGuardCeilingRise s
  | .assayPhaseEnd measured => Sys2Proof.Machine.execAssayPhaseEnd measured s
  | .assayClose => Sys2Proof.Machine.execAssayClose s
  | .flashOperationComplete ok => Sys2Proof.Machine.execFlashOperationComplete ok s
  | .flashOperationTimeout => Sys2Proof.Machine.execFlashOperationTimeout s
  | .storeWriteRetire => Sys2Proof.Machine.execStoreWriteRetire s
  | .storeWriteRetry => Sys2Proof.Machine.execStoreWriteRetry s
  | .chandlerHeartbeat => Sys2Proof.Machine.execChandlerHeartbeat s
  | .chandlerHeartbeatTimeout => Sys2Proof.Machine.execChandlerHeartbeatTimeout s
  | .chandlerFaultSignal core cause => Sys2Proof.Machine.execChandlerFaultSignal core cause s
  | .chandlerTakeoverComplete => Sys2Proof.Machine.execChandlerTakeoverComplete s
  | .chandlerRestartVerified => Sys2Proof.Machine.execChandlerRestartVerified s
  | .chandlerSynced => Sys2Proof.Machine.execChandlerSynced s
  | .chandlerSyncTimeout => Sys2Proof.Machine.execChandlerSyncTimeout s
  | .descriptorFetch queue => Sys2Proof.Machine.execDescriptorFetch queue s
  | .avsbusFrameEnd rail resp => Sys2Proof.Machine.execAvsbusFrameEnd rail resp s
  | .pmbusTransactionComplete rail resp => Sys2Proof.Machine.execPmbusTransactionComplete rail resp s
  | .streamAccessFail stream address => Sys2Proof.Machine.execStreamAccessFail stream address s
  | .ledgerRecordAccept => Sys2Proof.Machine.execLedgerRecordAccept s
  | .stretchSpanWindowEnd island => Sys2Proof.Machine.execStretchSpanWindowEnd island s
  | .drainPageTimeout => Sys2Proof.Machine.execDrainPageTimeout s
  | .drainPageWriteComplete page => Sys2Proof.Machine.execDrainPageWriteComplete page s
  | .regionIdleChange region => Sys2Proof.Machine.execRegionIdleChange region s
  | .wakeLine region level => Sys2Proof.Machine.execWakeLine region level s
  | .regionResetEnd region => Sys2Proof.Machine.execRegionResetEnd region s
  | .islandResetEnd island => Sys2Proof.Machine.execIslandResetEnd island s
  | .planLoad queue => Sys2Proof.Machine.execPlanLoad queue s
  | .planStart queue => Sys2Proof.Machine.execPlanStart queue s
  | .planRelease context => Sys2Proof.Machine.execPlanRelease context s
  | .planArm queue => Sys2Proof.Machine.execPlanArm queue s
  | .planUnload queue => Sys2Proof.Machine.execPlanUnload queue s
  | .planCouple queue => Sys2Proof.Machine.execPlanCouple queue s
  | .planRead queue => Sys2Proof.Machine.execPlanRead queue s
  | .oppCommit queue => Sys2Proof.Machine.execOppCommit queue s
  | .oppCancel queue => Sys2Proof.Machine.execOppCancel queue s
  | .oppRead queue => Sys2Proof.Machine.execOppRead queue s
  | .capSet queue => Sys2Proof.Machine.execCapSet queue s
  | .capCeiling queue => Sys2Proof.Machine.execCapCeiling queue s
  | .capRead queue => Sys2Proof.Machine.execCapRead queue s
  | .poolSet queue => Sys2Proof.Machine.execPoolSet queue s
  | .poolRead queue => Sys2Proof.Machine.execPoolRead queue s
  | .tenantCreate queue => Sys2Proof.Machine.execTenantCreate queue s
  | .tenantDestroy queue => Sys2Proof.Machine.execTenantDestroy queue s
  | .tenantMove queue => Sys2Proof.Machine.execTenantMove queue s
  | .tenantFence queue => Sys2Proof.Machine.execTenantFence queue s
  | .tenantRead queue => Sys2Proof.Machine.execTenantRead queue s
  | .watchSet queue => Sys2Proof.Machine.execWatchSet queue s
  | .watchClear queue => Sys2Proof.Machine.execWatchClear queue s
  | .watchRead queue => Sys2Proof.Machine.execWatchRead queue s
  | .ledgerControl queue => Sys2Proof.Machine.execLedgerControl queue s
  | .ledgerDrain queue => Sys2Proof.Machine.execLedgerDrain queue s
  | .ledgerRead queue => Sys2Proof.Machine.execLedgerRead queue s
  | .certRead queue => Sys2Proof.Machine.execCertRead queue s
  | .calWrite queue image => Sys2Proof.Machine.execCalWrite queue image s
  | .calExport queue => Sys2Proof.Machine.execCalExport queue s
  | .calRead queue => Sys2Proof.Machine.execCalRead queue s
  | .calSet queue => Sys2Proof.Machine.execCalSet queue s
  | .calUnretire queue => Sys2Proof.Machine.execCalUnretire queue s
  | .assayRegion queue => Sys2Proof.Machine.execAssayRegion queue s
  | .islandRead queue => Sys2Proof.Machine.execIslandRead queue s
  | .islandPhase queue => Sys2Proof.Machine.execIslandPhase queue s
  | .islandResetCmd queue => Sys2Proof.Machine.execIslandResetCmd queue s
  | .regionRead queue => Sys2Proof.Machine.execRegionRead queue s
  | .regionResetCmd queue => Sys2Proof.Machine.execRegionResetCmd queue s
  | .regionConfig queue => Sys2Proof.Machine.execRegionConfig queue s
  | .regionTest queue => Sys2Proof.Machine.execRegionTest queue s
  | .tallyPriority queue => Sys2Proof.Machine.execTallyPriority queue s
  | .tallyAuthority queue => Sys2Proof.Machine.execTallyAuthority queue s
  | .tallyRead queue => Sys2Proof.Machine.execTallyRead queue s
  | .fabricRead queue => Sys2Proof.Machine.execFabricRead queue s
  | .fabricRef queue => Sys2Proof.Machine.execFabricRef queue s
  | .fabricResume queue => Sys2Proof.Machine.execFabricResume queue s
  | .fabricTopology queue hbmTrained => Sys2Proof.Machine.execFabricTopology queue hbmTrained s
  | .fabricPower queue => Sys2Proof.Machine.execFabricPower queue s
  | .queueDoorbellWrite queue tail sram => Sys2Proof.Machine.execQueueDoorbellWrite queue tail sram s
  | .queueCqHeadWrite queue head => Sys2Proof.Machine.execQueueCqHeadWrite queue head s
  | .queueResetWrite queue => Sys2Proof.Machine.execQueueResetWrite queue s
  | .queueIntStatusClear queue bits sameClock => Sys2Proof.Machine.execQueueIntStatusClear queue bits sameClock s
  | .fabricIntStatusClear bits sameClock => Sys2Proof.Machine.execFabricIntStatusClear bits sameClock s
  | .estopRegisterSet => Sys2Proof.Machine.execEstopRegisterSet s
  | .estopRegisterClear => Sys2Proof.Machine.execEstopRegisterClear s
  | .fabricResetWrite value => Sys2Proof.Machine.execFabricResetWrite value s
  | .tallySnapshotRead => Sys2Proof.Machine.execTallySnapshotRead s
  | .loRegisterRead offset => Sys2Proof.Machine.execLoRegisterRead offset s
  | .ledgerFreezeWrite value => Sys2Proof.Machine.execLedgerFreezeWrite value s
  | .drainHeadWrite head => Sys2Proof.Machine.execDrainHeadWrite head s
  | .registerWriteGeneric offset bytes value => Sys2Proof.Machine.execRegisterWriteGeneric offset bytes value s
  | .fabricWordUpdate word => Sys2Proof.Machine.execFabricWordUpdate word s
  | .ledgerRecordUpdate index => Sys2Proof.Machine.execLedgerRecordUpdate index s
  | .rootReacquire root => Sys2Proof.Machine.execRootReacquire root s
  | .rootLockDeclared root => Sys2Proof.Machine.execRootLockDeclared root s
  | .railConfirmationRead rail => Sys2Proof.Machine.execRailConfirmationRead rail s
  | .pmbusReadTimeout rail => Sys2Proof.Machine.execPmbusReadTimeout rail s
  | .testInstructionUpdate inForce => Sys2Proof.Machine.execTestInstructionUpdate inForce s

end Sys2Proof.Machine
end

