-- ==== Sys2Proof/Safety.lean ====
section
/-! DEFINITION. The terms in which statements are made: what a command completes with, the parts of the die and what a command leaves alone, the canonical form of the die's tables, and safe runs. -/

namespace Sys2Proof.Machine
open Sys2Proof

/-! ## Outcomes -/

/-- The command answers a next state, keeps the queue of waiting commands, and leaves a die with the property. -/
def Gives (c : Instr) (s : State) (post : Die → Prop) : Prop := ∃ t, exec c s = .next t ∧ t.pending = s.pending ∧ post t.die

/-- A state from which the next n steps all answer a next state. -/
def Safe : Nat → State → Prop
  | 0, _ => True
  | n + 1, s => ∃ t, step s = .next t ∧ Safe n t

/-- The second state is reached from the first in n steps. -/
def Leads : Nat → State → State → Prop
  | 0, s, t => t = s
  | n + 1, s, t => ∃ u, step s = .next u ∧ Leads n u t

/-! ## The parts of the die -/

/-- The parts of the die. `records` is the ring of the Ledger with its write index and count; `ledger` is the rest of it. -/
inductive Part where
  | tally | clocks | startup | stop | regs | ledger | records | chandler | store | limits | islands | regions | synths | ends | lanes | links
  | rails | sensors | watches | messages | delivered | contexts | commits | commitReqs | nextCommit | tenants | queues | sram | streams
  | dormant | hbm | fresh
deriving DecidableEq, Repr

/-- The Ledger without its ring, write index and count. -/
def Ledger.frame (g : Ledger) : Ledger := { g with ring := [], index := 0, count := 0 }

/-- Two dies agree on a part. -/
def samePart (a b : Die) : Part → Prop
  | .tally => b.tally = a.tally
  | .clocks => b.clocks = a.clocks
  | .startup => b.startup = a.startup
  | .stop => b.stop = a.stop
  | .regs => b.regs = a.regs
  | .ledger => b.ledger.frame = a.ledger.frame
  | .records => b.ledger.ring = a.ledger.ring ∧ b.ledger.index = a.ledger.index ∧ b.ledger.count = a.ledger.count
  | .chandler => b.chandler = a.chandler
  | .store => b.store = a.store
  | .limits => b.limits = a.limits
  | .islands => b.islands = a.islands
  | .regions => b.regions = a.regions
  | .synths => b.synths = a.synths
  | .ends => b.ends = a.ends
  | .lanes => b.lanes = a.lanes
  | .links => b.links = a.links
  | .rails => b.rails = a.rails
  | .sensors => b.sensors = a.sensors
  | .watches => b.watches = a.watches
  | .messages => b.messages = a.messages
  | .delivered => b.delivered = a.delivered
  | .contexts => b.contexts = a.contexts
  | .commits => b.commits = a.commits
  | .commitReqs => b.commitReqs = a.commitReqs
  | .nextCommit => b.nextCommit = a.nextCommit
  | .tenants => b.tenants = a.tenants
  | .queues => b.queues = a.queues
  | .sram => b.sram = a.sram
  | .streams => b.streams = a.streams
  | .dormant => b.dormant = a.dormant
  | .hbm => b.hbm = a.hbm
  | .fresh => b.fresh = a.fresh

/-- The die b differs from a in the listed parts at most. -/
def SameBut (l : List Part) (a b : Die) : Prop := ∀ p, p ∉ l → samePart a b p

/-- The command changes the listed parts at most, and not the queue of waiting commands. -/
def ChangesOnly (c : Instr) (s : State) (l : List Part) : Prop := ∀ t, exec c s = .next t → t.pending = s.pending ∧ SameBut l s.die t.die

/-! ## Invariants -/

/-- Every table of the die, and the command SRAM, is in its canonical form. -/
structure Die.Canonical (d : Die) : Prop where
  islands : tblWf {} d.islands
  regions : tblWf {} d.regions
  synths : tblWf {} d.synths
  ends : tblWf {} d.ends
  lanes : tblWf {} d.lanes
  links : tblWf {} d.links
  rails : tblWf {} d.rails
  sensors : tblWf {} d.sensors
  watches : tblWf {} d.watches
  contexts : tblWf none d.contexts
  tenants : tblWf {} d.tenants
  queues : tblWf {} d.queues
  hbm : tblWf none d.hbm
  sram : tblWf 0#8 d.sram

/-- The ring of the Ledger holds the last records written, up to 65,536 of them, and the write index is their count modulo 65,536 (R380). -/
def Ledger.Counted (g : Ledger) : Prop := g.ring.length = min g.count Config.ledgerRecords ∧ g.index = g.count % Config.ledgerRecords

/-- Tally fits its counter, 64 bits of nanoseconds and 40 of fraction, and the rate word its limit of ±54,975,581 units (R40). -/
structure Tally.InRange (t : Tally) : Prop where
  now : t.now < 2 ^ 64
  frac : t.frac < 2 ^ 40
  low : -rateLimit ≤ t.rate
  high : t.rate ≤ rateLimit

end Sys2Proof.Machine
end

