-- ==== Sys2Proof/Certificates/Slice0/Obligations.lean ====
section
/-! DEFINITION. The statements for the provers, chapter by chapter of the manual, and the terms they share. -/

open Sys2Proof Sys2Proof.Machine

namespace Sys2Proof.Machine

/-- R72: a frequency window is good within ±20 counts of 10,000, or ±500 before the first root lock. -/
def GoodWindow (d : Die) (count : Nat) : Prop := if d.tally.running then 9980 ≤ count ∧ count ≤ 10020 else 9500 ≤ count ∧ count ≤ 10500

end Sys2Proof.Machine

/-- R72–R75: twenty good frequency windows in a row qualify a reference, and the first ever to qualify is selected; without edges it loses qualification, and the selected one is left for the other if that is
usable, while else the loops hold; neither qualified for 1 ms is fabric fault 1, which stops the die, and Tally runs on without SETTLED. -/
def Obligations.ReferencesQualifyFailAndSwitch : Prop :=
  (∀ (s : State) (n count : Nat), n < 2 →
    (GoodWindow s.die count → (ref s.die n).qualified = false → (ref s.die n).good < 19 →
      exec (.refFrequencyWindowEnd n count) s = .next { s with die := modRef n (fun x => { x with lastCount := count % 2 ^ 32, good := x.good + 1 }) s.die }) ∧
    (GoodWindow s.die count → (ref s.die n).qualified = false → (ref s.die n).good = 19 →
      Gives (.refFrequencyWindowEnd n count) s (fun d => (ref d n).qualified = true ∧ ((ref s.die n).retired = false → s.die.clocks.everQualified = false → d.clocks.selected = n))) ∧
    (¬ GoodWindow s.die count → (ref s.die n).qualified = false →
      exec (.refFrequencyWindowEnd n count) s = .next { s with die := modRef n (fun x => { x with lastCount := count % 2 ^ 32, good := 0 }) s.die }) ∧
    (¬ GoodWindow s.die count → (ref s.die n).qualified = true →
      Gives (.refFrequencyWindowEnd n count) s (fun d => (ref d n).qualified = false ∧ (ref d n).good = 0))) ∧
  (∀ (s : State) (n : Nat), n < 2 → (ref s.die n).qualified = true →
    Gives (.refActivityLoss n) s (fun d => (ref d n).qualified = false ∧ (ref d n).good = 0 ∧
      (s.die.clocks.selected = n → (ref s.die n).retired = false → refUsable s.die (1 - n) = true → d.clocks.selected = 1 - n ∧ d.clocks.held = false) ∧
      (s.die.clocks.selected = n → (ref s.die n).retired = false → refUsable s.die (1 - n) = false → permanent (addFailure s.die.tally.now (ref s.die n).failures) = false →
        d.clocks.held = true ∧ d.clocks.noneSince.isSome = true ∧ d.clocks.selected = n))) ∧
  (∀ (s : State) (t : Nat), s.die.clocks.noneSince = some t → t + 1000000 ≤ s.die.tally.now →
    Gives .noReferenceTimeout s (fun d => d.stop.fault = 1 ∧ d.stop.faultStop = some 1 ∧ d.stop.stopped = true ∧ d.tally.settled = false ∧ d.tally.running = s.die.tally.running ∧ d.clocks.noneSince = none))

/-- R78, R79, R408: the warm root becomes live when the live one fails or disagrees; with both lost, Tally holds and fabric fault 2 stops the die; a failed root is acquired again at its retry instant and locks as the
warm root. -/
def Obligations.RootPairSwitchesAndReacquires : Prop :=
  (∀ (s : State), s.die.clocks.liveRoot < 2 →
    let n := s.die.clocks.liveRoot
    (∀ err, (root s.die n).locked = true → (root s.die (1 - n)).locked = true →
      Gives (.rootLockLoss err) s (fun d => d.clocks.liveRoot = 1 - n ∧ (root d n).locked = false ∧ (root d (1 - n)).locked = true ∧ d.tally = s.die.tally) ∧
      Gives (.rootDisagreement err) s (fun d => d.clocks = { s.die.clocks with liveRoot := 1 - n, confirming := true } ∧ d.tally = s.die.tally)) ∧
    (∀ err, (root s.die n).locked = true → (root s.die (1 - n)).locked = false →
      Gives (.rootLockLoss err) s (fun d => d.tally.running = false ∧ d.stop.fault = 2 ∧ d.stop.stopped = true ∧ (root d n).locked = false)) ∧
    (s.die.clocks.confirming = true →
      exec (.rootSwitchConfirm false false) s = .next { s with die := { s.die with clocks := { s.die.clocks with confirming := false } } }) ∧
    (∀ fail0 fail1, s.die.clocks.confirming = true → (if n = 0 then fail0 else fail1) = true → (root s.die n).locked = true → (root s.die (1 - n)).locked = true → (if n = 0 then fail1 else fail0) = false →
      Gives (.rootSwitchConfirm fail0 fail1) s (fun d => d.clocks.confirming = false ∧ d.clocks.liveRoot = 1 - n ∧ (root d n).locked = false))) ∧
  (∀ (s : State) (n : Nat), n < 2 →
    (∀ t, (root s.die n).retryAt = some t → t ≤ s.die.tally.now → (root s.die n).retired = false →
      exec (.rootReacquire n) s = .next { s with die := modRoot n (fun x => { x with retryAt := none, acquiring := some s.die.tally.now }) s.die }) ∧
    ((root s.die n).acquiring.isSome = true → s.die.tally.running = true →
      exec (.rootLockDeclared n) s = .next { s with die := modRoot n (fun x => { x with acquiring := none, locked := true }) s.die }))

/-- R419, R420, R445, R485: power-good of the always-on rail begins cold power-on at step 1 with every queue, table and record empty; power fail ends the drive of
the pins; 2 µs below 0.700 V is fabric fault 4, which stops the die. -/
def Obligations.AlwaysOnRailStartsAndStopsTheDie : Prop := ∀ (s : State),
  (s.die.stop.aonGood = false → Gives .aonPowerGood s (fun d => d.stop.aonGood = true ∧ d.startup = {} ∧ d.tally = {} ∧ d.clocks = {} ∧ d.ledger = {} ∧ d.chandler = {} ∧
    d.store = {} ∧ d.limits = {} ∧ d.islands = [] ∧ d.regions = [] ∧ d.synths = [] ∧ d.rails = [] ∧ d.contexts = [] ∧ d.commits = [] ∧ d.tenants = [] ∧ d.queues = [] ∧
    d.hbm = s.die.hbm ∧ d.streams = s.die.streams)) ∧
  (exec .aonPowerFail s = .next { s with die := { s.die with stop := { s.die.stop with aonGood := false } } }) ∧
  (∀ mv, s.die.stop.aonGood = true → mv < 700 → s.die.stop.fault ≠ 4 →
    Gives (.aonUndervoltage mv) s (fun d => d.stop.fault = 4 ∧ d.stop.faultDetail = mv ∧ d.stop.aonLowest = min s.die.stop.aonLowest mv ∧ d.stop.faultStop = some 4 ∧ d.stop.stopped = true ∧ d.tally = s.die.tally))

/-- R419, R420, Table 17.1: the steps of start-up complete in order. -/
def Obligations.StartupStepsFollowTheTable : Prop := ∀ (s : State) (seen : StartupInput), s.die.Canonical →
  s.die.stop.stopped = false → s.die.stop.faultStop = none → s.die.stop.aonGood = true →
  (s.die.startup.step = 1 → Gives (.startupStepComplete seen) s (fun d => d.startup.step = 2 ∧ d.startup.fuses = seen.fuses ∧ d.startup.fusesRead = true ∧ ∀ k, k < 5 → (rail d k).off = false ∧ (rail d k).target = 500)) ∧
  (s.die.startup.step = 2 → (refUsable s.die 0 ∨ refUsable s.die 1) →
    exec (.startupStepComplete seen) s = .next { s with die := { s.die with startup := { s.die.startup with step := 3, begun := false } } }) ∧
  (s.die.startup.step = 3 → Gives (.startupStepComplete seen) s (fun d => d.startup.step = 4 ∧ d.tally.running = true ∧ d.tally.now = 0 ∧ d.clocks.liveRoot = 0 ∧ (root d 0).locked = true ∧ (root d 1).locked = true)) ∧
  (s.die.startup.step = 4 → chandlerRuns s.die = true →
    exec (.startupStepComplete seen) s = .next { s with die := { s.die with startup := { s.die.startup with step := 5, begun := false } } }) ∧
  (s.die.startup.step = 5 → chandlerRuns s.die = true → (∀ k, k < 5 → (rail s.die k).confirmed = true) → s.die.startup.kind = 1 →
    Gives (.startupStepComplete seen) s (fun d => d.startup.step = 6)) ∧
  (s.die.startup.step = 7 → s.die.startup.begun = true → (∀ k, k < 5 → railStands (rail s.die k) = true) → (∀ r, r ∈ presentRegions s.die → pairLocked s.die r = true) →
    Gives (.startupStepComplete seen) s (fun d => d.startup.step = 8 ∧ d.startup.begun = true)) ∧
  (s.die.startup.step = 8 → s.die.startup.begun = true → (∀ i, i ∈ presentIslands s.die → islandUp s.die i = true) →
    Gives (.startupStepComplete seen) s (fun d => d.startup.step = 9))

/-- R421, R427, R428: a broadcast whose image both cores verify starts the pair SYNCED, and 4 ms after one that a single core verified that core starts alone; the topology check compares once every expected link is up, or
after 500 ms: no difference makes the die READY at step 10, any difference NOT_READY, with the count kept. -/
def Obligations.FirmwareAndTopologyBringTheDieUp : Prop :=
  (∀ (s : State), s.die.chandler.pair = .boot →
    (∀ version, 4 ≤ s.die.startup.step → s.die.startup.fuses.keyOk = true → (∀ n, n < 2 → (core s.die n).verified = false ∧ (core s.die n).heldOut = false) →
      Gives (.firmwareBroadcast 0 0 version) s (fun d => d.chandler = { s.die.chandler with pair := .synced, primary := 0, version := version, lastBeat := s.die.tally.now, core0 := { s.die.chandler.core0 with verified := true }, core1 := { s.die.chandler.core1 with verified := true } }) ∧
      (∀ result, result = 1 ∨ result = 2 → Gives (.firmwareBroadcast 0 result version) s (fun d => d.chandler = { s.die.chandler with version := version, broadcastAt := some s.die.tally.now, core0 := { s.die.chandler.core0 with verified := true }, core1 := { s.die.chandler.core1 with verified := false } }))) ∧
    (∀ t n, n < 2 → s.die.chandler.broadcastAt = some t → t + 4000000 ≤ s.die.tally.now → (core s.die n).verified = true → (core s.die (1 - n)).verified = false →
      exec .bootImageTimeout s = .next { s with die := { s.die with chandler := { s.die.chandler with broadcastAt := none, pair := .single, primary := n, lastBeat := s.die.tally.now } } })) ∧
  (∀ (s : State) (hbm t : Nat) (b : Bytes), s.die.startup.descriptor = some b → s.die.startup.checkSince = some t → chandlerRuns s.die = true → s.die.startup.ready ≠ 1 →
    (linksUp s.die = true → Gives (.topologyCheckComplete hbm) s (fun d => d.startup = { s.die.startup with checkSince := none, step := 10, ready := if differences s.die b hbm = [] then 1 else 2, differences := (differences s.die b hbm).length })) ∧
    (t + 500000000 ≤ s.die.tally.now → Gives (.topologyCheckTimeout hbm) s (fun d => d.startup = { s.die.startup with checkSince := none, step := 10, ready := if differences s.die b hbm = [] then 1 else 2, differences := (differences s.die b hbm).length })))

/-- R430, R479: a package warm reset, and the key written to JCF_FABRIC_RESET, return a READY die to step 6 with its pair restarted, every context, pending commit, watch and
tenant gone, every rail at the retention voltage and every count of Tally kept. -/
def Obligations.ResetsReturnTheDieToStepSix : Prop := ∀ (s : State), s.die.stop.aonGood = true → s.die.startup.ready = 1 →
  (∀ c kind, (c = .packageWarmReset ∧ kind = 2) ∨ (c = .fabricResetWrite 0x4A520001 ∧ kind = 3) →
    Gives c s (fun d => d.startup.step = 6 ∧ d.startup.ready = 0 ∧ d.startup.kind = kind ∧ d.startup.descriptor = none ∧ d.contexts = [] ∧ d.commits = [] ∧ d.watches = [] ∧ d.tenants = [] ∧
      d.ends = [] ∧ d.lanes = [] ∧ d.nextCommit = 1 ∧ d.stop.trayHold = true ∧ d.stop.thermalHold = true ∧ d.stop.stopped = false ∧ d.regs.fintEnable = 0 ∧
      d.tally = { s.die.tally with priority := 128 } ∧ d.limits.pool = 0 ∧ d.limits.base = 1150 ∧ d.limits.burst = 1600)) ∧
  (∀ value, value ≠ 0x4A520001 → exec (.fabricResetWrite value) s = .next s)

/-- R91, R93–R96, R123, R406: a search closes the loop on the band it chooses; the second matching window in a row declares lock; an excursion, a second mismatch in a row and an acquisition of 120 µs end without lock; a failed
synthesizer is acquired again at the live setting; with a locked standby the multiplexer selects it; a stopped Drover lane restarts on its own clock, else on the lender, else stalls. -/
def Obligations.SynthesizersSearchLockAndLoseLock : Prop :=
  (∀ (s : State) (r x : Nat), s.die.Canonical → r < 80 → x < 2 →
    (∀ counts, (synth s.die r x).phase = .searching → (synth s.die r x).writtenAt + 17000 ≤ s.die.tally.now →
      Gives (.synthBandSearchDone r x counts) s (fun d => synth d r x = { synth s.die r x with phase := .settling, band := searchBand counts } ∧ synth d r (1 - x) = synth s.die r (1 - x))) ∧
    (∀ count, 2047 ≤ count → count ≤ 2049 → (synth s.die r x).phase = .settling →
      ((synth s.die r x).matching = 0 → Gives (.synthLockWindowEnd r x count) s (fun d => synth d r x = { synth s.die r x with matching := 1 })) ∧
      ((synth s.die r x).matching = 1 → Gives (.synthLockWindowEnd r x count) s (fun d => (synth d r x).lock = true ∧ (synth d r x).phase = .locked ∧ (synth d r x).setting = (synth s.die r x).setting ∧
        ((synth s.die r x).use = .standby → (region s.die r).select = none → (region s.die r).retired = false → inBank s.die r = false → (region d r).select = some x ∧ (region d r).live = x)))) ∧
    (∀ count, ¬ (2047 ≤ count ∧ count ≤ 2049) → (synth s.die r x).phase = .settling →
      Gives (.synthLockWindowEnd r x count) s (fun d => synth d r x = { synth s.die r x with matching := 0 })) ∧
    (∀ t, (synth s.die r x).retryAt = some t → t ≤ s.die.tally.now → (synth s.die r x).phase = .failed → (synth s.die r x).retired = false →
      Gives (.synthRetryAcquire r x) s (fun d => (synth d r x).phase = (if (liveSetting s.die r).given then .settling else .searching) ∧ (synth d r x).setting = liveSetting s.die r ∧ (synth d r x).lock = false ∧
        (synth d r x).writtenAt = s.die.tally.now ∧ (synth d r x).retryAt = none))) ∧
  (∀ (s : State) (r x : Nat), s.die.Canonical → r < 80 → x < 2 →
    (∀ count, count < 62 ∨ 66 < count → (synth s.die r x).lock = true → Gives (.synthExcursion r x count) s (fun d => (synth d r x).lock = false ∧
      ((region s.die r).select = some x → (region s.die r).retired = false → (region s.die r).live = x → standbyReady s.die r = true →
        permanent (addFailure s.die.tally.now (synth s.die r x).failures) = false → (region d r).select = some (1 - x)))) ∧
    (∀ count, ¬ (2047 ≤ count ∧ count ≤ 2049) → (synth s.die r x).phase = .locked →
      ((synth s.die r x).missing = 0 → Gives (.synthLockWindowEnd r x count) s (fun d => synth d r x = { synth s.die r x with missing := 1 })) ∧
      ((synth s.die r x).missing = 1 → Gives (.synthLockWindowEnd r x count) s (fun d => (synth d r x).lock = false))) ∧
    ((synth s.die r x).phase = .searching ∨ (synth s.die r x).phase = .settling → (synth s.die r x).writtenAt + 120000 ≤ s.die.tally.now →
      Gives (.synthAcquisitionTimeout r x) s (fun d => (synth d r x).lock = false ∧ (synth d r x).mustSearch = true)) ∧
    ((region s.die r).drover = .stopped → s.die.dormant.in_ = false →
      (clockPresent s.die r = true → Gives (.droverRestart r) s (fun d => (region d r).drover = .own)) ∧
      (∀ q, clockPresent s.die r = false → lenderOf s.die r = some q → Gives (.droverRestart r) s (fun d => (region d r).drover = .borrowing q)) ∧
      (clockPresent s.die r = false → lenderOf s.die r = none → Gives (.droverRestart r) s (fun d => (region d r).drover = .stalled))))

/-- R110–R112, R148, R158: a ring period lasts what the Bellows and the floor make it; an open gate that nothing holds delivers the slot and advances the count, and an ACTIVE
edge six or more cycles ahead holds it. -/
def Obligations.RingPeriodsDeliverOrHold : Prop := ∀ (s : State) (i : Nat) (obs : RingObs), s.die.Canonical → i < 1248 →
  (island s.die i).ring.bellows ≠ .stopped → (island s.die i).ring.settleSince = none →
  Gives (.ringPeriod i obs) s (fun d => (island d i).ring.period = flooredPeriod s.die i (rawPeriod s.die i obs)) ∧
  ((island s.die i).ring.gate = true → (island s.die i).ring.stopDue = false → obs.coreStop = false → obs.lanes = [] →
    (region s.die (islandRegion i)).plan = none → (region s.die (islandRegion i)).fast = none → islandLink i = none →
    (∀ p k, p < 4 → sideEnd i p = some k → (edgeEnd s.die k).state ≠ .active) →
    Gives (.ringPeriod i obs) s (fun d => (island d i).ring.count = ((island s.die i).ring.count + 1) % 2 ^ 56 ∧ (island d i).ring.now = .delivered)) ∧
  (∀ p k, p < 4 → sideEnd i p = some k → (edgeEnd s.die k).state = .active → 6 ≤ (edgeEnd s.die k).lead → (island s.die i).ring.own2 = (island s.die i).ring.own3 →
    (island s.die i).ring.gate = true → (island s.die i).ring.stopDue = false → obs.tokens = [] →
    Gives (.ringPeriod i obs) s (fun d => (island d i).ring.count = (island s.die i).ring.count ∧ ∃ c, (island d i).ring.now = .held c))

/-- R103, R104, R106, R107, R116, R118, R405: after settling the Bellows acquires; the second matching window in a row declares injection lock, the second mismatch in a row acquires again, an acquisition of 1,400 ns fails, and
the third failure retires the Bellows into Yoke mode; released injection resumes after sixteen good cycles; a due phase step moves the offset by one. -/
def Obligations.BellowsAcquireLoseAndResumeInjection : Prop :=
  (∀ (s : State) (i : Nat), s.die.Canonical → i < 1248 →
    let x := (island s.die i).ring
    (∀ t, x.settleSince = some t → x.bellows = .acquiring → t + 100 ≤ s.die.tally.now → clockPresent s.die (islandRegion i) = true →
      Gives (.bellowsSettleDone i) s (fun d => (island d i).ring = { x with settleSince := none, acqSince := s.die.tally.now, matching := 0, missing := 0, windowDirty := false })) ∧
    (∀ periods, x.bellows = .acquiring → x.settleSince = none → clockPresent s.die (islandRegion i) = true → 255 ≤ periods → periods ≤ 257 →
      (x.matching = 0 → Gives (.injectionWindowEnd i periods) s (fun d => (island d i).ring = { x with matching := 1 })) ∧
      (x.matching = 1 → x.released = false → inWindow x x.now x.count = false → Gives (.injectionWindowEnd i periods) s (fun d => (island d i).ring.bellows = .injected ∧ (island d i).ring.slot = 0 ∧ (island d i).ring.interval = x.intervalDue.getD x.interval ∧
        (island d i).ring.gate = (x.gate || islandMayRun s.die i) ∧ (island d i).ring.count = x.count))) ∧
    (∀ periods, x.bellows = .injected → x.windowDirty = false → clockPresent s.die (islandRegion i) = true → ¬ (255 ≤ periods ∧ periods ≤ 257) →
      (x.missing = 0 → Gives (.injectionWindowEnd i periods) s (fun d => (island d i).ring = { x with missing := 1 })) ∧
      (x.missing = 1 → Gives (.injectionWindowEnd i periods) s (fun d => (island d i).ring.bellows = .acquiring ∧ (island d i).ring.acqSince = s.die.tally.now ∧ (island d i).ring.acqContext = .reacquisition ∧ (island d i).ring.gate = x.gate))) ∧
    (x.bellows = .acquiring → x.settleSince = none → x.acqSince + 1400 ≤ s.die.tally.now →
      (permanent (addFailure s.die.tally.now x.failures) = false → Gives (.injectionAcquisitionTimeout i) s (fun d => (island d i).ring.failures = addFailure s.die.tally.now x.failures ∧ (island d i).ring.bellows = .acquiring ∧
        (if x.acqContext = .start then (island d i).ring.settleSince = some s.die.tally.now else (island d i).ring.settleSince = none ∧ (island d i).ring.acqSince = s.die.tally.now))) ∧
      (permanent (addFailure s.die.tally.now x.failures) = true → bellowsRetired s.die i = false → Gives (.injectionAcquisitionTimeout i) s (fun d => (island d i).ring.bellows = .yoke ∧ bellowsRetired d i = true)))) ∧
  (∀ (s : State) (i : Nat), s.die.Canonical → i < 1248 →
    let x := (island s.die i).ring
    (x.bellows = .released → 16 ≤ x.goodRun → clockPresent s.die (islandRegion i) = true → inWindow x x.now x.count = false →
      Gives (.injectionResume i) s (fun d => (island d i).ring = { x with bellows := .injected, released := false, goodRun := 0, slot := 0, interval := x.intervalDue.getD x.interval, intervalDue := none })) ∧
    (∀ tFree, x.phaseLeft ≠ 0 → (region s.die (islandRegion i)).fenced = false → x.gate = true → x.bellows ≠ .yoke → x.stepDue = 0 → 8 ≤ x.sinceStep →
      (0 < x.phaseLeft ∨ floorPeriod s.die i x.opp + Config.fineStep x.opp ≤ rawPeriod s.die i { tFree := tFree }) →
      Gives (.phaseStep i tFree) s (fun d => (island d i).ring = (if 0 < x.phaseLeft then { x with phase := x.phase + 1, phaseLeft := x.phaseLeft - 1, stepDue := 1, sinceStep := 0 }
        else { x with phase := x.phase - 1, phaseLeft := x.phaseLeft + 1, stepDue := -1, sinceStep := 0 }))))

/-- R135, R137–R140, R142, R144: a disagreement that no re-measure confirms is transient, one that all three confirm retires the replica, and a working spare joins in its place; the
alert interval clears its counts; an unlatched margin ceiling rises one point after 1 s; the steps of islands of no plan are cleared. -/
def Obligations.PlumbRetiresReplicasAndCountsAlerts : Prop := ∀ (s : State), s.die.Canonical →
  (∀ i j n a, i < 1248 → j < 6 → replicaRetired s.die i j = false → (tget {} (island s.die i).margin.replicas j).remeasure = some (n, a) → 3 ≤ n →
    (0 < a → tblWf {} (island s.die i).margin.replicas = true → Gives (.plumbDisagreementResolved i j) s (fun d => tget {} (island d i).margin.replicas j = {} ∧ (island d i).ring = (island s.die i).ring)) ∧
    (a = 0 → Gives (.plumbDisagreementResolved i j) s (fun d => replicaRetired d i j = true ∧
      (bit (activeMask s.die i) j = true → bit (activeMask s.die i) (if j % 2 = 0 then j + 1 else j - 1) = false → replicaRetired s.die i (if j % 2 = 0 then j + 1 else j - 1) = false →
        activeMask d i = activeMask s.die i - 2 ^ j + 2 ^ (if j % 2 = 0 then j + 1 else j - 1))))) ∧
  (Gives .alertIntervalEnd s (fun d => ∀ i, i < 1248 → present s.die (islandRegion i) = true → (island d i).margin.intDelivered = 0 ∧ (island d i).margin.intAlerts = 0 ∧
    (alerting (island s.die i).margin = false → (island d i).margin.run = 0))) ∧
  (∀ r c, r < 80 → (region s.die r).ceilings.getD 7 none = some c → (region s.die r).latched = false → (region s.die r).quietSince + 1000000000 ≤ s.die.tally.now →
    Gives (.marginReleaseTimeout r) s (fun d => (region d r).ceilings.getD 7 none = (if 15 ≤ c then none else some (c + 1)) ∧ (region d r).quietSince = s.die.tally.now)) ∧
  (Gives .unplannedStepBoundary s (fun d => ∀ i, i < 1248 → present s.die (islandRegion i) = true → if inPlan s.die (islandRegion i) = true then island d i = island s.die i
    else (island d i).margin.stepMin = none ∧ (island d i).margin.below = 0 ∧ (island d i).margin.alerts = 0 ∧ (island d i).holds.byCause = [] ∧ (island d i).holds.byEdge = [] ∧ (island d i).holds.late = 0 ∧ (island d i).ring = (island s.die i).ring))

/-- R152, R154, R157, R158, R175: a PENDING end takes its lead and becomes ACTIVE; a Hoop frame is formed with the counts of the island and is taken with those of the partner; an
ACTIVE link edge without frames for 2 µs is stale, and a stale edge is released after 100 µs. -/
def Obligations.HoopEdgesActivateAndGoStale : Prop := ∀ (s : State), s.die.Canonical →
  (∀ e side, e < 2332 → side < 2 → edgeExists s.die e = true → (edgeEnd s.die (2 * e + side)).coupled = true → (edgeEnd s.die (2 * e + side)).state = .pending →
    islandExcused s.die (endIsland (farEnd (2 * e + side))) = false →
    Gives (.edgeActivation e side) s (fun d => (edgeEnd d (2 * e + side)).state = .active ∧
      (edgeEnd d (2 * e + side)).lead = sat16 (((island s.die (endIsland (2 * e + side))).ring.own3 : Int) - (island s.die (endIsland (farEnd (2 * e + side)))).ring.count) ∧
      edgeEnd d (farEnd (2 * e + side)) = edgeEnd s.die (farEnd (2 * e + side)))) ∧
  (∀ l, l < 32 → let x := link s.die l
    (present s.die (islandRegion (1200 + l)) = true → x.waitHoop = none →
      (x.hoopCount / 16 ≠ (island s.die (1200 + l)).ring.count / 16 ∨ hoopFlagsOf s.die l ≠ x.hoopFlags ∨ x.hoopAt + 1000 ≤ s.die.tally.now) →
      Gives (.hoopFrameForm l) s (fun d => (link d l).waitHoop = some (.hoop (hoopFlagsOf s.die l) x.tag ((island s.die (1200 + l)).ring.count % 2 ^ 48) (sat 16 x.heldForYou)) ∧ (link d l).heldForYou = 0 ∧
        (link d l).hoopAt = s.die.tally.now ∧ (link d l).hoopCount = (island s.die (1200 + l)).ring.count ∧ (link d l).waitSync = x.waitSync)) ∧
    (∀ f : Bytes, f.length = 16 → hoopFrameOk f = true →
      Gives (.hoopFrameReceived l f) s (fun d => (link d l).remote = fld f 4 6 ∧ (link d l).remoteTag = fld f 2 2 ∧ (link d l).hoopHeard = some s.die.tally.now ∧ (link d l).stale = none ∧ (link d l).discarded = 0 ∧
        d.limits.caused = s.die.limits.caused + fld f 10 2 ∧
        (x.coupled = true → x.state = .pending → bit (fld f 1 1) 0 = true → bit (fld f 1 1) 1 = false → x.tag ≠ 0 → fld f 2 2 = x.tag →
          (link d l).state = .active ∧ (link d l).lead = sat16 (countDiff x.hoopCount (fld f 4 6))))) ∧
    (∀ f : Bytes, f.length = 16 → hoopFrameOk f = false → Gives (.hoopFrameReceived l f) s (fun d => (link d l).discarded = min 65535 (x.discarded + 1) ∧ (link d l).remote = x.remote)) ∧
    (∀ t, x.up = true → x.state = .active → x.stale = none → x.hoopHeard = some t → t + 2000 ≤ s.die.tally.now →
      Gives (.hoopLinkFrameTimeout l) s (fun d => link d l = { x with stale := some s.die.tally.now })) ∧
    (∀ t, x.stale = some t → t + 100000 ≤ s.die.tally.now →
      Gives (.hoopStaleRelease (.link l)) s (fun d => link d l = { x with state := .released, lead := 0, stale := none }))) ∧
  (∀ e side t, e < 2332 → side < 2 → (edgeEnd s.die (2 * e + side)).stale = some t → t + 100000 ≤ s.die.tally.now →
    Gives (.hoopStaleRelease (.die e side)) s (fun d => edgeEnd d (2 * e + side) = { edgeEnd s.die (2 * e + side) with state := .released, lead := 0, stale := none }))

/-- R168, R172, R174, R177, R273, R435, R436: a link that goes down, or retrains, releases its coupled edge and empties its lanes, and one that returns starts without a loan and with its edge as it was; an HBM controller
island is marked while its interface retrains; the counts of the critical path and their share, Q0.16, are latched at the end of each 10 ms. -/
def Obligations.LinksRetrainAndCriticalPathIsLatched : Prop :=
  (∀ (s : State) (l : Nat), s.die.Canonical → l < 32 → let x := link s.die l
    Gives (.linkDown l) s (fun d => (link d l).up = false ∧ (link d l).state = (if x.coupled then .released else .uncoupled) ∧ (link d l).lead = 0 ∧ (link d l).stale = none ∧ (link d l).retrain = none ∧
      (∀ n, n < 8 → lane d (laneKey (1200 + l) 4 n) = {}) ∧ (x.pool.loan < 0 → (link d l).pool.loan = 0)) ∧
    (x.up = false → Gives (.linkUp l) s (fun d => (link d l).up = true ∧ (link d l).state = x.state ∧ (link d l).coupled = x.coupled ∧ (link d l).pool.loan = 0)) ∧
    (x.retrain = none → Gives (.linkRetrainBegin l) s (fun d => (link d l).retrain = some s.die.tally.now ∧ (link d l).state = (if x.coupled then .released else .uncoupled) ∧
      (∀ n, n < 8 → lane d (laneKey (1200 + l) 4 n) = {}) ∧ (link d l).pool = x.pool)) ∧
    (∀ t, x.retrain = some t → Gives (.linkRetrainEnd l) s (fun d => link d l = { x with up := true, retrain := none }))) ∧
  (∀ (s : State), s.die.Canonical →
    (∀ i, 1152 ≤ i → i < 1200 → tget none s.die.hbm i = none → Gives (.hbmRetrainBegin i) s (fun d => tget none d.hbm i = some s.die.tally.now ∧ d.islands = s.die.islands)) ∧
    (∀ i t, 1152 ≤ i → i < 1200 → tget none s.die.hbm i = some t → Gives (.hbmRetrainEnd i) s (fun d => tget none d.hbm i = none ∧ d.islands = s.die.islands)) ∧
    (s.die.limits.shareEnd < s.die.tally.now / 10000000 * 10000000 →
      Gives .criticalPathIntervalEnd s (fun d => d.limits.lastCaused = s.die.limits.caused ∧ d.limits.lastSuffered = s.die.limits.suffered ∧ d.limits.caused = 0 ∧ d.limits.suffered = 0 ∧
        d.limits.shareEnd = s.die.tally.now / 10000000 * 10000000 ∧
        (0 < s.die.limits.caused + s.die.limits.suffered → d.limits.share * (s.die.limits.caused + s.die.limits.suffered) ≤ s.die.limits.caused * 65536) ∧
        (s.die.limits.caused + s.die.limits.suffered = 0 → d.limits.share = 0))))

/-- R53, R54, R56, R461–R463: a sideband receiver comes up and goes down; at a frame boundary a Hoop frame goes out, except after another Hoop frame when one waits, then REPLY before SYNC before POOL; sixteen discarded frames in
a row make the link absent; a SYNC is queued every 100 µs, one that arrives is answered with its own stamps, and the REPLY to the SYNC outstanding gives offset and delay to the parent. -/
def Obligations.SidebandLanesCarryFramesAndOffsets : Prop :=
  (∀ (s : State) (l : Nat), s.die.Canonical → l < 32 → let x := link s.die l
    Gives (.sidebandReceiverUp l) s (fun d => link d l = { x with rxUp := true }) ∧
    Gives (.sidebandReceiverDown l) s (fun d => link d l = { x with rxUp := false } ∧ ((some l = s.die.tally.parent ∧ s.die.tally.role ≠ 1 ∧ s.die.tally.foreign = false) → d.tally.parent ≠ some l)) ∧
    (∀ fl tag count held, s.die.tally.running = true → s.die.tally.dieId.isSome = true → x.lastHoop = false → x.waitHoop = some (.hoop fl tag count held) →
      Gives (.sidebandFrameBoundary l) s (fun d => link d l = { x with waitHoop := none, onLane := some (hoopBytes fl tag count held), lastHoop := true })) ∧
    (∀ q t1 t2 rest, s.die.tally.running = true → s.die.tally.dieId.isSome = true → x.lastHoop = true → x.waitReply = .reply q t1 t2 :: rest →
      Gives (.sidebandFrameBoundary l) s (fun d => link d l = { x with waitReply := rest, onLane := some (replyBytes s.die q t1 t2 s.die.tally.now), lastHoop := false })) ∧
    (∀ q rest, s.die.tally.running = true → s.die.tally.dieId.isSome = true → x.waitHoop = none → x.waitReply = [] → x.waitSync = .sync q :: rest →
      Gives (.sidebandFrameBoundary l) s (fun d => link d l = { x with waitSync := rest, onLane := some (syncBytes s.die q s.die.tally.now), lastHoop := false, syncT1 := some s.die.tally.now })) ∧
    (s.die.tally.running = false → Gives (.sidebandFrameBoundary l) s (fun d => link d l = { x with onLane := none })) ∧
    (x.discarded + 1 ≠ 16 → Gives (.sidebandFrameDiscarded l) s (fun d => link d l = { x with discarded := min 65535 (x.discarded + 1) })) ∧
    (x.discarded = 15 → Gives (.sidebandFrameDiscarded l) s (fun d => (link d l).absent = true ∧ (link d l).discarded = 16))) ∧
  (∀ (s : State) (l : Nat), s.die.Canonical → l < 32 → let x := link s.die l
    (∀ t, x.rxUp = true → s.die.tally.running = true → s.die.tally.dieId.isSome = true → x.syncAt = some t → t + 100000 ≤ s.die.tally.now →
      Gives (.tallySyncSend l) s (fun d => link d l = { x with syncSeq := (x.syncSeq + 1) % 65536, syncT1 := none, syncAt := some s.die.tally.now, waitSync := x.waitSync ++ [.sync ((x.syncSeq + 1) % 65536)] })) ∧
    (∀ f : Bytes, f.length = 48 → tallyFrameOk 0x10 f = true → s.die.tally.dieId.isSome = true →
      Gives (.tallySyncReceived l f) s (fun d => (link d l).tallyHeard = true ∧ (link d l).partner = partnerOf f x.partner true ∧ (link d l).waitReply = x.waitReply ++ [.reply (fld f 2 2) (fld f 16 8) s.die.tally.now] ∧
        (link d l).discarded = 0 ∧ (link d l).absent = false)) ∧
    (∀ f : Bytes, f.length = 48 → tallyFrameOk 0x11 f = true → fld f 2 2 = x.syncSeq → x.syncT1 = some (fld f 16 8) →
      let d1 := considerPartner l (modLink l (fun x => { x with tallyHeard := true, partner := partnerOf f x.partner false, syncT1 := none }) (validFrame l s.die))
      Gives (.tallyReplyReceived l f) s (fun d => (link d l).partner = partnerOf f x.partner false ∧ (link d l).syncT1 = none ∧
        (d1.tally.parent = some l → d1.tally.role ≠ 1 → (d1.tally.joined = true ∨ s.die.startup.ready ≠ 0) →
          d.tally.delay = ((((fld f 24 8 : Int) - fld f 16 8) + ((s.die.tally.now : Int) - fld f 32 8)).tdiv 2) ∧
          d.tally.offsets = (((((fld f 24 8 : Int) - fld f 16 8) - ((s.die.tally.now : Int) - fld f 32 8)).tdiv 2) :: d1.tally.offsets).take 16))))

/-- R55, R57, R59, R62, R65: sixteen offsets steer the rate word; a rejoin takes the winner's epoch once the offset lies within ±2 ns and leaves a lineage more than 10 ms away foreign; the
master beats every 100 µs; without the beacon for 1 ms the backup takes a new epoch, and after 2 ms more the best-ranked die is elected. -/
def Obligations.TallyTreeSteersAndElects : Prop := ∀ (s : State), let t := s.die.tally
  (∀ l, 16 ≤ t.offsets.length → t.parent = some l → t.waitingSince = none →
    let avg := (t.offsets.foldl (· + ·) 0).tdiv 16
    let rate := clamp (-rateLimit) rateLimit (t.parentRate + (avg * 2 ^ 40).tdiv 16000000)
    (t.rejoinEpoch = none → Gives .tallyOffsetAverage s (fun d => d.tally.rate = rate ∧ -rateLimit ≤ d.tally.rate ∧ d.tally.rate ≤ rateLimit ∧ d.tally.average = avg ∧ d.tally.offsets = [] ∧ d.tally.epoch = t.epoch ∧
      d.tally.inBound = (if -2 ≤ avg ∧ avg ≤ 2 then min 16 (t.inBound + 1) else 0))) ∧
    (∀ e, t.rejoinEpoch = some e → -2 ≤ avg → avg ≤ 2 → Gives .tallyOffsetAverage s (fun d => d.tally.epoch = e ∧ d.tally.holdover = false ∧ d.tally.rejoinEpoch = none ∧ d.tally.settled = false)) ∧
    (∀ e, t.rejoinEpoch = some e → t.slewSince = none → 10000000 < avg → Gives .tallyOffsetAverage s (fun d => d.tally.foreign = true ∧ d.tally.role = 1 ∧ d.tally.master = t.dieId ∧ d.tally.hops = 15 ∧ d.tally.parent = none ∧ d.tally.foreignOffset = avg))) ∧
  (t.running = true → t.changedAt + 2000000000 ≤ t.now → t.master.isSome = true → s.die.stop.fault ≠ 1 → (t.role = 1 ∨ (t.parent.isSome = true ∧ t.inBound = 16)) →
    exec .tallySettled s = .next { s with die := { s.die with tally := { t with settled := true } } }) ∧
  (t.running = true → t.role = 1 → t.beaconSent + 100000 ≤ t.now →
    exec .tallyBeaconIncrement s = .next { s with die := { s.die with tally := { t with beacon := (t.beacon + 1) % 65536, beaconSent := t.now, beaconAt := t.now } } }) ∧
  (t.running = true → t.master.isSome = true → t.waitingSince = none → t.beaconAt + 1000000 ≤ t.now →
    (t.role = 0 → exec .tallyMasterLost s = .next { s with die := { s.die with tally := { t with waitingSince := some t.now } } }) ∧
    (t.role = 2 → Gives .tallyMasterLost s (fun d => d.tally.role = 1 ∧ d.tally.master = t.dieId ∧ d.tally.epoch = (t.epoch + 1) % 256 ∧ d.tally.holdover = true ∧ d.tally.rate = t.rate ∧ d.tally.hops = 0))) ∧
  (∀ w, t.waitingSince = some w → w + 2000000 ≤ t.now →
    (t.priority ≠ 255 → rank t.priority (t.dieId.getD 0) ≤ rank (bestHeard s.die).1 (bestHeard s.die).2 →
      Gives .tallyMasterWaitExpiry s (fun d => d.tally.role = 1 ∧ d.tally.master = t.dieId ∧ d.tally.epoch = (t.epoch + 1) % 256 ∧ d.tally.waitingSince = none)) ∧
    (t.priority = 255 → exec .tallyMasterWaitExpiry s = .next { s with die := { s.die with tally := { t with waitingSince := some t.now } } }))

/-- R66, R67, R68, R69, R70: an armed watch whose condition is reached puts one message into the queue of the port, a periodic one waits for the first C + kP beyond, a one-time one is
free; arming a logical watch that has passed fires it LATE; the port delivers the first message whose slot has ended. -/
def Obligations.WatchesFireIntoTheDeliveryPort : Prop := ∀ (s : State) (w : Nat), s.die.Canonical → w < 256 → let x := watch s.die w
  let msg := fun (e n tally cycle isl : Nat) (late : Bool) => ({ slot := e, watch := w, kindFlags := watchFlags s.die x.kind late false, target := x.target, epoch := s.die.tally.epoch, merged := min 255 n, island := isl, tally := tally, cycle := cycle, condition := x.condition + n * x.period } : WatchMsg)
  ((∀ m ∈ s.die.messages, m.watch ≠ w) →
    (∀ v, v = s.die.tally.now / 10 * 10 → watchStands x v = true → x.armed = true → x.condition ≤ v →
      (x.kind = 0 → Gives (.tallyWatchFire w) s (fun d => watch d w = {} ∧ d.messages = insertMessage (msg v 0 v (island s.die (dieRef s.die)).ring.count 0xFFFF (decide (x.condition + 10 < v))) s.die.messages)) ∧
      (x.kind = 1 → 0 < x.period → Gives (.tallyWatchFire w) s (fun d => v < (watch d w).condition ∧ (watch d w).condition ≤ v + x.period ∧ ((watch d w).condition - x.condition) % x.period = 0 ∧ (watch d w).used = x.used ∧
        d.messages = insertMessage (msg v ((v - x.condition) / x.period) v (island s.die (dieRef s.die)).ring.count 0xFFFF (decide (x.condition + 10 < v))) s.die.messages))) ∧
    (∀ stamp, watchStands x (slotOf stamp) = true → x.armed = true → x.kind = 2 → x.condition ≤ (island s.die x.island).ring.count →
      Gives (.cycleWatchFire w stamp) s (fun d => watch d w = {} ∧ d.messages = insertMessage (msg (slotOf stamp) 0 stamp x.condition x.island false) s.die.messages)) ∧
    (watchStands x (slotOf s.die.tally.now) = true → x.armed = false → x.kind = 2 → x.condition ≤ (island s.die x.island).ring.count →
      Gives (.watchArmed w) s (fun d => watch d w = {} ∧ d.messages = insertMessage (msg (slotOf s.die.tally.now) 0 s.die.tally.now (island s.die x.island).ring.count x.island true) s.die.messages))) ∧
  (watchStands x (slotOf s.die.tally.now) = true → x.armed = false → (x.kind < 2 ∨ (island s.die x.island).ring.count < x.condition) →
    Gives (.watchArmed w) s (fun d => watch d w = { x with armed := true } ∧ d.messages = s.die.messages)) ∧
  (∀ m t, s.die.messages = m :: t → m.slot ≤ s.die.tally.now → exec .watchMessageDelivery s = .next { s with die := { s.die with messages := t, delivered := messageBytes m } })

/-- R181, R182, R184, R185, R186, R189, R501: the Chandler accepts the first waiting request for the members without an obstacle, each granted the lower of the target and its ceiling; from
T − 25 µs the rising targets are written; at T − 10 ns the commit is decided or aborts, with no operating point changed; the strobe; and 2 µs later the fall to the targets of the rule. -/
def Obligations.CommitsRunFromAcceptanceToTheFall : Prop := ∀ (s : State), s.die.Canonical →
  (∀ q t, s.die.commitReqs = q :: t → chandlerRuns s.die = true → s.die.stop.stopped = false →
    regionSet ((setRegions q.members).filter (fun r => !commitBlocked s.die r)) ≠ 0 →
    Gives .commitAccept s (fun d => d.commitReqs = t ∧ d.nextCommit = (if s.die.nextCommit + 1 = 2 ^ 32 then 1 else s.die.nextCommit + 1) ∧
      ∃ c ∈ d.commits, c.id = s.die.nextCommit ∧ c.source = q.source ∧ c.target = q.target ∧ c.members = regionSet ((setRegions q.members).filter (fun r => !commitBlocked s.die r)) ∧
        c.count = firstCount s.die ∧ ∀ r ∈ setRegions c.members, tget 0 c.grants r = min q.target (regionCeiling (region s.die r)))) ∧
  (∀ id c, commitOf s.die id = some c → c.decided = false →
    (c.riseWritten = false → c.count ≤ s.die.tally.now + 25000 → (∀ r ∈ setRegions (c.retuned ||| c.pausing), memberLocked s.die c r = true) → chandlerRuns s.die = true →
      Gives (.commitVoltageRise id) s (fun d => commitOf d id = some { c with riseWritten := true, raised := (risingRails s.die c).foldl (fun m k => m ||| 2 ^ k) 0 } ∧
        ∀ k ∈ risingRails s.die c, (rail d k).target = (ruleTarget d k).getD Config.retentionMv)) ∧
    (c.count ≤ s.die.tally.now + 10 → decisionFailure s.die c = none →
      Gives (.commitDecision id) s (fun d => commitOf d id = some { c with decided := true } ∧ d.regions = s.die.regions ∧ d.synths = s.die.synths ∧ d.rails = s.die.rails)) ∧
    (∀ reason r fault, c.count ≤ s.die.tally.now + 10 → decisionFailure s.die c = some (reason, r, fault) →
      Gives (.commitDecision id) s (fun d => commitOf d id = none ∧ d.rails = s.die.rails ∧ ∀ m, (region d m).opp = (region s.die m).opp ∧ (region d m).select = (region s.die m).select))) ∧
  (∀ id c, commitOf s.die id = some c → c.decided = true → c.strobed = false → c.count ≤ s.die.tally.now →
    let still := regionSet ((setRegions c.members).filter (fun r => !bit (c.retuned ||| c.pausing) r))
    Gives (.commitStrobe id) s (fun d => if (still ||| c.refused) = c.members then commitOf d id = none else (commitOf d id = some { c with strobed := true, switched := still } ∧ d.regions = s.die.regions))) ∧
  (∀ id c, s.die.commits.find? (fun c => decide (c.id = id) && c.done) = some c → c.count + 2000 ≤ s.die.tally.now → chandlerRuns s.die = true →
    Gives (.commitVoltageFall id) s (fun d => (∀ e ∈ d.commits, e.id = id → e.done = false) ∧
      (s.die.stop.stopped = true → d.rails = s.die.rails) ∧ (s.die.stop.stopped = false → ∀ k, k < 5 → (rail d k).target = (ruleTarget d k).getD Config.retentionMv)))

/-- R88, R186, R195: at its switching instant a region goes to the locked synthesizer of the commit and takes the operating point granted; without lock the switch is refused and the
region stays as it is. A pause-switch lends its lane at T − 120 µs and rewrites its sole synthesizer, or aborts; at T + 1,500 ns the gates open without injection lock. -/
def Obligations.RegionsSwitchOrKeepTheirPoint : Prop := ∀ (s : State) (r : Nat), s.die.Canonical → r < 80 →
  (∀ c, pendingCommit s.die r = some c → c.strobed = true → bit (c.switched ||| c.refused) r = false →
    ∀ offset, (bit c.pausing r = false → (synth s.die r (idleOf (region s.die r))).lock = true →
        Gives (.regionSwitchingInstant r offset) s (fun d => (region d r).opp = tget 0 c.grants r ∧ (region d r).live = idleOf (region s.die r) ∧
          (s.die.stop.stopped = false → (region d r).select = some (idleOf (region s.die r))))) ∧
      (bit c.pausing r = true → (synth s.die r (region s.die r).live).lock = true →
        Gives (.regionSwitchingInstant r offset) s (fun d => (region d r).opp = tget 0 c.grants r ∧ (region d r).live = (region s.die r).live ∧
          (s.die.stop.stopped = false → (region d r).select = some (region s.die r).live))) ∧
      ((synth s.die r (if bit c.pausing r then (region s.die r).live else idleOf (region s.die r))).lock = false →
        Gives (.regionSwitchingInstant r offset) s (fun d => (region d r).opp = (region s.die r).opp ∧ (region d r).live = (region s.die r).live ∧ (region d r).select = (region s.die r).select))) ∧
  (∀ c, pendingCommit s.die r = some c → commitOf s.die c.id = some c → bit c.pausing r = true → bit c.lent r = false → c.decided = false → c.count ≤ s.die.tally.now + 120000 →
    (droverLend r 5 s.die = none → Gives (.pauseSwitchLend r) s (fun d => commitOf d c.id = none)) ∧
    ((droverLend r 5 s.die).isSome = true → (synth s.die r (region s.die r).live).retired = false →
      Gives (.pauseSwitchLend r) s (fun d => commitOf d c.id = some { c with lent := c.lent ||| 2 ^ r } ∧ (region d r).select = none ∧ (synth d r (region s.die r).live).lock = false ∧
        (synth d r (region s.die r).live).use = .pause c.id ∧ (synth d r (region s.die r).live).setting = ladderSetting (tget 0 c.grants r)))) ∧
  (∀ i t, i < 1248 → (island s.die i).ring.pauseFrom = some t → t + 1500 ≤ s.die.tally.now →
    Gives (.pauseSwitchGateTimeout i) s (fun d => (island d i).ring = { (island s.die i).ring with gate := islandMayRun s.die i, pauseFrom := none }))

/-- R192, R194, R216, R225, R247, R281: a settlement that is due is requested at the ceiling; a restoring commit that aborted is asked for again; what a region's action input accepted
takes effect: its fence, and the ratio of its fast step. -/
def Obligations.LimitUnitRequestsAndRegionActions : Prop := ∀ (s : State) (r : Nat), s.die.Canonical → r < 80 → let x := region s.die r
  (∀ t, x.settleDue = some t → t ≤ s.die.tally.now → commitBlocked s.die r = false →
    Gives (.settlementCommitRequest r) s (fun d => (region d r).settleDue = none ∧
      (regionCeiling x < x.opp → ∃ q ∈ d.commitReqs, q.source = .settlement ∧ q.target = regionCeiling x ∧ bit q.members r = true))) ∧
  (∀ t, x.settleDue = none → x.restoreDue = some t → t ≤ s.die.tally.now → commitBlocked s.die r = false →
    Gives (.restoringCommitRetry r) s (fun d => (region d r).restoreDue = none ∧
      (x.patternTarget = none → x.opp < min (demand x) (regionCeiling x) → ∃ q ∈ d.commitReqs, q.source = .restoring ∧ q.target = min (demand x) (regionCeiling x) ∧ bit q.members r = true))) ∧
  (x.fenceDue = none → x.actionDue = true → Gives (.regionActionApply r) s (fun d => (region d r).actionDue = false ∧ (region d r).fast = fastRatio x)) ∧
  (∀ on src, x.fenceDue = some (on, src) → Gives (.regionActionApply r) s (fun d => (region d r).fenced = on ∧ (region d r).fenceDue = none))

/-- R199, R200, R201, R205, R206, R209, R212, R214, R219, R220: a record read at the head moves the chain on by its delta; a cycle beyond 2⁵⁶ − 1 faults the chain; END opens the horizon;
an island applies a record in its window; a request sets the targets of its regions and forms a commit of those without an obstacle. -/
def Obligations.PatternRecordsAreReadAppliedAndIssued : Prop := ∀ (s : State) (c : Nat) (x : Context), s.die.Canonical → c < 16 → context s.die c = some x →
  (∀ b : Bytes, ∀ g t, b.length = 16 → (∀ w ∈ x.window, retirable s.die x w = false) → x.segments = g :: t → x.state = .started → (g.read ≠ 0 ∨ chandlerRuns s.die = true) → x.window.length < 256 →
    (2 ^ 56 - 1 < x.last + fld b 0 4 → Gives (.patternRecordRead c b) s (fun d => context d c = some { x with state := .fault 3 })) ∧
    (x.last + fld b 0 4 ≤ 2 ^ 56 - 1 → g.read + 1 < g.records → fld b 6 1 ≠ 9 →
      Gives (.patternRecordRead c b) s (fun d => ∃ y, context d c = some y ∧ y.last = x.last + fld b 0 4 ∧ y.segments = { g with read := g.read + 1 } :: t ∧ y.state = .started)) ∧
    (x.last + fld b 0 4 ≤ 2 ^ 56 - 1 → fld b 6 1 = 9 → (parseRecord b).isSome = true →
      Gives (.patternRecordRead c b) s (fun d => context d c = some { x with last := x.last + fld b 0 4, state := .ended, open_ := true, segments := [] }))) ∧
  (∀ i w k n, i < 1248 → (region s.die (islandRegion i)).plan = some c → x.released = true → islandExcused s.die i = false → x.window = [w] → (askedIslands s.die x w).contains i = true → w.applied.contains i = false →
    w.action = .prestretch k n → w.cycle ≤ (island s.die i).ring.count → (island s.die i).ring.bellows ≠ .yoke → 0 < k → 0 < n →
    Gives (.patternActionApply i) s (fun d => (island d i).ring.windows = (island s.die i).ring.windows ++ [{ k := k, first := w.cycle, last := w.cycle + n - 1 }] ∧ (island d i).ring.count = (island s.die i).ring.count)) ∧
  (∀ w rest opp advance i, x.released = true → x.window = w :: rest → w.action = .oppRequest opp advance → issuer s.die x w = some i → issueCycle x w ≤ (island s.die i).ring.count →
    Gives (.oppRequestIssue c) s (fun d => context d c = some { x with window := rest } ∧ (∀ r ∈ addressed s.die x w, (region d r).patternTarget = some opp ∧ (region d r).patternContext = c) ∧
      ((addressed s.die x w).filter (fun r => !commitBlocked s.die r) ≠ [] →
        ∃ q ∈ d.commitReqs, q.source = .pattern ∧ q.target = opp ∧ q.context = c ∧ q.members = regionSet ((addressed s.die x w).filter (fun r => !commitBlocked s.die r)))))

/-- R395, R396, R398, R400: the certificate of the first step that waits is assembled; the context keeps its last two; it has 5,376 bytes, its outcome in byte 5, and the earliest start
and the latest end of its regions as its instants. -/
def Obligations.CertificatesAreAssembledAndKept : Prop := ∀ (s : State) (c : Nat) (x : Context) (g : CertWork) (t : List CertWork) (a b : Nat), s.die.Canonical → c < 16 → context s.die c = some x → x.ready = g :: t →
  leastOf ((certRegions s.die x g).filterMap (fun y => y.2.start)) = some a → greatestOf ((certRegions s.die x g).filterMap (fun y => y.2.stop)) = some b →
  (∀ y ∈ certRegions s.die x g, ∀ v, y.2.start = some v → a ≤ v) ∧ (∀ y ∈ certRegions s.die x g, ∀ v, y.2.stop = some v → v ≤ b) ∧
  Gives (.certAssembly c) s (fun d => ∃ cert, context d c = some { x with ready := t, certs := (cert :: x.certs).take 2 } ∧ cert.step = g.step ∧ cert.outcome = outcomeOf (certRegions s.die x g) g (outsideCount g a b) ∧
    cert.bytes.length = 5376 ∧ fld cert.bytes 5 1 = cert.outcome % 256 ∧ fld cert.bytes 8 4 = g.step % 2 ^ 32 ∧ fld cert.bytes 48 8 = a % 2 ^ 64 ∧ fld cert.bytes 56 8 = b % 2 ^ 64)

/-- R228, R233, R234, R236, R237, R238, R239: an energy interval is priced once, each region by the figures of its counts, and an assayed one by those of its last interval; the rails that
are on are read; a 1 ms window that is used sets an update that applies 20 µs later, one that is skipped is counted, and both start the sums afresh. -/
def Obligations.EnergyIsPricedAndCalibrated : Prop := ∀ (s : State), s.die.Canonical →
  (∀ counts, s.die.tally.now / 1000 * 1000 = s.die.limits.intervalEnd → exec (.energyIntervalEnd counts) s = .next s) ∧
  (∀ counts, s.die.tally.now / 1000 * 1000 ≠ s.die.limits.intervalEnd →
    Gives (.energyIntervalEnd counts) s (fun d => d.limits.intervalEnd = s.die.tally.now / 1000 * 1000 ∧ ∀ r, r < 80 → present s.die r = true →
      let e := (region d r).energy
      let f := if underAssay s.die r then lastFigures (region s.die r).energy else figures s.die r (match counts.find? (fun c => c.region = r) with | some c => if (region s.die r).retired then [] else c.classes | none => [])
      e.rawQ = f.rawQ ∧ e.rawS = f.rawS ∧ e.calQ = f.calQ ∧ e.calS = f.calS ∧ e.stale = underAssay s.die r)) ∧
  (Gives .telemetryReadStart s (fun d => ∀ k, k < 5 → let x := rail s.die k
    rail d k = (if x.off = true ∨ x.retention = true then { x with sawOff := true } else if chandlerRuns s.die = false then { x with sawNoChandler := true }
      else if x.pmbus.isSome = true then x else { x with pmbus := some true, pmbusAt := s.die.tally.now }))) ∧
  (Gives .calibrationWindowEnd s (fun d => ∀ k, k < 5 → let x := rail s.die k
    (rail d k).reads = 0 ∧ (rail d k).sumMw = 0 ∧ (rail d k).sumDyn = 0 ∧ (rail d k).sumLeak = 0 ∧ (rail d k).sumCal = 0 ∧ (rail d k).hostWrite = none ∧
    (x.hostWrite = none → (rail d k).gain = x.gain ∧ (rail d k).offset = x.offset) ∧
    (skipReason s.die x = 0 → (rail d k).skipped = 0 ∧ (x.hostWrite = none → (rail d k).update = some ((updated x).1, (updated x).2, s.die.tally.now + 20000))) ∧
    (skipReason s.die x ≠ 0 → (rail d k).skipped = x.skipped + 1 ∧ (rail d k).update = none))) ∧
  (Gives .calibrationUpdateApply s (fun d => ∀ k, k < 5 → let x := rail s.die k
    (x.update = none → rail d k = x) ∧ ∀ g o t, x.update = some (g, o, t) → (t ≤ s.die.tally.now → rail d k = { x with gain := g, offset := o, update := none }) ∧ (s.die.tally.now < t → rail d k = x)))

/-- R251, R252, R256: 2 µs after a window the package loop, when over, takes its regions one point below; a rail that alerts is recorded as such; from 1 ms after the alert its regions rise
a point per 100 µs; a fall that is not confirmed in time holds its regions at their points, and its target is written again every 100 µs. -/
def Obligations.LimitLoopsAndRegulatorAlerts : Prop := ∀ (s : State), s.die.Canonical →
  (∀ e, s.die.limits.windowEnd = some e → e + 2000 ≤ s.die.tally.now →
    Gives .limitEvaluation s (fun d => d.limits.windowEnd = none ∧
      ((packageLoop s.die).exceeds = true → drainOf s.die (packageLoop s.die) = none → ∀ r ∈ (packageLoop s.die).targets,
        (region d r).ceilings.getD (packageLoop s.die).reason none = some (min (region s.die r).opp (regionCeiling (region s.die r)) - 1)))) ∧
  (∀ k, k < 5 → let x := rail s.die k
    (∀ word, x.off = false → Gives (.vrmStatusPoll k word) s (fun d => (rail d k).status = word ∧ (rail d k).alert = wordAlerts word)) ∧
    (∀ t, x.fallClear = none → x.clearSince = some t → t + 1000000 ≤ s.die.tally.now → x.alertRise + 100000 ≤ s.die.tally.now → railAlerting x = false →
      Gives (.vrmAlertRise k) s (fun d => (rail d k).alertRise = s.die.tally.now ∧ ∀ r ∈ railRegions s.die k, (region d r).vrm.getD (vrmSlot k) none = risen ((region s.die r).vrm.getD (vrmSlot k) none))) ∧
    (∀ word t, x.writtenAt = some t → x.falling = true → x.confirmed = false → x.fallFailed = false → t + x.allowance ≤ s.die.tally.now →
      Gives (.voltageFallTimeout k word) s (fun d => (rail d k).fallFailed = true ∧ (rail d k).rewriteAt = s.die.tally.now + 100000 ∧
        ∀ r ∈ railRegions s.die k, (region d r).vrm.getD (2 + vrmSlot k) none = some (region s.die r).opp ∧ (region d r).opp = (region s.die r).opp)) ∧
    (x.fallFailed = true → x.rewriteAt ≤ s.die.tally.now → chandlerRuns s.die = true → x.off = false →
      Gives (.fallTargetRewrite k) s (fun d => (rail d k).rewriteAt = s.die.tally.now + 100000 ∧ (rail d k).target = x.target ∧ ((rail d k).busy = some (.target x.target) ∨ AvsOp.target x.target ∈ (rail d k).waiting))))

/-- R257, R258, R259, R260, R410: a good conversion gives the sensor its reading, a failed one marks it invalid; a region at the hard threshold is held at OPP 0, one at the soft threshold
goes one point below; the steps, release and rises of the soft threshold, and the release of the hard one; a reading of 115.0 °C stops the die. -/
def Obligations.ThermalThresholdsActOnTheirRegions : Prop := ∀ (s : State), s.die.Canonical →
  (∀ x : SensorReading, present s.die (x.sensor / 4) = true → (sensor s.die x.sensor).retired = false → (rail s.die (regionRail (x.sensor / 4))).off = false →
    (x.ok = true → inRange x.value = true → Gives (.sensorConversion [x]) s (fun d => sensor d x.sensor = { sensor s.die x.sensor with reading := x.value, converted := true, flagged := false })) ∧
    (x.ok = false → (sensor s.die x.sensor).flagged = false → Gives (.sensorConversion [x]) s (fun d => (sensor d x.sensor).flagged = true ∧ (sensor d x.sensor).reading = (sensor s.die x.sensor).reading))) ∧
  (∀ readings, let e := each readings convert s.die
    ((∀ n ∈ validSensors e, (sensor e n).reading < Config.trip) → s.die.dormant.leaving = false →
      Gives (.sensorConversion readings) s (fun d => d.sensors = e.sensors ∧ d.stop.stopped = s.die.stop.stopped ∧ ∀ r h, r ∈ thermalRegions e → regionHottest e r = some h →
        (e.limits.hard ≤ h → (region d r).ceilings.getD 5 none = some 0 ∧ (region d r).thermal.hard = true) ∧
        (h < e.limits.hard → e.limits.soft ≤ h → (region e r).thermal.soft = false → (region d r).ceilings.getD 4 none = some (stepBelow (region e r)) ∧ (region d r).thermal.soft = true))) ∧
    (∀ n ∈ validSensors e, Config.trip ≤ (sensor e n).reading → s.die.stop.trip = false →
      Gives (.sensorConversion readings) s (fun d => d.stop.trip = true ∧ d.stop.stopped = true ∧ d.stop.thermtrip = true ∧ d.stop.td = s.die.tally.now ∧ d.stop.resumeAt = none))) ∧
  (∀ r, r < 80 → let x := region s.die r
    (x.thermal.soft = true → x.thermal.softStep + 1000000 ≤ s.die.tally.now →
      Gives (.thermalSoftStep r) s (fun d => (region d r).ceilings.getD 4 none = (x.ceilings.getD 4 none).map (· - 1) ∧ (region d r).thermal.softStep = s.die.tally.now)) ∧
    (∀ t, x.thermal.soft = true → x.thermal.softBelow = some t → t + 1000000 ≤ s.die.tally.now →
      Gives (.thermalSoftRelease r) s (fun d => region d r = { x with thermal := { x.thermal with soft := false, riseFrom := some s.die.tally.now } })) ∧
    (∀ t, x.thermal.soft = false → x.thermal.riseFrom = some t → t + 10000000 ≤ s.die.tally.now →
      Gives (.thermalSoftRise r) s (fun d => (region d r).ceilings.getD 4 none = risen (x.ceilings.getD 4 none))) ∧
    (∀ t, x.thermal.hard = true → x.thermal.hardBelow = some t → t + 1000000 ≤ s.die.tally.now →
      Gives (.thermalHardRelease r) s (fun d => (region d r).ceilings.getD 5 none = none ∧ (region d r).thermal.hard = false ∧
        (x.thermal.fromReset = false → (region d r).ceilings.getD 4 none = some 0 ∧ (region d r).thermal.soft = true) ∧
        (x.thermal.fromReset = true → (region d r).ceilings.getD 4 none = x.ceilings.getD 4 none))))

/-- R260, R262, R263, R264, R266, R475: loss of flow, ESTOP_N and the register stop the die with every gate closed, flow and ESTOP_N with every region held at OPP 0; each cause is released
by its own rule, which does not restart a die that is READY; a resume releases the islands after its Tally with their counts unchanged. -/
def Obligations.StopsAssertAndRelease : Prop := ∀ (s : State), s.die.Canonical → let t := s.die.stop
  (∀ mv ok, (mv < 600 ∨ ok = false) →
    (t.flow = true → Gives (.flowLoss mv ok) s (fun d => d.stop.coolant = true ∧ d.stop.flow = false ∧ d.stop.stopped = true ∧ d.stop.thermtrip = true ∧ d.stop.td = s.die.tally.now ∧ d.stop.senseMv = mv ∧
      ∀ r, r < 80 → present s.die r = true → (region d r).ceilings.getD 11 none = some 0)) ∧
    (t.flow = false → exec (.flowLoss mv ok) s = .next { s with die := { s.die with stop := { t with senseMv := mv, flowOk := ok } } })) ∧
  (t.estop = false → Gives .estopAssert s (fun d => d.stop.estop = true ∧ d.stop.estopPin = false ∧ d.stop.stopped = true ∧ d.stop.td = s.die.tally.now ∧
      ∀ r, r < 80 → present s.die r = true → (region d r).ceilings.getD 11 none = some 0)) ∧
  (t.register = false → Gives .estopRegisterSet s (fun d => d.stop.register = true ∧ d.stop.stopped = true ∧ d.stop.td = s.die.tally.now ∧ d.stop.resumeAt = none ∧
      (t.stopped = false → ∀ i, i < 1248 → present s.die (islandRegion i) = true → (island d i).ring.gate = false))) ∧
  (∀ mv, 660 ≤ mv → t.aonGood = true → t.flow = false → Gives (.flowRelease mv) s (fun d => d.stop.flow = true ∧ d.stop.coolant = false ∧ d.stop.trayHold = false ∧ (s.die.startup.ready = 1 → d.stop.stopped = t.stopped))) ∧
  (∀ v, t.trip = true → t.tripBelow = some v → v + 10000000 ≤ s.die.tally.now → Gives .thermalTripRelease s (fun d => d.stop.trip = false ∧ d.stop.thermalHold = false ∧ (s.die.startup.ready = 1 → d.stop.stopped = t.stopped))) ∧
  (t.estop = true → Gives .estopRelease s (fun d => d.stop.estop = false ∧ d.stop.estopPin = true ∧ (s.die.startup.ready = 1 → d.stop.stopped = t.stopped))) ∧
  (t.register = true → Gives .estopRegisterClear s (fun d => d.stop.register = false ∧ (s.die.startup.ready = 1 → d.stop.stopped = t.stopped))) ∧
  (∀ v, t.stopped = true → t.resumeAt = some v → v < s.die.tally.now →
    Gives .resumeRelease s (fun d => d.stop.stopped = false ∧ d.stop.resumeAt = none ∧ d.stop.stood = 0 ∧ (∀ r, r < 80 → present s.die r = true → (region d r).ceilings.getD 11 none = none) ∧
      ∀ i, (island d i).ring.count = (island s.die i).ring.count))

/-- R270, R271, R272, R273, R274, R284, R285: with a Chandler running, STATUS rounds send each pool link its want and offer; a STATUS that wants what is offered is lent by cap first and GRANT after; a GRANT is borrowed as far
as it fits; RETURN and RECALL end a loan; a silent link ends a borrowed loan after 20 ms and a lent one after 30 ms. From 2 µs after a window its fences are tested once; a 1 ms ratio over 2.0 % puts the regions of the
most variable other owner at OPP 0, and the caps rise by one point each 10 ms once the conditions have held for 10 ms. -/
def Obligations.PoolMovesBudgetAndFenceGuardCaps : Prop :=
  (∀ (s : State), s.die.Canonical →
    (s.die.limits.pool ≠ 0 → chandlerRuns s.die = true → s.die.limits.roundStart < s.die.tally.now / 10000000 * 10000000 →
      Gives .poolStatusSend s (fun d => d.limits.roundStart = s.die.tally.now ∧ d.limits.roundEnergy = 0 ∧ ∀ l, l < 32 → (link s.die l).rxUp = true →
        (link d l).pool.want = (if poolLink s.die l then wantNow s.die else 0) ∧ (link d l).pool.offer = (if poolLink s.die l then offerNow s.die else 0) ∧
        (link d l).waitPool.getLast? = some (.pool 0 (link d l).pool.seq 0xFFFF (link d l).pool.want (link d l).pool.offer 0 (link d l).pool.loan))) ∧
    (∀ l, l < 32 → let x := link s.die l; let p := x.pool;
      (∀ f : Bytes, f.length = 32 → x.rxUp = true → chandlerRuns s.die = true → s.die.limits.pool ≠ 0 → fld f 2 2 = s.die.limits.pool →
        (let n := min (min (fld f 14 2) p.offer) (fifth s.die - lentTotal s.die);
         poolFrameOk 0 f = true → p.outstanding = false → fldI f 18 2 = -p.loan → 0 < n → s.die.stop.stopped = false → borrowedTotal s.die = 0 → x.up = true →
          Gives (.poolStatusReceived l f) s (fun d => (link d l).pool.loan = p.loan + n ∧ (link d l).pool.offer = p.offer - n ∧ (link d l).pool.outstanding = true ∧
            (link d l).waitPool = x.waitPool ++ [.pool 1 ((p.seq + 1) % 65536) (fld f 6 2) p.want (p.offer - n) n (p.loan + n)])) ∧
        (poolFrameOk 0 f = true → p.outstanding = false → fldI f 18 2 ≠ -p.loan → p.mismatches ≠ 0 → fld f 14 2 = 0 →
          Gives (.poolStatusReceived l f) s (fun d => (link d l).pool.loan = max p.loan (-fldI f 18 2) ∧ (link d l).pool.mismatches = 0 ∧ (link d l).waitPool = x.waitPool)) ∧
        (poolFrameOk 1 f = true →
          Gives (.poolGrantReceived l f) s (fun d => (link d l).pool.loan = p.loan - borrowable s.die (fld f 20 2) ∧ (link d l).pool.lastValid = some s.die.tally.now ∧
            (borrowable s.die (fld f 20 2) = fld f 20 2 → (link d l).waitPool = x.waitPool) ∧
            (borrowable s.die (fld f 20 2) < fld f 20 2 → (link d l).waitPool = x.waitPool ++ [.pool 2 ((p.seq + 1) % 65536) (fld f 6 2) p.want p.offer (fld f 20 2 - borrowable s.die (fld f 20 2)) (link d l).pool.loan]))) ∧
        (poolFrameOk 2 f = true → 0 < min (fld f 20 2) p.loan.toNat →
          Gives (.poolReturnReceived l f) s (fun d => (link d l).pool.loan = p.loan - min (fld f 20 2) p.loan.toNat ∧ (link d l).pool.outstanding = false)) ∧
        (poolFrameOk 3 f = true → p.loan < 0 →
          Gives (.poolRecallReceived l f) s (fun d => (link d l).pool.loan = 0 ∧ (link d l).waitPool = x.waitPool ++ [.pool 2 ((p.seq + 1) % 65536) (fld f 6 2) p.want p.offer (-p.loan).toNat 0]))) ∧
      (∀ t, p.loan < 0 → p.lastValid = some t → t + 20000000 ≤ s.die.tally.now → Gives (.poolLinkSilent l) s (fun d => (link d l).pool.loan = 0 ∧ (link d l).waitPool = x.waitPool)) ∧
      (∀ t, 0 < p.loan → p.restoreAt = some t → t ≤ s.die.tally.now → Gives (.poolLenderRestore l) s (fun d => (link d l).pool.loan = 0 ∧ (link d l).pool.restoreAt = none)) ∧
      (∀ t, 0 < p.loan → p.restoreAt = none → p.lastValid = some t → t + 30000000 ≤ s.die.tally.now → Gives (.poolLenderRestore l) s (fun d => (link d l).pool.loan = 0)))) ∧
  (∀ (s : State), s.die.Canonical →
    (let e := s.die.limits.intervalEnd / 10000 * 10000;
      (s.die.limits.guardEnd < e → e + 2000 ≤ s.die.tally.now →
        Gives .guardEvaluation s (fun d => d.limits.guardEnd = e ∧ ∀ v, v < 17 →
          (fencedRegions s.die v = [] → (tenant d v).ratioMs = 0 ∧ (tenant d v).ratioS = 0 ∧ (tenant d v).calmSince = none) ∧
          (fencedRegions s.die v ≠ [] → (tenant d v).ratioMs = ratioMs s.die v ∧ (tenant d v).ratioS = ratioS s.die v) ∧
          (∀ r, fencedRegions s.die v ≠ [] → breaches 0 (worst s.die 100 v) = true → r ∈ fencedRegions s.die v → breaches 0 (disturbOver s.die 100 r) = true →
            variation s.die (regionRail r) v < variation s.die (regionRail r) (largestOther s.die (regionRail r) v) → regionRail r < 4 →
            ∀ q ∈ railRegions s.die (regionRail r), (region s.die q).owner = largestOther s.die (regionRail r) v → tget 16 (region d q).guards v = 0))) ∧
      (e ≤ s.die.limits.guardEnd → exec .guardEvaluation s = .next s)) ∧
    (let t := s.die.tally.now / 10000000 * 10000000;
      Gives .guardCeilingRise s (fun d => ∀ v, v < 17 → ∀ r, r < 80 → present s.die r = true →
        ((∃ c, (tenant s.die v).calmSince = some c ∧ c + 10000000 ≤ t ∧ (tenant s.die v).riseAt < t) → (tget 16 (region s.die r).guards v < 15 → tget 16 (region d r).guards v = tget 16 (region s.die r).guards v + 1) ∧ ((region s.die r).guards = [(v, 15)] → (region d r).guards = []) ∧
          (16 ≤ tget 16 (region s.die r).guards v → tget 16 (region d r).guards v = tget 16 (region s.die r).guards v)) ∧
        (¬ (∃ c, (tenant s.die v).calmSince = some c ∧ c + 10000000 ≤ t ∧ (tenant s.die v).riseAt < t) → tget 16 (region d r).guards v = tget 16 (region s.die r).guards v))))

/-- R290, R292, R305, R308, R309, R310, R311: a waiting Assay begins when its region has no commit pending; at a phase's end the values measured in it wait for the close, an item that agrees
takes the mean of its pair, one that does not is flagged, and the working calibration stands as it was; at the close the values of the regions covered enter it all at once. -/
def Obligations.AssayPhasesMeasureAndClose : Prop := ∀ (s : State) (a : Assay), s.die.Canonical → s.die.store.assay = some a →
  (∀ l r, a.waiting = true → a.region = some r → pendingCommit s.die r = none →
    Gives (.assayPhaseEnd l) s (fun d => ∃ b, d.store.assay = some b ∧ b.region = some r ∧ b.phase = 1 ∧ b.since = s.die.tally.now ∧ b.waiting = false ∧ b.covered = coveredBy s.die r ∧ d.store.work = s.die.store.work)) ∧
  (∀ l, a.waiting = false → a.phase ≠ 5 → a.since + phaseEndNs a ≤ s.die.tally.now →
    Gives (.assayPhaseEnd l) s (fun d => d.store.work = s.die.store.work ∧ ∃ b, d.store.assay = some b ∧ b.phase = (nextPhase a).phase ∧ b.sub = (nextPhase a).sub ∧ b.region = a.region ∧ b.since = a.since ∧ b.waiting = false ∧
      (l = [] → b.values = a.values ∧ b.flagged = a.flagged) ∧
      (∀ m, l = [m] → m.item = 1 → phaseMeasures s.die a m = true →
        (∀ p, agreeing [some 20] m.m1 m.m2 m.m3 = some p → b.flagged = a.flagged ∧
          b.values = modRegionCal m.id (fun x => { x with spineStatus := 0, spine := ((meanOf p).getD 0 0).toNat, spineRes := sat 8 m.quality }) a.values) ∧
        (agreeing [some 20] m.m1 m.m2 m.m3 = none → b.flagged = a.flagged + 1)))) ∧
  (∀ l, a.waiting = false → s.die.tally.now < a.since + phaseEndNs a → exec (.assayPhaseEnd l) s = .next s) ∧
  (a.waiting = false → a.phase = 5 → a.since + assayLength a ≤ s.die.tally.now →
    Gives .assayClose s (fun d => d.store.assay = none ∧ (a.region.isSome = true → d.store.assayKey = none) ∧
      ∀ r, (r ∈ assayRegions s.die a → tget {} a.values.regions r ≠ {} → tget {} d.store.work.regions r = tget {} a.values.regions r) ∧
        (r ∉ assayRegions s.die a → tget {} d.store.work.regions r = tget {} s.die.store.work.regions r))) ∧
  ((a.waiting = true ∨ a.phase ≠ 5 ∨ s.die.tally.now < a.since + assayLength a) → exec .assayClose s = .next s)

/-- R313, R317, R318, R320: a write erases the 32 blocks of the slot that is not current, programs it and reads it back; the slot then becomes current; a failure or a time-out ends the write,
keeps the current slot, and makes a write of source RETIRE due again 10 s later; such a write begins when it is due and no other is in progress. -/
def Obligations.StoreWritesEraseProgramVerify : Prop := ∀ (s : State), let t := s.die.store; let now := s.die.tally.now;
  (∀ w, t.write = some w →
    (w.stage = 0 → w.blocks < 31 → Gives (.flashOperationComplete true) s (fun d => d.store = { t with write := some { w with blocks := w.blocks + 1, since := now } })) ∧
    (w.stage = 0 → w.blocks = 31 → Gives (.flashOperationComplete true) s (fun d => d.store = { t with write := some { w with blocks := 32, stage := 1, since := now } })) ∧
    (w.stage = 1 → Gives (.flashOperationComplete true) s (fun d => d.store = { t with write := some { w with stage := 2, since := now } })) ∧
    (w.stage = 2 → Gives (.flashOperationComplete true) s (fun d => d.store.write = none ∧ d.store.current = some w.slot ∧ d.store.lastFailed = false ∧ d.store.work = t.work ∧
      slotOfN d w.slot = { valid := true, generation := w.generation, source := w.source, firmware := w.firmware, tally := w.begun, cal := w.image } ∧
      ∀ n, n < 2 → w.slot < 2 → n ≠ w.slot → slotOfN d n = slotOfN s.die n)) ∧
    (∀ c, (c = .flashOperationComplete false ∨ (c = .flashOperationTimeout ∧ w.stage < 2)) → Gives c s (fun d =>
      d.store = { t with write := none, lastFailed := true, lastTally := now, retireDue := if w.source = 3 then some (min (now + 10000000000) (t.retireDue.getD (now + 10000000000))) else t.retireDue })) ∧
    (2 ≤ w.stage → exec .flashOperationTimeout s = .next s) ∧ exec .storeWriteRetire s = .next s) ∧
  (∀ v c, t.write = none → t.retireDue = some v → v ≤ now → t.absent = false → chandlerRuns s.die = true → (c = .storeWriteRetire ∨ (c = .storeWriteRetry ∧ t.lastFailed = true)) →
    Gives c s (fun d => d.store.retireDue = none ∧ d.store.current = t.current ∧ d.store.work = t.work ∧ d.store.lastTally = now ∧ ∃ w, d.store.write = some w ∧ w.slot = (match t.current with | some n => 1 - n | none => 0) ∧
      w.source = 3 ∧ w.stage = 0 ∧ w.blocks = 0 ∧ w.image = retireImage s.die ∧ w.generation = nextGeneration s.die ∧ slotOfN d w.slot = {})) ∧
  (t.write = none → exec (.flashOperationComplete true) s = .next s) ∧
  (t.lastFailed = false → exec .storeWriteRetry s = .next s)

/-- R323, R324, R325, R333, R411: heartbeats; 150 µs without one, or a fault signal, fails the primary, and a SYNCED shadow takes over; without a shadow the pair is lost; a completed takeover
marks each open command re-executed and restarts the former primary or holds it out at its third failure within 10 s; a restarted core becomes SYNCED. -/
def Obligations.ChandlerPairFailsOverAndRestarts : Prop := ∀ (s : State), let c := s.die.chandler; let now := s.die.tally.now;
  let failed := fun (n : Nat) (d : Die) => (permanent (addFailure now (core s.die n).failures) = true → d.chandler.pair = .single ∧ (core d n).heldOut = true) ∧
    (permanent (addFailure now (core s.die n).failures) = false → d.chandler.pair = .restarting ∧ (core d n).restart = some now ∧ (core d n).attempt = (core s.die n).attempt + 1);
  (primaryRuns s.die = true → now % 100000 = 50000 → Gives .chandlerHeartbeat s (fun d => d.chandler = { c with lastBeat := now })) ∧
  (∀ e, ((e = .chandlerHeartbeatTimeout ∧ c.lastBeat + 150000 ≤ now) ∨ ∃ k, e = .chandlerFaultSignal c.primary k ∧ c.primary < 2) →
    (c.pair = .synced → Gives e s (fun d => d.chandler.pair = .takeover ∧ d.chandler.primary = 1 - c.primary ∧ chandlerRuns d = false ∧ (core d c.primary).failures = addFailure now (core s.die c.primary).failures)) ∧
    ((c.pair = .single ∨ c.pair = .syncing ∨ c.pair = .restarting) → Gives e s (fun d => d.chandler.pair = .none_ ∧ d.stop.fault = 3 ∧ d.stop.stopped = s.die.stop.stopped))) ∧
  (∀ k, c.pair = .takeover → c.primary < 2 → Gives (.chandlerFaultSignal c.primary k) s (fun d => d.chandler.pair = .none_ ∧ d.stop.fault = 3)) ∧
  (∀ n k, n < 2 → n ≠ c.primary → (c.pair = .synced ∨ c.pair = .syncing ∨ c.pair = .restarting) → Gives (.chandlerFaultSignal n k) s (fun d => failed n d ∧ d.chandler.primary = c.primary)) ∧
  (now < c.lastBeat + 150000 → exec .chandlerHeartbeatTimeout s = .next s) ∧
  (s.die.Canonical → c.pair = .takeover → c.primary < 2 → Gives .chandlerTakeoverComplete s (fun d => d.chandler.lastBeat = now ∧ d.chandler.primary = c.primary ∧
    (permanent (core s.die (1 - c.primary)).failures = true → d.chandler.pair = .single ∧ (core d (1 - c.primary)).heldOut = true) ∧
    (permanent (core s.die (1 - c.primary)).failures = false → d.chandler.pair = .restarting ∧ (core d (1 - c.primary)).restart = some now) ∧
    ∀ q, q < 17 → (queue d q).exec = (queue s.die q).exec.map (fun e => { e with reexecuted := true }))) ∧
  (c.pair = .restarting → Gives .chandlerRestartVerified s (fun d => d.chandler = { c with pair := .syncing })) ∧
  (c.pair = .syncing → c.primary < 2 → Gives .chandlerSynced s (fun d => d.chandler.pair = .synced ∧ (core d (1 - c.primary)).restart = none ∧ (core d (1 - c.primary)).attempt = 0)) ∧
  (∀ t, (c.pair = .restarting ∨ c.pair = .syncing) → c.primary < 2 → (core s.die (1 - c.primary)).restart = some t → t + 20000000 ≤ now → Gives .chandlerSyncTimeout s (failed (1 - c.primary)))

namespace Sys2Proof.Machine

/-- The entry of the completion ring (R335) for a descriptor of slot `slot`, at completion count `count`. -/
def entryBytes (desc : Bytes) (slot status flags result detail count : Nat) : Bytes :=
  le 4 (fld desc 4 4) ++ le 2 (fld desc 0 2) ++ le 1 status ++ le 1 (flags + 128 * (1 - count / 64 % 2)) ++ le 4 result ++ le 1 slot ++ zeros 1 ++ le 2 detail

end Sys2Proof.Machine

namespace Sys2Proof.Machine

/-- d shows the entry posted at the tail that queue q had in a, and a tail one further. -/
def Posted (a d : Die) (q : Nat) (desc : Bytes) (slot status flags result detail : Nat) : Prop :=
  (queue d q).cplTail = ((queue a q).cplTail + 1) % 65536 ∧
    sramRead d (queueBase q + 0x1000 + 16 * ((queue a q).cplTail % 64)) 16 = entryBytes desc slot status flags result detail (queue a q).cplTail

end Sys2Proof.Machine

/-- R326, R327, R328, R329, R338, R480: a doorbell within 64 of head and tail moves the tail and any other sets QERR; a completion head moves up to the tail; a queue reset clears the counts, the
sequence state and the completion ring, at once or after the command in execution; a write of ones clears those interrupt bits that no event sets in the same clock. -/
def Obligations.QueueRegistersMoveTheirCounts : Prop := ∀ (s : State) (q : Nat), s.die.Canonical → q < 17 → let x := queue s.die q;
  (∀ tail sram, let t := tail % 65536;
    (ahead x.subHead t ≤ 64 → ahead x.subTail t ≤ 64 → Gives (.queueDoorbellWrite q tail sram) s (fun d => queue d q = { x with subTail := t } ∧ d.sram = (each sram hostWrite s.die).sram ∧ ∀ p, p ≠ q → queue d p = queue s.die p)) ∧
    ((64 < ahead x.subHead t ∨ 64 < ahead x.subTail t) → Gives (.queueDoorbellWrite q tail sram) s (fun d => (queue d q).subTail = x.subTail ∧ (queue d q).subHead = x.subHead ∧ bit (queue d q).intStatus 1 = true))) ∧
  (∀ head, let h := head % 65536;
    (ahead x.cplHead h ≤ ahead x.cplHead x.cplTail → Gives (.queueCqHeadWrite q head) s (fun d => queue d q = { x with cplHead := h } ∧ ∀ p, p ≠ q → queue d p = queue s.die p)) ∧
    (ahead x.cplHead x.cplTail < ahead x.cplHead h → Gives (.queueCqHeadWrite q head) s (fun d => (queue d q).cplHead = x.cplHead ∧ bit (queue d q).intStatus 1 = true))) ∧
  (x.resetting = none → x.exec = none →
    Gives (.queueResetWrite q) s (fun d => queue d q = { x with subTail := 0, subHead := 0, cplTail := 0, cplHead := 0, resetting := none, exec := none, expect := none, stored := [] } ∧
      ∀ a, queueBase q + 0x1000 ≤ a → a < queueBase q + 0x1400 → tget 0#8 d.sram a = 0#8)) ∧
  (∀ e, x.resetting = none → x.exec = some e → Gives (.queueResetWrite q) s (fun d => queue d q = { x with resetting := some 0 })) ∧
  (x.resetting.isSome = true → exec (.queueResetWrite q) s = .next s) ∧
  (∀ ones same, Gives (.queueIntStatusClear q ones same) s (fun d => (∀ n, n < 32 → bit (queue d q).intStatus n = (bit x.intStatus n && (!bit ones n || bit same n))) ∧ ∀ p, p ≠ q → queue d p = queue s.die p)) ∧
  (∀ ones same, Gives (.fabricIntStatusClear ones same) s (fun d => ∀ n, n < 32 → bit d.regs.fintStatus n = (bit s.die.regs.fintStatus n && (!bit ones n || bit same n))))

/-- R329, R330, R331, R332, R333, R334, R337: the descriptor at the head of a queue that has room for its completion is fetched: checks 1 to 3 complete it without a sequence number, a duplicate is
posted again with its stored completion, and a good one takes its number and goes into execution, or is refused by what its header shows. -/
def Obligations.DescriptorsAreFetchedAndChecked : Prop := ∀ (s : State) (q : Nat), s.die.Canonical → q < 17 → let x := queue s.die q; let c := Instr.descriptorFetch q;
  let slot := x.subHead % 64; let b := sramRead s.die (queueBase q + 64 * slot) 64; let seq := fld b 4 4;
  let staged := if bit (fld b 2 1) 1 then sramRead s.die (queueBase q + 0x1400) (stagedLength (fld b 0 2)) else [];
  let e : Exec := { desc := b, slot := slot, staged := staged };
  let crc := fld b 12 4 = crc32c (b.take 12 ++ b.drop 16);
  let mine := (q = 0 ∨ x.bound = true) ∧ fld b 3 1 = q;
  let kept := fun (d : Die) => (queue d q).subHead = (x.subHead + 1) % 65536 ∧ (queue d q).expect = x.expect ∧ (queue d q).exec = none ∧ (queue d q).stored = x.stored;
  ((chandlerRuns s.die = false ∨ x.subHead = x.subTail ∨ 64 ≤ ahead x.cplHead x.cplTail ∨ x.exec.isSome = true ∨ x.resetting.isSome = true) → exec c s = .next s) ∧
  (chandlerRuns s.die = true → x.subHead ≠ x.subTail → ahead x.cplHead x.cplTail < 64 → x.exec = none → x.resetting = none →
    (¬ crc → Gives c s (fun d => kept d ∧ Posted s.die d q b slot 0x01 0 0 0xFFFF)) ∧
    (crc → ¬ mine → Gives c s (fun d => kept d ∧ Posted s.die d q b slot 0x02 0 0 0xFFFF)) ∧
    (crc → mine → (∀ n, x.expect = some n → seq ≠ n → x.stored.find? (fun k => decide (k.seq = seq)) = none → Gives c s (fun d => kept d ∧ Posted s.die d q b slot 0x03 0 0 0xFFFF)) ∧
      (∀ n k, x.expect = some n → seq ≠ n → x.stored.find? (fun k => decide (k.seq = seq)) = some k → Gives c s (fun d => kept d ∧ Posted s.die d q b slot k.status (k.flags % 2 + 2) k.result k.detail)) ∧
      ((x.expect = none ∨ x.expect = some seq) →
        (headerRefusal b = none → Gives c s (fun d => queue d q = { x with subHead := (x.subHead + 1) % 65536, expect := some ((seq + 1) % 2 ^ 32), exec := some e } ∧ d.sram = s.die.sram)) ∧
        (∀ status detail, headerRefusal b = some (status, detail) → Gives c s (fun d => (queue d q).subHead = (x.subHead + 1) % 65536 ∧ (queue d q).expect = some ((seq + 1) % 2 ^ 32) ∧ (queue d q).exec = none ∧
          (queue d q).stored = ({ seq := seq, status := status, flags := 0, result := 0, detail := detail } :: x.stored).take 64 ∧ Posted s.die d q b slot status 0 0 detail)))))

/-- R331, R333, R334, R335, R336, R338: a command that completes leaves execution, its completion is stored as the newest of 64 and posted, an OK with its output in the staging area first;
with IRQ set, CPL is set; a queue reset that waited for it follows; a command still in execution changes nothing. -/
def Obligations.CompletionsAreStoredAndPosted : Prop := ∀ (d : Die) (q : Nat) (e : Exec), d.Canonical → q < 17 → (queue d q).exec = some e → let x := queue d q;
  finish q .wait d = d ∧
  (x.resetting = none →
    (∀ result out, let fl := b1 e.reexecuted + 4 * b1 out.isSome; let f := finish q (.done result out) d;
      (queue f q).exec = none ∧ (queue f q).stored = ({ seq := fld e.desc 4 4, status := 0, flags := fl, result := result, detail := 0xFFFF } :: x.stored).take 64 ∧
      Posted d f q e.desc e.slot 0 fl result 0xFFFF ∧ (bit (fld e.desc 2 1) 0 = true → bit (queue f q).intStatus 0 = true) ∧
      (∀ b, out = some b → sramRead f (queueBase q + 0x1400) b.length = b) ∧ ∀ p, p ≠ q → queue f p = queue d p) ∧
    (∀ status detail, let fl := b1 e.reexecuted; let f := finish q (.refuse status detail) d;
      (queue f q).exec = none ∧ (queue f q).stored = ({ seq := fld e.desc 4 4, status := status, flags := fl, result := 0, detail := detail } :: x.stored).take 64 ∧
      Posted d f q e.desc e.slot status fl 0 detail ∧ (bit (fld e.desc 2 1) 0 = true → bit (queue f q).intStatus 0 = true) ∧ ∀ p, p ≠ q → queue f p = queue d p)) ∧
  (∀ cause reply, x.resetting = some cause → reply ≠ .wait → let y := queue (finish q reply d) q;
    y.exec = none ∧ y.resetting = none ∧ y.subTail = 0 ∧ y.subHead = 0 ∧ y.cplTail = 0 ∧ y.cplHead = 0 ∧ y.expect = none ∧ y.stored = [] ∧ y.bound = x.bound)

/-- R185, R236, R412, R450, R451, R452, R453: a failed frame is repeated, at most twice, and after the third failure the rail alerts; a good write starts the wait for the rail and a good read
within 10 mV confirms it; a confirmation read falls due 2 µs after the write; a valid READ_POUT counts, an invalid one and one without its end after 20 µs do not. -/
def Obligations.RailTransactionsCompleteOrFail : Prop := ∀ (s : State) (k : Nat), s.die.Canonical → k < 5 → let x := rail s.die k; let now := s.die.tally.now;
  (∀ op resp, x.busy = some op → (avsFailed resp = true ∨ s.die.stop.testForce = true) →
    (x.failed < 2 → Gives (.avsbusFrameEnd k resp) s (fun d => rail d k = { x with failed := x.failed + 1 })) ∧
    (2 ≤ x.failed → Gives (.avsbusFrameEnd k resp) s (fun d => (rail d k).dead = true ∧ (rail d k).failed = 0))) ∧
  (∀ resp, x.busy = some (.target x.target) → avsFailed resp = false → s.die.stop.testForce = false → x.dead = false → x.alert = resp.alert → railAlerting x = false →
    Gives (.avsbusFrameEnd k resp) s (fun d => (rail d k).writtenAt = some now ∧ (rail d k).failed = 0 ∧ (rail d k).busy = (if x.off then none else x.waiting.head?) ∧ (rail d k).confirmed = x.confirmed)) ∧
  (∀ resp t, x.busy = some .confirm → avsFailed resp = false → s.die.stop.testForce = false → x.dead = false → x.alert = false → resp.alert = false → railAlerting x = false → x.writtenAt = some t →
    resp.data ≤ x.target + 10 → x.target ≤ resp.data + 10 → Gives (.avsbusFrameEnd k resp) s (fun d => (rail d k).confirmed = true)) ∧
  (∀ t, x.writtenAt = some t → x.confirmed = false → x.off = false → t + 2000 ≤ now → Gives (.railConfirmationRead k) s (fun d => (rail d k).busy = some .confirm ∨ .confirm ∈ (rail d k).waiting)) ∧
  (∀ resp : PmbusResponse, x.pmbus = some true →
    (resp.ok = true → resp.fault = false → resp.elapsedNs ≤ 20000 → s.die.stop.testForce = false →
      Gives (.pmbusTransactionComplete k resp) s (fun d => rail d k = { x with pmbus := none, reads := x.reads + 1, sumMw := x.sumMw + linear11 resp.word })) ∧
    ((resp.ok = false ∨ resp.fault = true ∨ 20000 < resp.elapsedNs) → Gives (.pmbusTransactionComplete k resp) s (fun d => rail d k = { x with pmbus := none })) ∧
    (x.pmbusAt + 20000 ≤ now → Gives (.pmbusReadTimeout k) s (fun d => rail d k = { x with pmbus := none }))) ∧
  (∀ resp, x.pmbus = some false → Gives (.pmbusTransactionComplete k resp) s (fun d => rail d k = { x with pmbus := none }))

/-- R212, R341, R394, R466: a failed stream access ends a Pattern read in a READ fault, stops the drain with what was not delivered still to send, and completes with FAILED the command that
reached host memory. -/
def Obligations.StreamAccessFailuresEndTheirReaders : Prop := ∀ (s : State) (address : Nat), s.die.Canonical →
  (∀ n x, n < 16 → context s.die n = some x → (x.state = .started ∨ x.state = .starved) → x.segments ≠ [] → Gives (.streamAccessFail n address) s (fun d => context d n = some { x with state := .fault 2 })) ∧
  (s.die.ledger.drain.running = true → s.die.ledger.drain.stopping = false →
    Gives (.streamAccessFail 16 address) s (fun d => d.ledger.drain.running = false ∧ d.ledger.drain.failed = true ∧ d.ledger.drain.outstanding = [] ∧ d.ledger.drain.next = s.die.ledger.drain.firstUndelivered)) ∧
  (∀ q e, q < 17 → chandlerRuns s.die = true → (queue s.die q).exec = some e → streamOpcodes.contains (fld e.desc 0 2) = true → (queue s.die q).resetting = none →
    (∀ p, p < q → (queue s.die p).exec = none) →
    Gives (.streamAccessFail 17 address) s (fun d => (queue d q).exec = none ∧ ((queue d q).stored.map (fun c => (c.seq, c.status))).head? = some (fld e.desc 4 4, stFailed)))

/-- R380, R383, R384, R386, R388, R477: the first event that waits becomes records at the write index, the oldest giving way in a full ring; a freeze on request marks the Ledger; a 10 µs window
over the threshold extends the span of its island, and one that is not ends it. -/
def Obligations.EventsBecomeRecordsAndSpans : Prop := ∀ (s : State), let g := s.die.ledger;
  (g.queue = [] → exec .ledgerRecordAccept s = .next s) ∧
  (∀ p t, g.queue = p :: t → let new := eventRecords (stampFreeze s.die p)
    Gives .ledgerRecordAccept s (fun d => d.ledger.count = g.count + new.length ∧ d.ledger.index = (g.index + new.length) % 65536 ∧
      (g.ring.length + new.length ≤ 65536 → d.ledger.ring = g.ring ++ new) ∧ (65536 ≤ g.ring.length → new.length = 1 → d.ledger.ring = g.ring.tail ++ new) ∧
      (g.overflow = 0 → g.drain.running = false → d.ledger.queue = t))) ∧
  (∀ v, bit v 0 = true → g.frozen = false → Gives (.ledgerFreezeWrite v) s (fun d => d.ledger.frozen = true ∧ d.ledger.cause = 4 ∧ d.ledger.freezeTally = s.die.tally.now ∧ d.ledger.ring = g.ring ∧ bit d.regs.fintStatus 3 = true)) ∧
  (∀ v, (bit v 0 = false ∨ g.frozen = true) → exec (.ledgerFreezeWrite v) s = .next s) ∧
  (∀ i, i < 1248 → s.die.Canonical → let m := (island s.die i).margin
    (spanWindow g.share m = true → Gives (.stretchSpanWindowEnd i) s (fun d => (island d i).margin = { m with winDelivered := 0, winHeld := 0, winStretched := 0, winCauses := [], spanWindows := m.spanWindows + 1, spanCauses := addCounts m.spanCauses m.winCauses, span := (let sp := m.span.getD (s.die.tally.now / 10000 * 10000 - 10000, 0, 0, 0, 0); some (sp.1, sp.2.1 + 1, max sp.2.2.1 ((spanShare m).1 * 256 / (spanShare m).2), sp.2.2.2.1 + m.winStretched, sp.2.2.2.2 + m.winHeld)) })) ∧
    (spanWindow g.share m = false → m.span = none → Gives (.stretchSpanWindowEnd i) s (fun d => (island d i).margin = { m with winDelivered := 0, winHeld := 0, winStretched := 0, winCauses := [] })) ∧
    (spanWindow g.share m = false → m.span.isSome = true → Gives (.stretchSpanWindowEnd i) s (fun d => (island d i).margin = { m with winDelivered := 0, winHeld := 0, winStretched := 0, winCauses := [], span := none, spanCauses := [] })))

/-- R391, R392, R393, R478: a partial page goes out 100 µs after its first record; a page that completes as the oldest outstanding one moves the tail, one out of order waits; a head that does
not pass the tail is taken, and any other sets DRAIN_ERR. -/
def Obligations.DrainPagesGoOutInOrder : Prop := ∀ (s : State), let g := s.die.ledger; let x := g.drain;
  (∀ y, recordNumber g (max x.next (oldestRecord g)) = some y → y.tally + 100000 ≤ s.die.tally.now → x.stopping = false → drainRoom x = true → x.lost = 0 → x.next < g.count →
    Gives .drainPageTimeout s (fun d => let n := min 128 (g.count - x.next)
      d.streams = { address := x.base + 4096 * (fillPage x % x.pages), data := fit 4096 (((List.range n).filterMap (fun j => recordNumber g (x.next + j))).flatMap recordBytes) } :: s.die.streams ∧
      d.ledger.drain = { x with outstanding := x.outstanding ++ [(fillPage x, x.next + n, false)], next := x.next + n })) ∧
  (∀ page after, x.running = true → x.stopping = false → x.outstanding = [(page, after, false)] →
    Gives (.drainPageWriteComplete page) s (fun d => d.ledger.drain.tail = (x.tail + 1) % 2 ^ 32 ∧ d.ledger.drain.firstUndelivered = after ∧ d.ledger.drain.running = true ∧ ((x.tail + 1) % 2 ^ 32 ≠ x.tail → bit d.regs.fintStatus 5 = true))) ∧
  (∀ page first rest, x.running = true → x.stopping = false → x.outstanding = first :: rest → first.1 ≠ page → first.2.2 = false → (page ∈ rest.map (·.1)) →
    Gives (.drainPageWriteComplete page) s (fun d => d.ledger.drain.tail = x.tail ∧ d.ledger.drain.firstUndelivered = x.firstUndelivered)) ∧
  (∀ head, pagesAhead x.head (head % 2 ^ 32) ≤ pagesAhead x.head x.tail → Gives (.drainHeadWrite head) s (fun d => d.ledger.drain.head = head % 2 ^ 32 ∧ d.ledger.drain.tail = x.tail)) ∧
  (∀ head, pagesAhead x.head x.tail < pagesAhead x.head (head % 2 ^ 32) → Gives (.drainHeadWrite head) s (fun d => d.ledger.drain = x ∧ bit d.regs.fintStatus 4 = true))

/-- R437, R438, R440, R441, R465: a region moves to the deepest state its idleness and tolerance allow; Bank needs a lender, and without one the region waits in Hush; when every region is idle
long enough the die enters Dormant with its quadrant rails off, and leaves it with the rails on; the wake input follows its line. -/
def Obligations.IdleRegionsMoveBetweenPowerStates : Prop := ∀ (s : State) (r : Nat), s.die.Canonical → r < 80 →
  (∀ level, Gives (.wakeLine r level) s (fun d => region d r = { region s.die r with wake := level })) ∧
  (present s.die r = false → exec (.regionIdleChange r) s = .next s) ∧
  (present s.die r = true → s.die.dormant.in_ = false → ¬ (dormantWanted s.die = true ∧ chandlerRuns s.die = true ∧ s.die.stop.stopped = false) →
    (powerWanted s.die r = (region s.die r).power → exec (.regionIdleChange r) s = .next s) ∧
    (powerWanted s.die r < 3 → (region s.die r).power < 3 → Gives (.regionIdleChange r) s (fun d => (region d r).power = powerWanted s.die r)) ∧
    (powerWanted s.die r = 3 → (region s.die r).power < 3 → (droverLend r 2 s.die = none → Gives (.regionIdleChange r) s (fun d => (region d r).power = 2)) ∧
      ((droverLend r 2 s.die).isSome = true → Gives (.regionIdleChange r) s (fun d => (region d r).power = 3)))) ∧
  (present s.die r = true → s.die.dormant.in_ = false → dormantWanted s.die = true → chandlerRuns s.die = true → s.die.stop.stopped = false →
    Gives (.regionIdleChange r) s (fun d => d.dormant.in_ = true ∧ d.dormant.leaving = false ∧ ∀ k, k < 4 → (rail d k).off = true)) ∧
  (present s.die r = true → s.die.dormant.in_ = true → s.die.dormant.leaving = false → dormantWanted s.die = false → chandlerRuns s.die = true →
    Gives (.regionIdleChange r) s (fun d => d.dormant.in_ = true ∧ d.dormant.leaving = true ∧ ∀ k, k < 4 → (rail d k).off = false ∧ (rail d k).confirmed = false))

/-- R149, R349, R431, R432, R433: a region reset ends after 1 µs, and with SYNTH once a synthesizer is selected and the lane is back; an island reset ends after 1 µs; at the start Tally a plan is
released, with the start count and tag it was given. -/
def Obligations.ResetsEndAndPlansAreReleased : Prop := ∀ (s : State), s.die.Canonical → let now := s.die.tally.now;
  (∀ r t, r < 80 → (region s.die r).reset = some t →
    (t.since + 1000 ≤ now → (t.synth = true → t.relocked = true ∧ (region s.die r).drover = .own) → Gives (.regionResetEnd r) s (fun d => (region d r).reset = none)) ∧
    ((now < t.since + 1000 ∨ (t.synth = true ∧ t.relocked = false)) → exec (.regionResetEnd r) s = .next s)) ∧
  (∀ i t, i < 1248 → (island s.die i).ring.resetSince = some t →
    (t + 1000 ≤ now → Gives (.islandResetEnd i) s (fun d => (island d i).ring.resetSince = none)) ∧ (now < t + 1000 → exec (.islandResetEnd i) s = .next s)) ∧
  (∀ c x, c < 16 → context s.die c = some x → x.released = false →
    (x.state ≠ .loaded → x.startTally ≤ now → Gives (.planRelease c) s (fun d => ∃ y, context d c = some y ∧ y.released = true ∧ y.startCount = x.startCount ∧ y.startTally = x.startTally ∧ y.tag = x.tag ∧ y.regions = x.regions)) ∧
    ((x.state = .loaded ∨ now < x.startTally) → exec (.planRelease c) s = .next s))

/-- R49, R458, R459, R471, R473, R476: a snapshot read captures Tally, its flags and the count of the die reference island and advances SEQ; a read of a latching _LO register holds its high word
for the _HI read; an aligned 32-bit write of an enable is taken and any other width or alignment is not; the test port reads any word and writes it only where the debug fuse is 1. -/
def Obligations.RegistersLatchAndTakeAlignedWrites : Prop := ∀ (s : State), let g := s.die.regs;
  Gives .tallySnapshotRead s (fun d => let q := (g.snap.seq + 1) % 65536
    d = { s.die with regs := { g with readValue := q, snap := { seq := q, tally := s.die.tally.now, epoch := s.die.tally.epoch, flags := b1 s.die.tally.holdover + 2 * b1 s.die.tally.slewing + 4 * b1 s.die.tally.settled, count := (island s.die (dieRef s.die)).ring.count } } }) ∧
  (∀ off, (off = 0x08 ∨ off = 0x18 ∨ off = 0xC8) → Gives (.loRegisterRead off) s (fun d => d.regs.readValue = mmioRead s.die off ∧ mmioRead d (off + 4) = highWord s.die off ∧ d.regs.snap = g.snap)) ∧
  (∀ off, (off = 0x84 ∨ off = 0x90) → Gives (.loRegisterRead off) s (fun d => d = { s.die with regs := { g with readValue := mmioRead s.die off } })) ∧
  (∀ off, off ≠ 0x08 → off ≠ 0x18 → off ≠ 0xC8 → off ≠ 0x84 → off ≠ 0x90 → exec (.loRegisterRead off) s = .next s) ∧
  (∀ value, Gives (.registerWriteGeneric 0x104 4 value) s (fun d => d = { s.die with regs := { g with fintEnable := value % 256 } })) ∧
  (∀ q value, s.die.Canonical → q < 17 → Gives (.registerWriteGeneric (0x1018 + 256 * q) 4 value) s (fun d => queue d q = { queue s.die q with intEnable := value % 8 } ∧ ∀ p, p ≠ q → queue d p = queue s.die p)) ∧
  (∀ off bytes value, (bytes ≠ 4 ∨ off % 4 ≠ 0) → exec (.registerWriteGeneric off bytes value) s = .next s) ∧
  (∀ w, s.die.stop.aonGood = true → bit w 14 = false → Gives (.fabricWordUpdate w) s (fun d => d = { s.die with regs := { g with testData := mmioRead s.die (4 * (w % 2 ^ 14)) } })) ∧
  (∀ w, s.die.stop.aonGood = true → bit w 14 = true → s.die.startup.fusesRead = true → s.die.startup.fuses.debug = true → w % 2 ^ 14 = 0x41 → Gives (.fabricWordUpdate w) s (fun d => d = { s.die with regs := { g with fintEnable := w / 2 ^ 16 % 2 ^ 32 % 256 } })) ∧
  (∀ w, bit w 14 = true → s.die.startup.fuses.debug = false → exec (.fabricWordUpdate w) s = .next s) ∧
  (∀ index, s.die.stop.aonGood = true → Gives (.ledgerRecordUpdate index) s (fun d => d = { s.die with regs := { g with testIndex := index % 65536 } })) ∧
  (∀ on, Gives (.testInstructionUpdate on) s (fun d => d = { s.die with stop := { s.die.stop with testForce := on } }))

namespace Sys2Proof.Machine

/-- Queue q has this command of the opcode in execution, and a Chandler executes (R333). -/
def Executing (s : State) (q opcode : Nat) (e : Exec) : Prop := q < 17 ∧ (queue s.die q).exec = some e ∧ fld e.desc 0 2 = opcode ∧ chandlerRuns s.die = true

end Sys2Proof.Machine

namespace Sys2Proof.Machine

/-- The command completes OK with this result and output, over a die that `post` describes (R333). -/
def CompletesOk (c : Instr) (s : State) (q result : Nat) (out : Option Bytes) (post : Die → Prop) : Prop :=
  ∃ d, exec c s = .next { s with die := finish q (.done result out) d } ∧ post d

end Sys2Proof.Machine

namespace Sys2Proof.Machine

/-- The bytes of p from a up to b are zero. -/
def ZeroBytes (p : Bytes) (a b : Nat) : Prop := ∀ j, a ≤ j → j < b → fld p j 1 = 0

end Sys2Proof.Machine

namespace Sys2Proof.Machine

/-- The context byte b of queue q names context c, which is x and which the queue may use (R341). -/
def NamesContext (d : Die) (q b c : Nat) (x : Context) : Prop := c < 16 ∧ context d c = some x ∧ (q = 0 ∨ x.owner = q) ∧ namedCtx d q b = some c

end Sys2Proof.Machine

namespace Sys2Proof.Machine

/-- The legal staging of a plan.load for the region set m: bits that name nothing are zero, every mask lies in the set, and every coupled edge is legal (R348). -/
def PlanStaged (d : Die) (b : Bytes) (m : RegionSet) : Prop := fld b 2841 1 < 16 ∧ fld b 2846 1 = 0 ∧ fld b 2847 1 = 0 ∧ (∀ j, j < 255 → fld b (10 * j) 10 &&& m = fld b (10 * j) 10) ∧
  (∀ g, g < 2332 → bit (fld b 2550 292) g = true → edgeLegal d m g = true) ∧ (∀ l, l < 32 → bit (fld b 2842 4) l = true → bit m (linkRegion l) = true)

end Sys2Proof.Machine

/-- R198, R344, R348, R349, R350: plan.load creates a context in the lowest free place over its regions, and re-executed answers the one it created; plan.start fixes the start count and Tally and gives
every island of the plan the count; plan.arm adds a segment, or resumes one after a READ fault; plan.read answers the context word. -/
def Obligations.PlansAreLoadedStartedAndArmed : Prop := ∀ (s : State) (q : Nat) (e : Exec), s.die.Canonical → let p := e.desc.drop 16; let d := s.die;
  (Executing s q 0x0101 e → let m := fld p 0 10;
    (∀ c, e.reexecuted = false → fld p 10 2 ≠ 0 → ZeroBytes p 14 16 → fld p 12 2 = 5408 → d.startup.ready = 1 → m ≠ 0 → PlanStaged d e.staged m →
      (∀ r ∈ setRegions m, present d r = true ∧ (region d r).owner = q ∧ (region d r).retired = false ∧ inPlan d r = false) → (∀ k x, k < 16 → context d k = some x → x.owner ≠ q) →
      c < 16 → context d c = none → (∀ k, k < c → (context d k).isSome = true) →
      CompletesOk (.planLoad q) s q c none (fun f => (∃ x, context f c = some x ∧ x.tag = fld p 10 2 ∧ x.owner = q ∧ x.regions = m ∧ x.state = .loaded ∧ x.edges = fld e.staged 2550 292 % 2 ^ 2332 ∧ x.links = fld e.staged 2842 4 ∧ x.segments = [] ∧ x.key = some (q, fld e.desc 4 4)) ∧
        (∀ k, k ≠ c → context f k = context d k) ∧ ∀ r, region f r = (if r ∈ setRegions m then { region d r with plan := some c } else region d r))) ∧
    (∀ c, e.reexecuted = true → keyedContext d (q, fld e.desc 4 4) = some c → CompletesOk (.planLoad q) s q c none (fun f => f = d))) ∧
  (∀ c x, NamesContext d q (fld p 0 1) c x →
    (Executing s q 0x0102 e → ZeroBytes p 1 8 → ZeroBytes p 15 16 → d.startup.ready = 1 → x.state = .loaded → (∀ r ∈ setRegions x.regions, underAssay d r = false ∧ inBank d r = false) → d.stop.stopped = false →
      fld p 16 8 % 10 = 0 → d.tally.now + 200000 ≤ fld p 16 8 → fld p 16 8 ≤ d.tally.now + 10000000000 →
      CompletesOk (.planStart q) s q 0 none (fun f => context f c = some { x with state := .started, startCount := fld p 8 8, startTally := fld p 16 8, last := fld p 8 8 } ∧
        (∀ i, islandRegion i ∈ setRegions x.regions → i < 1248 → (island f i).ring.gate = false ∧
          (inReset d (islandRegion i) = false → (island d i).ring.resetSince = none → (island f i).ring.count = fld p 8 8)) ∧ (∀ i, islandRegion i ∉ setRegions x.regions → island f i = island d i))) ∧
    (Executing s q 0x0103 e → ZeroBytes p 2 4 → ZeroBytes p 20 24 → d.startup.ready = 1 → 0 < fld p 4 4 → fld p 4 4 ≤ 2 ^ 24 → fld p 8 8 % 16 = 0 →
      (fld p 1 1 = 0 → fld p 16 4 = 0 → (x.state = .loaded ∨ x.state = .started ∨ x.state = .starved) → x.segments.length < 4 →
        CompletesOk (.planArm q) s q (3 - x.segments.length) none (fun f => context f c = some { x with segments := x.segments ++ [{ base := fld p 8 8, records := fld p 4 4 }], open_ := false } ∧ f.islands = d.islands)) ∧
      (fld p 1 1 = 1 → fld p 16 4 < fld p 4 4 → x.state = .fault 2 →
        CompletesOk (.planArm q) s q (3 - x.segments.tail.length) none (fun f => context f c = some { x with state := .started, segments := { base := fld p 8 8, records := fld p 4 4, read := fld p 16 4 } :: x.segments.tail } ∧ f.islands = d.islands))) ∧
    (Executing s q 0x0106 e → ZeroBytes p 1 4 →
      CompletesOk (.planRead q) s q (ctxCode x.state + 16 * (4 - x.segments.length) + 256 * (match x.state with | .fault r => r | _ => 0) + 4096 * c + 65536 * x.tag) none (fun f => f = d)))

/-- R151, R153, R281, R351, R352: plan.unload frees the context and its regions, drops their Pattern targets and uncouples the edges between them; plan.couple applies its edges in order and answers the
number that changed; one legal edge is coupled at both ends, or uncoupled at both. -/
def Obligations.PlansAreUnloadedAndCoupled : Prop := ∀ (s : State) (q : Nat) (e : Exec) (c : Nat) (x : Context), s.die.Canonical → let p := e.desc.drop 16; let d := s.die;
  NamesContext d q (fld p 0 1) c x →
  (Executing s q 0x0104 e → ZeroBytes p 1 4 →
    CompletesOk (.planUnload q) s q 0 none (fun f => context f c = none ∧ (∀ k, k ≠ c → context f k = context d k) ∧ (∀ r ∈ setRegions x.regions, (region f r).plan = none ∧ (region f r).patternTarget = none) ∧
      (∀ k ∈ innerEnds x.regions, (edgeEnd f k).coupled = false) ∧ (∀ l, l < 32 → bit x.regions (linkRegion l) = true → (link f l).coupled = false))) ∧
  (Executing s q 0x0105 e → ZeroBytes p 2 4 → fld p 1 1 ≤ 1 → d.startup.ready = 1 → coupleEdges p ≠ [] →
    (∀ v ∈ coupleEdges p, edgeField v.1 = true ∧ edgeInside x v.1 = true ∧ (v.1 < 2332 → edgeExists d v.1 = true)) →
    let on := decide (fld p 1 1 = 1); let l := (coupleEdges p).map (·.1);
    CompletesOk (.planCouple q) s q (hostEdges on x.tag l d).2 none (fun f => f = (hostEdges on x.tag l d).1 ∧
      (∀ g, l = [g] → g < 2332 → (on = true → refusal d (fun _ => true) g = none → (edgeEnd f (2 * g)).coupled = true ∧ (edgeEnd f (2 * g + 1)).coupled = true) ∧
        (on = true → refusal d (fun _ => true) g ≠ none → f.ends = d.ends) ∧ (on = false → (edgeEnd f (2 * g)).coupled = false ∧ (edgeEnd f (2 * g + 1)).coupled = false)) ∧
      (∀ g, l = [g] → 0x8000 ≤ g → (link f (g - 0x8000)).coupled = on)))

/-- R181, R189, R344, R353, R354, R355: opp.commit of legal members at a legal Tally forms the commit of the next ID, each member granted the lower of the target and its ceiling, and re-executed answers
the commit it formed; opp.cancel aborts an undecided commit; opp.read answers the 144 bytes of offsets and bins, with 0xFF for a region that is absent. -/
def Obligations.OppCommandsCommitCancelAndRead : Prop := ∀ (s : State) (q : Nat) (e : Exec), s.die.Canonical → let p := e.desc.drop 16; let d := s.die; let seq := fld e.desc 4 4;
  (Executing s q 0x0201 e → let m := fld p 0 10; let k := fld p 10 1; let t := fld p 16 8;
    ((e.reexecuted = true → keyedCommit d (q, seq) = none) → k < 16 → ZeroBytes p 11 16 → m ≠ 0 → d.startup.ready = 1 → d.stop.stopped = false →
      (∀ r ∈ setRegions m, present d r = true ∧ (region d r).owner = q ∧ commitBlocked d r = false) → t % 10 = 0 → d.tally.now + Config.commitLead ≤ t → t ≤ d.tally.now + 10000000000 →
      CompletesOk (.oppCommit q) s q d.nextCommit none (fun f => f.nextCommit = (if d.nextCommit + 1 = 2 ^ 32 then 1 else d.nextCommit + 1) ∧ f.rails = d.rails ∧
        ∃ c ∈ f.commits, c.id = d.nextCommit ∧ c.source = .host ∧ c.target = k ∧ c.members = m ∧ c.count = t ∧ c.acceptedAt = d.tally.now ∧ c.key = some (q, seq) ∧
          ∀ r ∈ setRegions m, tget 0 c.grants r = min k (regionCeiling (region d r)))) ∧
    (∀ c, e.reexecuted = true → keyedCommit d (q, seq) = some c → CompletesOk (.oppCommit q) s q c.id none (fun f => f = d))) ∧
  (Executing s q 0x0202 e → d.startup.ready = 1 → ∀ c, commitOf d (fld p 0 4) = some c → c.decided = false → (c.source = .host ∨ c.source = .pattern) → (q = 0 ∨ ∀ r ∈ setRegions c.members, (region d r).owner = q) →
    CompletesOk (.oppCancel q) s q 0 none (fun f => commitOf f c.id = none ∧ f.rails = d.rails ∧ ∀ r, (region f r).opp = (region d r).opp ∧ (region f r).select = (region d r).select)) ∧
  (Executing s q 0x0203 e → CompletesOk (.oppRead q) s q 0 (some (oppBytes d)) (fun f => f = { d with fresh := d.fresh + 80 })) ∧
  (oppBytes d).length = 144 ∧
  (∀ r, r < 80 → (present d r = false → fld (oppBytes d) (64 + r) 1 = 0xFF) ∧ (present d r = true → d.startup.fuses.bins.getD r 0 < 4 → fld (oppBytes d) (64 + r) 1 = d.startup.fuses.bins.getD r 0))

/-- R144, R248, R250, R273, R280, R347, R356, R357, R358, R359: cap.set writes the values of its kind; cap.ceiling sets, removes or unlatches a ceiling of each region; cap.read answers by kind; pool.set sets
pool and base, and a change of either ends every loan as a lost link does; pool.read answers its bytes. -/
def Obligations.CapAndPoolCommandsSetLimits : Prop := ∀ (s : State) (q : Nat) (e : Exec), s.die.Canonical → let p := e.desc.drop 16; let d := s.die;
  (Executing s q 0x0301 e → ZeroBytes p 1 8 →
    (q = 0 → fld p 0 1 = 0 → ZeroBytes p 12 48 → 100 ≤ fld p 8 2 → fld p 8 2 ≤ fld p 10 2 → fld p 8 2 ≤ 1150 → fld p 10 2 ≤ 1600 →
      CompletesOk (.capSet q) s q 0 none (fun f => f = { d with limits := { d.limits with base := fld p 8 2, burst := fld p 10 2, credit := 0, flag := false } })) ∧
    (q = 0 → fld p 0 1 = 1 → ZeroBytes p 28 48 → (∀ k, k < 5 → capLeast k ≤ fld p (8 + 2 * k) 2 ∧ fld p (8 + 2 * k) 2 ≤ capTop k ∧ capLeast k ≤ fld p (18 + 2 * k) 2 ∧ fld p (18 + 2 * k) 2 ≤ limitTop k) →
      CompletesOk (.capSet q) s q 0 none (fun f => f.limits = d.limits ∧ ∀ k, k < 5 → rail f k = { rail d k with capW := some (fld p (8 + 2 * k) 2), limitA := some (fld p (18 + 2 * k) 2) })) ∧
    (q = 0 → fld p 0 1 = 2 → ZeroBytes p 12 48 → 1120 ≤ fldI p 8 2 → fldI p 8 2 + 80 ≤ fldI p 10 2 → fldI p 8 2 ≤ 1520 → fldI p 10 2 ≤ 1680 →
      CompletesOk (.capSet q) s q 0 none (fun f => f = { d with limits := { d.limits with soft := fldI p 8 2, hard := fldI p 10 2 } })) ∧
    (fld p 0 1 = 3 → ZeroBytes p 8 48 → (q ≠ 0 → fractionBreach d q e.staged = none ∧ sumBreach d q e.staged = false) → (∀ r, r < 80 → fld e.staged (2 * r) 2 ≤ 4096 ∧ (present d r = false → fld e.staged (2 * r) 2 = 0)) →
      total ((presentRegions d).map (fun r => fld e.staged (2 * r) 2)) = 4096 →
      CompletesOk (.capSet q) s q 0 none (fun f => f.limits = d.limits ∧ ∀ r, r < 80 → region f r = { region d r with fraction := if present d r then some (fld e.staged (2 * r) 2) else none, strict := bit (fld e.staged 160 10) r || decide ((region d r).owner ≠ 0) }))) ∧
  (Executing s q 0x0302 e → let m := fld p 0 10; let b := fld p 10 1; b < 64 → ZeroBytes p 11 16 → m ≠ 0 → (∀ r ∈ setRegions m, present d r = true) →
    (bit b 5 = false → (q ≠ 0 → ∀ r ∈ setRegions m, (region d r).owner = q ∧ (region d r).hostHeld = false) →
      CompletesOk (.capCeiling q) s q 0 none (fun f => ∀ r ∈ setRegions m, (region f r).ceilings.getD 8 none = (if bit b 4 then none else some (b % 16)) ∧ (q = 0 → (region f r).hostHeld = !bit b 4))) ∧
    (b = 32 → q = 0 → CompletesOk (.capCeiling q) s q 0 none (fun f => ∀ r ∈ setRegions m, (region f r).latched = false ∧ ((region d r).latched = true → (region f r).ceilings.getD 7 none = none)))) ∧
  (Executing s q 0x0303 e → let kind := fld p 0 1; let k := fld p 1 1; let r := fld p 2 2;
    (kind = 0 → k = 0 → r < 80 → present d r = true → (q = 0 ∨ (region d r).owner = q) → CompletesOk (.capRead q) s q 112 (some (throttleBytes d r)) (fun f => f = d)) ∧
    (kind = 1 → k ≤ 4 → r = 0 → q = 0 → CompletesOk (.capRead q) s q 40 (some (fit 40 (rail d k).record)) (fun f => f = d)) ∧
    (kind = 2 → k = 0 → r = 0 → q = 0 → CompletesOk (.capRead q) s q (limitBytes d).length (some (limitBytes d)) (fun f => f = d))) ∧
  (Executing s q 0x0401 e → q = 0 → let base := fld p 2 2; 100 ≤ base → base ≤ 1150 →
    CompletesOk (.poolSet q) s q 0 none (fun f => f.limits.pool = fld p 0 2 ∧ f.limits.base = base ∧ f.limits.burst = d.limits.burst ∧ f.limits.credit = 0 ∧ f.limits.flag = false ∧
      (fld p 0 2 = d.limits.pool → base = d.limits.base → f.links = d.links) ∧
      ((fld p 0 2 ≠ d.limits.pool ∨ base ≠ d.limits.base) → ∀ l, l < 32 → (link f l).pool.want = 0 ∧ (link f l).pool.offer = 0 ∧ (link f l).pool.loan = max (link d l).pool.loan 0 ∧
        (0 < (link d l).pool.loan → (link f l).pool.restoreAt = some (d.tally.now + 30000000))))) ∧
  (Executing s q 0x0402 e → q = 0 → CompletesOk (.poolRead q) s q 0 (some (poolReadBytes d)) (fun f => f = d) ∧ fld (poolReadBytes d) 0 2 = d.limits.pool % 65536 ∧ fld (poolReadBytes d) 2 2 = d.limits.base % 65536)

/-- R276, R278, R279, R281, R283, R360, R361, R362: tenant.create makes a tenant with its quota and binds its queue; tenant.destroy takes it away with its watches and gives its regions back; tenant.move
marks its regions for their new owner; tenant.fence sets the fence of the tenant and of its regions' inputs; tenant.read answers 40 bytes. -/
def Obligations.TenantCommandsMakeMoveAndFence : Prop := ∀ (s : State) (q : Nat) (e : Exec), s.die.Canonical → let p := e.desc.drop 16; let d := s.die; let t := fld p 0 1;
  (Executing s q 0x0501 e → q = 0 → 1 ≤ t → t ≤ 16 → ZeroBytes p 2 4 → (tenant d t).made = false → (e.reexecuted = true → (tenant d t).key ≠ some (q, fld e.desc 4 4)) → quotas d + fld p 1 1 + heldBy d 0 ≤ 256 →
    CompletesOk (.tenantCreate q) s q 0 none (fun f => tenant f t = { made := true, quota := fld p 1 1, key := some (q, fld e.desc 4 4) } ∧ (queue f t).bound = true ∧ (∀ k, k ≠ t → tenant f k = tenant d k ∧ queue f k = queue d k) ∧
      ((queue d t).exec = none → (queue f t).subTail = 0 ∧ (queue f t).subHead = 0 ∧ (queue f t).cplTail = 0 ∧ (queue f t).cplHead = 0 ∧ (queue f t).expect = none ∧ (queue f t).stored = []))) ∧
  (Executing s q 0x0502 e → q = 0 → 1 ≤ t → t ≤ 16 → ZeroBytes p 1 4 → (tenant d t).made = true → (∀ c x, c < 16 → context d c = some x → x.owner ≠ t) →
    CompletesOk (.tenantDestroy q) s q (givenBack d t).length none (fun f => tenant f t = {} ∧ (queue f t).bound = false ∧ (∀ w, w < 256 → (watch d w).used = true → (watch d w).owner = t → watch f w = {}) ∧
      ∀ r ∈ givenBack d t, (region f r).ownerDue = if (region d r).owner = 0 then none else some 0)) ∧
  (Executing s q 0x0503 e → q = 0 → let m := fld p 0 10; let o := fld p 10 1; m ≠ 0 → o ≤ 16 → ZeroBytes p 9 10 → ZeroBytes p 11 12 → (o ≠ 0 → (tenant d o).made = true) → (∀ r ∈ setRegions m, present d r = true ∧ moveRefused d r = false) →
    CompletesOk (.tenantMove q) s q ((setRegions m).filter (fun r => nextOwner d r ≠ o)).length none (fun f => ∀ r, region f r = (if r ∈ setRegions m then { region d r with ownerDue := if (region d r).owner = o then none else some o } else region d r))) ∧
  (Executing s q 0x0504 e → 1 ≤ t → t ≤ 16 → fld p 1 1 ≤ 1 → ZeroBytes p 2 4 → (q = 0 ∨ q = t) → d.startup.ready = 1 → (tenant d t).made = true →
    CompletesOk (.tenantFence q) s q 0 none (fun f => tenant f t = { tenant d t with fence := decide (fld p 1 1 = 1) } ∧
      ∀ r, region f r = (if r ∈ ownedRegions d t then { region d r with fenceDue := some (decide (fld p 1 1 = 1), if q = 0 then 1 else 0) } else region d r))) ∧
  (Executing s q 0x0505 e → t ≤ 16 → ZeroBytes p 1 4 → (q = 0 ∨ q = t) → (t ≠ 0 → (tenant d t).made = true) →
    CompletesOk (.tenantRead q) s q 0 (some (tenantBytes d t)) (fun f => f = { d with fresh := d.fresh + 1 }) ∧ (tenantBytes d t).length = 40)

/-- R66, R69, R279, R344, R363, R364: watch.set registers a watch under the ID named or the lowest free one, and re-executed answers the ID it took; watch.clear clears from the next slot; watch.read
answers the watch word. -/
def Obligations.WatchCommandsRegisterAndClear : Prop := ∀ (s : State) (q : Nat) (e : Exec), s.die.Canonical → let p := e.desc.drop 16; let d := s.die; let key := (q, fld e.desc 4 4);
  (Executing s q 0x0601 e → let kind := fld p 0 1; let i := fld p 4 2;
    (∀ w, (e.reexecuted = true → keyedWatch d key = none) → kind ≤ 3 → fld p 2 1 ≤ 1 → (fld p 2 1 = 1 → fld p 1 1 = 0) → ZeroBytes p 3 4 → (kind < 2 → i = 0xFFFF) →
      (2 ≤ kind → fld p 15 1 = 0 ∧ i < 1248 ∧ present d (islandRegion i) = true ∧ (q = 0 ∨ (region d (islandRegion i)).owner = q) ∧ islandWatches d i < 4) →
      d.startup.ready = 1 → badPeriod kind (fld p 16 8) = false → watchId d p = some w → heldBy d q < quotaOf d q →
      CompletesOk (.watchSet q) s q w none (fun f => watch f w = { used := true, kind := kind, island := i, target := fld p 6 2, condition := fld p 8 8, period := fld p 16 8, owner := q, key := some key } ∧ ∀ v, v ≠ w → watch f v = watch d v)) ∧
    (∀ w, e.reexecuted = true → keyedWatch d key = some w → CompletesOk (.watchSet q) s q w none (fun f => f = d))) ∧
  (∀ w, watchId d p = some w → w < 256 ∧ watchFree d w = true ∧ (fld p 2 1 = 0 → w = fld p 1 1) ∧ (fld p 2 1 = 1 → ∀ v, v < w → watchFree d v = false)) ∧
  (Executing s q 0x0602 e → let w := fld p 0 1; ZeroBytes p 1 4 → watchFree d w = false → (q = 0 ∨ (watch d w).owner = q) →
    CompletesOk (.watchClear q) s q 0 none (fun f => watch f w = { watch d w with clearedAt := some (slotOf d.tally.now) } ∧ ∀ v, v ≠ w → watch f v = watch d v)) ∧
  (Executing s q 0x0603 e → let w := fld p 0 1; ZeroBytes p 1 4 →
    (watchFree d w = true → CompletesOk (.watchRead q) s q 0xFFFF0000 none (fun f => f = d)) ∧
    (watchFree d w = false → (2 ≤ (watch d w).kind → q = 0 ∨ (region d (islandRegion (watch d w).island)).owner = q) →
      CompletesOk (.watchRead q) s q ((if d.messages.any (fun m => decide (m.watch = w)) then 2 else 1) + 256 * (watch d w).kind + 65536 * (watch d w).island) none (fun f => f = d)))

/-- R365, R366, R388, R390, R391, R393, R394, R395, R399: ledger.control freezes, thaws and sets the span threshold; ledger.drain starts a drain and stops one, at once with no write outstanding and else
after the last; ledger.read and cert.read write what they answer to host memory. -/
def Obligations.LedgerCommandsControlAndRead : Prop := ∀ (s : State) (q : Nat) (e : Exec), s.die.Canonical → let p := e.desc.drop 16; let d := s.die; let g := d.ledger;
  (Executing s q 0x0701 e → q = 0 → ZeroBytes p 2 8 →
    (fld p 0 1 = 0 → fld p 1 1 = 0 → CompletesOk (.ledgerControl q) s q 0 none (fun f => f.ledger.frozen = true ∧ (g.frozen = true → f.ledger.freezeTally = g.freezeTally) ∧ (g.frozen = false → f.ledger.freezeTally = d.tally.now ∧ f.ledger.cause = 4))) ∧
    (fld p 0 1 = 1 → fld p 1 1 = 0 → g.frozen = true → thawRefused d = false → CompletesOk (.ledgerControl q) s q 0 none (fun f => f.ledger.frozen = false ∧ f.ledger.dropped = 0 ∧ f.ledger.ring = g.ring)) ∧
    (fld p 0 1 = 1 → fld p 1 1 = 0 → g.frozen = false → CompletesOk (.ledgerControl q) s q 0 none (fun f => f = d)) ∧
    (fld p 0 1 = 2 → fld p 1 1 ≠ 0 → CompletesOk (.ledgerControl q) s q 0 none (fun f => f = { d with ledger := { g with share := fld p 1 1 } }))) ∧
  (Executing s q 0x0702 e → q = 0 → ZeroBytes p 13 24 → let x := g.drain;
    (fld p 12 1 = 1 → fld p 0 8 % 4096 = 0 → 16 ≤ fld p 8 4 → fld p 8 4 ≤ 1048576 → x.running = false →
      CompletesOk (.ledgerDrain q) s q 0 none (fun f => f.ledger.drain.running = true ∧ f.ledger.drain.base = fld p 0 8 ∧ f.ledger.drain.pages = fld p 8 4 ∧ f.ledger.drain.head = 0 ∧ f.ledger.drain.tail = 0 ∧ f.ledger.ring = g.ring)) ∧
    (fld p 12 1 = 0 → x.running = false → CompletesOk (.ledgerDrain q) s q 0 none (fun f => f = d)) ∧
    (fld p 12 1 = 0 → x.running = true → x.stopping = false → x.outstanding = [] → drainRoom x = true → x.lost = 0 → g.count ≤ x.next →
      CompletesOk (.ledgerDrain q) s q 0 none (fun f => f.ledger.drain.running = false ∧ f.ledger.drain.failed = false ∧ f.ledger.drain.next = x.firstUndelivered ∧ f.streams = d.streams)) ∧
    (fld p 12 1 = 0 → x.running = true → x.stopping = false → x.outstanding ≠ [] → Gives (.ledgerDrain q) s (fun f => f.ledger.drain.stopping = true ∧ f.ledger.drain.running = true ∧ (queue f q).exec = some e))) ∧
  (Executing s q 0x0703 e → ZeroBytes p 20 24 → fld p 0 8 % 32 = 0 → 1 ≤ fld p 16 4 → fld p 16 4 ≤ 65536 → let l := readRecords d q (fld p 8 8) (fld p 16 4);
    CompletesOk (.ledgerRead q) s q l.length none (fun f => f = { d with streams := { address := fld p 0 8, data := l.flatMap recordBytes } :: d.streams }) ∧ l.length ≤ fld p 16 4 ∧ (∀ x ∈ l, x ∈ g.ring ∧ (q = 0 ∨ x.tag % 32 = q))) ∧
  (∀ c x k, Executing s q 0x0801 e → NamesContext d q (fld p 12 1) c x → ZeroBytes p 13 16 → fld p 0 8 % 64 = 0 → x.certs.find? (fun k => decide (k.step = fld p 8 4)) = some k →
    CompletesOk (.certRead q) s q k.outcome none (fun f => f = { d with streams := { address := fld p 0 8, data := certFor d q k.bytes } :: d.streams }) ∧ (q = 0 → certFor d q k.bytes = k.bytes))

/-- R309, R310, R313, R317, R318, R344, R367, R368, R371, R372: cal.write begins a store write of the working calibration or of the host's image and answers its generation; cal.export writes a valid slot to
host memory; cal.unretire takes entries off the retirement list; assay.region starts Assay of a region, or lets it wait for its pending commit, and answers its duration. -/
def Obligations.CalCommandsWriteStoreAndAssay : Prop := ∀ (s : State) (q : Nat) (e : Exec), s.die.Canonical → let p := e.desc.drop 16; let d := s.die; let t := d.store; let key := (q, fld e.desc 4 4);
  (∀ image, Executing s q 0x0901 e → q = 0 → ZeroBytes p 1 8 → t.absent = false → t.assay = none → let b := fit (fld e.staged 0 8) image;
    let made := fun (src : Nat) (c : Calib) (f : Die) => f.store.write = some { slot := (match t.current with | some n => 1 - n | none => 0), source := src, generation := nextGeneration d, stage := 0, image := c, since := d.tally.now, begun := d.tally.now, firmware := d.chandler.version, key := some key } ∧
      f.store.current = t.current ∧ f.store.work = t.work ∧ slotOfN f (match t.current with | some n => 1 - n | none => 0) = {};
    (t.write = none → fld p 0 1 = 1 → fld p 8 8 = 0 → CompletesOk (.calWrite q image) s q (nextGeneration d) none (made 1 (workImage d))) ∧
    (t.write = none → fld p 0 1 = 2 → fld p 8 8 % 8 = 0 → fld e.staged 0 8 ≤ 2097152 → fld e.staged 0 8 % 8 = 0 → imageHeaderOk d b = true → CompletesOk (.calWrite q image) s q (nextGeneration d) none (made 2 (hostImage d b))) ∧
    (∀ w, e.reexecuted = true → t.write = some w → w.key = some key → CompletesOk (.calWrite q image) s q w.generation none (fun f => f = d))) ∧
  (Executing s q 0x0902 e → q = 0 → fld p 0 1 ≤ 1 → ZeroBytes p 1 8 → fld p 8 8 % 4096 = 0 → t.absent = false → (exportSlot d (fld p 0 1)).valid = true →
    CompletesOk (.calExport q) s q (exportSlot d (fld p 0 1)).generation none (fun f => f = { d with streams := { address := fld p 8 8, data := slotBytes d (exportSlot d (fld p 0 1)) } :: d.streams })) ∧
  (Executing s q 0x0905 e → q = 0 → ZeroBytes p 4 8 → t.absent = false → let kind := fld p 0 1; let hit := unretires kind (fld p 1 1) (fld p 2 2); kind ≤ 7 → t.work.retire.filter hit ≠ [] →
    CompletesOk (.calUnretire q) s q (t.work.retire.filter hit).length none (fun f => f.store.work.retire = t.work.retire.filter (fun g => !hit g) ∧ f.store.retireDue = some (min d.tally.now (t.retireDue.getD d.tally.now)))) ∧
  (Executing s q 0x0A01 e → q = 0 → ZeroBytes p 2 4 → d.startup.ready = 1 → let r := fld p 0 2; r < 80 → present d r = true →
    (assayRefused d r = false → noLender d r = false → (e.reexecuted = true → t.assayKey ≠ some key) →
      CompletesOk (.assayRegion q) s q (15000 + 3000 * (coveredBy d r).length) none (fun f => f.store.assayKey = some key ∧ f.store.work = t.work ∧ ∃ a, f.store.assay = some a ∧ a.region = some r ∧ a.phase = 1 ∧ a.since = d.tally.now ∧ a.waiting = (pendingCommit d r).isSome)) ∧
    (e.reexecuted = true → t.assayKey = some key → CompletesOk (.assayRegion q) s q (15000 + 3000 * (coveredBy d r).length) none (fun f => f = d)))

/-- R229, R231, R239, R369, R370: cal.read answers the record of its kind, of which a tenant reads those of its own regions; cal.set replaces a coefficient table, the interval in progress keeping the old one, or
a leakage table, or gives gains and offsets that wait for the next window. -/
def Obligations.CalCommandsReadAndSetTables : Prop := ∀ (s : State) (q : Nat) (e : Exec), s.die.Canonical → let p := e.desc.drop 16; let d := s.die; let kind := fld p 0 1; let n := fld p 2 2;
  (Executing s q 0x0903 e → ZeroBytes p 1 2 → ZeroBytes p 4 8 → kind ≤ 6 → (3 < kind → n = 0 ∧ q = 0) →
    (kind ≤ 3 → (q = 0 ∨ (region d (if kind = 1 then islandRegion n else n)).owner = q) ∧ present d (if kind = 1 then islandRegion n else n) = true ∧ n < (if kind = 1 then 1248 else 80)) →
    CompletesOk (.calRead q) s q (calBytes d kind n).length (some (calBytes d kind n)) (fun f => f = { d with fresh := d.fresh + 4 })) ∧
  (Executing s q 0x0904 e → q = 0 → ZeroBytes p 1 2 → ZeroBytes p 4 8 →
    (kind = 2 → n < 80 → present d n = true → CompletesOk (.calSet q) s q 0 none (fun f => tget [] f.store.work.coefs n = readCoef e.staged ∧ (region f n).energy.coefHeld = some ((region d n).energy.coefHeld.getD (coefsOf d n)) ∧ f.store.work.leaks = d.store.work.leaks ∧
      ∀ r, r ≠ n → tget [] f.store.work.coefs r = tget [] d.store.work.coefs r)) ∧
    (kind = 3 → n < 80 → present d n = true → (∀ j, 130 ≤ j → j < 136 → fld e.staged j 1 = 0) → CompletesOk (.calSet q) s q 0 none (fun f => leakOf f n = readLeak e.staged ∧ (region f n).energy.leakHeld = some ((region d n).energy.leakHeld.getD (leakOf d n)) ∧ f.store.work.coefs = d.store.work.coefs)) ∧
    (kind = 4 → n = 0 → (∀ k, k < 5 → fld e.staged (8 * k + 2) 1 = 0 ∧ fld e.staged (8 * k + 3) 1 = 0 ∧ -524288 ≤ fldI e.staged (8 * k + 4) 4 ∧ fldI e.staged (8 * k + 4) 4 ≤ 524287) →
      CompletesOk (.calSet q) s q 0 none (fun f => f.store = d.store ∧ ∀ k, k < 5 → rail f k = { rail d k with hostWrite := some ((readEnergy e.staged).getD k (0x4000, 0)) })))

/-- R83, R88, R102, R116, R371, R373–R376, R431, R433: the reads of islands and regions answer their records; island.phase replaces the steps to come; island.reset and region.reset put what they name in reset; region.config
sets the fields it selects; region.test retunes the idle synthesizer and completes at its switch, FAILED without a working one. -/
def Obligations.IslandAndRegionCommandsActOnTheirOwn : Prop := ∀ (s : State) (q : Nat) (e : Exec), s.die.Canonical → let p := e.desc.drop 16; let d := s.die; let i := fld p 0 2; let r := fld p 0 2; let sel := fld p 2 1;
  (i < 1248 → present d (islandRegion i) = true →
    (Executing s q 0x0B01 e → sel ≤ 2 → fld p 3 1 = 0 → (q = 0 ∨ (region d (islandRegion i)).owner = q) → CompletesOk (.islandRead q) s q (islandWord d i) (some (islandBytes d i sel)) (fun f => f = d)) ∧
    (Executing s q 0x0B02 e → sel ≠ 0x80 → fld p 3 1 = 0 → q = 0 → d.startup.ready = 1 → phaseRefused d i = false →
      CompletesOk (.islandPhase q) s q 0 none (fun f => island f i = { island d i with ring := { (island d i).ring with phaseLeft := fldI p 2 1 } } ∧ ∀ j, j ≠ i → island f j = island d j)) ∧
    (Executing s q 0x0B03 e → ZeroBytes p 2 4 → q = 0 → d.startup.ready = 1 →
      (islandResetRefused d i = false → CompletesOk (.islandResetCmd q) s q 0 none (fun f => (island f i).ring.resetSince = some d.tally.now ∧ (island f i).ring.gate = false ∧ (island f i).margin.run = 0 ∧ ∀ j, j ≠ i → island f j = island d j)) ∧
      (e.reexecuted = true → (island d i).ring.resetSince.isSome = true → CompletesOk (.islandResetCmd q) s q 0 none (fun f => f = d)))) ∧
  (r < 80 → present d r = true →
    (Executing s q 0x0C01 e → ZeroBytes p 2 4 → (q = 0 ∨ (region d r).owner = q) → CompletesOk (.regionRead q) s q 0 (some (regionBytes d r)) (fun f => f = d)) ∧
    (Executing s q 0x0C02 e → sel ≤ 1 → fld p 3 1 = 0 → q = 0 → d.startup.ready = 1 → (72 ≤ r → sel = 1) → regionResetRefused d r = false → (sel = 1 → noLender d r = false) →
      CompletesOk (.regionResetCmd q) s q 0 none (fun f => (region f r).reset = some { since := d.tally.now, synth := decide (sel = 1) })) ∧
    (Executing s q 0x0C03 e → 1 ≤ sel → sel ≤ 7 → fld p 3 1 ≤ 1 → fld p 4 1 ≤ 2 → ZeroBytes p 5 8 → badBand p = none → ZeroBytes p 40 48 → (q = 0 ∨ sel = 4 ∧ (region d r).owner = q) → (4 ≤ sel → (region d r).fenced = false) →
      CompletesOk (.regionConfig q) s q 0 none (fun f => (∀ k, region f k = (if k = r then { region d r with bandTable := (if sel % 2 = 1 then decide (fld p 3 1 = 1) else (region d r).bandTable), bands := (if sel / 2 % 2 = 1 then (List.range 32).map (fun j => fld p (8 + j) 1) else (region d r).bands), injection := (if 4 ≤ sel then fld p 4 1 else (region d r).injection) } else region d k)) ∧
        ∀ j, j < 1248 → island f j = (if islandRegion j = r ∧ 4 ≤ sel then { island d j with ring := { (island d j).ring with intervalDue := some (fld p 4 1), hostAt := some (island d j).ring.count } } else island d j))) ∧
    (Executing s q 0x0C04 e → ZeroBytes p 3 8 → q = 0 → d.startup.ready = 1 → let x := idleOf (region d r);
      (sel = 0 → ZeroBytes p 8 16 → (region d r).test = none → CompletesOk (.regionTest q) s q 0 none (fun f => f = d)) ∧
      (∀ v, sel = 1 → readSetting ((p.drop 8).take 8) = some v → inPlan d r = false → pendingCommit d r = none → e.reexecuted = false →
        ((synth d r x).retired = false → exec (.regionTest q) s = .next { s with die := writeSynth r x v .test false d } ∧ (synth (writeSynth r x v .test false d) r x).use = .test ∧ (synth (writeSynth r x v .test false d) r x).setting = v ∧ (synth (writeSynth r x v .test false d) r x).lock = false ∧ (queue (writeSynth r x v .test false d) q).exec = some e) ∧
        ((synth d r x).retired = true → exec (.regionTest q) s = .next { s with die := finish q (.refuse stFailed 0xFFFF) d }))))

/-- R51, R60, R73, R172, R266, R377–R379, R426–R428, R437: the Tally commands set the priority, declare the side's time authoritative and read; the fabric commands read, set the reference's preference and selection, schedule the
release of a stopped die, take the topology descriptor and its check, and set the tolerance of the regions named. -/
def Obligations.TallyAndFabricCommandsAct : Prop := ∀ (s : State) (q : Nat) (e : Exec), s.die.Canonical → let p := e.desc.drop 16; let d := s.die; let ref := fld p 1 1;
  (Executing s q 0x0D01 e → q = 0 → ZeroBytes p 1 4 → CompletesOk (.tallyPriority q) s q 0 none (fun f => f.tally.priority = fld p 0 1 ∧ f.tally.now = d.tally.now ∧ (d.tally.role ≠ 1 → f = { d with tally := { d.tally with priority := fld p 0 1 } }))) ∧
  (Executing s q 0x0D02 e → q = 0 → ZeroBytes p 1 4 → d.startup.ready = 1 →
    (fld p 0 1 = 0 → d.tally.role = 1 → d.tally.holdover = true → CompletesOk (.tallyAuthority q) s q 0 none (fun f => f.tally = { d.tally with holdover := false })) ∧
    (fld p 0 1 = 1 → d.tally.foreign = true → anyPlanOrWatch d = false → CompletesOk (.tallyAuthority q) s q 0 none (fun f => f.tally.foreign = false ∧ f.tally.epoch = (link d d.tally.foreignLink).partner.epoch ∧
      f.tally.parent = some d.tally.foreignLink ∧ f.tally.now = (((d.tally.now : Int) + d.tally.foreignOffset) % (2 ^ 64 : Nat)).toNat))) ∧
  (Executing s q 0x0D03 e → CompletesOk (.tallyRead q) s q (treeFlags d + 256 * d.tally.hops) (some (tallyBytes d)) (fun f => f = d)) ∧
  (Executing s q 0x0E01 e → CompletesOk (.fabricRead q) s q 0 (some (fabricBytes d)) (fun f => f = d)) ∧
  (Executing s q 0x0E02 e → q = 0 → fld p 0 1 < 8 → ref ≤ 1 → ZeroBytes p 2 4 →
    (fld p 0 1 < 4 → (fld p 0 1 < 2 ∨ d.clocks.selected = fld p 0 1 % 2) → CompletesOk (.fabricRef q) s q 0 none (fun f => f = { d with clocks := { d.clocks with preferred := fld p 0 1 % 2, revertive := decide (2 ≤ fld p 0 1) } })) ∧
    (4 ≤ fld p 0 1 → refUsable d ref = true → CompletesOk (.fabricRef q) s q 0 none (fun f => f.clocks.selected = ref ∧ f.clocks.preferred = fld p 0 1 % 2 ∧ f.clocks.revertive = decide (6 ≤ fld p 0 1))) ∧
    (4 ≤ fld p 0 1 → refUsable d ref = false → exec (.fabricRef q) s = .next { s with die := finish q (.refuse stNotLocked ref) d })) ∧
  (Executing s q 0x0E03 e → q = 0 → ZeroBytes p 8 16 → d.startup.ready = 1 → resumeRefused d = false → fld p 0 8 % 10 = 0 → d.tally.now + 500000 ≤ fld p 0 8 → fld p 0 8 ≤ d.tally.now + 10000000000 →
    CompletesOk (.fabricResume q) s q 0 none (fun f => f.stop.resumeAt = some (fld p 0 8) ∧ f.stop.stopped = true ∧ f.stop.faultStop = none ∧ f.tally = d.tally ∧ ∀ r ∈ presentRegions d, (region f r).opp = 0 ∧ (region f r).test = none)) ∧
  (∀ hbm, Executing s q 0x0E04 e → q = 0 → ZeroBytes p 2 8 → fld p 0 2 = 272 → let b := e.staged.take 272; descriptorReserved b = none → descriptorUnknown b = none → e.reexecuted = false →
    (d.startup.step < 9 → d.startup.checkSince = none → Gives (.fabricTopology q hbm) s (fun f => f.startup = { d.startup with descriptor := some b } ∧ f.tally.dieId = some (d.tally.dieId.getD (fld b 6 2 % 16384)) ∧ (queue f q).exec = some e)) ∧
    (9 ≤ d.startup.step → d.startup.ready ≠ 1 → linksUp { d with startup := { d.startup with descriptor := some b } } = true → (queue d q).resetting = none →
      Gives (.fabricTopology q hbm) s (fun f => f.startup.step = 10 ∧ f.startup.checkSince = none ∧ (f.startup.ready = 1 ↔ f.startup.differences = 0) ∧ (f.startup.ready = 1 ∨ f.startup.ready = 2) ∧ (queue f q).exec = none))) ∧
  (Executing s q 0x0E05 e → q = 0 → let m := fld p 0 10; m ≠ 0 → ZeroBytes p 10 12 → d.startup.ready = 1 → (∀ r ∈ setRegions m, present d r = true) →
    CompletesOk (.fabricPower q) s q 0 none (fun f => ∀ r, region f r = (if r ∈ setRegions m then { region d r with tolerance := fld p 12 4 } else region d r)))

/-- The command at the front of the queue acts on the state with the rest of the queue, whatever the command. The model's choice (log 2): where none waits, one period of the Tally clock passes. -/
def Obligations.StepRunsTheFrontCommand : Prop :=
  (∀ (c : Instr) (s : State), step { s with pending := c :: s.pending } = exec c s) ∧
  (∀ (c : Instr) (rest : List Instr) (s : State), s.pending = c :: rest → step s = exec c { s with pending := rest }) ∧
  (∀ (s : State), s.pending = [] → step s = .next { s with die := tallyTick s.die })

/-- R42, R51, R248, R257, R353, R380, R386 and the Reset columns of Tables 19.1 to 19.7: what the registers read as right after reset. -/
def Obligations.ResetReadsTheResetColumns : Prop := let d := State.reset.die;
  (d.tally.now = 0 ∧ d.tally.epoch = 0 ∧ d.tally.holdover = false ∧ d.tally.settled = false ∧ d.tally.running = false ∧ d.tally.priority = 128) ∧
  (∀ off ∈ [0x04, 0x4C, 0x54, 0x80, 0x84, 0x88, 0x8C, 0x90, 0x94, 0xC4, 0xC8, 0xCC, 0xD0, 0xD4, 0xD8, 0xDC, 0x100, 0x104, 0x108], mmioRead d off = 0) ∧
  (mmioRead d 0x00 % 2 ^ 16 = 0x4A43 ∧ mmioRead d 0x00 / 2 ^ 24 = 1 ∧ mmioRead d 0x40 = 0x10000 ∧ mmioRead d 0x44 = 0x36 ∧ mmioRead d 0x48 = 8) ∧
  (∀ q, q < 17 → ∀ off ∈ [0, 4, 8, 0xC, 0x10, 0x14, 0x18], mmioRead d (0x1000 + 256 * q + off) = if q = 0 ∧ off = 0x10 then 4 else 0) ∧
  (d.limits.base = 1150 ∧ d.limits.burst = 1600 ∧ d.limits.soft = 95 * 16 ∧ d.limits.hard = 105 * 16 ∧ d.nextCommit = 1 ∧ d.ledger.share = 64) ∧
  (d.ledger.ring = [] ∧ d.ledger.index = 0 ∧ d.ledger.count = 0 ∧ d.stop.thermtrip = true)

/-- The invariants of `TablesAndLedgerStayInForm` and `TallyAddsTheRateWordWithinItsLimit` hold right after reset, and no command waits
then (the queue is the model's own). -/
def Obligations.InvariantsHoldAtReset : Prop :=
  State.reset.die.Canonical ∧ State.reset.die.ledger.Counted ∧ State.reset.die.tally.InRange ∧ State.reset.pending = []

/-- R380: whatever the step, the tables and the command SRAM keep their canonical form, and the Ledger's ring holds the last records written, up to 65,536, with the write index their count modulo 65,536. -/
def Obligations.TablesAndLedgerStayInForm : Prop :=
  (∀ (s t : State), s.die.Canonical → step s = .next t → t.die.Canonical) ∧
  (∀ (s t : State), s.die.ledger.Counted → step s = .next t → t.die.ledger.Counted)

/-- R40: at each period of the Tally clock the counter adds 1 ns plus the rate word, in 64 bits of nanoseconds and 40 of fraction, and nothing else changes; whatever the step, the counter keeps its widths and the rate
word its limit of 54,975,581 units; the Tally that a snapshot captures is the integer part, whatever the fraction. -/
def Obligations.TallyAddsTheRateWordWithinItsLimit : Prop :=
  (∀ (d : Die), d.tally.InRange → d.tally.running = true → ∃ now frac, tallyTick d = { d with tally := { d.tally with now := now, frac := frac } } ∧ now < 2 ^ 64 ∧ frac < 2 ^ 40 ∧
    (∃ wraps : Nat, ((now * 2 ^ 40 + frac + wraps * 2 ^ 104 : Nat) : Int) = ((d.tally.now * 2 ^ 40 + d.tally.frac + 2 ^ 40 : Nat) : Int) + d.tally.rate)) ∧
  (∀ (d : Die), d.tally.running = false → tallyTick d = d) ∧
  (∀ (s t : State), s.die.tally.InRange → step s = .next t → t.die.tally.InRange) ∧
  (∀ (s : State), Gives .tallySnapshotRead s (fun d => d.regs.snap.tally = s.die.tally.now))

/-- R16 to R21: every command whose operands name what the die has completes and leaves the queue of waiting commands alone; one that names anything else stops with the fault of that name (the model's choice, log 3); a queue
of commands that name what the die has runs to its end and beyond without a stop, and is empty after as many steps as it held commands. -/
def Obligations.NamedCommandsCompleteAndQueuesRunOut : Prop :=
  (∀ (c : Instr) (s : State),
    (c.wf = true → ∃ t, exec c s = .next t ∧ t.pending = s.pending) ∧ (c.wf = false → exec c s = .fault .noSuchElement)) ∧
  ((∀ (n : Nat) (s : State), (∀ c ∈ s.pending, c.wf = true) → Safe n s) ∧
    (∀ (cs : List Instr) (s : State), (∀ c ∈ cs, c.wf = true) → ∃ t : State, t.pending = [] ∧ Leads cs.length { s with pending := cs } t))

namespace Sys2Proof.Machine

/-- Where the command answers a next state, every island but i is as before. -/
def LeavesIslands (c : Instr) (s : State) (i : Nat) : Prop := ∀ t, exec c s = .next t → ∀ k, k ≠ i → island t.die k = island s.die k

end Sys2Proof.Machine

namespace Sys2Proof.Machine

/-- Where the command answers a next state, every region but i is as before. -/
def LeavesRegions (c : Instr) (s : State) (i : Nat) : Prop := ∀ t, exec c s = .next t → ∀ k, k ≠ i → region t.die k = region s.die k

end Sys2Proof.Machine

namespace Sys2Proof.Machine

/-- Where the command answers a next state, every link but i is as before. -/
def LeavesLinks (c : Instr) (s : State) (i : Nat) : Prop := ∀ t, exec c s = .next t → ∀ k, k ≠ i → link t.die k = link s.die k

end Sys2Proof.Machine

namespace Sys2Proof.Machine

/-- Where the command answers a next state, every rail but i is as before. -/
def LeavesRails (c : Instr) (s : State) (i : Nat) : Prop := ∀ t, exec c s = .next t → ∀ k, k ≠ i → rail t.die k = rail s.die k

end Sys2Proof.Machine

namespace Sys2Proof.Machine

/-- Where the command answers a next state, every watch but i is as before. -/
def LeavesWatches (c : Instr) (s : State) (i : Nat) : Prop := ∀ t, exec c s = .next t → ∀ k, k ≠ i → watch t.die k = watch s.die k

end Sys2Proof.Machine

namespace Sys2Proof.Machine

/-- Where the command answers a next state, every context but i is as before. -/
def LeavesContexts (c : Instr) (s : State) (i : Nat) : Prop := ∀ t, exec c s = .next t → ∀ k, k ≠ i → context t.die k = context s.die k

end Sys2Proof.Machine

namespace Sys2Proof.Machine

/-- Where the command answers a next state, every queue but i is as before. -/
def LeavesQueues (c : Instr) (s : State) (i : Nat) : Prop := ∀ t, exec c s = .next t → ∀ k, k ≠ i → queue t.die k = queue s.die k

end Sys2Proof.Machine

/-- The frame of the events of start-up, clocks, rings, the Hoop, links, Tally and watches: what is not listed stays as it is, the ring of the Ledger among it. -/
def Obligations.ClockAndLinkEventsChangeOnly : Prop := ∀ (s : State),
  ChangesOnly .aonPowerGood s [.tally, .clocks, .startup, .stop, .regs, .ledger, .records, .chandler, .store, .limits, .islands, .regions, .synths, .ends, .lanes, .links, .rails, .sensors, .watches, .messages, .delivered, .contexts, .commits, .commitReqs, .nextCommit, .tenants, .queues, .sram, .dormant] ∧
  ChangesOnly .aonPowerFail s [.stop] ∧ (∀ x, ChangesOnly (.aonUndervoltage x) s [.startup, .stop, .regs, .ledger, .store, .limits, .islands, .regions, .synths, .ends, .links, .rails, .contexts, .commits, .commitReqs]) ∧
  ChangesOnly .packageWarmReset s [.tally, .clocks, .startup, .stop, .regs, .ledger, .chandler, .store, .limits, .islands, .regions, .synths, .ends, .lanes, .links, .rails, .sensors, .watches, .contexts, .commits, .commitReqs, .nextCommit, .tenants, .queues, .sram, .dormant, .fresh] ∧
  (∀ x, ChangesOnly (.startupStepComplete x) s [.tally, .clocks, .startup, .regs, .ledger, .store, .islands, .regions, .synths, .rails, .sensors]) ∧ (∀ x y z, ChangesOnly (.firmwareBroadcast x y z) s [.ledger, .chandler]) ∧
  ChangesOnly .bootImageTimeout s [.chandler] ∧ (∀ x, ChangesOnly (.topologyCheckTimeout x) s [.tally, .startup, .regs, .ledger, .queues, .sram]) ∧
  (∀ x, ChangesOnly (.topologyCheckComplete x) s [.tally, .startup, .regs, .ledger, .queues, .sram]) ∧
  (∀ x, ChangesOnly (.refActivityLoss x) s [.tally, .clocks, .startup, .stop, .regs, .ledger, .store, .limits, .islands, .regions, .synths, .ends, .links, .rails, .contexts, .commits, .commitReqs]) ∧
  (∀ x y, ChangesOnly (.refFrequencyWindowEnd x y) s [.tally, .clocks, .startup, .stop, .regs, .ledger, .store, .limits, .islands, .regions, .synths, .ends, .links, .rails, .contexts, .commits, .commitReqs]) ∧
  ChangesOnly .noReferenceTimeout s [.tally, .clocks, .startup, .stop, .regs, .ledger, .store, .limits, .islands, .regions, .synths, .ends, .links, .rails, .contexts, .commits, .commitReqs] ∧
  (∀ x, ChangesOnly (.rootLockLoss x) s [.tally, .clocks, .startup, .stop, .regs, .ledger, .store, .limits, .islands, .regions, .synths, .ends, .links, .rails, .contexts, .commits, .commitReqs]) ∧
  (∀ x, ChangesOnly (.rootDisagreement x) s [.clocks, .ledger]) ∧
  (∀ x y, ChangesOnly (.rootSwitchConfirm x y) s [.tally, .clocks, .startup, .stop, .regs, .ledger, .store, .limits, .islands, .regions, .synths, .ends, .links, .rails, .contexts, .commits, .commitReqs, .fresh]) ∧
  (∀ x y z, ChangesOnly (.synthBandSearchDone x y z) s [.synths]) ∧
  (∀ x y z, ChangesOnly (.synthLockWindowEnd x y z) s [.ledger, .store, .islands, .regions, .synths, .ends, .watches, .messages, .contexts, .commits, .commitReqs, .queues, .sram]) ∧
  (∀ x y z, ChangesOnly (.synthExcursion x y z) s [.ledger, .store, .islands, .regions, .synths, .ends, .watches, .messages, .contexts, .commits, .commitReqs]) ∧
  (∀ x y, ChangesOnly (.synthAcquisitionTimeout x y) s [.ledger, .store, .islands, .regions, .synths, .ends, .watches, .messages, .contexts, .commits, .commitReqs, .queues, .sram]) ∧
  (∀ x y, ChangesOnly (.synthRetryAcquire x y) s [.synths]) ∧ (∀ x y, ChangesOnly (.injectionWindowEnd x y) s [.ledger, .islands, .regions]) ∧ (∀ x, ChangesOnly (.injectionAcquisitionTimeout x) s [.ledger, .store, .islands]) ∧
  (∀ x, ChangesOnly (.bellowsSettleDone x) s [.islands]) ∧ (∀ x, ChangesOnly (.injectionResume x) s [.islands]) ∧ (∀ x y, ChangesOnly (.phaseStep x y) s [.islands]) ∧
  (∀ x y, ChangesOnly (.ringPeriod x y) s [.ledger, .limits, .islands, .ends, .lanes, .links, .contexts]) ∧ (∀ x y, ChangesOnly (.plumbDisagreementResolved x y) s [.ledger, .store, .islands]) ∧
  ChangesOnly .alertIntervalEnd s [.ledger, .islands, .regions, .commitReqs] ∧ (∀ x, ChangesOnly (.marginReleaseTimeout x) s [.ledger, .regions, .commitReqs]) ∧ ChangesOnly .unplannedStepBoundary s [.islands] ∧
  (∀ x, ChangesOnly (.droverRestart x) s [.ledger, .regions]) ∧ (∀ x y, ChangesOnly (.edgeActivation x y) s [.ends]) ∧ (∀ x, ChangesOnly (.hoopFrameForm x) s [.links]) ∧
  (∀ x y, ChangesOnly (.hoopFrameReceived x y) s [.tally, .ledger, .limits, .links]) ∧ (∀ x, ChangesOnly (.hoopLinkFrameTimeout x) s [.ledger, .links]) ∧ (∀ x, ChangesOnly (.hoopStaleRelease x) s [.ledger, .ends, .links, .contexts]) ∧
  ChangesOnly .criticalPathIntervalEnd s [.limits] ∧ (∀ x, ChangesOnly (.linkDown x) s [.tally, .ledger, .limits, .lanes, .links]) ∧ (∀ x, ChangesOnly (.linkUp x) s [.ledger, .limits, .links]) ∧
  (∀ x, ChangesOnly (.linkRetrainBegin x) s [.ledger, .lanes, .links]) ∧ (∀ x, ChangesOnly (.linkRetrainEnd x) s [.ledger, .links]) ∧ (∀ x, ChangesOnly (.hbmRetrainBegin x) s [.ledger, .hbm]) ∧
  (∀ x, ChangesOnly (.hbmRetrainEnd x) s [.ledger, .hbm]) ∧ (∀ x, ChangesOnly (.sidebandReceiverUp x) s [.links]) ∧ (∀ x, ChangesOnly (.sidebandReceiverDown x) s [.tally, .links]) ∧
  (∀ x, ChangesOnly (.sidebandFrameBoundary x) s [.links]) ∧ (∀ x, ChangesOnly (.sidebandFrameDiscarded x) s [.tally, .ledger, .links]) ∧ (∀ x, ChangesOnly (.tallySyncSend x) s [.links]) ∧
  (∀ x y, ChangesOnly (.tallySyncReceived x y) s [.tally, .ledger, .links]) ∧ (∀ x y, ChangesOnly (.tallyReplyReceived x y) s [.tally, .ledger, .links]) ∧ ChangesOnly .tallyOffsetAverage s [.tally, .ledger] ∧
  ChangesOnly .tallySettled s [.tally] ∧ ChangesOnly .tallyBeaconIncrement s [.tally] ∧ ChangesOnly .tallyMasterLost s [.tally, .ledger] ∧ ChangesOnly .tallyMasterWaitExpiry s [.tally, .ledger] ∧
  (∀ x, ChangesOnly (.tallyWatchFire x) s [.watches, .messages]) ∧ (∀ x y, ChangesOnly (.cycleWatchFire x y) s [.watches, .messages]) ∧ (∀ x, ChangesOnly (.watchArmed x) s [.watches, .messages]) ∧
  ChangesOnly .watchMessageDelivery s [.messages, .delivered] ∧ (∀ x, ChangesOnly (.rootReacquire x) s [.clocks]) ∧ (∀ x, ChangesOnly (.rootLockDeclared x) s [.tally, .clocks])

/-- The frame of the events of commits, Patterns, energy, limits, heat, pool, calibration, Chandler, buses and resets: what is not listed stays as it is. -/
def Obligations.ControlEventsChangeOnly : Prop := ∀ (s : State),
  ChangesOnly .commitAccept s [.ledger, .regions, .synths, .commits, .commitReqs, .nextCommit] ∧ (∀ x, ChangesOnly (.commitVoltageRise x) s [.rails, .commits]) ∧
  (∀ x, ChangesOnly (.commitDecision x) s [.ledger, .regions, .synths, .commits, .commitReqs]) ∧ (∀ x, ChangesOnly (.commitStrobe x) s [.ledger, .regions, .commits, .commitReqs]) ∧
  (∀ x y, ChangesOnly (.regionSwitchingInstant x y) s [.ledger, .islands, .regions, .synths, .commits, .commitReqs]) ∧ (∀ x, ChangesOnly (.commitVoltageFall x) s [.rails, .commits]) ∧
  (∀ x, ChangesOnly (.settlementCommitRequest x) s [.regions, .commitReqs]) ∧ (∀ x, ChangesOnly (.restoringCommitRetry x) s [.regions, .commitReqs]) ∧
  (∀ x, ChangesOnly (.pauseSwitchLend x) s [.ledger, .islands, .regions, .synths, .commits, .commitReqs]) ∧ (∀ x, ChangesOnly (.pauseSwitchGateTimeout x) s [.ledger, .islands, .regions]) ∧
  (∀ x, ChangesOnly (.regionActionApply x) s [.ledger, .regions, .commitReqs]) ∧ (∀ x y, ChangesOnly (.patternRecordRead x y) s [.ledger, .regions, .contexts]) ∧
  (∀ x, ChangesOnly (.patternActionApply x) s [.ledger, .islands, .regions, .ends, .contexts, .commitReqs, .tenants]) ∧ (∀ x, ChangesOnly (.oppRequestIssue x) s [.ledger, .regions, .contexts, .commitReqs]) ∧
  (∀ x, ChangesOnly (.certAssembly x) s [.ledger, .contexts, .fresh]) ∧ (∀ x, ChangesOnly (.energyIntervalEnd x) s [.ledger, .limits, .islands, .regions, .ends, .rails, .commitReqs, .tenants]) ∧
  ChangesOnly .telemetryReadStart s [.rails] ∧ ChangesOnly .calibrationWindowEnd s [.ledger, .rails] ∧ ChangesOnly .calibrationUpdateApply s [.ledger, .rails] ∧ ChangesOnly .limitEvaluation s [.ledger, .limits, .regions, .commitReqs] ∧
  (∀ x y, ChangesOnly (.vrmStatusPoll x y) s [.ledger, .regions, .rails, .commitReqs]) ∧ (∀ x, ChangesOnly (.vrmAlertRise x) s [.ledger, .regions, .rails, .commitReqs]) ∧
  (∀ x y, ChangesOnly (.voltageFallTimeout x y) s [.ledger, .regions, .rails, .commitReqs]) ∧ (∀ x, ChangesOnly (.fallTargetRewrite x) s [.rails]) ∧
  (∀ x, ChangesOnly (.sensorConversion x) s [.startup, .stop, .regs, .ledger, .store, .limits, .islands, .regions, .synths, .ends, .links, .rails, .sensors, .contexts, .commits, .commitReqs, .dormant, .fresh]) ∧
  (∀ x, ChangesOnly (.thermalSoftStep x) s [.ledger, .regions, .commitReqs]) ∧ (∀ x, ChangesOnly (.thermalSoftRelease x) s [.regions]) ∧ (∀ x, ChangesOnly (.thermalSoftRise x) s [.ledger, .regions, .commitReqs]) ∧
  (∀ x, ChangesOnly (.thermalHardRelease x) s [.ledger, .regions, .commitReqs]) ∧ ChangesOnly .thermalTripRelease s [.startup, .stop, .ledger, .store, .regions, .synths, .rails, .commitReqs] ∧
  (∀ x y, ChangesOnly (.flowLoss x y) s [.startup, .stop, .regs, .ledger, .store, .limits, .islands, .regions, .synths, .ends, .links, .rails, .contexts, .commits, .commitReqs]) ∧
  (∀ x, ChangesOnly (.flowRelease x) s [.startup, .stop, .regs, .ledger, .store, .regions, .synths, .rails, .commitReqs]) ∧
  ChangesOnly .estopAssert s [.startup, .stop, .regs, .ledger, .store, .limits, .islands, .regions, .synths, .ends, .links, .rails, .contexts, .commits, .commitReqs] ∧
  ChangesOnly .estopRelease s [.startup, .stop, .ledger, .store, .regions, .synths, .rails, .commitReqs] ∧ ChangesOnly .resumeRelease s [.stop, .regs, .ledger, .islands, .regions, .commitReqs] ∧
  ChangesOnly .poolStatusSend s [.ledger, .limits, .regions, .links] ∧ (∀ x y, ChangesOnly (.poolStatusReceived x y) s [.tally, .ledger, .limits, .links]) ∧
  (∀ x y, ChangesOnly (.poolGrantReceived x y) s [.tally, .ledger, .limits, .links]) ∧ (∀ x y, ChangesOnly (.poolReturnReceived x y) s [.tally, .ledger, .limits, .links]) ∧
  (∀ x y, ChangesOnly (.poolRecallReceived x y) s [.tally, .ledger, .limits, .links]) ∧ (∀ x, ChangesOnly (.poolLinkSilent x) s [.ledger, .limits, .links]) ∧ (∀ x, ChangesOnly (.poolLenderRestore x) s [.ledger, .limits, .links]) ∧
  ChangesOnly .guardEvaluation s [.ledger, .limits, .islands, .regions, .ends, .rails, .commitReqs, .tenants] ∧ ChangesOnly .guardCeilingRise s [.ledger, .regions, .commitReqs, .tenants] ∧
  (∀ x, ChangesOnly (.assayPhaseEnd x) s [.ledger, .store, .islands, .regions, .synths, .ends, .rails, .contexts]) ∧ ChangesOnly .assayClose s [.ledger, .store, .islands, .regions, .synths, .ends, .sensors, .contexts, .commitReqs] ∧
  (∀ x, ChangesOnly (.flashOperationComplete x) s [.ledger, .store, .fresh]) ∧ ChangesOnly .flashOperationTimeout s [.ledger, .store, .fresh] ∧ ChangesOnly .storeWriteRetire s [.store] ∧ ChangesOnly .storeWriteRetry s [.store] ∧
  ChangesOnly .chandlerHeartbeat s [.chandler] ∧
  ChangesOnly .chandlerHeartbeatTimeout s [.startup, .stop, .regs, .ledger, .chandler, .store, .limits, .islands, .regions, .synths, .ends, .links, .rails, .contexts, .commits, .commitReqs, .queues, .fresh] ∧
  (∀ x y, ChangesOnly (.chandlerFaultSignal x y) s [.startup, .stop, .regs, .ledger, .chandler, .store, .limits, .islands, .regions, .synths, .ends, .links, .rails, .contexts, .commits, .commitReqs, .queues, .fresh]) ∧
  ChangesOnly .chandlerTakeoverComplete s [.ledger, .chandler, .store, .islands, .regions, .synths, .ends, .rails, .commitReqs, .queues] ∧ ChangesOnly .chandlerRestartVerified s [.chandler] ∧
  ChangesOnly .chandlerSynced s [.ledger, .chandler, .queues] ∧ ChangesOnly .chandlerSyncTimeout s [.ledger, .chandler] ∧ (∀ x, ChangesOnly (.descriptorFetch x) s [.ledger, .queues, .sram]) ∧
  (∀ x y, ChangesOnly (.avsbusFrameEnd x y) s [.stop, .ledger, .regions, .synths, .rails, .commitReqs]) ∧ (∀ x y, ChangesOnly (.pmbusTransactionComplete x y) s [.stop, .rails]) ∧
  (∀ x y, ChangesOnly (.streamAccessFail x y) s [.regs, .ledger, .contexts, .queues, .sram]) ∧ ChangesOnly .ledgerRecordAccept s [.ledger, .records, .streams] ∧ (∀ x, ChangesOnly (.stretchSpanWindowEnd x) s [.ledger, .islands]) ∧
  ChangesOnly .drainPageTimeout s [.ledger, .streams] ∧ (∀ x, ChangesOnly (.drainPageWriteComplete x) s [.regs, .ledger, .queues, .sram, .streams]) ∧
  (∀ x, ChangesOnly (.regionIdleChange x) s [.ledger, .islands, .regions, .synths, .ends, .rails, .contexts, .commitReqs, .dormant]) ∧ (∀ x y, ChangesOnly (.wakeLine x y) s [.regions]) ∧
  (∀ x, ChangesOnly (.regionResetEnd x) s [.ledger, .islands, .regions, .ends, .contexts, .commitReqs]) ∧ (∀ x, ChangesOnly (.islandResetEnd x) s [.ledger, .islands, .regions, .ends, .contexts]) ∧
  (∀ x, ChangesOnly (.planRelease x) s [.ledger, .islands, .regions, .ends, .lanes, .links, .contexts]) ∧ (∀ x, ChangesOnly (.railConfirmationRead x) s [.rails]) ∧ (∀ x, ChangesOnly (.pmbusReadTimeout x) s [.rails])

/-- The frame of the Darni commands and the host's register accesses: what is not listed stays as it is. -/
def Obligations.HostCommandsChangeOnly : Prop := ∀ (s : State),
  (∀ x, ChangesOnly (.planLoad x) s [.ledger, .regions, .contexts, .queues, .sram]) ∧ (∀ x, ChangesOnly (.planStart x) s [.ledger, .islands, .contexts, .queues, .sram]) ∧
  (∀ x, ChangesOnly (.planArm x) s [.ledger, .contexts, .queues, .sram]) ∧ (∀ x, ChangesOnly (.planUnload x) s [.ledger, .islands, .regions, .ends, .lanes, .links, .contexts, .commitReqs, .queues, .sram]) ∧
  (∀ x, ChangesOnly (.planCouple x) s [.ledger, .ends, .lanes, .links, .queues, .sram]) ∧ (∀ x, ChangesOnly (.planRead x) s [.ledger, .queues, .sram]) ∧
  (∀ x, ChangesOnly (.oppCommit x) s [.ledger, .regions, .synths, .commits, .nextCommit, .queues, .sram]) ∧ (∀ x, ChangesOnly (.oppCancel x) s [.ledger, .regions, .synths, .commits, .commitReqs, .queues, .sram]) ∧
  (∀ x, ChangesOnly (.oppRead x) s [.ledger, .queues, .sram, .fresh]) ∧ (∀ x, ChangesOnly (.capSet x) s [.ledger, .limits, .regions, .rails, .queues, .sram]) ∧
  (∀ x, ChangesOnly (.capCeiling x) s [.ledger, .regions, .commitReqs, .queues, .sram]) ∧ (∀ x, ChangesOnly (.capRead x) s [.ledger, .queues, .sram]) ∧
  (∀ x, ChangesOnly (.poolSet x) s [.ledger, .limits, .regions, .links, .queues, .sram]) ∧ (∀ x, ChangesOnly (.poolRead x) s [.ledger, .queues, .sram]) ∧ (∀ x, ChangesOnly (.tenantCreate x) s [.ledger, .tenants, .queues, .sram]) ∧
  (∀ x, ChangesOnly (.tenantDestroy x) s [.ledger, .regions, .watches, .commitReqs, .tenants, .queues, .sram]) ∧ (∀ x, ChangesOnly (.tenantMove x) s [.ledger, .regions, .queues, .sram]) ∧
  (∀ x, ChangesOnly (.tenantFence x) s [.ledger, .regions, .tenants, .queues, .sram]) ∧ (∀ x, ChangesOnly (.tenantRead x) s [.ledger, .queues, .sram, .fresh]) ∧ (∀ x, ChangesOnly (.watchSet x) s [.ledger, .watches, .queues, .sram]) ∧
  (∀ x, ChangesOnly (.watchClear x) s [.ledger, .watches, .queues, .sram]) ∧ (∀ x, ChangesOnly (.watchRead x) s [.ledger, .queues, .sram]) ∧ (∀ x, ChangesOnly (.ledgerControl x) s [.regs, .ledger, .contexts, .queues, .sram]) ∧
  (∀ x, ChangesOnly (.ledgerDrain x) s [.regs, .ledger, .queues, .sram, .streams]) ∧ (∀ x, ChangesOnly (.ledgerRead x) s [.ledger, .queues, .sram, .streams]) ∧ (∀ x, ChangesOnly (.certRead x) s [.ledger, .queues, .sram, .streams]) ∧
  (∀ x y, ChangesOnly (.calWrite x y) s [.ledger, .store, .queues, .sram]) ∧ (∀ x, ChangesOnly (.calExport x) s [.ledger, .queues, .sram, .streams]) ∧ (∀ x, ChangesOnly (.calRead x) s [.ledger, .queues, .sram, .fresh]) ∧
  (∀ x, ChangesOnly (.calSet x) s [.ledger, .store, .regions, .rails, .queues, .sram]) ∧ (∀ x, ChangesOnly (.calUnretire x) s [.clocks, .ledger, .store, .sensors, .queues, .sram]) ∧
  (∀ x, ChangesOnly (.assayRegion x) s [.ledger, .store, .islands, .ends, .rails, .contexts, .queues, .sram]) ∧ (∀ x, ChangesOnly (.islandRead x) s [.ledger, .queues, .sram]) ∧
  (∀ x, ChangesOnly (.islandPhase x) s [.ledger, .islands, .queues, .sram]) ∧ (∀ x, ChangesOnly (.islandResetCmd x) s [.ledger, .islands, .ends, .queues, .sram]) ∧ (∀ x, ChangesOnly (.regionRead x) s [.ledger, .queues, .sram]) ∧
  (∀ x, ChangesOnly (.regionResetCmd x) s [.ledger, .store, .islands, .regions, .synths, .ends, .commits, .commitReqs, .queues, .sram]) ∧ (∀ x, ChangesOnly (.regionConfig x) s [.ledger, .islands, .regions, .queues, .sram]) ∧
  (∀ x, ChangesOnly (.regionTest x) s [.ledger, .synths, .queues, .sram]) ∧ (∀ x, ChangesOnly (.tallyPriority x) s [.tally, .ledger, .queues, .sram]) ∧ (∀ x, ChangesOnly (.tallyAuthority x) s [.tally, .ledger, .queues, .sram]) ∧
  (∀ x, ChangesOnly (.tallyRead x) s [.ledger, .queues, .sram]) ∧ (∀ x, ChangesOnly (.fabricRead x) s [.ledger, .queues, .sram]) ∧ (∀ x, ChangesOnly (.fabricRef x) s [.clocks, .ledger, .queues, .sram]) ∧
  (∀ x, ChangesOnly (.fabricResume x) s [.stop, .ledger, .regions, .synths, .rails, .queues, .sram]) ∧ (∀ x y, ChangesOnly (.fabricTopology x y) s [.tally, .startup, .regs, .ledger, .queues, .sram]) ∧
  (∀ x, ChangesOnly (.fabricPower x) s [.ledger, .regions, .queues, .sram]) ∧ (∀ x y z, ChangesOnly (.queueDoorbellWrite x y z) s [.ledger, .queues, .sram]) ∧ (∀ x y, ChangesOnly (.queueCqHeadWrite x y) s [.queues]) ∧
  (∀ x, ChangesOnly (.queueResetWrite x) s [.ledger, .queues, .sram]) ∧ (∀ x y z, ChangesOnly (.queueIntStatusClear x y z) s [.queues]) ∧ (∀ x y, ChangesOnly (.fabricIntStatusClear x y) s [.regs]) ∧
  ChangesOnly .estopRegisterSet s [.startup, .stop, .regs, .ledger, .store, .limits, .islands, .regions, .synths, .ends, .links, .rails, .contexts, .commits, .commitReqs] ∧
  ChangesOnly .estopRegisterClear s [.startup, .stop, .ledger, .store, .regions, .synths, .rails, .commitReqs] ∧
  (∀ x, ChangesOnly (.fabricResetWrite x) s [.tally, .clocks, .startup, .stop, .regs, .ledger, .chandler, .store, .limits, .islands, .regions, .synths, .ends, .lanes, .links, .rails, .sensors, .watches, .contexts, .commits, .commitReqs, .nextCommit, .tenants, .queues, .sram, .dormant, .fresh]) ∧
  ChangesOnly .tallySnapshotRead s [.regs] ∧ (∀ x, ChangesOnly (.loRegisterRead x) s [.regs]) ∧ (∀ x, ChangesOnly (.ledgerFreezeWrite x) s [.regs, .ledger, .contexts]) ∧
  (∀ x, ChangesOnly (.drainHeadWrite x) s [.regs, .ledger, .streams]) ∧ (∀ x y z, ChangesOnly (.registerWriteGeneric x y z) s [.regs, .queues]) ∧
  (∀ x, ChangesOnly (.fabricWordUpdate x) s [.tally, .clocks, .startup, .stop, .regs, .ledger, .chandler, .store, .limits, .islands, .regions, .synths, .ends, .lanes, .links, .rails, .sensors, .watches, .contexts, .commits, .commitReqs, .nextCommit, .tenants, .queues, .sram, .streams, .dormant, .fresh]) ∧
  (∀ x, ChangesOnly (.ledgerRecordUpdate x) s [.regs]) ∧ (∀ x, ChangesOnly (.testInstructionUpdate x) s [.stop])

/-- A command that names one island, region, link, rail, watch, context or queue leaves every other one of that kind as it is. -/
def Obligations.OnlyTheNamedElementChanges : Prop := ∀ (s : State), s.die.Canonical →
  (∀ i, (∀ y, LeavesIslands (.injectionWindowEnd i y) s i) ∧ LeavesIslands (.injectionAcquisitionTimeout i) s i ∧ LeavesIslands (.bellowsSettleDone i) s i ∧ LeavesIslands (.injectionResume i) s i ∧
    (∀ y, LeavesIslands (.phaseStep i y) s i) ∧ (∀ y, LeavesIslands (.plumbDisagreementResolved i y) s i) ∧ LeavesIslands (.pauseSwitchGateTimeout i) s i ∧ LeavesIslands (.stretchSpanWindowEnd i) s i ∧
    LeavesIslands (.islandResetEnd i) s i) ∧
  (∀ i, LeavesRegions (.marginReleaseTimeout i) s i ∧ LeavesRegions (.settlementCommitRequest i) s i ∧ LeavesRegions (.restoringCommitRetry i) s i ∧ LeavesRegions (.thermalSoftStep i) s i ∧
    LeavesRegions (.thermalSoftRelease i) s i ∧ LeavesRegions (.thermalSoftRise i) s i ∧ LeavesRegions (.thermalHardRelease i) s i ∧ (∀ y, LeavesRegions (.wakeLine i y) s i)) ∧
  (∀ i, LeavesLinks (.hoopFrameForm i) s i ∧ (∀ y, LeavesLinks (.hoopFrameReceived i y) s i) ∧ LeavesLinks (.hoopLinkFrameTimeout i) s i ∧ LeavesLinks (.linkDown i) s i ∧ LeavesLinks (.linkUp i) s i ∧
    LeavesLinks (.linkRetrainBegin i) s i ∧ LeavesLinks (.linkRetrainEnd i) s i ∧ LeavesLinks (.sidebandReceiverUp i) s i ∧ LeavesLinks (.sidebandReceiverDown i) s i ∧ LeavesLinks (.sidebandFrameBoundary i) s i ∧
    LeavesLinks (.sidebandFrameDiscarded i) s i ∧ LeavesLinks (.tallySyncSend i) s i ∧ (∀ y, LeavesLinks (.tallySyncReceived i y) s i) ∧ (∀ y, LeavesLinks (.tallyReplyReceived i y) s i) ∧
    (∀ y, LeavesLinks (.poolStatusReceived i y) s i) ∧ (∀ y, LeavesLinks (.poolGrantReceived i y) s i) ∧ (∀ y, LeavesLinks (.poolReturnReceived i y) s i) ∧ (∀ y, LeavesLinks (.poolRecallReceived i y) s i) ∧
    LeavesLinks (.poolLinkSilent i) s i ∧ LeavesLinks (.poolLenderRestore i) s i) ∧
  (∀ i, (∀ y, LeavesRails (.vrmStatusPoll i y) s i) ∧ LeavesRails (.vrmAlertRise i) s i ∧ (∀ y, LeavesRails (.voltageFallTimeout i y) s i) ∧ LeavesRails (.fallTargetRewrite i) s i ∧ (∀ y, LeavesRails (.avsbusFrameEnd i y) s i) ∧
    (∀ y, LeavesRails (.pmbusTransactionComplete i y) s i) ∧ LeavesRails (.railConfirmationRead i) s i ∧ LeavesRails (.pmbusReadTimeout i) s i) ∧
  (∀ i, LeavesWatches (.tallyWatchFire i) s i ∧ (∀ y, LeavesWatches (.cycleWatchFire i y) s i) ∧ LeavesWatches (.watchArmed i) s i) ∧
  (∀ i, LeavesContexts (.certAssembly i) s i ∧ LeavesContexts (.oppRequestIssue i) s i ∧ (∀ y, LeavesContexts (.patternRecordRead i y) s i) ∧ LeavesContexts (.planRelease i) s i) ∧
  (∀ i, LeavesQueues (.descriptorFetch i) s i ∧ (∀ y z, LeavesQueues (.queueDoorbellWrite i y z) s i) ∧ (∀ y, LeavesQueues (.queueCqHeadWrite i y) s i) ∧ LeavesQueues (.queueResetWrite i) s i ∧
    (∀ y z, LeavesQueues (.queueIntStatusClear i y z) s i))

namespace Sys2Proof.Machine

/-- The command answers by completing on queue q, over a die whose SRAM and queues are as before. -/
def AnswersOn (c : Instr) (s : State) (q : Nat) : Prop := ∃ reply d, exec c s = .next { s with die := finish q reply d } ∧ d.sram = s.die.sram ∧ d.queues = s.die.queues

end Sys2Proof.Machine

/-- R326, R331, R333, R335, R338: a completion stores its entry at the completion tail and its output in the staging area, or clears the completion ring where a queue reset waited, and no other byte of the command SRAM and
no other queue; and every Darni command but tenant.create, tenant.destroy, ledger.drain and fabric.topology writes the SRAM and the queues through its completion alone. -/
def Obligations.CompletionsStoreNowhereElse : Prop :=
  (∀ (d : Die) (q : Nat) (reply : Reply), d.Canonical → let f := finish q reply d; let entry := queueBase q + 0x1000 + 16 * ((queue d q).cplTail % 64);
    (∀ a, (a < entry ∨ entry + 16 ≤ a) → (∀ result b, reply = .done result (some b) → a < queueBase q + 0x1400 ∨ queueBase q + 0x1400 + b.length ≤ a) →
      ((queue d q).resetting.isSome = true → a < queueBase q + 0x1000 ∨ queueBase q + 0x1400 ≤ a) → tget 0#8 f.sram a = tget 0#8 d.sram a) ∧
    (∀ p, p ≠ q → queue f p = queue d p)) ∧
  (∀ (s : State) (q : Nat), q < 17 → ∀ c ∈ [.planLoad q, .planStart q, .planArm q, .planUnload q, .planCouple q, .planRead q, .oppCommit q, .oppCancel q, .oppRead q, .capSet q, .capCeiling q, .capRead q, .poolSet q, .poolRead q, .tenantMove q,
    .tenantFence q, .tenantRead q, .watchSet q, .watchClear q, .watchRead q, .ledgerControl q, .ledgerRead q, .certRead q, .calExport q, .calRead q, .calSet q, .calUnretire q, .assayRegion q, .islandRead q,
    .islandPhase q, .islandResetCmd q, .regionRead q, .regionResetCmd q, .regionConfig q, .regionTest q, .tallyPriority q, .tallyAuthority q, .tallyRead q, .fabricRead q, .fabricRef q, .fabricResume q,
    .fabricPower q],
    AnswersOn c s q) ∧
  (∀ (s : State) (q : Nat) (image : Bytes), q < 17 → AnswersOn (.calWrite q image) s q)
end

