-- ==== Sys2Proof/Laws/Tables.lean ====
section
/-! SUPPORT. The laws of the sparse tables and of the command SRAM: a read after a write gives the value written, every other key reads as before, and each operation keeps the canonical form. -/

namespace Sys2Proof.Machine
open Sys2Proof
set_option Elab.async false
set_option linter.all false

variable {α : Type} [DecidableEq α]

theorem tblFrom_mono {d : α} {lo hi : Nat} : ∀ {t : Tbl α}, lo ≤ hi → tblFrom d hi t = true → tblFrom d lo t = true
  | [], _, _ => rfl
  | (k, v) :: t, h, ht => by
    simp only [tblFrom, Bool.and_eq_true, decide_eq_true_eq] at ht ⊢
    exact ⟨⟨Nat.le_trans h ht.1.1, ht.1.2⟩, ht.2⟩

theorem tset_from {d : α} {v : α} : ∀ {t : Tbl α} {lo k : Nat}, lo ≤ k → tblFrom d lo t = true → tblFrom d lo (tset d t k v) = true
  | [], lo, k, h, _ => by
    unfold tset
    split
    · rfl
    · simp_all [tblFrom]
  | (j, w) :: t, lo, k, h, ht => by
    simp only [tblFrom, Bool.and_eq_true, decide_eq_true_eq] at ht
    obtain ⟨⟨hj, hw⟩, ht⟩ := ht
    unfold tset
    split
    · split
      · simp [tblFrom, hj, hw, ht]
      · rename_i h1 h2
        simp [tblFrom, h, h2, hw, ht]
        omega
    · split
      · split
        · exact tblFrom_mono (by omega) ht
        · rename_i h1 h2 h3
          subst h2
          simp [tblFrom, h, h3, ht]
      · rename_i h1 h2
        simp only [tblFrom, Bool.and_eq_true, decide_eq_true_eq]
        exact ⟨⟨hj, hw⟩, tset_from (by omega) ht⟩

/-- Writing an entry keeps the canonical form. -/
theorem tset_wf {d v : α} {t : Tbl α} {k : Nat} (h : tblWf d t = true) : tblWf d (tset d t k v) = true := tset_from (Nat.zero_le k) h

theorem tmod_wf {d : α} {t : Tbl α} {k : Nat} {f : α → α} (h : tblWf d t = true) : tblWf d (tmod d t k f) = true := tset_wf h

theorem tget_below {d : α} : ∀ {t : Tbl α} {lo k : Nat}, tblFrom d lo t = true → k < lo → tget d t k = d
  | [], _, _, _, _ => rfl
  | (j, v) :: t, lo, k, h, hk => by
    simp only [tblFrom, Bool.and_eq_true, decide_eq_true_eq] at h
    unfold tget
    rw [if_neg (by omega)]
    exact tget_below h.2 (by omega)

theorem tget_tset_from {d v : α} : ∀ {t : Tbl α} {lo k i : Nat}, tblFrom d lo t = true → tget d (tset d t k v) i = if i = k then v else tget d t i
  | [], lo, k, i, _ => by
    unfold tset
    split
    · rename_i hv
      by_cases hi : i = k
      · rw [if_pos hi, hv]; rfl
      · rw [if_neg hi]
    · show (if k = i then v else d) = if i = k then v else d
      by_cases hi : i = k
      · rw [if_pos hi, if_pos hi.symm]
      · rw [if_neg hi, if_neg (fun e => hi e.symm)]
  | (j, w) :: t, lo, k, i, h => by
    simp only [tblFrom, Bool.and_eq_true, decide_eq_true_eq] at h
    obtain ⟨⟨hj, hw⟩, ht⟩ := h
    unfold tset
    split
    · rename_i hkj
      split
      · rename_i hv
        by_cases hi : i = k
        · subst hi
          rw [if_pos rfl, hv]
          unfold tget
          rw [if_neg (by omega)]
          exact tget_below ht (by omega)
        · rw [if_neg hi]
      · by_cases hi : i = k
        · simp [tget, hi]
        · rw [if_neg hi]
          show (if k = i then v else _) = _
          rw [if_neg (fun e => hi e.symm)]
    · split
      · rename_i h1 h2
        subst h2
        split
        · rename_i hv
          by_cases hi : i = k
          · subst hi
            rw [if_pos rfl, hv]
            exact tget_below ht (by omega)
          · rw [if_neg hi]
            show _ = (if k = i then w else _)
            rw [if_neg (fun e => hi e.symm)]
        · by_cases hi : i = k
          · simp [tget, hi]
          · rw [if_neg hi]
            show (if k = i then v else _) = (if k = i then w else _)
            rw [if_neg (fun e => hi e.symm), if_neg (fun e => hi e.symm)]
      · rename_i h1 h2
        have ih := tget_tset_from (d := d) (v := v) (t := t) (k := k) (i := i) ht
        show (if j = i then w else tget d (tset d t k v) i) = if i = k then v else (if j = i then w else tget d t i)
        by_cases hj2 : j = i
        · rw [if_pos hj2, if_neg (by omega), if_pos hj2]
        · rw [if_neg hj2, if_neg hj2, ih]

/-- A read after a write gives the value written. -/
theorem tget_tset_same {d v : α} {t : Tbl α} {k : Nat} (h : tblWf d t = true) : tget d (tset d t k v) k = v := by
  rw [tget_tset_from h, if_pos rfl]

/-- Every other key reads as before. -/
theorem tget_tset_other {d v : α} {t : Tbl α} {k i : Nat} (h : tblWf d t = true) (hi : i ≠ k) : tget d (tset d t k v) i = tget d t i := by
  rw [tget_tset_from h, if_neg hi]

theorem tget_tmod_same {d : α} {t : Tbl α} {k : Nat} {f : α → α} (h : tblWf d t = true) : tget d (tmod d t k f) k = f (tget d t k) := tget_tset_same h

theorem tget_tmod_other {d : α} {t : Tbl α} {k i : Nat} {f : α → α} (h : tblWf d t = true) (hi : i ≠ k) : tget d (tmod d t k f) i = tget d t i :=
  tget_tset_other h hi

/-- A list of entries put into order is canonical. -/
theorem canonical_wf {d : α} (l : Tbl α) : tblWf d (canonical d l) = true := by
  have h : ∀ (l t : Tbl α), tblWf d t = true → tblWf d (l.foldl (fun t e => tset d t e.1 e.2) t) = true := by
    intro l
    induction l with
    | nil => exact fun _ h => h
    | cons a l ih => exact fun t h => ih _ (tset_wf h)
  exact h l [] rfl

/-- A write of bytes keeps the SRAM's canonical form. -/
theorem sramPut_wf : ∀ (b : Bytes) {m : List Host.Cell} {a : Nat}, tblWf 0#8 m = true → tblWf 0#8 (sramPut m a b) = true
  | [], _, _, h => h
  | _ :: t, _, _, h => sramPut_wf t (tset_wf h)

/-- Host bytes keep the SRAM's canonical form. -/
theorem hostCells_wf : ∀ (b : Bytes) {m : List Host.Cell} {a : Nat}, tblWf 0#8 m = true → tblWf 0#8 (hostCells m a b) = true
  | [], _, _, h => h
  | _ :: t, _, _, h => by
    unfold hostCells
    split
    · exact hostCells_wf t (tset_wf h)
    · exact hostCells_wf t h

/-- A byte outside those written reads as before. -/
theorem sramPut_other : ∀ (b : Bytes) {m : List Host.Cell} {a i : Nat}, tblWf 0#8 m = true → (i < a ∨ a + b.length ≤ i) → tget 0#8 (sramPut m a b) i = tget 0#8 m i
  | [], _, _, _, _, _ => rfl
  | x :: t, m, a, i, h, hi => by
    show tget 0#8 (sramPut (tset 0#8 m a x) (a + 1) t) i = _
    simp only [List.length_cons] at hi
    rw [sramPut_other t (tset_wf h) (by omega), tget_tset_other h (by omega)]

end Sys2Proof.Machine
end

