-- ==== Sys2Proof/Laws/KeptCore.lean ====
section
/-! SUPPORT. When a property of the die is kept by every write of some parts of it, and the operations that take operations. -/

namespace Sys2Proof.Machine
open Sys2Proof
set_option Elab.async false
set_option linter.all false

/-- The parts that a reset of the die writes whole. -/
def resetParts : List Part := [.islands, .regions, .synths, .ends, .lanes, .links, .rails, .sensors, .watches, .contexts, .tenants, .commits, .commitReqs, .nextCommit, .dormant]

/-- The property is kept by every write of the listed parts: of a table by its entries, of the SRAM by bytes, of the Ledger's ring by a record. -/
structure Closed (P : Die → Prop) (M : List Part) : Prop where
  lits : ∀ d d' : Die, (∀ p ∈ [Part.islands, .regions, .synths, .ends, .lanes, .links, .rails, .sensors, .watches, .contexts, .tenants, .queues, .sram, .hbm, .records], samePart d d' p) →
    (∀ p, p ∉ M → samePart d d' p) → P d → P d'
  islands : .islands ∈ M → ∀ k f d, P d → P (modIsland k f d)
  regions : .regions ∈ M → ∀ k f d, P d → P (modRegion k f d)
  synths : .synths ∈ M → ∀ r x f d, P d → P (modSynth r x f d)
  ends : .ends ∈ M → ∀ k f d, P d → P (modEnd k f d)
  lanes : .lanes ∈ M → ∀ k f d, P d → P (modLane k f d)
  links : .links ∈ M → ∀ k f d, P d → P (modLink k f d)
  rails : .rails ∈ M → ∀ k f d, P d → P (modRail k f d)
  sensors : .sensors ∈ M → ∀ k f d, P d → P (modSensor k f d)
  watches : .watches ∈ M → ∀ k f d, P d → P (modWatch k f d)
  contexts : .contexts ∈ M → ∀ c v d, P d → P (setContext c v d)
  tenants : .tenants ∈ M → ∀ k f d, P d → P (modTenant k f d)
  queues : .queues ∈ M → ∀ k f d, P d → P (modQueue k f d)
  sram : .sram ∈ M → ∀ a b d, P d → P (sramWrite a b d)
  host : .sram ∈ M → ∀ w d, P d → P (hostWrite w d)
  hbm : .hbm ∈ M → ∀ i v d, P d → P { d with hbm := tset none d.hbm i v }
  records : .records ∈ M → .ledger ∈ M → ∀ x d, P d → P (writeRecord x d)
  reset : (∀ p ∈ resetParts, p ∈ M) → ∀ d, P d → P (resetFabric d)

variable {P : Die → Prop} {M : List Part}

theorem Closed.mono {N : List Part} (h : Closed P M) (hn : ∀ p ∈ N, p ∈ M) : Closed P N where
  lits d d' h1 h2 := h.lits d d' h1 (fun p hp => h2 p (fun hN => hp (hn p hN)))
  islands m := h.islands (hn _ m)
  regions m := h.regions (hn _ m)
  synths m := h.synths (hn _ m)
  ends m := h.ends (hn _ m)
  lanes m := h.lanes (hn _ m)
  links m := h.links (hn _ m)
  rails m := h.rails (hn _ m)
  sensors m := h.sensors (hn _ m)
  watches m := h.watches (hn _ m)
  contexts m := h.contexts (hn _ m)
  tenants m := h.tenants (hn _ m)
  queues m := h.queues (hn _ m)
  sram m := h.sram (hn _ m)
  host m := h.host (hn _ m)
  hbm m := h.hbm (hn _ m)
  records m m' := h.records (hn _ m) (hn _ m')
  reset m := h.reset (fun p hp => hn p (m p hp))

/-- A die that differs in listed plain parts alone has the property. -/
theorem Closed.lit (h : Closed P M) {d d' : Die} (i1 : d'.islands = d.islands) (hd : P d)
    (i2 : d'.regions = d.regions := by rfl) (i3 : d'.synths = d.synths := by rfl) (i4 : d'.ends = d.ends := by rfl)
    (i5 : d'.lanes = d.lanes := by rfl) (i6 : d'.links = d.links := by rfl) (i7 : d'.rails = d.rails := by rfl)
    (i8 : d'.sensors = d.sensors := by rfl) (i9 : d'.watches = d.watches := by rfl) (i10 : d'.contexts = d.contexts := by rfl)
    (i11 : d'.tenants = d.tenants := by rfl) (i12 : d'.queues = d.queues := by rfl) (i13 : d'.sram = d.sram := by rfl) (i14 : d'.hbm = d.hbm := by rfl)
    (r1 : d'.ledger.ring = d.ledger.ring := by rfl) (r2 : d'.ledger.index = d.ledger.index := by rfl) (r3 : d'.ledger.count = d.ledger.count := by rfl)
    (p1 : .tally ∈ M ∨ d'.tally = d.tally := by first | exact .inl (by decide) | exact .inr rfl)
    (p2 : .clocks ∈ M ∨ d'.clocks = d.clocks := by first | exact .inl (by decide) | exact .inr rfl)
    (p3 : .startup ∈ M ∨ d'.startup = d.startup := by first | exact .inl (by decide) | exact .inr rfl)
    (p4 : .stop ∈ M ∨ d'.stop = d.stop := by first | exact .inl (by decide) | exact .inr rfl)
    (p5 : .regs ∈ M ∨ d'.regs = d.regs := by first | exact .inl (by decide) | exact .inr rfl)
    (p6 : .ledger ∈ M ∨ d'.ledger = d.ledger := by first | exact .inl (by decide) | exact .inr rfl)
    (p7 : .chandler ∈ M ∨ d'.chandler = d.chandler := by first | exact .inl (by decide) | exact .inr rfl)
    (p8 : .store ∈ M ∨ d'.store = d.store := by first | exact .inl (by decide) | exact .inr rfl)
    (p9 : .limits ∈ M ∨ d'.limits = d.limits := by first | exact .inl (by decide) | exact .inr rfl)
    (p10 : .messages ∈ M ∨ d'.messages = d.messages := by first | exact .inl (by decide) | exact .inr rfl)
    (p11 : .delivered ∈ M ∨ d'.delivered = d.delivered := by first | exact .inl (by decide) | exact .inr rfl)
    (p12 : .commits ∈ M ∨ d'.commits = d.commits := by first | exact .inl (by decide) | exact .inr rfl)
    (p13 : .commitReqs ∈ M ∨ d'.commitReqs = d.commitReqs := by first | exact .inl (by decide) | exact .inr rfl)
    (p14 : .nextCommit ∈ M ∨ d'.nextCommit = d.nextCommit := by first | exact .inl (by decide) | exact .inr rfl)
    (p15 : .streams ∈ M ∨ d'.streams = d.streams := by first | exact .inl (by decide) | exact .inr rfl)
    (p16 : .dormant ∈ M ∨ d'.dormant = d.dormant := by first | exact .inl (by decide) | exact .inr rfl)
    (p17 : .fresh ∈ M ∨ d'.fresh = d.fresh := by first | exact .inl (by decide) | exact .inr rfl) : P d' := by
  refine h.lits d d' ?_ ?_ hd
  · intro p hp
    simp only [List.mem_cons, List.not_mem_nil, or_false] at hp
    rcases hp with rfl | rfl | rfl | rfl | rfl | rfl | rfl | rfl | rfl | rfl | rfl | rfl | rfl | rfl | rfl
    all_goals first | assumption | exact ⟨r1, r2, r3⟩
  · intro p hp
    cases p
    case tally => exact p1.resolve_left hp
    case clocks => exact p2.resolve_left hp
    case startup => exact p3.resolve_left hp
    case stop => exact p4.resolve_left hp
    case regs => exact p5.resolve_left hp
    case ledger => exact congrArg Ledger.frame (p6.resolve_left hp)
    case records => exact ⟨r1, r2, r3⟩
    case chandler => exact p7.resolve_left hp
    case store => exact p8.resolve_left hp
    case limits => exact p9.resolve_left hp
    case messages => exact p10.resolve_left hp
    case delivered => exact p11.resolve_left hp
    case commits => exact p12.resolve_left hp
    case commitReqs => exact p13.resolve_left hp
    case nextCommit => exact p14.resolve_left hp
    case streams => exact p15.resolve_left hp
    case dormant => exact p16.resolve_left hp
    case fresh => exact p17.resolve_left hp
    all_goals assumption

theorem modIsland_kept (h : Closed P M) (m : .islands ∈ M) (k f) (d : Die) (hd : P d) : P (modIsland k f d) := h.islands m k f d hd
theorem modRegion_kept (h : Closed P M) (m : .regions ∈ M) (k f) (d : Die) (hd : P d) : P (modRegion k f d) := h.regions m k f d hd
theorem modSynth_kept (h : Closed P M) (m : .synths ∈ M) (r x f) (d : Die) (hd : P d) : P (modSynth r x f d) := h.synths m r x f d hd
theorem modEnd_kept (h : Closed P M) (m : .ends ∈ M) (k f) (d : Die) (hd : P d) : P (modEnd k f d) := h.ends m k f d hd
theorem modLane_kept (h : Closed P M) (m : .lanes ∈ M) (k f) (d : Die) (hd : P d) : P (modLane k f d) := h.lanes m k f d hd
theorem modLink_kept (h : Closed P M) (m : .links ∈ M) (k f) (d : Die) (hd : P d) : P (modLink k f d) := h.links m k f d hd
theorem modRail_kept (h : Closed P M) (m : .rails ∈ M) (k f) (d : Die) (hd : P d) : P (modRail k f d) := h.rails m k f d hd
theorem modSensor_kept (h : Closed P M) (m : .sensors ∈ M) (k f) (d : Die) (hd : P d) : P (modSensor k f d) := h.sensors m k f d hd
theorem modWatch_kept (h : Closed P M) (m : .watches ∈ M) (k f) (d : Die) (hd : P d) : P (modWatch k f d) := h.watches m k f d hd
theorem modTenant_kept (h : Closed P M) (m : .tenants ∈ M) (k f) (d : Die) (hd : P d) : P (modTenant k f d) := h.tenants m k f d hd
theorem modQueue_kept (h : Closed P M) (m : .queues ∈ M) (k f) (d : Die) (hd : P d) : P (modQueue k f d) := h.queues m k f d hd

/-- A property that each turn keeps is kept by all of them. -/
theorem each_kept {α : Type} {l : List α} {f : α → Die → Die} {d : Die} (hf : ∀ a d, P d → P (f a d)) (hd : P d) : P (each l f d) := by
  unfold each
  induction l generalizing d with
  | nil => exact hd
  | cons a l ih => exact ih (hf a d hd)

theorem iff'_kept {c : Bool} {f : Die → Die} {d : Die} (hf : ∀ d, P d → P (f d)) (hd : P d) : P (iff' c f d) := by
  unfold iff'
  split
  · exact hf d hd
  · exact hd

theorem checked_kept {l : List (Bool × Nat × Nat)} {f : Die → Die × Reply} {d : Die} (hf : ∀ d, P d → P (f d).1) (hd : P d) : P (checked l f d).1 := by
  unfold checked
  split
  · exact hd
  · exact hf d hd

end Sys2Proof.Machine
end

