-- ==== Sys2Proof/Laws/KeptBase.lean ====
section
/-! SUPPORT. What each operation of Ops, Flags, Rails, Ceilings, Synths, Commits, Mailbox, Edges, Watches, Retire, Stops, Operands, TallyNet, Sideband leaves alone: a property that the writes of its parts keep is kept by the operation. -/

namespace Sys2Proof.Machine
open Sys2Proof
set_option Elab.async false
set_option linter.all false

theorem tallyTick_kept {P : Die → Prop} (hc : Closed P [.tally]) (d : Die) (hd : P d) : P (tallyTick d) := by
  unfold tallyTick
  try dsimp only
  with_reducible repeat' first
    | assumption
    | dsimp only
    | split
    | refine hc.lit (by dsimp only) ?_

theorem modRing_kept {P : Die → Prop} (hc : Closed P [.islands]) (i : Nat) (f : Ring → Ring) (d : Die) (hd : P d) : P (modRing i f d) := by
  have k0 := @modIsland_kept P _ hc (by decide)
  unfold modRing
  try dsimp only
  with_reducible repeat' first
    | assumption
    | apply k0
    | dsimp only
    | split
    | refine hc.lit (by dsimp only) ?_

theorem modMargin_kept {P : Die → Prop} (hc : Closed P [.islands]) (i : Nat) (f : Margin → Margin) (d : Die) (hd : P d) : P (modMargin i f d) := by
  have k0 := @modIsland_kept P _ hc (by decide)
  unfold modMargin
  try dsimp only
  with_reducible repeat' first
    | assumption
    | apply k0
    | dsimp only
    | split
    | refine hc.lit (by dsimp only) ?_

theorem modHolds_kept {P : Die → Prop} (hc : Closed P [.islands]) (i : Nat) (f : Holds → Holds) (d : Die) (hd : P d) : P (modHolds i f d) := by
  have k0 := @modIsland_kept P _ hc (by decide)
  unfold modHolds
  try dsimp only
  with_reducible repeat' first
    | assumption
    | apply k0
    | dsimp only
    | split
    | refine hc.lit (by dsimp only) ?_

theorem modContext_kept {P : Die → Prop} (hc : Closed P [.contexts]) (c : Nat) (f : Context → Context) (d : Die) (hd : P d) : P (modContext c f d) := by
  have k0 := hc.contexts (by decide)
  unfold modContext
  try dsimp only
  with_reducible repeat' first
    | assumption
    | apply k0
    | dsimp only
    | split

theorem drawFree_kept {P : Die → Prop} (hc : Closed P [.fresh]) (d : Die) (hd : P d) : P (drawFree d) := by
  unfold drawFree
  try dsimp only
  with_reducible repeat' first
    | assumption
    | dsimp only
    | split
    | refine hc.lit (by dsimp only) ?_

theorem emit_kept {P : Die → Prop} (hc : Closed P [.ledger]) (code : Nat) (l : Loc) (payload : Bytes) (d : Die) (hd : P d) : P (emit code l payload d) := by
  unfold emit
  try dsimp only
  with_reducible repeat' first
    | assumption
    | dsimp only
    | split
    | refine hc.lit (by dsimp only) ?_

theorem freezeSpans_kept {P : Die → Prop} (hc : Closed P [.ledger]) (d : Die) (hd : P d) : P (freezeSpans d) := by
  have k0 := @emit_kept P (hc.mono (by decide))
  unfold freezeSpans
  try dsimp only
  with_reducible repeat' first
    | assumption
    | (refine each_kept (fun _ _ _ => ?_) ?_)
    | apply k0
    | dsimp only
    | split

theorem ledgerFreeze_kept {P : Die → Prop} (hc : Closed P [.ledger]) (cause : Nat) (d : Die) (hd : P d) : P (ledgerFreeze cause d) := by
  have k0 := @freezeSpans_kept P (hc.mono (by decide))
  unfold ledgerFreeze
  try dsimp only
  with_reducible repeat' first
    | assumption
    | apply k0
    | dsimp only
    | split
    | refine hc.lit (by dsimp only) ?_

theorem listRetired_kept {P : Die → Prop} (hc : Closed P [.store]) (kind sub id : Nat) (d : Die) (hd : P d) : P (listRetired kind sub id d) := by
  unfold listRetired
  try dsimp only
  with_reducible repeat' first
    | assumption
    | dsimp only
    | split
    | refine hc.lit (by dsimp only) ?_

theorem emitRetire_kept {P : Die → Prop} (hc : Closed P [.ledger, .store]) (kind sub count : Nat) (l : Loc) (id : Nat) (d : Die) (hd : P d) : P (emitRetire kind sub count l id d) := by
  have k0 := @emit_kept P (hc.mono (by decide))
  have k1 := @listRetired_kept P (hc.mono (by decide))
  unfold emitRetire
  try dsimp only
  with_reducible repeat' first
    | assumption
    | apply k0
    | apply k1
    | dsimp only
    | split

theorem fabricInt_kept {P : Die → Prop} (hc : Closed P [.regs]) (b : Nat) (d : Die) (hd : P d) : P (fabricInt b d) := by
  unfold fabricInt
  try dsimp only
  with_reducible repeat' first
    | assumption
    | dsimp only
    | split
    | refine hc.lit (by dsimp only) ?_

theorem queueInt_kept {P : Die → Prop} (hc : Closed P [.queues]) (q b : Nat) (d : Die) (hd : P d) : P (queueInt q b d) := by
  have k0 := @modQueue_kept P _ hc (by decide)
  unfold queueInt
  try dsimp only
  with_reducible repeat' first
    | assumption
    | apply k0
    | dsimp only
    | split
    | refine hc.lit (by dsimp only) ?_

theorem modRef_kept {P : Die → Prop} (hc : Closed P [.clocks]) (n : Nat) (f : Ref → Ref) (d : Die) (hd : P d) : P (modRef n f d) := by
  unfold modRef
  try dsimp only
  with_reducible repeat' first
    | assumption
    | dsimp only
    | split
    | refine hc.lit (by dsimp only) ?_

theorem modRoot_kept {P : Die → Prop} (hc : Closed P [.clocks]) (n : Nat) (f : Root → Root) (d : Die) (hd : P d) : P (modRoot n f d) := by
  unfold modRoot
  try dsimp only
  with_reducible repeat' first
    | assumption
    | dsimp only
    | split
    | refine hc.lit (by dsimp only) ?_

theorem freeze_kept {P : Die → Prop} (hc : Closed P [.regs, .ledger, .contexts]) (cause : Nat) (d : Die) (hd : P d) : P (freeze cause d) := by
  have k0 := @fabricInt_kept P (hc.mono (by decide))
  have k1 := @ledgerFreeze_kept P (hc.mono (by decide))
  have k2 := @modContext_kept P (hc.mono (by decide))
  unfold freeze
  try dsimp only
  with_reducible repeat' first
    | assumption
    | (refine each_kept (fun _ _ _ => ?_) ?_)
    | apply k0
    | apply k1
    | apply k2
    | dsimp only
    | split
    | refine hc.lit (by dsimp only) ?_

theorem avsStart_kept {P : Die → Prop} (hc : Closed P [.rails]) (k : Nat) (d : Die) (hd : P d) : P (avsStart k d) := by
  have k0 := @modRail_kept P _ hc (by decide)
  unfold avsStart
  try dsimp only
  with_reducible repeat' first
    | assumption
    | apply k0
    | dsimp only
    | split
    | refine hc.lit (by dsimp only) ?_

theorem avsPush_kept {P : Die → Prop} (hc : Closed P [.rails]) (k : Nat) (op : AvsOp) (d : Die) (hd : P d) : P (avsPush k op d) := by
  have k0 := @avsStart_kept P (hc.mono (by decide))
  have k1 := @modRail_kept P _ hc (by decide)
  unfold avsPush
  try dsimp only
  with_reducible repeat' first
    | assumption
    | apply k0
    | apply k1
    | dsimp only
    | split
    | refine hc.lit (by dsimp only) ?_

theorem writeTarget_kept {P : Die → Prop} (hc : Closed P [.rails]) (k mv : Nat) (ret : Bool) (d : Die) (hd : P d) : P (writeTarget k mv ret d) := by
  have k0 := @avsPush_kept P (hc.mono (by decide))
  have k1 := @modRail_kept P _ hc (by decide)
  unfold writeTarget
  try dsimp only
  with_reducible repeat' first
    | assumption
    | apply k0
    | apply k1
    | dsimp only
    | split
    | refine hc.lit (by dsimp only) ?_

theorem retarget_kept {P : Die → Prop} (hc : Closed P [.rails]) (k : Nat) (d : Die) (hd : P d) : P (retarget k d) := by
  have k0 := @writeTarget_kept P (hc.mono (by decide))
  unfold retarget
  try dsimp only
  with_reducible repeat' first
    | assumption
    | apply k0
    | dsimp only
    | split

theorem writeRetention_kept {P : Die → Prop} (hc : Closed P [.rails]) (k : Nat) (d : Die) (hd : P d) : P (writeRetention k d) := by
  have k0 := @avsPush_kept P (hc.mono (by decide))
  have k1 := @modRail_kept P _ hc (by decide)
  unfold writeRetention
  try dsimp only
  with_reducible repeat' first
    | assumption
    | apply k0
    | apply k1
    | dsimp only
    | split
    | refine hc.lit (by dsimp only) ?_

theorem railOn_kept {P : Die → Prop} (hc : Closed P [.rails]) (k : Nat) (d : Die) (hd : P d) : P (railOn k d) := by
  have k0 := @avsPush_kept P (hc.mono (by decide))
  have k1 := @modRail_kept P _ hc (by decide)
  unfold railOn
  try dsimp only
  with_reducible repeat' first
    | assumption
    | apply k0
    | apply k1
    | dsimp only
    | split
    | refine hc.lit (by dsimp only) ?_

theorem railOff_kept {P : Die → Prop} (hc : Closed P [.rails]) (k : Nat) (d : Die) (hd : P d) : P (railOff k d) := by
  have k0 := @modRail_kept P _ hc (by decide)
  unfold railOff
  try dsimp only
  with_reducible repeat' first
    | assumption
    | apply k0
    | dsimp only
    | split
    | refine hc.lit (by dsimp only) ?_

theorem allRetention_kept {P : Die → Prop} (hc : Closed P [.rails]) (d : Die) (hd : P d) : P (allRetention d) := by
  have k0 := @writeRetention_kept P (hc.mono (by decide))
  unfold allRetention
  try dsimp only
  with_reducible repeat' first
    | assumption
    | (refine each_kept (fun _ _ _ => ?_) ?_)
    | apply k0
    | dsimp only
    | split

theorem attribTo_kept {P : Die → Prop} (hc : Closed P [.ledger]) (code r named share : Nat) (isl : Nat) (d : Die) (hd : P d) : P (attribTo code r named share isl d) := by
  have k0 := @emit_kept P (hc.mono (by decide))
  unfold attribTo
  try dsimp only
  with_reducible repeat' first
    | assumption
    | apply k0
    | dsimp only
    | split

theorem attribThrottle_kept {P : Die → Prop} (hc : Closed P [.ledger]) (r reason : Nat) (d : Die) (hd : P d) : P (attribThrottle r reason d) := by
  have k0 := @attribTo_kept P (hc.mono (by decide))
  unfold attribThrottle
  try dsimp only
  with_reducible repeat' first
    | assumption
    | apply k0
    | dsimp only
    | split

theorem throttleUpdate_kept {P : Die → Prop} (hc : Closed P [.ledger, .regions]) (r : Nat) (d : Die) (hd : P d) : P (throttleUpdate r d) := by
  have k0 := @attribThrottle_kept P (hc.mono (by decide))
  have k1 := @emit_kept P (hc.mono (by decide))
  have k2 := @modRegion_kept P _ hc (by decide)
  unfold throttleUpdate
  try dsimp only
  with_reducible repeat' first
    | assumption
    | apply k0
    | apply k1
    | apply k2
    | dsimp only
    | split
    | refine hc.lit (by dsimp only) ?_

theorem throttleAll_kept {P : Die → Prop} (hc : Closed P [.ledger, .regions]) (d : Die) (hd : P d) : P (throttleAll d) := by
  have k0 := @throttleUpdate_kept P (hc.mono (by decide))
  unfold throttleAll
  try dsimp only
  with_reducible repeat' first
    | assumption
    | (refine each_kept (fun _ _ _ => ?_) ?_)
    | apply k0
    | dsimp only
    | split

theorem dropRequest_kept {P : Die → Prop} (hc : Closed P [.commitReqs]) (src : CommitSource) (r : Nat) (d : Die) (hd : P d) : P (dropRequest src r d) := by
  unfold dropRequest
  try dsimp only
  with_reducible repeat' first
    | assumption
    | dsimp only
    | split
    | refine hc.lit (by dsimp only) ?_

theorem joinRequest_kept {P : Die → Prop} (hc : Closed P [.commitReqs]) (src : CommitSource) (target ctx r : Nat) (d : Die) (hd : P d) : P (joinRequest src target ctx r d) := by
  have k0 := @dropRequest_kept P (hc.mono (by decide))
  unfold joinRequest
  try dsimp only
  with_reducible repeat' first
    | assumption
    | apply k0
    | dsimp only
    | split
    | refine hc.lit (by dsimp only) ?_

theorem regrant_kept {P : Die → Prop} (hc : Closed P [.commitReqs]) (r : Nat) (d : Die) (hd : P d) : P (regrant r d) := by
  have k0 := @joinRequest_kept P (hc.mono (by decide))
  unfold regrant
  try dsimp only
  with_reducible repeat' first
    | assumption
    | apply k0
    | dsimp only
    | split

theorem restore_kept {P : Die → Prop} (hc : Closed P [.regions, .commitReqs]) (r : Nat) (d : Die) (hd : P d) : P (restore r d) := by
  have k0 := @joinRequest_kept P (hc.mono (by decide))
  have k1 := @modRegion_kept P _ hc (by decide)
  unfold restore
  try dsimp only
  with_reducible repeat' first
    | assumption
    | apply k0
    | apply k1
    | dsimp only
    | split
    | refine hc.lit (by dsimp only) ?_

theorem ceilingChanged_kept {P : Die → Prop} (hc : Closed P [.ledger, .regions, .commitReqs]) (before r : Nat) (d : Die) (hd : P d) : P (ceilingChanged before r d) := by
  have k0 := @modRegion_kept P _ hc (by decide)
  have k1 := @regrant_kept P (hc.mono (by decide))
  have k2 := @restore_kept P (hc.mono (by decide))
  have k3 := @throttleUpdate_kept P (hc.mono (by decide))
  unfold ceilingChanged
  try dsimp only
  with_reducible repeat' first
    | assumption
    | apply k0
    | apply k1
    | apply k2
    | apply k3
    | dsimp only
    | split
    | refine hc.lit (by dsimp only) ?_

theorem changeCeilings_kept {P : Die → Prop} (hc : Closed P [.ledger, .regions, .commitReqs]) (r : Nat) (f : Region → Region) (d : Die) (hd : P d) : P (changeCeilings r f d) := by
  have k0 := @ceilingChanged_kept P (hc.mono (by decide))
  have k1 := @modRegion_kept P _ hc (by decide)
  unfold changeCeilings
  try dsimp only
  with_reducible repeat' first
    | assumption
    | apply k0
    | apply k1
    | dsimp only
    | split

theorem setCeiling_kept {P : Die → Prop} (hc : Closed P [.ledger, .regions, .commitReqs]) (j r : Nat) (v : Option Nat) (d : Die) (hd : P d) : P (setCeiling j r v d) := by
  have k0 := @changeCeilings_kept P (hc.mono (by decide))
  unfold setCeiling
  try dsimp only
  with_reducible repeat' first
    | assumption
    | apply k0
    | dsimp only
    | split
    | refine hc.lit (by dsimp only) ?_

theorem fastStep_kept {P : Die → Prop} (hc : Closed P [.ledger, .regions]) (r : Nat) (d : Die) (hd : P d) : P (fastStep r d) := by
  have k0 := @emit_kept P (hc.mono (by decide))
  have k1 := @modRegion_kept P _ hc (by decide)
  unfold fastStep
  try dsimp only
  with_reducible repeat' first
    | assumption
    | apply k0
    | apply k1
    | dsimp only
    | split
    | refine hc.lit (by dsimp only) ?_

theorem writeSynth_kept {P : Die → Prop} (hc : Closed P [.synths]) (r sy : Nat) (s : Setting) (use : SynthUse) (must : Bool) (d : Die) (hd : P d) : P (writeSynth r sy s use must d) := by
  have k0 := @modSynth_kept P _ hc (by decide)
  unfold writeSynth
  try dsimp only
  with_reducible repeat' first
    | assumption
    | apply k0
    | dsimp only
    | split
    | refine hc.lit (by dsimp only) ?_

theorem powerSynth_kept {P : Die → Prop} (hc : Closed P [.synths]) (r sy : Nat) (d : Die) (hd : P d) : P (powerSynth r sy d) := by
  have k0 := @modSynth_kept P _ hc (by decide)
  unfold powerSynth
  try dsimp only
  with_reducible repeat' first
    | assumption
    | apply k0
    | dsimp only
    | split
    | refine hc.lit (by dsimp only) ?_

theorem retuneStandby_kept {P : Die → Prop} (hc : Closed P [.synths]) (r : Nat) (d : Die) (hd : P d) : P (retuneStandby r d) := by
  have k0 := @writeSynth_kept P (hc.mono (by decide))
  unfold retuneStandby
  try dsimp only
  with_reducible repeat' first
    | assumption
    | apply k0
    | dsimp only
    | split

theorem lendTo_kept {P : Die → Prop} (hc : Closed P [.ledger, .regions]) (r q cause : Nat) (d : Die) (hd : P d) : P (lendTo r q cause d) := by
  have k0 := @emit_kept P (hc.mono (by decide))
  have k1 := @modRegion_kept P _ hc (by decide)
  unfold lendTo
  try dsimp only
  with_reducible repeat' first
    | assumption
    | apply k0
    | apply k1
    | dsimp only
    | split
    | refine hc.lit (by dsimp only) ?_

theorem droverReturn_kept {P : Die → Prop} (hc : Closed P [.ledger, .regions]) (r : Nat) (d : Die) (hd : P d) : P (droverReturn r d) := by
  have k0 := @emit_kept P (hc.mono (by decide))
  have k1 := @modRegion_kept P _ hc (by decide)
  unfold droverReturn
  try dsimp only
  with_reducible repeat' first
    | assumption
    | apply k0
    | apply k1
    | dsimp only
    | split
    | refine hc.lit (by dsimp only) ?_

theorem droverStop_kept {P : Die → Prop} (hc : Closed P [.regions]) (r : Nat) (d : Die) (hd : P d) : P (droverStop r d) := by
  have k0 := @modRegion_kept P _ hc (by decide)
  unfold droverStop
  try dsimp only
  with_reducible repeat' first
    | assumption
    | apply k0
    | dsimp only
    | split
    | refine hc.lit (by dsimp only) ?_

theorem moveBorrower_kept {P : Die → Prop} (hc : Closed P [.ledger, .regions]) (r : Nat) (d : Die) (hd : P d) : P (moveBorrower r d) := by
  have k0 := @droverReturn_kept P (hc.mono (by decide))
  have k1 := @droverStop_kept P (hc.mono (by decide))
  have k2 := @lendTo_kept P (hc.mono (by decide))
  unfold moveBorrower
  try dsimp only
  with_reducible repeat' first
    | assumption
    | apply k0
    | apply k1
    | apply k2
    | dsimp only
    | split
    | refine hc.lit (by dsimp only) ?_

theorem droverLend_kept {P : Die → Prop} (hc : Closed P [.ledger, .regions]) {r cause : Nat} {d d' : Die} (hd : P d) (he : droverLend r cause d = some d') : P d' := by
  unfold droverLend at he
  split at he
  · cases he
    exact moveBorrower_kept (hc.mono (by decide)) _ _ hd
  · split at he
    · cases he
      exact lendTo_kept (hc.mono (by decide)) _ _ _ _ (moveBorrower_kept (hc.mono (by decide)) _ _ hd)
    · cases he

theorem modCommit_kept {P : Die → Prop} (hc : Closed P [.commits]) (id : Nat) (f : Commit → Commit) (d : Die) (hd : P d) : P (modCommit id f d) := by
  unfold modCommit
  try dsimp only
  with_reducible repeat' first
    | assumption
    | dsimp only
    | split
    | refine hc.lit (by dsimp only) ?_

theorem retuneMember_kept {P : Die → Prop} (hc : Closed P [.synths, .commits]) (id g r : Nat) (d : Die) (hd : P d) : P (retuneMember id g r d) := by
  have k0 := @modCommit_kept P (hc.mono (by decide))
  have k1 := @writeSynth_kept P (hc.mono (by decide))
  unfold retuneMember
  try dsimp only
  with_reducible repeat' first
    | assumption
    | apply k0
    | apply k1
    | dsimp only
    | split
    | refine hc.lit (by dsimp only) ?_

theorem acceptCommit_kept {P : Die → Prop} (hc : Closed P [.ledger, .regions, .synths, .commits, .nextCommit]) (src : CommitSource) (target : Nat) (members : RegionSet) (count ctx aborts : Nat) (key : Option (Nat × Nat)) (d : Die) (hd : P d) : P (acceptCommit src target members count ctx aborts key d) := by
  have k0 := @emit_kept P (hc.mono (by decide))
  have k1 := @modRegion_kept P _ hc (by decide)
  have k2 := @retuneMember_kept P (hc.mono (by decide))
  have k3 := @throttleUpdate_kept P (hc.mono (by decide))
  unfold acceptCommit
  try dsimp only
  with_reducible repeat' first
    | assumption
    | (refine each_kept (fun _ _ _ => ?_) ?_)
    | apply k0
    | apply k1
    | apply k2
    | apply k3
    | dsimp only
    | split
    | refine hc.lit (by dsimp only) ?_

theorem clearTarget_kept {P : Die → Prop} (hc : Closed P [.ledger, .regions]) (r : Nat) (d : Die) (hd : P d) : P (clearTarget r d) := by
  have k0 := @modRegion_kept P _ hc (by decide)
  have k1 := @throttleUpdate_kept P (hc.mono (by decide))
  unfold clearTarget
  try dsimp only
  with_reducible repeat' first
    | assumption
    | apply k0
    | apply k1
    | dsimp only
    | split
    | refine hc.lit (by dsimp only) ?_

theorem patternDropped_kept {P : Die → Prop} (hc : Closed P [.ledger, .regions]) (r reason : Nat) (d : Die) (hd : P d) : P (patternDropped r reason d) := by
  have k0 := @clearTarget_kept P (hc.mono (by decide))
  have k1 := @emit_kept P (hc.mono (by decide))
  unfold patternDropped
  try dsimp only
  with_reducible repeat' first
    | assumption
    | apply k0
    | apply k1
    | dsimp only
    | split

theorem patternAborted_kept {P : Die → Prop} (hc : Closed P [.ledger, .regions, .commitReqs]) (c : Commit) (reason rgn : Nat) (d : Die) (hd : P d) : P (patternAborted c reason rgn d) := by
  have k0 := @clearTarget_kept P (hc.mono (by decide))
  have k1 := @patternDropped_kept P (hc.mono (by decide))
  have k2 := @regrant_kept P (hc.mono (by decide))
  unfold patternAborted
  try dsimp only
  with_reducible repeat' first
    | assumption
    | apply k0
    | (refine each_kept (fun _ _ _ => ?_) ?_)
    | apply k1
    | apply k2
    | dsimp only
    | split
    | refine hc.lit (by dsimp only) ?_

theorem afterAbort_kept {P : Die → Prop} (hc : Closed P [.ledger, .regions, .commitReqs]) (c : Commit) (reason rgn : Nat) (d : Die) (hd : P d) : P (afterAbort c reason rgn d) := by
  have k0 := @modRegion_kept P _ hc (by decide)
  have k1 := @patternAborted_kept P (hc.mono (by decide))
  have k2 := @regrant_kept P (hc.mono (by decide))
  unfold afterAbort
  try dsimp only
  with_reducible repeat' first
    | assumption
    | (refine each_kept (fun _ _ _ => ?_) ?_)
    | apply k0
    | apply k1
    | apply k2
    | dsimp only
    | split
    | refine hc.lit (by dsimp only) ?_

theorem abortCommit_kept {P : Die → Prop} (hc : Closed P [.ledger, .regions, .synths, .commits, .commitReqs]) (id reason rgn fault : Nat) (d : Die) (hd : P d) : P (abortCommit id reason rgn fault d) := by
  have k0 := @afterAbort_kept P (hc.mono (by decide))
  have k1 := @emit_kept P (hc.mono (by decide))
  have k2 := @modCommit_kept P (hc.mono (by decide))
  have k3 := @retuneStandby_kept P (hc.mono (by decide))
  have k4 := @writeSynth_kept P (hc.mono (by decide))
  unfold abortCommit
  try dsimp only
  with_reducible repeat' first
    | assumption
    | apply k0
    | (refine each_kept (fun _ _ _ => ?_) ?_)
    | apply k1
    | apply k2
    | apply k3
    | apply k4
    | dsimp only
    | split
    | refine hc.lit (by dsimp only) ?_

theorem abortWhere_kept {P : Die → Prop} (hc : Closed P [.ledger, .regions, .synths, .commits, .commitReqs]) (p : Commit → Nat → Bool) (reason fault : Nat) (d : Die) (hd : P d) : P (abortWhere p reason fault d) := by
  have k0 := @abortCommit_kept P (hc.mono (by decide))
  unfold abortWhere
  try dsimp only
  with_reducible repeat' first
    | assumption
    | apply k0
    | (refine each_kept (fun _ _ _ => ?_) ?_)
    | dsimp only
    | split

theorem abortRegion_kept {P : Die → Prop} (hc : Closed P [.ledger, .regions, .synths, .commits, .commitReqs]) (r reason fault : Nat) (d : Die) (hd : P d) : P (abortRegion r reason fault d) := by
  have k0 := @abortWhere_kept P (hc.mono (by decide))
  unfold abortRegion
  try dsimp only
  with_reducible repeat' first
    | assumption
    | apply k0
    | dsimp only
    | split

theorem memberDone_kept {P : Die → Prop} (hc : Closed P [.regions, .commitReqs]) (r : Nat) (d : Die) (hd : P d) : P (memberDone r d) := by
  have k0 := @modRegion_kept P _ hc (by decide)
  have k1 := @regrant_kept P (hc.mono (by decide))
  unfold memberDone
  try dsimp only
  with_reducible repeat' first
    | assumption
    | apply k0
    | apply k1
    | dsimp only
    | split
    | refine hc.lit (by dsimp only) ?_

theorem commitDone_kept {P : Die → Prop} (hc : Closed P [.ledger, .regions, .commits, .commitReqs]) (id : Nat) (d : Die) (hd : P d) : P (commitDone id d) := by
  have k0 := @emit_kept P (hc.mono (by decide))
  have k1 := @memberDone_kept P (hc.mono (by decide))
  have k2 := @modCommit_kept P (hc.mono (by decide))
  unfold commitDone
  try dsimp only
  with_reducible repeat' first
    | assumption
    | (refine each_kept (fun _ _ _ => ?_) ?_)
    | apply k0
    | apply k1
    | apply k2
    | dsimp only
    | split
    | refine hc.lit (by dsimp only) ?_

theorem streamWrite_kept {P : Die → Prop} (hc : Closed P [.streams]) (address : Nat) (data : Bytes) (d : Die) (hd : P d) : P (streamWrite address data d) := by
  unfold streamWrite
  try dsimp only
  with_reducible repeat' first
    | assumption
    | dsimp only
    | split
    | refine hc.lit (by dsimp only) ?_

theorem countRefusal_kept {P : Die → Prop} (hc : Closed P [.ledger, .queues]) (q opcode : Nat) (d : Die) (hd : P d) : P (countRefusal q opcode d) := by
  have k0 := @emit_kept P (hc.mono (by decide))
  have k1 := @modQueue_kept P _ hc (by decide)
  unfold countRefusal
  try dsimp only
  with_reducible repeat' first
    | assumption
    | apply k0
    | apply k1
    | dsimp only
    | split
    | refine hc.lit (by dsimp only) ?_

theorem postCompletion_kept {P : Die → Prop} (hc : Closed P [.ledger, .queues, .sram]) (q : Nat) (desc : Bytes) (slot status flags result detail : Nat) (d : Die) (hd : P d) : P (postCompletion q desc slot status flags result detail d) := by
  have k0 := @countRefusal_kept P (hc.mono (by decide))
  have k1 := @emit_kept P (hc.mono (by decide))
  have k2 := @modQueue_kept P _ hc (by decide)
  have k3 := @queueInt_kept P (hc.mono (by decide))
  have k4 := hc.sram (by decide)
  unfold postCompletion
  try dsimp only
  with_reducible repeat' first
    | assumption
    | apply k0
    | apply k1
    | apply k2
    | apply k3
    | apply k4
    | dsimp only
    | split
    | refine hc.lit (by dsimp only) ?_

theorem queueReset_kept {P : Die → Prop} (hc : Closed P [.ledger, .queues, .sram]) (q cause : Nat) (d : Die) (hd : P d) : P (queueReset q cause d) := by
  have k0 := @emit_kept P (hc.mono (by decide))
  have k1 := @modQueue_kept P _ hc (by decide)
  have k2 := hc.sram (by decide)
  unfold queueReset
  try dsimp only
  with_reducible repeat' first
    | assumption
    | apply k0
    | apply k1
    | apply k2
    | dsimp only
    | split
    | refine hc.lit (by dsimp only) ?_

theorem finish_kept {P : Die → Prop} (hc : Closed P [.ledger, .queues, .sram]) (q : Nat) (reply : Reply) (d : Die) (hd : P d) : P (finish q reply d) := by
  have k0 := @modQueue_kept P _ hc (by decide)
  have k1 := @postCompletion_kept P (hc.mono (by decide))
  have k2 := @queueReset_kept P (hc.mono (by decide))
  have k3 := hc.sram (by decide)
  unfold finish
  try dsimp only
  with_reducible repeat' first
    | assumption
    | apply k0
    | apply k1
    | apply k2
    | apply k3
    | dsimp only
    | split
    | refine hc.lit (by dsimp only) ?_

theorem command_kept {P : Die → Prop} (hc : Closed P [.ledger, .queues, .sram]) {q op : Nat} {body : Exec → Bytes → Die → Die × Reply} {d : Die} (hb : ∀ e p d, P d → P (body e p d).1) (hd : P d) :
    P (command q op body d) := by
  unfold command
  split
  · split
    · exact finish_kept hc _ _ _ (hb _ _ _ hd)
    · exact hd
  · exact hd

theorem coupleRecord_kept {P : Die → Prop} (hc : Closed P [.ledger]) (k op src : Nat) (d : Die) (hd : P d) : P (coupleRecord k op src d) := by
  have k0 := @emit_kept P (hc.mono (by decide))
  unfold coupleRecord
  try dsimp only
  with_reducible repeat' first
    | assumption
    | apply k0
    | dsimp only
    | split

theorem coupleEnd_kept {P : Die → Prop} (hc : Closed P [.ledger, .ends]) (src k : Nat) (d : Die) (hd : P d) : P (coupleEnd src k d) := by
  have k0 := @coupleRecord_kept P (hc.mono (by decide))
  have k1 := @modEnd_kept P _ hc (by decide)
  unfold coupleEnd
  try dsimp only
  with_reducible repeat' first
    | assumption
    | apply k0
    | apply k1
    | dsimp only
    | split
    | refine hc.lit (by dsimp only) ?_

theorem uncoupleEnd_kept {P : Die → Prop} (hc : Closed P [.ledger, .ends]) (src k : Nat) (d : Die) (hd : P d) : P (uncoupleEnd src k d) := by
  have k0 := @coupleRecord_kept P (hc.mono (by decide))
  have k1 := @modEnd_kept P _ hc (by decide)
  unfold uncoupleEnd
  try dsimp only
  with_reducible repeat' first
    | assumption
    | apply k0
    | apply k1
    | dsimp only
    | split
    | refine hc.lit (by dsimp only) ?_

theorem coupleRefused_kept {P : Die → Prop} (hc : Closed P [.ledger]) (i e reason src : Nat) (d : Die) (hd : P d) : P (coupleRefused i e reason src d) := by
  have k0 := @emit_kept P (hc.mono (by decide))
  unfold coupleRefused
  try dsimp only
  with_reducible repeat' first
    | assumption
    | apply k0
    | dsimp only
    | split

theorem refreshEnd_kept {P : Die → Prop} (hc : Closed P [.ends]) (k : Nat) (d : Die) (hd : P d) : P (refreshEnd k d) := by
  have k0 := @modEnd_kept P _ hc (by decide)
  unfold refreshEnd
  try dsimp only
  with_reducible repeat' first
    | assumption
    | apply k0
    | dsimp only
    | split
    | refine hc.lit (by dsimp only) ?_

theorem refreshIsland_kept {P : Die → Prop} (hc : Closed P [.ends]) (i : Nat) (d : Die) (hd : P d) : P (refreshIsland i d) := by
  have k0 := @refreshEnd_kept P (hc.mono (by decide))
  unfold refreshIsland
  try dsimp only
  with_reducible repeat' first
    | assumption
    | (refine each_kept (fun _ _ _ => ?_) ?_)
    | apply k0
    | dsimp only
    | split

theorem uncoupleRegion_kept {P : Die → Prop} (hc : Closed P [.ends]) (r : Nat) (d : Die) (hd : P d) : P (uncoupleRegion r d) := by
  have k0 := @modEnd_kept P _ hc (by decide)
  unfold uncoupleRegion
  try dsimp only
  with_reducible repeat' first
    | assumption
    | (refine each_kept (fun _ _ _ => ?_) ?_)
    | apply k0
    | dsimp only
    | split
    | refine hc.lit (by dsimp only) ?_

theorem clearLinkLanes_kept {P : Die → Prop} (hc : Closed P [.lanes]) (l : Nat) (d : Die) (hd : P d) : P (clearLinkLanes l d) := by
  have k0 := @modLane_kept P _ hc (by decide)
  unfold clearLinkLanes
  try dsimp only
  with_reducible repeat' first
    | assumption
    | (refine each_kept (fun _ _ _ => ?_) ?_)
    | apply k0
    | dsimp only
    | split

theorem coupleLink_kept {P : Die → Prop} (hc : Closed P [.lanes, .links]) (l tag : Nat) (d : Die) (hd : P d) : P (coupleLink l tag d) := by
  have k0 := @clearLinkLanes_kept P (hc.mono (by decide))
  have k1 := @modLink_kept P _ hc (by decide)
  unfold coupleLink
  try dsimp only
  with_reducible repeat' first
    | assumption
    | apply k0
    | apply k1
    | dsimp only
    | split
    | refine hc.lit (by dsimp only) ?_

theorem uncoupleLink_kept {P : Die → Prop} (hc : Closed P [.lanes, .links]) (l : Nat) (d : Die) (hd : P d) : P (uncoupleLink l d) := by
  have k0 := @clearLinkLanes_kept P (hc.mono (by decide))
  have k1 := @modLink_kept P _ hc (by decide)
  unfold uncoupleLink
  try dsimp only
  with_reducible repeat' first
    | assumption
    | apply k0
    | apply k1
    | dsimp only
    | split
    | refine hc.lit (by dsimp only) ?_

theorem postMessage_kept {P : Die → Prop} (hc : Closed P [.messages]) (m : WatchMsg) (d : Die) (hd : P d) : P (postMessage m d) := by
  unfold postMessage
  try dsimp only
  with_reducible repeat' first
    | assumption
    | dsimp only
    | split
    | refine hc.lit (by dsimp only) ?_

theorem cancelWatch_kept {P : Die → Prop} (hc : Closed P [.watches, .messages]) (w : Nat) (d : Die) (hd : P d) : P (cancelWatch w d) := by
  have k0 := @modWatch_kept P _ hc (by decide)
  have k1 := @postMessage_kept P (hc.mono (by decide))
  unfold cancelWatch
  try dsimp only
  with_reducible repeat' first
    | assumption
    | apply k0
    | apply k1
    | dsimp only
    | split

theorem cancelRegionWatches_kept {P : Die → Prop} (hc : Closed P [.watches, .messages]) (r : Nat) (d : Die) (hd : P d) : P (cancelRegionWatches r d) := by
  have k0 := @cancelWatch_kept P (hc.mono (by decide))
  unfold cancelRegionWatches
  try dsimp only
  with_reducible repeat' first
    | assumption
    | apply k0
    | (refine each_kept (fun _ _ _ => ?_) ?_)
    | dsimp only
    | split

theorem closeGate_kept {P : Die → Prop} (hc : Closed P [.islands]) (i : Nat) (d : Die) (hd : P d) : P (closeGate i d) := by
  have k0 := @modRing_kept P (hc.mono (by decide))
  unfold closeGate
  try dsimp only
  with_reducible repeat' first
    | assumption
    | apply k0
    | dsimp only
    | split
    | refine hc.lit (by dsimp only) ?_

theorem stopBellows_kept {P : Die → Prop} (hc : Closed P [.islands]) (i : Nat) (d : Die) (hd : P d) : P (stopBellows i d) := by
  have k0 := @modRing_kept P (hc.mono (by decide))
  unfold stopBellows
  try dsimp only
  with_reducible repeat' first
    | assumption
    | apply k0
    | dsimp only
    | split
    | refine hc.lit (by dsimp only) ?_

theorem yokeEnter_kept {P : Die → Prop} (hc : Closed P [.ledger, .islands]) (i cause : Nat) (d : Die) (hd : P d) : P (yokeEnter i cause d) := by
  have k0 := @emit_kept P (hc.mono (by decide))
  have k1 := @modRing_kept P (hc.mono (by decide))
  unfold yokeEnter
  try dsimp only
  with_reducible repeat' first
    | assumption
    | apply k0
    | apply k1
    | dsimp only
    | split
    | refine hc.lit (by dsimp only) ?_

theorem bellowsRetire_kept {P : Die → Prop} (hc : Closed P [.ledger, .store, .islands]) (i cause count : Nat) (d : Die) (hd : P d) : P (bellowsRetire i cause count d) := by
  have k0 := @emitRetire_kept P (hc.mono (by decide))
  have k1 := @modRing_kept P (hc.mono (by decide))
  have k2 := @yokeEnter_kept P (hc.mono (by decide))
  unfold bellowsRetire
  try dsimp only
  with_reducible repeat' first
    | assumption
    | apply k0
    | apply k1
    | apply k2
    | dsimp only
    | split
    | refine hc.lit (by dsimp only) ?_

theorem startBellows_kept {P : Die → Prop} (hc : Closed P [.islands]) (i : Nat) (d : Die) (hd : P d) : P (startBellows i d) := by
  have k0 := @modRing_kept P (hc.mono (by decide))
  unfold startBellows
  try dsimp only
  with_reducible repeat' first
    | assumption
    | apply k0
    | dsimp only
    | split
    | refine hc.lit (by dsimp only) ?_

theorem acquire_kept {P : Die → Prop} (hc : Closed P [.islands]) (i : Nat) (ctx : AcqContext) (d : Die) (hd : P d) : P (acquire i ctx d) := by
  have k0 := @modRing_kept P (hc.mono (by decide))
  unfold acquire
  try dsimp only
  with_reducible repeat' first
    | assumption
    | apply k0
    | dsimp only
    | split
    | refine hc.lit (by dsimp only) ?_

theorem regionClockLost_kept {P : Die → Prop} (hc : Closed P [.islands]) (r : Nat) (d : Die) (hd : P d) : P (regionClockLost r d) := by
  have k0 := @modRing_kept P (hc.mono (by decide))
  unfold regionClockLost
  try dsimp only
  with_reducible repeat' first
    | assumption
    | (refine each_kept (fun _ _ _ => ?_) ?_)
    | apply k0
    | dsimp only
    | split
    | refine hc.lit (by dsimp only) ?_

theorem regionClockBack_kept {P : Die → Prop} (hc : Closed P [.islands]) (r : Nat) (d : Die) (hd : P d) : P (regionClockBack r d) := by
  have k0 := @modRing_kept P (hc.mono (by decide))
  unfold regionClockBack
  try dsimp only
  with_reducible repeat' first
    | assumption
    | (refine each_kept (fun _ _ _ => ?_) ?_)
    | apply k0
    | dsimp only
    | split
    | refine hc.lit (by dsimp only) ?_

theorem selectSynth_kept {P : Die → Prop} (hc : Closed P [.ledger, .islands, .regions]) (r sy : Nat) (d : Die) (hd : P d) : P (selectSynth r sy d) := by
  have k0 := @droverReturn_kept P (hc.mono (by decide))
  have k1 := @modRegion_kept P _ hc (by decide)
  have k2 := @regionClockBack_kept P (hc.mono (by decide))
  unfold selectSynth
  try dsimp only
  with_reducible repeat' first
    | assumption
    | apply k0
    | apply k1
    | apply k2
    | dsimp only
    | split
    | refine hc.lit (by dsimp only) ?_

theorem deselect_kept {P : Die → Prop} (hc : Closed P [.islands, .regions]) (r : Nat) (d : Die) (hd : P d) : P (deselect r d) := by
  have k0 := @modRegion_kept P _ hc (by decide)
  have k1 := @regionClockLost_kept P (hc.mono (by decide))
  unfold deselect
  try dsimp only
  with_reducible repeat' first
    | assumption
    | apply k0
    | apply k1
    | dsimp only
    | split
    | refine hc.lit (by dsimp only) ?_

theorem adoptOpp_kept {P : Die → Prop} (hc : Closed P [.islands]) (r k : Nat) (d : Die) (hd : P d) : P (adoptOpp r k d) := by
  have k0 := @modRing_kept P (hc.mono (by decide))
  unfold adoptOpp
  try dsimp only
  with_reducible repeat' first
    | assumption
    | (refine each_kept (fun _ _ _ => ?_) ?_)
    | apply k0
    | dsimp only
    | split
    | refine hc.lit (by dsimp only) ?_

theorem clearRuns_kept {P : Die → Prop} (hc : Closed P [.islands]) (r : Nat) (d : Die) (hd : P d) : P (clearRuns r d) := by
  have k0 := @modMargin_kept P (hc.mono (by decide))
  unfold clearRuns
  try dsimp only
  with_reducible repeat' first
    | assumption
    | (refine each_kept (fun _ _ _ => ?_) ?_)
    | apply k0
    | dsimp only
    | split
    | refine hc.lit (by dsimp only) ?_

theorem fireWatch_kept {P : Die → Prop} (hc : Closed P [.watches, .messages]) (w at_ e tally cycle isl : Nat) (late : Bool) (d : Die) (hd : P d) : P (fireWatch w at_ e tally cycle isl late d) := by
  have k0 := @modWatch_kept P _ hc (by decide)
  have k1 := @postMessage_kept P (hc.mono (by decide))
  unfold fireWatch
  try dsimp only
  with_reducible repeat' first
    | assumption
    | apply k0
    | apply k1
    | dsimp only
    | split
    | refine hc.lit (by dsimp only) ?_

theorem tallyWatchFire_kept {P : Die → Prop} (hc : Closed P [.watches, .messages]) (w : Nat) (d : Die) (hd : P d) : P (tallyWatchFire w d) := by
  have k0 := @fireWatch_kept P (hc.mono (by decide))
  unfold tallyWatchFire
  try dsimp only
  with_reducible repeat' first
    | assumption
    | apply k0
    | dsimp only
    | split

theorem cycleWatchFire_kept {P : Die → Prop} (hc : Closed P [.watches, .messages]) (w stamp : Nat) (d : Die) (hd : P d) : P (cycleWatchFire w stamp d) := by
  have k0 := @fireWatch_kept P (hc.mono (by decide))
  unfold cycleWatchFire
  try dsimp only
  with_reducible repeat' first
    | assumption
    | apply k0
    | dsimp only
    | split

theorem armWatch_kept {P : Die → Prop} (hc : Closed P [.watches, .messages]) (w : Nat) (d : Die) (hd : P d) : P (armWatch w d) := by
  have k0 := @fireWatch_kept P (hc.mono (by decide))
  have k1 := @modWatch_kept P _ hc (by decide)
  unfold armWatch
  try dsimp only
  with_reducible repeat' first
    | assumption
    | apply k0
    | apply k1
    | dsimp only
    | split
    | refine hc.lit (by dsimp only) ?_

theorem deliverWatch_kept {P : Die → Prop} (hc : Closed P [.messages, .delivered]) (d : Die) (hd : P d) : P (deliverWatch d) := by
  unfold deliverWatch
  try dsimp only
  with_reducible repeat' first
    | assumption
    | dsimp only
    | split
    | refine hc.lit (by dsimp only) ?_

theorem certMark_kept {P : Die → Prop} (hc : Closed P [.contexts]) (r : Nat) (f : CertRegion → CertRegion) (d : Die) (hd : P d) : P (certMark r f d) := by
  have k0 := @modContext_kept P (hc.mono (by decide))
  unfold certMark
  try dsimp only
  with_reducible repeat' first
    | assumption
    | apply k0
    | dsimp only
    | split

theorem noteOutside_kept {P : Die → Prop} (hc : Closed P [.contexts]) (r : Nat) (d : Die) (hd : P d) : P (noteOutside r d) := by
  have k0 := @modContext_kept P (hc.mono (by decide))
  unfold noteOutside
  try dsimp only
  with_reducible repeat' first
    | assumption
    | (refine each_kept (fun _ _ _ => ?_) ?_)
    | apply k0
    | dsimp only
    | split
    | refine hc.lit (by dsimp only) ?_

theorem acquireBoth_kept {P : Die → Prop} (hc : Closed P [.synths]) (r : Nat) (use : SynthUse) (d : Die) (hd : P d) : P (acquireBoth r use d) := by
  have k0 := @writeSynth_kept P (hc.mono (by decide))
  unfold acquireBoth
  try dsimp only
  with_reducible repeat' first
    | assumption
    | apply k0
    | dsimp only
    | split

theorem assayRestart_kept {P : Die → Prop} (hc : Closed P [.islands, .synths, .ends, .commitReqs]) (r : Nat) (d : Die) (hd : P d) : P (assayRestart r d) := by
  have k0 := @acquireBoth_kept P (hc.mono (by decide))
  have k1 := @refreshIsland_kept P (hc.mono (by decide))
  have k2 := @regrant_kept P (hc.mono (by decide))
  have k3 := @startBellows_kept P (hc.mono (by decide))
  unfold assayRestart
  try dsimp only
  with_reducible repeat' first
    | assumption
    | apply k0
    | (refine each_kept (fun _ _ _ => ?_) ?_)
    | apply k1
    | apply k2
    | apply k3
    | dsimp only
    | split

theorem missedRecord_kept {P : Die → Prop} (hc : Closed P [.ledger, .regions]) (r : Nat) (d : Die) (hd : P d) : P (missedRecord r d) := by
  have k0 := @emit_kept P (hc.mono (by decide))
  have k1 := @modRegion_kept P _ hc (by decide)
  unfold missedRecord
  try dsimp only
  with_reducible repeat' first
    | assumption
    | apply k0
    | apply k1
    | dsimp only
    | split
    | refine hc.lit (by dsimp only) ?_

theorem assayAbort_kept {P : Die → Prop} (hc : Closed P [.ledger, .store, .islands, .regions, .synths, .ends, .commitReqs]) (r cause : Nat) (d : Die) (hd : P d) : P (assayAbort r cause d) := by
  have k0 := @assayRestart_kept P (hc.mono (by decide))
  have k1 := @emit_kept P (hc.mono (by decide))
  have k2 := @missedRecord_kept P (hc.mono (by decide))
  unfold assayAbort
  try dsimp only
  with_reducible repeat' first
    | assumption
    | apply k0
    | apply k1
    | apply k2
    | dsimp only
    | split
    | refine hc.lit (by dsimp only) ?_

theorem dropFromMasks_kept {P : Die → Prop} (hc : Closed P [.contexts]) (r : Nat) (d : Die) (hd : P d) : P (dropFromMasks r d) := by
  have k0 := @modContext_kept P (hc.mono (by decide))
  unfold dropFromMasks
  try dsimp only
  with_reducible repeat' first
    | assumption
    | (refine each_kept (fun _ _ _ => ?_) ?_)
    | apply k0
    | dsimp only
    | split
    | refine hc.lit (by dsimp only) ?_

theorem regionRetire_kept {P : Die → Prop} (hc : Closed P [.ledger, .store, .islands, .regions, .synths, .ends, .watches, .messages, .contexts, .commits, .commitReqs]) (r : Nat) (d : Die) (hd : P d) : P (regionRetire r d) := by
  have k0 := @abortRegion_kept P (hc.mono (by decide))
  have k1 := @assayAbort_kept P (hc.mono (by decide))
  have k2 := @cancelRegionWatches_kept P (hc.mono (by decide))
  have k3 := @certMark_kept P (hc.mono (by decide))
  have k4 := @deselect_kept P (hc.mono (by decide))
  have k5 := @dropFromMasks_kept P (hc.mono (by decide))
  have k6 := @droverLend_kept P (hc.mono (by decide))
  have k7 := @droverStop_kept P (hc.mono (by decide))
  have k8 := @emitRetire_kept P (hc.mono (by decide))
  have k9 := @modRegion_kept P _ hc (by decide)
  have k10 := @moveBorrower_kept P (hc.mono (by decide))
  have k11 := @refreshIsland_kept P (hc.mono (by decide))
  have k12 := @stopBellows_kept P (hc.mono (by decide))
  have k13 := @uncoupleRegion_kept P (hc.mono (by decide))
  unfold regionRetire
  try dsimp only
  with_reducible repeat' first
    | assumption
    | apply k0
    | apply k1
    | apply k2
    | apply k3
    | apply k4
    | apply k5
    | (refine k6 ?_ (by assumption))
    | apply k7
    | (refine each_kept (fun _ _ _ => ?_) ?_)
    | apply k8
    | apply k9
    | apply k10
    | apply k11
    | apply k12
    | apply k13
    | dsimp only
    | split
    | refine hc.lit (by dsimp only) ?_

theorem abortForSynth_kept {P : Die → Prop} (hc : Closed P [.ledger, .regions, .synths, .commits, .commitReqs]) (r sy : Nat) (d : Die) (hd : P d) : P (abortForSynth r sy d) := by
  have k0 := @abortWhere_kept P (hc.mono (by decide))
  unfold abortForSynth
  try dsimp only
  with_reducible repeat' first
    | assumption
    | apply k0
    | dsimp only
    | split

theorem synthRetire_kept {P : Die → Prop} (hc : Closed P [.ledger, .store, .islands, .regions, .synths, .ends, .watches, .messages, .contexts, .commits, .commitReqs]) (r sy count : Nat) (d : Die) (hd : P d) : P (synthRetire r sy count d) := by
  have k0 := @abortForSynth_kept P (hc.mono (by decide))
  have k1 := @emitRetire_kept P (hc.mono (by decide))
  have k2 := @modSynth_kept P _ hc (by decide)
  have k3 := @regionRetire_kept P (hc.mono (by decide))
  unfold synthRetire
  try dsimp only
  with_reducible repeat' first
    | assumption
    | apply k0
    | apply k1
    | apply k2
    | apply k3
    | dsimp only
    | split
    | refine hc.lit (by dsimp only) ?_

theorem synthFailure_kept {P : Die → Prop} (hc : Closed P [.ledger, .store, .islands, .regions, .synths, .ends, .watches, .messages, .contexts, .commits, .commitReqs]) (r sy : Nat) (d : Die) (hd : P d) : P (synthFailure r sy d) := by
  have k0 := @modSynth_kept P _ hc (by decide)
  have k1 := @synthRetire_kept P (hc.mono (by decide))
  unfold synthFailure
  try dsimp only
  with_reducible repeat' first
    | assumption
    | apply k0
    | apply k1
    | dsimp only
    | split
    | refine hc.lit (by dsimp only) ?_

theorem lossNoStandby_kept {P : Die → Prop} (hc : Closed P [.ledger, .islands, .regions, .synths, .commits, .commitReqs]) (r sy : Nat) (d : Die) (hd : P d) : P (lossNoStandby r sy d) := by
  have k0 := @abortRegion_kept P (hc.mono (by decide))
  have k1 := @deselect_kept P (hc.mono (by decide))
  have k2 := @droverStop_kept P (hc.mono (by decide))
  have k3 := @writeSynth_kept P (hc.mono (by decide))
  unfold lossNoStandby
  try dsimp only
  with_reducible repeat' first
    | assumption
    | apply k0
    | apply k1
    | apply k2
    | apply k3
    | dsimp only
    | split

theorem synthLoss_kept {P : Die → Prop} (hc : Closed P [.ledger, .store, .islands, .regions, .synths, .ends, .watches, .messages, .contexts, .commits, .commitReqs]) (r sy cause : Nat) (d : Die) (hd : P d) : P (synthLoss r sy cause d) := by
  have k0 := @deselect_kept P (hc.mono (by decide))
  have k1 := @emit_kept P (hc.mono (by decide))
  have k2 := @lossNoStandby_kept P (hc.mono (by decide))
  have k3 := @modRegion_kept P _ hc (by decide)
  have k4 := @selectSynth_kept P (hc.mono (by decide))
  have k5 := @synthFailure_kept P (hc.mono (by decide))
  unfold synthLoss
  try dsimp only
  with_reducible repeat' first
    | assumption
    | apply k0
    | apply k1
    | apply k2
    | apply k3
    | apply k4
    | apply k5
    | dsimp only
    | split
    | refine hc.lit (by dsimp only) ?_

theorem testDone_kept {P : Die → Prop} (hc : Closed P [.ledger, .queues, .sram]) (ok : Bool) (d : Die) (hd : P d) : P (testDone ok d) := by
  have k0 := @finish_kept P (hc.mono (by decide))
  unfold testDone
  try dsimp only
  with_reducible repeat' first
    | assumption
    | apply k0
    | dsimp only
    | split

theorem clockStart_kept {P : Die → Prop} (hc : Closed P [.islands]) (r : Nat) (d : Die) (hd : P d) : P (clockStart r d) := by
  have k0 := @startBellows_kept P (hc.mono (by decide))
  unfold clockStart
  try dsimp only
  with_reducible repeat' first
    | assumption
    | (refine each_kept (fun _ _ _ => ?_) ?_)
    | apply k0
    | dsimp only
    | split

theorem afterLock_kept {P : Die → Prop} (hc : Closed P [.ledger, .islands, .regions, .synths, .commitReqs, .queues, .sram]) (r sy : Nat) (d : Die) (hd : P d) : P (afterLock r sy d) := by
  have k0 := @adoptOpp_kept P (hc.mono (by decide))
  have k1 := @clockStart_kept P (hc.mono (by decide))
  have k2 := @emit_kept P (hc.mono (by decide))
  have k3 := @fastStep_kept P (hc.mono (by decide))
  have k4 := @modRegion_kept P _ hc (by decide)
  have k5 := @regrant_kept P (hc.mono (by decide))
  have k6 := @restore_kept P (hc.mono (by decide))
  have k7 := @retuneStandby_kept P (hc.mono (by decide))
  have k8 := @selectSynth_kept P (hc.mono (by decide))
  have k9 := @testDone_kept P (hc.mono (by decide))
  unfold afterLock
  try dsimp only
  with_reducible repeat' first
    | assumption
    | apply k0
    | apply k1
    | apply k2
    | apply k3
    | apply k4
    | apply k5
    | apply k6
    | apply k7
    | apply k8
    | apply k9
    | dsimp only
    | split
    | refine hc.lit (by dsimp only) ?_

theorem declareLock_kept {P : Die → Prop} (hc : Closed P [.ledger, .islands, .regions, .synths, .commitReqs, .queues, .sram]) (r sy : Nat) (d : Die) (hd : P d) : P (declareLock r sy d) := by
  have k0 := @afterLock_kept P (hc.mono (by decide))
  have k1 := @emit_kept P (hc.mono (by decide))
  have k2 := @modSynth_kept P _ hc (by decide)
  unfold declareLock
  try dsimp only
  with_reducible repeat' first
    | assumption
    | apply k0
    | apply k1
    | apply k2
    | dsimp only
    | split
    | refine hc.lit (by dsimp only) ?_

theorem acquisitionFail_kept {P : Die → Prop} (hc : Closed P [.ledger, .store, .islands, .regions, .synths, .ends, .watches, .messages, .contexts, .commits, .commitReqs, .queues, .sram]) (r sy : Nat) (d : Die) (hd : P d) : P (acquisitionFail r sy d) := by
  have k0 := @abortCommit_kept P (hc.mono (by decide))
  have k1 := @emit_kept P (hc.mono (by decide))
  have k2 := @modSynth_kept P _ hc (by decide)
  have k3 := @synthFailure_kept P (hc.mono (by decide))
  have k4 := @testDone_kept P (hc.mono (by decide))
  unfold acquisitionFail
  try dsimp only
  with_reducible repeat' first
    | assumption
    | apply k0
    | apply k1
    | apply k2
    | apply k3
    | apply k4
    | dsimp only
    | split
    | refine hc.lit (by dsimp only) ?_

theorem clampCredit_kept {P : Die → Prop} (hc : Closed P [.limits]) (d : Die) (hd : P d) : P (clampCredit d) := by
  unfold clampCredit
  try dsimp only
  with_reducible repeat' first
    | assumption
    | dsimp only
    | split
    | refine hc.lit (by dsimp only) ?_

theorem setLoan_kept {P : Die → Prop} (hc : Closed P [.limits, .links]) (l : Nat) (v : Int) (d : Die) (hd : P d) : P (setLoan l v d) := by
  have k0 := @clampCredit_kept P (hc.mono (by decide))
  have k1 := @modLink_kept P _ hc (by decide)
  unfold setLoan
  try dsimp only
  with_reducible repeat' first
    | assumption
    | apply k0
    | apply k1
    | dsimp only
    | split
    | refine hc.lit (by dsimp only) ?_

theorem sendPool_kept {P : Die → Prop} (hc : Closed P [.links]) (l kind ack amount : Nat) (d : Die) (hd : P d) : P (sendPool l kind ack amount d) := by
  have k0 := @modLink_kept P _ hc (by decide)
  unfold sendPool
  try dsimp only
  with_reducible repeat' first
    | assumption
    | apply k0
    | dsimp only
    | split
    | refine hc.lit (by dsimp only) ?_

theorem poolRecord_kept {P : Die → Prop} (hc : Closed P [.ledger]) (code l amount role : Nat) (d : Die) (hd : P d) : P (poolRecord code l amount role d) := by
  have k0 := @emit_kept P (hc.mono (by decide))
  unfold poolRecord
  try dsimp only
  with_reducible repeat' first
    | assumption
    | apply k0
    | dsimp only
    | split

theorem returnLoan_kept {P : Die → Prop} (hc : Closed P [.ledger, .limits, .links]) (l ack : Nat) (d : Die) (hd : P d) : P (returnLoan l ack d) := by
  have k0 := @poolRecord_kept P (hc.mono (by decide))
  have k1 := @sendPool_kept P (hc.mono (by decide))
  have k2 := @setLoan_kept P (hc.mono (by decide))
  unfold returnLoan
  try dsimp only
  with_reducible repeat' first
    | assumption
    | apply k0
    | apply k1
    | apply k2
    | dsimp only
    | split

theorem stopSynths_kept {P : Die → Prop} (hc : Closed P [.islands, .regions, .synths]) (r : Nat) (d : Die) (hd : P d) : P (stopSynths r d) := by
  have k0 := @deselect_kept P (hc.mono (by decide))
  have k1 := @powerSynth_kept P (hc.mono (by decide))
  unfold stopSynths
  try dsimp only
  with_reducible repeat' first
    | assumption
    | apply k0
    | apply k1
    | dsimp only
    | split

theorem drainEnd_kept {P : Die → Prop} (hc : Closed P [.ledger]) (x : LimitDrain) (d : Die) (hd : P d) : P (drainEnd x d) := by
  have k0 := @emit_kept P (hc.mono (by decide))
  unfold drainEnd
  try dsimp only
  with_reducible repeat' first
    | assumption
    | apply k0
    | dsimp only
    | split

theorem endDrains_kept {P : Die → Prop} (hc : Closed P [.ledger, .limits]) (d : Die) (hd : P d) : P (endDrains d) := by
  have k0 := @drainEnd_kept P (hc.mono (by decide))
  unfold endDrains
  try dsimp only
  with_reducible repeat' first
    | assumption
    | apply k0
    | (refine each_kept (fun _ _ _ => ?_) ?_)
    | dsimp only
    | split
    | refine hc.lit (by dsimp only) ?_

theorem haltDie_kept {P : Die → Prop} (hc : Closed P [.startup, .stop, .ledger, .store, .limits, .islands, .regions, .synths, .ends, .links, .rails, .commits, .commitReqs]) (coolant : Bool) (d : Die) (hd : P d) : P (haltDie coolant d) := by
  have k0 := @abortWhere_kept P (hc.mono (by decide))
  have k1 := @allRetention_kept P (hc.mono (by decide))
  have k2 := @assayAbort_kept P (hc.mono (by decide))
  have k3 := @endDrains_kept P (hc.mono (by decide))
  have k4 := @returnLoan_kept P (hc.mono (by decide))
  have k5 := @setCeiling_kept P (hc.mono (by decide))
  have k6 := @stopBellows_kept P (hc.mono (by decide))
  have k7 := @stopSynths_kept P (hc.mono (by decide))
  unfold haltDie
  try dsimp only
  with_reducible repeat' first
    | assumption
    | apply k0
    | apply k1
    | apply k2
    | (refine each_kept (fun _ _ _ => ?_) ?_)
    | apply k3
    | (refine iff'_kept (fun _ _ => ?_) ?_)
    | apply k4
    | apply k5
    | apply k6
    | apply k7
    | dsimp only
    | split
    | refine hc.lit (by dsimp only) ?_

theorem stopDie_kept {P : Die → Prop} (hc : Closed P [.startup, .stop, .regs, .ledger, .store, .limits, .islands, .regions, .synths, .ends, .links, .rails, .contexts, .commits, .commitReqs]) (cause sensor : Nat) (d : Die) (hd : P d) : P (stopDie cause sensor d) := by
  have k0 := @emit_kept P (hc.mono (by decide))
  have k1 := @fabricInt_kept P (hc.mono (by decide))
  have k2 := @freeze_kept P (hc.mono (by decide))
  have k3 := @haltDie_kept P (hc.mono (by decide))
  have k4 := @setCeiling_kept P (hc.mono (by decide))
  have k5 := @throttleAll_kept P (hc.mono (by decide))
  unfold stopDie
  try dsimp only
  with_reducible repeat' first
    | assumption
    | (refine each_kept (fun _ _ _ => ?_) ?_)
    | apply k0
    | apply k1
    | apply k2
    | apply k3
    | (refine iff'_kept (fun _ _ => ?_) ?_)
    | apply k4
    | apply k5
    | dsimp only
    | split
    | refine hc.lit (by dsimp only) ?_

theorem fabricFault_kept {P : Die → Prop} (hc : Closed P [.startup, .stop, .regs, .ledger, .store, .limits, .islands, .regions, .synths, .ends, .links, .rails, .contexts, .commits, .commitReqs]) (cause detail : Nat) (d : Die) (hd : P d) : P (fabricFault cause detail d) := by
  have k0 := @emit_kept P (hc.mono (by decide))
  have k1 := @fabricInt_kept P (hc.mono (by decide))
  have k2 := @freeze_kept P (hc.mono (by decide))
  have k3 := @haltDie_kept P (hc.mono (by decide))
  have k4 := @throttleAll_kept P (hc.mono (by decide))
  unfold fabricFault
  try dsimp only
  with_reducible repeat' first
    | assumption
    | apply k0
    | apply k1
    | apply k2
    | apply k3
    | apply k4
    | dsimp only
    | split
    | refine hc.lit (by dsimp only) ?_

theorem bothRootsLost_kept {P : Die → Prop} (hc : Closed P [.tally, .startup, .stop, .regs, .ledger, .store, .limits, .islands, .regions, .synths, .ends, .links, .rails, .contexts, .commits, .commitReqs]) (d : Die) (hd : P d) : P (bothRootsLost d) := by
  have k0 := @fabricFault_kept P (hc.mono (by decide))
  unfold bothRootsLost
  try dsimp only
  with_reducible repeat' first
    | assumption
    | apply k0
    | dsimp only
    | split
    | refine hc.lit (by dsimp only) ?_

theorem raiseDie_kept {P : Die → Prop} (hc : Closed P [.regions, .rails]) (d : Die) (hd : P d) : P (raiseDie d) := by
  have k0 := @modRegion_kept P _ hc (by decide)
  have k1 := @retarget_kept P (hc.mono (by decide))
  unfold raiseDie
  try dsimp only
  with_reducible repeat' first
    | assumption
    | (refine each_kept (fun _ _ _ => ?_) ?_)
    | apply k0
    | apply k1
    | dsimp only
    | split
    | refine hc.lit (by dsimp only) ?_

theorem bankAcquire_kept {P : Die → Prop} (hc : Closed P [.synths]) (d : Die) (hd : P d) : P (bankAcquire d) := by
  have k0 := @acquireBoth_kept P (hc.mono (by decide))
  unfold bankAcquire
  try dsimp only
  with_reducible repeat' first
    | assumption
    | apply k0
    | (refine each_kept (fun _ _ _ => ?_) ?_)
    | dsimp only
    | split

theorem railsUp_kept {P : Die → Prop} (hc : Closed P [.synths]) (d : Die) (hd : P d) : P (railsUp d) := by
  have k0 := @acquireBoth_kept P (hc.mono (by decide))
  have k1 := @bankAcquire_kept P (hc.mono (by decide))
  unfold railsUp
  try dsimp only
  with_reducible repeat' first
    | assumption
    | apply k0
    | apply k1
    | (refine each_kept (fun _ _ _ => ?_) ?_)
    | dsimp only
    | split

theorem emitReset_kept {P : Die → Prop} (hc : Closed P [.ledger]) (kind phase origin : Nat) (l : Loc) (d : Die) (hd : P d) : P (emitReset kind phase origin l d) := by
  have k0 := @emit_kept P (hc.mono (by decide))
  unfold emitReset
  try dsimp only
  with_reducible repeat' first
    | assumption
    | apply k0
    | dsimp only
    | split

theorem settingsDefaulted_kept {P : Die → Prop} (hc : Closed P [.ledger]) (kind : Nat) (d : Die) (hd : P d) : P (settingsDefaulted kind d) := by
  have k0 := @emit_kept P (hc.mono (by decide))
  unfold settingsDefaulted
  try dsimp only
  with_reducible repeat' first
    | assumption
    | apply k0
    | dsimp only
    | split

theorem modTally_kept {P : Die → Prop} (hc : Closed P [.tally]) (f : Tally → Tally) (d : Die) (hd : P d) : P (modTally f d) := by
  unfold modTally
  try dsimp only
  with_reducible repeat' first
    | assumption
    | dsimp only
    | split
    | refine hc.lit (by dsimp only) ?_

theorem unsettle_kept {P : Die → Prop} (hc : Closed P [.tally]) (d : Die) (hd : P d) : P (unsettle d) := by
  have k0 := @modTally_kept P (hc.mono (by decide))
  unfold unsettle
  try dsimp only
  with_reducible repeat' first
    | assumption
    | apply k0
    | dsimp only
    | split
    | refine hc.lit (by dsimp only) ?_

theorem chooseParent_kept {P : Die → Prop} (hc : Closed P [.tally]) (d : Die) (hd : P d) : P (chooseParent d) := by
  have k0 := @modTally_kept P (hc.mono (by decide))
  have k1 := @unsettle_kept P (hc.mono (by decide))
  unfold chooseParent
  try dsimp only
  with_reducible repeat' first
    | assumption
    | apply k0
    | apply k1
    | dsimp only
    | split
    | refine hc.lit (by dsimp only) ?_

theorem nameBackup_kept {P : Die → Prop} (hc : Closed P [.tally]) (d : Die) (hd : P d) : P (nameBackup d) := by
  have k0 := @modTally_kept P (hc.mono (by decide))
  unfold nameBackup
  try dsimp only
  with_reducible repeat' first
    | assumption
    | apply k0
    | dsimp only
    | split
    | refine hc.lit (by dsimp only) ?_

theorem masterRecord_kept {P : Die → Prop} (hc : Closed P [.ledger]) (prev cause : Nat) (d : Die) (hd : P d) : P (masterRecord prev cause d) := by
  have k0 := @emit_kept P (hc.mono (by decide))
  unfold masterRecord
  try dsimp only
  with_reducible repeat' first
    | assumption
    | apply k0
    | dsimp only
    | split

theorem takeMastership_kept {P : Die → Prop} (hc : Closed P [.tally, .ledger]) (cause : Nat) (d : Die) (hd : P d) : P (takeMastership cause d) := by
  have k0 := @emit_kept P (hc.mono (by decide))
  have k1 := @masterRecord_kept P (hc.mono (by decide))
  have k2 := @modTally_kept P (hc.mono (by decide))
  have k3 := @nameBackup_kept P (hc.mono (by decide))
  have k4 := @unsettle_kept P (hc.mono (by decide))
  unfold takeMastership
  try dsimp only
  with_reducible repeat' first
    | assumption
    | apply k0
    | apply k1
    | apply k2
    | apply k3
    | apply k4
    | dsimp only
    | split
    | refine hc.lit (by dsimp only) ?_

theorem ownMaster_kept {P : Die → Prop} (hc : Closed P [.tally]) (d : Die) (hd : P d) : P (ownMaster d) := by
  have k0 := @modTally_kept P (hc.mono (by decide))
  have k1 := @unsettle_kept P (hc.mono (by decide))
  unfold ownMaster
  try dsimp only
  with_reducible repeat' first
    | assumption
    | apply k0
    | apply k1
    | dsimp only
    | split
    | refine hc.lit (by dsimp only) ?_

theorem followPartner_kept {P : Die → Prop} (hc : Closed P [.tally]) (l : Nat) (d : Die) (hd : P d) : P (followPartner l d) := by
  have k0 := @modTally_kept P (hc.mono (by decide))
  have k1 := @unsettle_kept P (hc.mono (by decide))
  unfold followPartner
  try dsimp only
  with_reducible repeat' first
    | assumption
    | apply k0
    | apply k1
    | dsimp only
    | split
    | refine hc.lit (by dsimp only) ?_

theorem considerPartner_kept {P : Die → Prop} (hc : Closed P [.tally, .ledger]) (l : Nat) (d : Die) (hd : P d) : P (considerPartner l d) := by
  have k0 := @chooseParent_kept P (hc.mono (by decide))
  have k1 := @followPartner_kept P (hc.mono (by decide))
  have k2 := @masterRecord_kept P (hc.mono (by decide))
  have k3 := @modTally_kept P (hc.mono (by decide))
  have k4 := @nameBackup_kept P (hc.mono (by decide))
  unfold considerPartner
  try dsimp only
  with_reducible repeat' first
    | assumption
    | apply k0
    | apply k1
    | apply k2
    | apply k3
    | apply k4
    | dsimp only
    | split
    | refine hc.lit (by dsimp only) ?_

theorem discardFrame_kept {P : Die → Prop} (hc : Closed P [.tally, .ledger, .links]) (l : Nat) (d : Die) (hd : P d) : P (discardFrame l d) := by
  have k0 := @chooseParent_kept P (hc.mono (by decide))
  have k1 := @emit_kept P (hc.mono (by decide))
  have k2 := @modLink_kept P _ hc (by decide)
  unfold discardFrame
  try dsimp only
  with_reducible repeat' first
    | assumption
    | apply k0
    | apply k1
    | apply k2
    | dsimp only
    | split
    | refine hc.lit (by dsimp only) ?_

theorem validFrame_kept {P : Die → Prop} (hc : Closed P [.links]) (l : Nat) (d : Die) (hd : P d) : P (validFrame l d) := by
  have k0 := @modLink_kept P _ hc (by decide)
  unfold validFrame
  try dsimp only
  with_reducible repeat' first
    | assumption
    | apply k0
    | dsimp only
    | split
    | refine hc.lit (by dsimp only) ?_

theorem tallySyncSend_kept {P : Die → Prop} (hc : Closed P [.links]) (l : Nat) (d : Die) (hd : P d) : P (tallySyncSend l d) := by
  have k0 := @modLink_kept P _ hc (by decide)
  unfold tallySyncSend
  try dsimp only
  with_reducible repeat' first
    | assumption
    | apply k0
    | dsimp only
    | split
    | refine hc.lit (by dsimp only) ?_

theorem tallySyncReceived_kept {P : Die → Prop} (hc : Closed P [.tally, .ledger, .links]) (l : Nat) (f : Bytes) (d : Die) (hd : P d) : P (tallySyncReceived l f d) := by
  have k0 := @considerPartner_kept P (hc.mono (by decide))
  have k1 := @discardFrame_kept P (hc.mono (by decide))
  have k2 := @modLink_kept P _ hc (by decide)
  have k3 := @validFrame_kept P (hc.mono (by decide))
  unfold tallySyncReceived
  try dsimp only
  with_reducible repeat' first
    | assumption
    | apply k0
    | apply k1
    | apply k2
    | apply k3
    | dsimp only
    | split
    | refine hc.lit (by dsimp only) ?_

theorem tallyStep_kept {P : Die → Prop} (hc : Closed P [.tally, .ledger]) (by_ : Int) (epoch cause : Nat) (d : Die) (hd : P d) : P (tallyStep by_ epoch cause d) := by
  have k0 := @emit_kept P (hc.mono (by decide))
  have k1 := @modTally_kept P (hc.mono (by decide))
  have k2 := @unsettle_kept P (hc.mono (by decide))
  unfold tallyStep
  try dsimp only
  with_reducible repeat' first
    | assumption
    | apply k0
    | apply k1
    | apply k2
    | dsimp only
    | split
    | refine hc.lit (by dsimp only) ?_

theorem tallyReplyReceived_kept {P : Die → Prop} (hc : Closed P [.tally, .ledger, .links]) (l : Nat) (f : Bytes) (d : Die) (hd : P d) : P (tallyReplyReceived l f d) := by
  have k0 := @considerPartner_kept P (hc.mono (by decide))
  have k1 := @discardFrame_kept P (hc.mono (by decide))
  have k2 := @modLink_kept P _ hc (by decide)
  have k3 := @modTally_kept P (hc.mono (by decide))
  have k4 := @tallyStep_kept P (hc.mono (by decide))
  have k5 := @validFrame_kept P (hc.mono (by decide))
  unfold tallyReplyReceived
  try dsimp only
  with_reducible repeat' first
    | assumption
    | apply k0
    | apply k1
    | apply k2
    | apply k3
    | apply k4
    | apply k5
    | dsimp only
    | split
    | refine hc.lit (by dsimp only) ?_

theorem tallyForeign_kept {P : Die → Prop} (hc : Closed P [.tally, .ledger]) (avg : Int) (d : Die) (hd : P d) : P (tallyForeign avg d) := by
  have k0 := @emit_kept P (hc.mono (by decide))
  have k1 := @modTally_kept P (hc.mono (by decide))
  have k2 := @unsettle_kept P (hc.mono (by decide))
  unfold tallyForeign
  try dsimp only
  with_reducible repeat' first
    | assumption
    | apply k0
    | apply k1
    | apply k2
    | dsimp only
    | split
    | refine hc.lit (by dsimp only) ?_

theorem steer_kept {P : Die → Prop} (hc : Closed P [.tally]) (avg : Int) (d : Die) (hd : P d) : P (steer avg d) := by
  have k0 := @modTally_kept P (hc.mono (by decide))
  unfold steer
  try dsimp only
  with_reducible repeat' first
    | assumption
    | apply k0
    | dsimp only
    | split
    | refine hc.lit (by dsimp only) ?_

theorem tallyRejoin_kept {P : Die → Prop} (hc : Closed P [.tally, .ledger]) (avg : Int) (e : Nat) (d : Die) (hd : P d) : P (tallyRejoin avg e d) := by
  have k0 := @emit_kept P (hc.mono (by decide))
  have k1 := @modTally_kept P (hc.mono (by decide))
  have k2 := @unsettle_kept P (hc.mono (by decide))
  unfold tallyRejoin
  try dsimp only
  with_reducible repeat' first
    | assumption
    | apply k0
    | apply k1
    | apply k2
    | dsimp only
    | split
    | refine hc.lit (by dsimp only) ?_

theorem tallyOffsetAverage_kept {P : Die → Prop} (hc : Closed P [.tally, .ledger]) (d : Die) (hd : P d) : P (tallyOffsetAverage d) := by
  have k0 := @steer_kept P (hc.mono (by decide))
  have k1 := @tallyForeign_kept P (hc.mono (by decide))
  have k2 := @tallyRejoin_kept P (hc.mono (by decide))
  unfold tallyOffsetAverage
  try dsimp only
  with_reducible repeat' first
    | assumption
    | apply k0
    | apply k1
    | apply k2
    | dsimp only
    | split

theorem tallySettled_kept {P : Die → Prop} (hc : Closed P [.tally]) (d : Die) (hd : P d) : P (tallySettled d) := by
  have k0 := @modTally_kept P (hc.mono (by decide))
  unfold tallySettled
  try dsimp only
  with_reducible repeat' first
    | assumption
    | apply k0
    | dsimp only
    | split
    | refine hc.lit (by dsimp only) ?_

theorem tallyBeacon_kept {P : Die → Prop} (hc : Closed P [.tally]) (d : Die) (hd : P d) : P (tallyBeacon d) := by
  have k0 := @modTally_kept P (hc.mono (by decide))
  unfold tallyBeacon
  try dsimp only
  with_reducible repeat' first
    | assumption
    | apply k0
    | dsimp only
    | split
    | refine hc.lit (by dsimp only) ?_

theorem tallyMasterLost_kept {P : Die → Prop} (hc : Closed P [.tally, .ledger]) (d : Die) (hd : P d) : P (tallyMasterLost d) := by
  have k0 := @modTally_kept P (hc.mono (by decide))
  have k1 := @takeMastership_kept P (hc.mono (by decide))
  unfold tallyMasterLost
  try dsimp only
  with_reducible repeat' first
    | assumption
    | apply k0
    | apply k1
    | dsimp only
    | split
    | refine hc.lit (by dsimp only) ?_

theorem tallyWaitExpiry_kept {P : Die → Prop} (hc : Closed P [.tally, .ledger]) (d : Die) (hd : P d) : P (tallyWaitExpiry d) := by
  have k0 := @modTally_kept P (hc.mono (by decide))
  have k1 := @takeMastership_kept P (hc.mono (by decide))
  unfold tallyWaitExpiry
  try dsimp only
  with_reducible repeat' first
    | assumption
    | apply k0
    | apply k1
    | dsimp only
    | split
    | refine hc.lit (by dsimp only) ?_

theorem receiverUp_kept {P : Die → Prop} (hc : Closed P [.links]) (l : Nat) (d : Die) (hd : P d) : P (receiverUp l d) := by
  have k0 := @modLink_kept P _ hc (by decide)
  unfold receiverUp
  try dsimp only
  with_reducible repeat' first
    | assumption
    | apply k0
    | dsimp only
    | split
    | refine hc.lit (by dsimp only) ?_

theorem receiverDown_kept {P : Die → Prop} (hc : Closed P [.tally, .links]) (l : Nat) (d : Die) (hd : P d) : P (receiverDown l d) := by
  have k0 := @chooseParent_kept P (hc.mono (by decide))
  have k1 := @modLink_kept P _ hc (by decide)
  unfold receiverDown
  try dsimp only
  with_reducible repeat' first
    | assumption
    | apply k0
    | apply k1
    | dsimp only
    | split
    | refine hc.lit (by dsimp only) ?_

theorem frameBoundary_kept {P : Die → Prop} (hc : Closed P [.links]) (l : Nat) (d : Die) (hd : P d) : P (frameBoundary l d) := by
  have k0 := @modLink_kept P _ hc (by decide)
  unfold frameBoundary
  try dsimp only
  with_reducible repeat' first
    | assumption
    | apply k0
    | dsimp only
    | split
    | refine hc.lit (by dsimp only) ?_

end Sys2Proof.Machine
end

