-- ==== Sys2Proof/Laws/KeptEvents.lean ====
section
/-! SUPPORT. What each operation of Ring, Hoop, Clocks, Synth, Bellows, Plumb, Commit, Pattern, Cert, Tenants, Energy, Limits, Bus, Assay, Store, Chandler leaves alone: a property that the writes of its parts keep is kept by the operation. -/

namespace Sys2Proof.Machine
open Sys2Proof
set_option Elab.async false
set_option linter.all false

theorem recheckAll_kept {P : Die → Prop} (hc : Closed P [.islands]) (i : Nat) (obs : RingObs) (d : Die) (hd : P d) : P (recheckAll i obs d) := by
  have k0 := @modMargin_kept P (hc.mono (by decide))
  unfold recheckAll
  try dsimp only
  with_reducible repeat' first
    | assumption
    | (refine each_kept (fun _ _ _ => ?_) ?_)
    | apply k0
    | dsimp only
    | split
    | refine hc.lit (by dsimp only) ?_

theorem compare_kept {P : Die → Prop} (hc : Closed P [.ledger, .islands, .contexts]) (i : Nat) (obs : RingObs) (d : Die) (hd : P d) : P (compare i obs d) := by
  have k0 := @emit_kept P (hc.mono (by decide))
  have k1 := @modMargin_kept P (hc.mono (by decide))
  have k2 := @modRing_kept P (hc.mono (by decide))
  have k3 := @noteOutside_kept P (hc.mono (by decide))
  unfold compare
  try dsimp only
  with_reducible repeat' first
    | assumption
    | apply k0
    | apply k1
    | apply k2
    | apply k3
    | dsimp only
    | split

theorem endStaleEnd_kept {P : Die → Prop} (hc : Closed P [.ledger, .ends]) (k : Nat) (d : Die) (hd : P d) : P (endStaleEnd k d) := by
  have k0 := @emit_kept P (hc.mono (by decide))
  have k1 := @modEnd_kept P _ hc (by decide)
  unfold endStaleEnd
  try dsimp only
  with_reducible repeat' first
    | assumption
    | apply k0
    | apply k1
    | dsimp only
    | split
    | refine hc.lit (by dsimp only) ?_

theorem badSample_kept {P : Die → Prop} (hc : Closed P [.ledger, .ends]) (k dOwn : Nat) (d : Die) (hd : P d) : P (badSample k dOwn d) := by
  have k0 := @emit_kept P (hc.mono (by decide))
  have k1 := @modEnd_kept P _ hc (by decide)
  unfold badSample
  try dsimp only
  with_reducible repeat' first
    | assumption
    | apply k0
    | apply k1
    | dsimp only
    | split
    | refine hc.lit (by dsimp only) ?_

theorem sampleToken_kept {P : Die → Prop} (hc : Closed P [.ledger, .ends]) (dOwn : Nat) (k : Nat) (tok : Option Nat) (d : Die) (hd : P d) : P (sampleToken dOwn k tok d) := by
  have k0 := @badSample_kept P (hc.mono (by decide))
  have k1 := @endStaleEnd_kept P (hc.mono (by decide))
  have k2 := @modEnd_kept P _ hc (by decide)
  unfold sampleToken
  try dsimp only
  with_reducible repeat' first
    | assumption
    | apply k0
    | apply k1
    | apply k2
    | dsimp only
    | split
    | refine hc.lit (by dsimp only) ?_

theorem sampleTokens_kept {P : Die → Prop} (hc : Closed P [.ledger, .islands, .ends]) (i : Nat) (toks : List (Option Nat)) (d : Die) (hd : P d) : P (sampleTokens i toks d) := by
  have k0 := @modRing_kept P (hc.mono (by decide))
  have k1 := @sampleToken_kept P (hc.mono (by decide))
  unfold sampleTokens
  try dsimp only
  with_reducible repeat' first
    | assumption
    | (refine each_kept (fun _ _ _ => ?_) ?_)
    | apply k0
    | apply k1
    | dsimp only
    | split
    | refine hc.lit (by dsimp only) ?_

theorem countHold_kept {P : Die → Prop} (hc : Closed P [.limits, .islands, .links]) (i pos cause : Nat) (d : Die) (hd : P d) : P (countHold i pos cause d) := by
  have k0 := @modHolds_kept P (hc.mono (by decide))
  have k1 := @modLink_kept P _ hc (by decide)
  unfold countHold
  try dsimp only
  with_reducible repeat' first
    | assumption
    | apply k0
    | apply k1
    | dsimp only
    | split
    | refine hc.lit (by dsimp only) ?_

theorem crossingRecord_kept {P : Die → Prop} (hc : Closed P [.ledger]) (code i kind : Nat) (u : LaneUse) (d : Die) (hd : P d) : P (crossingRecord code i kind u d) := by
  have k0 := @emit_kept P (hc.mono (by decide))
  unfold crossingRecord
  try dsimp only
  with_reducible repeat' first
    | assumption
    | apply k0
    | dsimp only
    | split

theorem countGuard_kept {P : Die → Prop} (hc : Closed P [.ledger, .limits, .islands, .links]) (i : Nat) (u : LaneUse) (d : Die) (hd : P d) : P (countGuard i u d) := by
  have k0 := @countHold_kept P (hc.mono (by decide))
  have k1 := @crossingRecord_kept P (hc.mono (by decide))
  have k2 := @modHolds_kept P (hc.mono (by decide))
  unfold countGuard
  try dsimp only
  with_reducible repeat' first
    | assumption
    | apply k0
    | apply k1
    | apply k2
    | dsimp only
    | split
    | refine hc.lit (by dsimp only) ?_

theorem crossingPoison_kept {P : Die → Prop} (hc : Closed P [.ledger, .islands, .contexts]) (i kind : Nat) (u : LaneUse) (d : Die) (hd : P d) : P (crossingPoison i kind u d) := by
  have k0 := @certMark_kept P (hc.mono (by decide))
  have k1 := @crossingRecord_kept P (hc.mono (by decide))
  have k2 := @modHolds_kept P (hc.mono (by decide))
  unfold crossingPoison
  try dsimp only
  with_reducible repeat' first
    | assumption
    | apply k0
    | apply k1
    | apply k2
    | dsimp only
    | split
    | refine hc.lit (by dsimp only) ?_

theorem laneFill_kept {P : Die → Prop} (hc : Closed P [.ledger, .islands, .lanes]) (r pos edge : Nat) (u : LaneUse) (key : Nat) (d : Die) (hd : P d) : P (laneFill r pos edge u key d) := by
  have k0 := @emit_kept P (hc.mono (by decide))
  have k1 := @modHolds_kept P (hc.mono (by decide))
  have k2 := @modLane_kept P _ hc (by decide)
  unfold laneFill
  try dsimp only
  with_reducible repeat' first
    | assumption
    | apply k0
    | apply k1
    | apply k2
    | dsimp only
    | split
    | refine hc.lit (by dsimp only) ?_

theorem useLaneOp_kept {P : Die → Prop} (hc : Closed P [.ledger, .islands, .lanes, .contexts]) (i : Nat) (u : LaneUse) (d : Die) (hd : P d) : P (useLaneOp i u d) := by
  have k0 := @crossingPoison_kept P (hc.mono (by decide))
  have k1 := @laneFill_kept P (hc.mono (by decide))
  have k2 := @modLane_kept P _ hc (by decide)
  unfold useLaneOp
  try dsimp only
  with_reducible repeat' first
    | assumption
    | apply k0
    | apply k1
    | apply k2
    | dsimp only
    | split
    | refine hc.lit (by dsimp only) ?_

theorem ageLanes_kept {P : Die → Prop} (hc : Closed P [.lanes]) (i : Nat) (d : Die) (hd : P d) : P (ageLanes i d) := by
  have k0 := @modLane_kept P _ hc (by decide)
  unfold ageLanes
  try dsimp only
  with_reducible repeat' first
    | assumption
    | (refine each_kept (fun _ _ _ => ?_) ?_)
    | apply k0
    | dsimp only
    | split
    | refine hc.lit (by dsimp only) ?_

theorem starvedSlot_kept {P : Die → Prop} (hc : Closed P [.ledger, .contexts]) (i : Nat) (d : Die) (hd : P d) : P (starvedSlot i d) := by
  have k0 := @emit_kept P (hc.mono (by decide))
  have k1 := hc.contexts (by decide)
  unfold starvedSlot
  try dsimp only
  with_reducible repeat' first
    | assumption
    | apply k0
    | apply k1
    | dsimp only
    | split
    | refine hc.lit (by dsimp only) ?_

theorem deliver_kept {P : Die → Prop} (hc : Closed P [.islands]) (i : Nat) (d : Die) (hd : P d) : P (deliver i d) := by
  have k0 := @modRing_kept P (hc.mono (by decide))
  unfold deliver
  try dsimp only
  with_reducible repeat' first
    | assumption
    | apply k0
    | dsimp only
    | split
    | refine hc.lit (by dsimp only) ?_

theorem nextSlot_kept {P : Die → Prop} (hc : Closed P [.ledger, .limits, .islands, .lanes, .links, .contexts]) (i : Nat) (obs : RingObs) (d : Die) (hd : P d) : P (nextSlot i obs d) := by
  have k0 := @closeGate_kept P (hc.mono (by decide))
  have k1 := @countGuard_kept P (hc.mono (by decide))
  have k2 := @countHold_kept P (hc.mono (by decide))
  have k3 := @deliver_kept P (hc.mono (by decide))
  have k4 := @modHolds_kept P (hc.mono (by decide))
  have k5 := @modRing_kept P (hc.mono (by decide))
  have k6 := @starvedSlot_kept P (hc.mono (by decide))
  have k7 := @useLaneOp_kept P (hc.mono (by decide))
  unfold nextSlot
  try dsimp only
  with_reducible repeat' first
    | assumption
    | apply k0
    | apply k1
    | apply k2
    | apply k3
    | (refine each_kept (fun _ _ _ => ?_) ?_)
    | apply k4
    | apply k5
    | apply k6
    | apply k7
    | dsimp only
    | split
    | refine hc.lit (by dsimp only) ?_

theorem closedSlot_kept {P : Die → Prop} (hc : Closed P [.islands]) (i : Nat) (obs : RingObs) (d : Die) (hd : P d) : P (closedSlot i obs d) := by
  have k0 := @modHolds_kept P (hc.mono (by decide))
  have k1 := @modRing_kept P (hc.mono (by decide))
  unfold closedSlot
  try dsimp only
  with_reducible repeat' first
    | assumption
    | apply k0
    | apply k1
    | dsimp only
    | split
    | refine hc.lit (by dsimp only) ?_

theorem periodAccounts_kept {P : Die → Prop} (hc : Closed P [.islands]) (i len : Nat) (d : Die) (hd : P d) : P (periodAccounts i len d) := by
  have k0 := @modMargin_kept P (hc.mono (by decide))
  unfold periodAccounts
  try dsimp only
  with_reducible repeat' first
    | assumption
    | apply k0
    | dsimp only
    | split
    | refine hc.lit (by dsimp only) ?_

theorem ringPeriod_kept {P : Die → Prop} (hc : Closed P [.ledger, .limits, .islands, .ends, .lanes, .links, .contexts]) (i : Nat) (obs : RingObs) (d : Die) (hd : P d) : P (ringPeriod i obs d) := by
  have k0 := @ageLanes_kept P (hc.mono (by decide))
  have k1 := @closedSlot_kept P (hc.mono (by decide))
  have k2 := @compare_kept P (hc.mono (by decide))
  have k3 := @modHolds_kept P (hc.mono (by decide))
  have k4 := @modRing_kept P (hc.mono (by decide))
  have k5 := @nextSlot_kept P (hc.mono (by decide))
  have k6 := @periodAccounts_kept P (hc.mono (by decide))
  have k7 := @recheckAll_kept P (hc.mono (by decide))
  have k8 := @sampleTokens_kept P (hc.mono (by decide))
  unfold ringPeriod
  try dsimp only
  with_reducible repeat' first
    | assumption
    | apply k0
    | apply k1
    | apply k2
    | apply k3
    | apply k4
    | apply k5
    | apply k6
    | apply k7
    | apply k8
    | dsimp only
    | split
    | refine hc.lit (by dsimp only) ?_

theorem edgeActivation_kept {P : Die → Prop} (hc : Closed P [.ends]) (k : Nat) (d : Die) (hd : P d) : P (edgeActivation k d) := by
  have k0 := @modEnd_kept P _ hc (by decide)
  unfold edgeActivation
  try dsimp only
  with_reducible repeat' first
    | assumption
    | apply k0
    | dsimp only
    | split
    | refine hc.lit (by dsimp only) ?_

theorem hoopForm_kept {P : Die → Prop} (hc : Closed P [.links]) (l : Nat) (d : Die) (hd : P d) : P (hoopForm l d) := by
  have k0 := @modLink_kept P _ hc (by decide)
  unfold hoopForm
  try dsimp only
  with_reducible repeat' first
    | assumption
    | apply k0
    | dsimp only
    | split
    | refine hc.lit (by dsimp only) ?_

theorem linkStaleEnd_kept {P : Die → Prop} (hc : Closed P [.ledger, .links]) (l : Nat) (d : Die) (hd : P d) : P (linkStaleEnd l d) := by
  have k0 := @emit_kept P (hc.mono (by decide))
  have k1 := @modLink_kept P _ hc (by decide)
  unfold linkStaleEnd
  try dsimp only
  with_reducible repeat' first
    | assumption
    | apply k0
    | apply k1
    | dsimp only
    | split
    | refine hc.lit (by dsimp only) ?_

theorem hoopReceived_kept {P : Die → Prop} (hc : Closed P [.tally, .ledger, .limits, .links]) (l : Nat) (f : Bytes) (d : Die) (hd : P d) : P (hoopReceived l f d) := by
  have k0 := @discardFrame_kept P (hc.mono (by decide))
  have k1 := @emit_kept P (hc.mono (by decide))
  have k2 := @linkStaleEnd_kept P (hc.mono (by decide))
  have k3 := @modLink_kept P _ hc (by decide)
  have k4 := @validFrame_kept P (hc.mono (by decide))
  unfold hoopReceived
  try dsimp only
  with_reducible repeat' first
    | assumption
    | apply k0
    | apply k1
    | apply k2
    | apply k3
    | apply k4
    | dsimp only
    | split
    | refine hc.lit (by dsimp only) ?_

theorem hoopTimeout_kept {P : Die → Prop} (hc : Closed P [.ledger, .links]) (l : Nat) (d : Die) (hd : P d) : P (hoopTimeout l d) := by
  have k0 := @emit_kept P (hc.mono (by decide))
  have k1 := @modLink_kept P _ hc (by decide)
  unfold hoopTimeout
  try dsimp only
  with_reducible repeat' first
    | assumption
    | apply k0
    | apply k1
    | dsimp only
    | split
    | refine hc.lit (by dsimp only) ?_

theorem staleRecord_kept {P : Die → Prop} (hc : Closed P [.ledger, .contexts]) (i e : Nat) (d : Die) (hd : P d) : P (staleRecord i e d) := by
  have k0 := @certMark_kept P (hc.mono (by decide))
  have k1 := @emit_kept P (hc.mono (by decide))
  unfold staleRecord
  try dsimp only
  with_reducible repeat' first
    | assumption
    | apply k0
    | apply k1
    | dsimp only
    | split
    | refine hc.lit (by dsimp only) ?_

theorem staleRelease_kept {P : Die → Prop} (hc : Closed P [.ledger, .ends, .links, .contexts]) (h : HoopEnd) (d : Die) (hd : P d) : P (staleRelease h d) := by
  have k0 := @modEnd_kept P _ hc (by decide)
  have k1 := @modLink_kept P _ hc (by decide)
  have k2 := @staleRecord_kept P (hc.mono (by decide))
  unfold staleRelease
  try dsimp only
  with_reducible repeat' first
    | assumption
    | apply k0
    | apply k1
    | apply k2
    | dsimp only
    | split
    | refine hc.lit (by dsimp only) ?_

theorem criticalPathEnd_kept {P : Die → Prop} (hc : Closed P [.limits]) (d : Die) (hd : P d) : P (criticalPathEnd d) := by
  unfold criticalPathEnd
  try dsimp only
  with_reducible repeat' first
    | assumption
    | dsimp only
    | split
    | refine hc.lit (by dsimp only) ?_

theorem releaseLink_kept {P : Die → Prop} (hc : Closed P [.ledger, .lanes, .links]) (l cause : Nat) (d : Die) (hd : P d) : P (releaseLink l cause d) := by
  have k0 := @clearLinkLanes_kept P (hc.mono (by decide))
  have k1 := @emit_kept P (hc.mono (by decide))
  have k2 := @modLink_kept P _ hc (by decide)
  unfold releaseLink
  try dsimp only
  with_reducible repeat' first
    | assumption
    | apply k0
    | apply k1
    | apply k2
    | dsimp only
    | split
    | refine hc.lit (by dsimp only) ?_

theorem poolLost_kept {P : Die → Prop} (hc : Closed P [.ledger, .limits, .links]) (l cause : Nat) (d : Die) (hd : P d) : P (poolLost l cause d) := by
  have k0 := @emit_kept P (hc.mono (by decide))
  have k1 := @modLink_kept P _ hc (by decide)
  have k2 := @setLoan_kept P (hc.mono (by decide))
  unfold poolLost
  try dsimp only
  with_reducible repeat' first
    | assumption
    | apply k0
    | apply k1
    | apply k2
    | dsimp only
    | split
    | refine hc.lit (by dsimp only) ?_

theorem linkDownOp_kept {P : Die → Prop} (hc : Closed P [.tally, .ledger, .limits, .lanes, .links]) (l : Nat) (d : Die) (hd : P d) : P (linkDownOp l d) := by
  have k0 := @chooseParent_kept P (hc.mono (by decide))
  have k1 := @modLink_kept P _ hc (by decide)
  have k2 := @poolLost_kept P (hc.mono (by decide))
  have k3 := @releaseLink_kept P (hc.mono (by decide))
  unfold linkDownOp
  try dsimp only
  with_reducible repeat' first
    | assumption
    | apply k0
    | apply k1
    | apply k2
    | apply k3
    | dsimp only
    | split
    | refine hc.lit (by dsimp only) ?_

theorem linkUpOp_kept {P : Die → Prop} (hc : Closed P [.ledger, .limits, .links]) (l : Nat) (d : Die) (hd : P d) : P (linkUpOp l d) := by
  have k0 := @emit_kept P (hc.mono (by decide))
  have k1 := @modLink_kept P _ hc (by decide)
  have k2 := @setLoan_kept P (hc.mono (by decide))
  unfold linkUpOp
  try dsimp only
  with_reducible repeat' first
    | assumption
    | apply k0
    | apply k1
    | apply k2
    | dsimp only
    | split
    | refine hc.lit (by dsimp only) ?_

theorem retrainRecord_kept {P : Die → Prop} (hc : Closed P [.ledger]) (l : Loc) (phase us : Nat) (d : Die) (hd : P d) : P (retrainRecord l phase us d) := by
  have k0 := @emit_kept P (hc.mono (by decide))
  unfold retrainRecord
  try dsimp only
  with_reducible repeat' first
    | assumption
    | apply k0
    | dsimp only
    | split

theorem retrainBegin_kept {P : Die → Prop} (hc : Closed P [.ledger, .lanes, .links]) (l : Nat) (d : Die) (hd : P d) : P (retrainBegin l d) := by
  have k0 := @modLink_kept P _ hc (by decide)
  have k1 := @releaseLink_kept P (hc.mono (by decide))
  have k2 := @retrainRecord_kept P (hc.mono (by decide))
  unfold retrainBegin
  try dsimp only
  with_reducible repeat' first
    | assumption
    | apply k0
    | apply k1
    | apply k2
    | dsimp only
    | split
    | refine hc.lit (by dsimp only) ?_

theorem retrainEnd_kept {P : Die → Prop} (hc : Closed P [.ledger, .links]) (l : Nat) (d : Die) (hd : P d) : P (retrainEnd l d) := by
  have k0 := @modLink_kept P _ hc (by decide)
  have k1 := @retrainRecord_kept P (hc.mono (by decide))
  unfold retrainEnd
  try dsimp only
  with_reducible repeat' first
    | assumption
    | apply k0
    | apply k1
    | dsimp only
    | split
    | refine hc.lit (by dsimp only) ?_

theorem hbmBegin_kept {P : Die → Prop} (hc : Closed P [.ledger, .hbm]) (i : Nat) (d : Die) (hd : P d) : P (hbmBegin i d) := by
  have k0 := @retrainRecord_kept P (hc.mono (by decide))
  unfold hbmBegin
  with_reducible repeat' first
    | assumption
    | apply k0
    | split
    | apply hc.hbm (by decide)

theorem hbmEnd_kept {P : Die → Prop} (hc : Closed P [.ledger, .hbm]) (i : Nat) (d : Die) (hd : P d) : P (hbmEnd i d) := by
  have k0 := @retrainRecord_kept P (hc.mono (by decide))
  unfold hbmEnd
  with_reducible repeat' first
    | assumption
    | apply k0
    | split
    | apply hc.hbm (by decide)

theorem refSwitch_kept {P : Die → Prop} (hc : Closed P [.clocks, .ledger]) (n cause : Nat) (d : Die) (hd : P d) : P (refSwitch n cause d) := by
  have k0 := @emit_kept P (hc.mono (by decide))
  unfold refSwitch
  try dsimp only
  with_reducible repeat' first
    | assumption
    | apply k0
    | dsimp only
    | split
    | refine hc.lit (by dsimp only) ?_

theorem noReference_kept {P : Die → Prop} (hc : Closed P [.tally, .clocks, .startup, .stop, .regs, .ledger, .store, .limits, .islands, .regions, .synths, .ends, .links, .rails, .contexts, .commits, .commitReqs]) (d : Die) (hd : P d) : P (noReference d) := by
  have k0 := @fabricFault_kept P (hc.mono (by decide))
  have k1 := @modTally_kept P (hc.mono (by decide))
  unfold noReference
  try dsimp only
  with_reducible repeat' first
    | assumption
    | apply k0
    | apply k1
    | dsimp only
    | split
    | refine hc.lit (by dsimp only) ?_

theorem refLost_kept {P : Die → Prop} (hc : Closed P [.tally, .clocks, .startup, .stop, .regs, .ledger, .store, .limits, .islands, .regions, .synths, .ends, .links, .rails, .contexts, .commits, .commitReqs]) (n cause : Nat) (d : Die) (hd : P d) : P (refLost n cause d) := by
  have k0 := @emit_kept P (hc.mono (by decide))
  have k1 := @emitRetire_kept P (hc.mono (by decide))
  have k2 := @modRef_kept P (hc.mono (by decide))
  have k3 := @noReference_kept P (hc.mono (by decide))
  have k4 := @refSwitch_kept P (hc.mono (by decide))
  unfold refLost
  try dsimp only
  with_reducible repeat' first
    | assumption
    | apply k0
    | apply k1
    | apply k2
    | apply k3
    | apply k4
    | dsimp only
    | split
    | refine hc.lit (by dsimp only) ?_

theorem refActivityLoss_kept {P : Die → Prop} (hc : Closed P [.tally, .clocks, .startup, .stop, .regs, .ledger, .store, .limits, .islands, .regions, .synths, .ends, .links, .rails, .contexts, .commits, .commitReqs]) (n : Nat) (d : Die) (hd : P d) : P (refActivityLoss n d) := by
  have k0 := @modRef_kept P (hc.mono (by decide))
  have k1 := @refLost_kept P (hc.mono (by decide))
  unfold refActivityLoss
  try dsimp only
  with_reducible repeat' first
    | assumption
    | apply k0
    | apply k1
    | dsimp only
    | split
    | refine hc.lit (by dsimp only) ?_

theorem refSelect_kept {P : Die → Prop} (hc : Closed P [.clocks, .ledger]) (n : Nat) (d : Die) (hd : P d) : P (refSelect n d) := by
  have k0 := @refSwitch_kept P (hc.mono (by decide))
  unfold refSelect
  try dsimp only
  with_reducible repeat' first
    | assumption
    | apply k0
    | dsimp only
    | split
    | refine hc.lit (by dsimp only) ?_

theorem refWindow_kept {P : Die → Prop} (hc : Closed P [.tally, .clocks, .startup, .stop, .regs, .ledger, .store, .limits, .islands, .regions, .synths, .ends, .links, .rails, .contexts, .commits, .commitReqs]) (n count : Nat) (d : Die) (hd : P d) : P (refWindow n count d) := by
  have k0 := @emit_kept P (hc.mono (by decide))
  have k1 := @modRef_kept P (hc.mono (by decide))
  have k2 := @refLost_kept P (hc.mono (by decide))
  have k3 := @refSelect_kept P (hc.mono (by decide))
  unfold refWindow
  try dsimp only
  with_reducible repeat' first
    | assumption
    | apply k0
    | apply k1
    | apply k2
    | apply k3
    | dsimp only
    | split
    | refine hc.lit (by dsimp only) ?_

theorem noReferenceTimeout_kept {P : Die → Prop} (hc : Closed P [.tally, .clocks, .startup, .stop, .regs, .ledger, .store, .limits, .islands, .regions, .synths, .ends, .links, .rails, .contexts, .commits, .commitReqs]) (d : Die) (hd : P d) : P (noReferenceTimeout d) := by
  have k0 := @noReference_kept P (hc.mono (by decide))
  unfold noReferenceTimeout
  try dsimp only
  with_reducible repeat' first
    | assumption
    | apply k0
    | dsimp only
    | split

theorem rootFail_kept {P : Die → Prop} (hc : Closed P [.clocks, .ledger, .store]) (n : Nat) (d : Die) (hd : P d) : P (rootFail n d) := by
  have k0 := @emitRetire_kept P (hc.mono (by decide))
  have k1 := @modRoot_kept P (hc.mono (by decide))
  unfold rootFail
  try dsimp only
  with_reducible repeat' first
    | assumption
    | apply k0
    | apply k1
    | dsimp only
    | split
    | refine hc.lit (by dsimp only) ?_

theorem rootSwitch_kept {P : Die → Prop} (hc : Closed P [.clocks, .ledger]) (cause : Nat) (errorNs : Int) (d : Die) (hd : P d) : P (rootSwitch cause errorNs d) := by
  have k0 := @emit_kept P (hc.mono (by decide))
  unfold rootSwitch
  try dsimp only
  with_reducible repeat' first
    | assumption
    | apply k0
    | dsimp only
    | split
    | refine hc.lit (by dsimp only) ?_

theorem rootLockLoss_kept {P : Die → Prop} (hc : Closed P [.tally, .clocks, .startup, .stop, .regs, .ledger, .store, .limits, .islands, .regions, .synths, .ends, .links, .rails, .contexts, .commits, .commitReqs]) (errorNs : Int) (d : Die) (hd : P d) : P (rootLockLoss errorNs d) := by
  have k0 := @bothRootsLost_kept P (hc.mono (by decide))
  have k1 := @modRoot_kept P (hc.mono (by decide))
  have k2 := @rootFail_kept P (hc.mono (by decide))
  have k3 := @rootSwitch_kept P (hc.mono (by decide))
  unfold rootLockLoss
  try dsimp only
  with_reducible repeat' first
    | assumption
    | apply k0
    | apply k1
    | apply k2
    | apply k3
    | dsimp only
    | split
    | refine hc.lit (by dsimp only) ?_

theorem rootDisagreement_kept {P : Die → Prop} (hc : Closed P [.clocks, .ledger]) (errorNs : Int) (d : Die) (hd : P d) : P (rootDisagreement errorNs d) := by
  have k0 := @rootSwitch_kept P (hc.mono (by decide))
  unfold rootDisagreement
  try dsimp only
  with_reducible repeat' first
    | assumption
    | apply k0
    | dsimp only
    | split
    | refine hc.lit (by dsimp only) ?_

theorem rootConfirm_kept {P : Die → Prop} (hc : Closed P [.tally, .clocks, .startup, .stop, .regs, .ledger, .store, .limits, .islands, .regions, .synths, .ends, .links, .rails, .contexts, .commits, .commitReqs, .fresh]) (fail0 fail1 : Bool) (d : Die) (hd : P d) : P (rootConfirm fail0 fail1 d) := by
  have k0 := @drawFree_kept P (hc.mono (by decide))
  have k1 := @rootFail_kept P (hc.mono (by decide))
  have k2 := @rootLockLoss_kept P (hc.mono (by decide))
  unfold rootConfirm
  try dsimp only
  with_reducible repeat' first
    | assumption
    | apply k0
    | apply k1
    | apply k2
    | dsimp only
    | split
    | refine hc.lit (by dsimp only) ?_

theorem rootReacquire_kept {P : Die → Prop} (hc : Closed P [.clocks]) (n : Nat) (d : Die) (hd : P d) : P (rootReacquire n d) := by
  have k0 := @modRoot_kept P (hc.mono (by decide))
  unfold rootReacquire
  try dsimp only
  with_reducible repeat' first
    | assumption
    | apply k0
    | dsimp only
    | split
    | refine hc.lit (by dsimp only) ?_

theorem rootLocked_kept {P : Die → Prop} (hc : Closed P [.tally, .clocks]) (n : Nat) (d : Die) (hd : P d) : P (rootLocked n d) := by
  have k0 := @modRoot_kept P (hc.mono (by decide))
  unfold rootLocked
  try dsimp only
  with_reducible repeat' first
    | assumption
    | apply k0
    | dsimp only
    | split
    | refine hc.lit (by dsimp only) ?_

theorem bandSearchDone_kept {P : Die → Prop} (hc : Closed P [.synths]) (r sy : Nat) (counts : List Nat) (d : Die) (hd : P d) : P (bandSearchDone r sy counts d) := by
  have k0 := @modSynth_kept P _ hc (by decide)
  unfold bandSearchDone
  try dsimp only
  with_reducible repeat' first
    | assumption
    | apply k0
    | dsimp only
    | split
    | refine hc.lit (by dsimp only) ?_

theorem lockWindow_kept {P : Die → Prop} (hc : Closed P [.ledger, .store, .islands, .regions, .synths, .ends, .watches, .messages, .contexts, .commits, .commitReqs, .queues, .sram]) (r sy count : Nat) (d : Die) (hd : P d) : P (lockWindow r sy count d) := by
  have k0 := @declareLock_kept P (hc.mono (by decide))
  have k1 := @modSynth_kept P _ hc (by decide)
  have k2 := @synthLoss_kept P (hc.mono (by decide))
  unfold lockWindow
  try dsimp only
  with_reducible repeat' first
    | assumption
    | apply k0
    | apply k1
    | apply k2
    | dsimp only
    | split
    | refine hc.lit (by dsimp only) ?_

theorem excursion_kept {P : Die → Prop} (hc : Closed P [.ledger, .store, .islands, .regions, .synths, .ends, .watches, .messages, .contexts, .commits, .commitReqs]) (r sy count : Nat) (d : Die) (hd : P d) : P (excursion r sy count d) := by
  have k0 := @synthLoss_kept P (hc.mono (by decide))
  unfold excursion
  try dsimp only
  with_reducible repeat' first
    | assumption
    | apply k0
    | dsimp only
    | split

theorem acquisitionTimeout_kept {P : Die → Prop} (hc : Closed P [.ledger, .store, .islands, .regions, .synths, .ends, .watches, .messages, .contexts, .commits, .commitReqs, .queues, .sram]) (r sy : Nat) (d : Die) (hd : P d) : P (acquisitionTimeout r sy d) := by
  have k0 := @acquisitionFail_kept P (hc.mono (by decide))
  unfold acquisitionTimeout
  try dsimp only
  with_reducible repeat' first
    | assumption
    | apply k0
    | dsimp only
    | split

theorem retryAcquire_kept {P : Die → Prop} (hc : Closed P [.synths]) (r sy : Nat) (d : Die) (hd : P d) : P (retryAcquire r sy d) := by
  have k0 := @writeSynth_kept P (hc.mono (by decide))
  unfold retryAcquire
  try dsimp only
  with_reducible repeat' first
    | assumption
    | apply k0
    | dsimp only
    | split

theorem droverRestart_kept {P : Die → Prop} (hc : Closed P [.ledger, .regions]) (r : Nat) (d : Die) (hd : P d) : P (droverRestart r d) := by
  have k0 := @droverReturn_kept P (hc.mono (by decide))
  have k1 := @emit_kept P (hc.mono (by decide))
  have k2 := @lendTo_kept P (hc.mono (by decide))
  have k3 := @modRegion_kept P _ hc (by decide)
  unfold droverRestart
  try dsimp only
  with_reducible repeat' first
    | assumption
    | apply k0
    | apply k1
    | apply k2
    | apply k3
    | dsimp only
    | split
    | refine hc.lit (by dsimp only) ?_

theorem pauseEnd_kept {P : Die → Prop} (hc : Closed P [.ledger, .regions]) (r : Nat) (d : Die) (hd : P d) : P (pauseEnd r d) := by
  have k0 := @emit_kept P (hc.mono (by decide))
  have k1 := @modRegion_kept P _ hc (by decide)
  unfold pauseEnd
  try dsimp only
  with_reducible repeat' first
    | assumption
    | apply k0
    | apply k1
    | dsimp only
    | split
    | refine hc.lit (by dsimp only) ?_

theorem injectionLock_kept {P : Die → Prop} (hc : Closed P [.ledger, .islands, .regions]) (i : Nat) (d : Die) (hd : P d) : P (injectionLock i d) := by
  have k0 := @modRing_kept P (hc.mono (by decide))
  have k1 := @pauseEnd_kept P (hc.mono (by decide))
  unfold injectionLock
  try dsimp only
  with_reducible repeat' first
    | assumption
    | apply k0
    | apply k1
    | dsimp only
    | split
    | refine hc.lit (by dsimp only) ?_

theorem injectionWindow_kept {P : Die → Prop} (hc : Closed P [.ledger, .islands, .regions]) (i periods : Nat) (d : Die) (hd : P d) : P (injectionWindow i periods d) := by
  have k0 := @acquire_kept P (hc.mono (by decide))
  have k1 := @injectionLock_kept P (hc.mono (by decide))
  have k2 := @modRing_kept P (hc.mono (by decide))
  unfold injectionWindow
  try dsimp only
  with_reducible repeat' first
    | assumption
    | apply k0
    | apply k1
    | apply k2
    | dsimp only
    | split
    | refine hc.lit (by dsimp only) ?_

theorem injectionTimeout_kept {P : Die → Prop} (hc : Closed P [.ledger, .store, .islands]) (i : Nat) (d : Die) (hd : P d) : P (injectionTimeout i d) := by
  have k0 := @acquire_kept P (hc.mono (by decide))
  have k1 := @bellowsRetire_kept P (hc.mono (by decide))
  have k2 := @emit_kept P (hc.mono (by decide))
  have k3 := @modRing_kept P (hc.mono (by decide))
  unfold injectionTimeout
  try dsimp only
  with_reducible repeat' first
    | assumption
    | apply k0
    | apply k1
    | apply k2
    | apply k3
    | dsimp only
    | split
    | refine hc.lit (by dsimp only) ?_

theorem settleDone_kept {P : Die → Prop} (hc : Closed P [.islands]) (i : Nat) (d : Die) (hd : P d) : P (settleDone i d) := by
  have k0 := @acquire_kept P (hc.mono (by decide))
  unfold settleDone
  try dsimp only
  with_reducible repeat' first
    | assumption
    | apply k0
    | dsimp only
    | split

theorem injectionResume_kept {P : Die → Prop} (hc : Closed P [.islands]) (i : Nat) (d : Die) (hd : P d) : P (injectionResume i d) := by
  have k0 := @modRing_kept P (hc.mono (by decide))
  unfold injectionResume
  try dsimp only
  with_reducible repeat' first
    | assumption
    | apply k0
    | dsimp only
    | split
    | refine hc.lit (by dsimp only) ?_

theorem phaseStep_kept {P : Die → Prop} (hc : Closed P [.islands]) (i tFree : Nat) (d : Die) (hd : P d) : P (phaseStep i tFree d) := by
  have k0 := @modRing_kept P (hc.mono (by decide))
  unfold phaseStep
  try dsimp only
  with_reducible repeat' first
    | assumption
    | apply k0
    | dsimp only
    | split
    | refine hc.lit (by dsimp only) ?_

theorem blindCheck_kept {P : Die → Prop} (hc : Closed P [.ledger, .store, .islands]) (i k : Nat) (d : Die) (hd : P d) : P (blindCheck i k d) := by
  have k0 := @bellowsRetire_kept P (hc.mono (by decide))
  have k1 := @emit_kept P (hc.mono (by decide))
  have k2 := @modMargin_kept P (hc.mono (by decide))
  unfold blindCheck
  try dsimp only
  with_reducible repeat' first
    | assumption
    | apply k0
    | apply k1
    | apply k2
    | dsimp only
    | split
    | refine hc.lit (by dsimp only) ?_

theorem replicaFail_kept {P : Die → Prop} (hc : Closed P [.ledger, .store, .islands]) (i j : Nat) (d : Die) (hd : P d) : P (replicaFail i j d) := by
  have k0 := @blindCheck_kept P (hc.mono (by decide))
  have k1 := @emit_kept P (hc.mono (by decide))
  have k2 := @emitRetire_kept P (hc.mono (by decide))
  have k3 := @modMargin_kept P (hc.mono (by decide))
  unfold replicaFail
  try dsimp only
  with_reducible repeat' first
    | assumption
    | apply k0
    | apply k1
    | apply k2
    | apply k3
    | dsimp only
    | split
    | refine hc.lit (by dsimp only) ?_

theorem disagreementResolved_kept {P : Die → Prop} (hc : Closed P [.ledger, .store, .islands]) (i j : Nat) (d : Die) (hd : P d) : P (disagreementResolved i j d) := by
  have k0 := @emit_kept P (hc.mono (by decide))
  have k1 := @modMargin_kept P (hc.mono (by decide))
  have k2 := @replicaFail_kept P (hc.mono (by decide))
  unfold disagreementResolved
  try dsimp only
  with_reducible repeat' first
    | assumption
    | apply k0
    | apply k1
    | apply k2
    | dsimp only
    | split
    | refine hc.lit (by dsimp only) ?_

theorem marginRequest_kept {P : Die → Prop} (hc : Closed P [.ledger, .regions, .commitReqs]) (r i : Nat) (d : Die) (hd : P d) : P (marginRequest r i d) := by
  have k0 := @emit_kept P (hc.mono (by decide))
  have k1 := @modRegion_kept P _ hc (by decide)
  have k2 := @setCeiling_kept P (hc.mono (by decide))
  unfold marginRequest
  try dsimp only
  with_reducible repeat' first
    | assumption
    | apply k0
    | apply k1
    | apply k2
    | dsimp only
    | split
    | refine hc.lit (by dsimp only) ?_

theorem regionInterval_kept {P : Die → Prop} (hc : Closed P [.ledger, .islands, .regions, .commitReqs]) (r : Nat) (d : Die) (hd : P d) : P (regionInterval r d) := by
  have k0 := @marginRequest_kept P (hc.mono (by decide))
  have k1 := @modMargin_kept P (hc.mono (by decide))
  have k2 := @modRegion_kept P _ hc (by decide)
  unfold regionInterval
  try dsimp only
  with_reducible repeat' first
    | assumption
    | (refine each_kept (fun _ _ _ => ?_) ?_)
    | apply k0
    | apply k1
    | apply k2
    | dsimp only
    | split
    | refine hc.lit (by dsimp only) ?_

theorem alertIntervalEnd_kept {P : Die → Prop} (hc : Closed P [.ledger, .islands, .regions, .commitReqs]) (d : Die) (hd : P d) : P (alertIntervalEnd d) := by
  have k0 := @regionInterval_kept P (hc.mono (by decide))
  unfold alertIntervalEnd
  try dsimp only
  with_reducible repeat' first
    | assumption
    | (refine each_kept (fun _ _ _ => ?_) ?_)
    | apply k0
    | dsimp only
    | split

theorem marginRelease_kept {P : Die → Prop} (hc : Closed P [.ledger, .regions, .commitReqs]) (r : Nat) (d : Die) (hd : P d) : P (marginRelease r d) := by
  have k0 := @emit_kept P (hc.mono (by decide))
  have k1 := @modRegion_kept P _ hc (by decide)
  have k2 := @setCeiling_kept P (hc.mono (by decide))
  unfold marginRelease
  try dsimp only
  with_reducible repeat' first
    | assumption
    | apply k0
    | apply k1
    | apply k2
    | dsimp only
    | split
    | refine hc.lit (by dsimp only) ?_

theorem clearStep_kept {P : Die → Prop} (hc : Closed P [.islands]) (i : Nat) (d : Die) (hd : P d) : P (clearStep i d) := by
  have k0 := @modIsland_kept P _ hc (by decide)
  unfold clearStep
  try dsimp only
  with_reducible repeat' first
    | assumption
    | apply k0
    | dsimp only
    | split
    | refine hc.lit (by dsimp only) ?_

theorem unplannedStep_kept {P : Die → Prop} (hc : Closed P [.islands]) (d : Die) (hd : P d) : P (unplannedStep d) := by
  have k0 := @clearStep_kept P (hc.mono (by decide))
  unfold unplannedStep
  try dsimp only
  with_reducible repeat' first
    | assumption
    | apply k0
    | (refine each_kept (fun _ _ _ => ?_) ?_)
    | dsimp only
    | split

theorem patternGrant_kept {P : Die → Prop} (hc : Closed P [.ledger, .commitReqs]) (c : Commit) (late regrant : Bool) (deferred : RegionSet) (d : Die) (hd : P d) : P (patternGrant c late regrant deferred d) := by
  have k0 := @emit_kept P (hc.mono (by decide))
  have k1 := @regrant_kept P (hc.mono (by decide))
  unfold patternGrant
  try dsimp only
  with_reducible repeat' first
    | assumption
    | apply k0
    | apply k1
    | dsimp only
    | split

theorem commitAccept_kept {P : Die → Prop} (hc : Closed P [.ledger, .regions, .synths, .commits, .commitReqs, .nextCommit]) (d : Die) (hd : P d) : P (commitAccept d) := by
  have k0 := @acceptCommit_kept P (hc.mono (by decide))
  have k1 := @patternGrant_kept P (hc.mono (by decide))
  have k2 := @regrant_kept P (hc.mono (by decide))
  unfold commitAccept
  try dsimp only
  with_reducible repeat' first
    | assumption
    | apply k0
    | apply k1
    | apply k2
    | dsimp only
    | split
    | refine hc.lit (by dsimp only) ?_

theorem voltageRise_kept {P : Die → Prop} (hc : Closed P [.rails, .commits]) (id : Nat) (d : Die) (hd : P d) : P (voltageRise id d) := by
  have k0 := @modCommit_kept P (hc.mono (by decide))
  have k1 := @retarget_kept P (hc.mono (by decide))
  unfold voltageRise
  try dsimp only
  with_reducible repeat' first
    | assumption
    | (refine each_kept (fun _ _ _ => ?_) ?_)
    | apply k0
    | apply k1
    | dsimp only
    | split
    | refine hc.lit (by dsimp only) ?_

theorem commitDecision_kept {P : Die → Prop} (hc : Closed P [.ledger, .regions, .synths, .commits, .commitReqs]) (id : Nat) (d : Die) (hd : P d) : P (commitDecision id d) := by
  have k0 := @abortCommit_kept P (hc.mono (by decide))
  have k1 := @modCommit_kept P (hc.mono (by decide))
  unfold commitDecision
  try dsimp only
  with_reducible repeat' first
    | assumption
    | apply k0
    | apply k1
    | dsimp only
    | split
    | refine hc.lit (by dsimp only) ?_

theorem commitStrobe_kept {P : Die → Prop} (hc : Closed P [.ledger, .regions, .commits, .commitReqs]) (id : Nat) (d : Die) (hd : P d) : P (commitStrobe id d) := by
  have k0 := @commitDone_kept P (hc.mono (by decide))
  have k1 := @modCommit_kept P (hc.mono (by decide))
  unfold commitStrobe
  try dsimp only
  with_reducible repeat' first
    | assumption
    | apply k0
    | apply k1
    | dsimp only
    | split
    | refine hc.lit (by dsimp only) ?_

theorem pauseIslands_kept {P : Die → Prop} (hc : Closed P [.islands]) (r k t : Nat) (d : Die) (hd : P d) : P (pauseIslands r k t d) := by
  have k0 := @acquire_kept P (hc.mono (by decide))
  have k1 := @modRing_kept P (hc.mono (by decide))
  unfold pauseIslands
  try dsimp only
  with_reducible repeat' first
    | assumption
    | apply k0
    | (refine each_kept (fun _ _ _ => ?_) ?_)
    | apply k1
    | dsimp only
    | split
    | refine hc.lit (by dsimp only) ?_

theorem memberSwitched_kept {P : Die → Prop} (hc : Closed P [.ledger, .islands, .regions, .commits]) (c : Commit) (r : Nat) (offset : Int) (d : Die) (hd : P d) : P (memberSwitched c r offset d) := by
  have k0 := @clearRuns_kept P (hc.mono (by decide))
  have k1 := @fastStep_kept P (hc.mono (by decide))
  have k2 := @modCommit_kept P (hc.mono (by decide))
  have k3 := @modRegion_kept P _ hc (by decide)
  unfold memberSwitched
  try dsimp only
  with_reducible repeat' first
    | assumption
    | apply k0
    | apply k1
    | apply k2
    | apply k3
    | dsimp only
    | split
    | refine hc.lit (by dsimp only) ?_

theorem switchingInstant_kept {P : Die → Prop} (hc : Closed P [.ledger, .islands, .regions, .synths, .commits, .commitReqs]) (r : Nat) (offset : Int) (d : Die) (hd : P d) : P (switchingInstant r offset d) := by
  have k0 := @adoptOpp_kept P (hc.mono (by decide))
  have k1 := @commitDone_kept P (hc.mono (by decide))
  have k2 := @emit_kept P (hc.mono (by decide))
  have k3 := @memberSwitched_kept P (hc.mono (by decide))
  have k4 := @modCommit_kept P (hc.mono (by decide))
  have k5 := @modRegion_kept P _ hc (by decide)
  have k6 := @pauseEnd_kept P (hc.mono (by decide))
  have k7 := @pauseIslands_kept P (hc.mono (by decide))
  have k8 := @retuneStandby_kept P (hc.mono (by decide))
  have k9 := @selectSynth_kept P (hc.mono (by decide))
  have k10 := @stopSynths_kept P (hc.mono (by decide))
  unfold switchingInstant
  try dsimp only
  with_reducible repeat' first
    | assumption
    | apply k0
    | apply k1
    | apply k2
    | apply k3
    | apply k4
    | apply k5
    | apply k6
    | apply k7
    | apply k8
    | apply k9
    | apply k10
    | dsimp only
    | split
    | refine hc.lit (by dsimp only) ?_

theorem voltageFall_kept {P : Die → Prop} (hc : Closed P [.rails, .commits]) (id : Nat) (d : Die) (hd : P d) : P (voltageFall id d) := by
  have k0 := @retarget_kept P (hc.mono (by decide))
  unfold voltageFall
  try dsimp only
  with_reducible repeat' first
    | assumption
    | (refine each_kept (fun _ _ _ => ?_) ?_)
    | apply k0
    | dsimp only
    | split
    | refine hc.lit (by dsimp only) ?_

theorem settlementRequest_kept {P : Die → Prop} (hc : Closed P [.regions, .commitReqs]) (r : Nat) (d : Die) (hd : P d) : P (settlementRequest r d) := by
  have k0 := @joinRequest_kept P (hc.mono (by decide))
  have k1 := @modRegion_kept P _ hc (by decide)
  unfold settlementRequest
  try dsimp only
  with_reducible repeat' first
    | assumption
    | apply k0
    | apply k1
    | dsimp only
    | split
    | refine hc.lit (by dsimp only) ?_

theorem restoringRetry_kept {P : Die → Prop} (hc : Closed P [.regions, .commitReqs]) (r : Nat) (d : Die) (hd : P d) : P (restoringRetry r d) := by
  have k0 := @modRegion_kept P _ hc (by decide)
  have k1 := @restore_kept P (hc.mono (by decide))
  have k2 := @settlementRequest_kept P (hc.mono (by decide))
  unfold restoringRetry
  try dsimp only
  with_reducible repeat' first
    | assumption
    | apply k0
    | apply k1
    | apply k2
    | dsimp only
    | split
    | refine hc.lit (by dsimp only) ?_

theorem pauseLend_kept {P : Die → Prop} (hc : Closed P [.ledger, .islands, .regions, .synths, .commits, .commitReqs]) (r : Nat) (d : Die) (hd : P d) : P (pauseLend r d) := by
  have k0 := @abortCommit_kept P (hc.mono (by decide))
  have k1 := @deselect_kept P (hc.mono (by decide))
  have k2 := @droverLend_kept P (hc.mono (by decide))
  have k3 := @modCommit_kept P (hc.mono (by decide))
  have k4 := @writeSynth_kept P (hc.mono (by decide))
  unfold pauseLend
  try dsimp only
  with_reducible repeat' first
    | assumption
    | apply k0
    | apply k1
    | (refine k2 ?_ (by assumption))
    | apply k3
    | apply k4
    | dsimp only
    | split
    | refine hc.lit (by dsimp only) ?_

theorem pauseGate_kept {P : Die → Prop} (hc : Closed P [.ledger, .islands, .regions]) (i : Nat) (d : Die) (hd : P d) : P (pauseGate i d) := by
  have k0 := @modRing_kept P (hc.mono (by decide))
  have k1 := @pauseEnd_kept P (hc.mono (by decide))
  unfold pauseGate
  try dsimp only
  with_reducible repeat' first
    | assumption
    | apply k0
    | apply k1
    | dsimp only
    | split
    | refine hc.lit (by dsimp only) ?_

theorem applyFence_kept {P : Die → Prop} (hc : Closed P [.ledger, .regions, .commitReqs]) (r : Nat) (on : Bool) (source : Nat) (d : Die) (hd : P d) : P (applyFence r on source d) := by
  have k0 := @changeCeilings_kept P (hc.mono (by decide))
  have k1 := @emit_kept P (hc.mono (by decide))
  unfold applyFence
  try dsimp only
  with_reducible repeat' first
    | assumption
    | apply k0
    | (refine each_kept (fun _ _ _ => ?_) ?_)
    | apply k1
    | dsimp only
    | split
    | refine hc.lit (by dsimp only) ?_

theorem actionApply_kept {P : Die → Prop} (hc : Closed P [.ledger, .regions, .commitReqs]) (r : Nat) (d : Die) (hd : P d) : P (actionApply r d) := by
  have k0 := @applyFence_kept P (hc.mono (by decide))
  have k1 := @fastStep_kept P (hc.mono (by decide))
  have k2 := @modRegion_kept P _ hc (by decide)
  unfold actionApply
  try dsimp only
  with_reducible repeat' first
    | assumption
    | apply k0
    | apply k1
    | apply k2
    | dsimp only
    | split
    | refine hc.lit (by dsimp only) ?_

theorem passAccounts_kept {P : Die → Prop} (hc : Closed P [.regions, .contexts]) (c r : Nat) (d : Die) (hd : P d) : P (passAccounts c r d) := by
  have k0 := @modContext_kept P (hc.mono (by decide))
  have k1 := @modRegion_kept P _ hc (by decide)
  unfold passAccounts
  try dsimp only
  with_reducible repeat' first
    | assumption
    | apply k0
    | apply k1
    | dsimp only
    | split
    | refine hc.lit (by dsimp only) ?_

theorem markRetired_kept {P : Die → Prop} (hc : Closed P [.ledger, .regions, .contexts]) (c : Nat) (w : WinRecord) (step : Nat) (d : Die) (hd : P d) : P (markRetired c w step d) := by
  have k0 := @emit_kept P (hc.mono (by decide))
  have k1 := @modContext_kept P (hc.mono (by decide))
  have k2 := @passAccounts_kept P (hc.mono (by decide))
  unfold markRetired
  try dsimp only
  with_reducible repeat' first
    | assumption
    | (refine each_kept (fun _ _ _ => ?_) ?_)
    | apply k0
    | apply k1
    | apply k2
    | dsimp only
    | split
    | refine hc.lit (by dsimp only) ?_

theorem retireRecord_kept {P : Die → Prop} (hc : Closed P [.ledger, .regions, .contexts]) (c : Nat) (w : WinRecord) (d : Die) (hd : P d) : P (retireRecord c w d) := by
  have k0 := @markRetired_kept P (hc.mono (by decide))
  have k1 := @modRegion_kept P _ hc (by decide)
  have k2 := hc.contexts (by decide)
  unfold retireRecord
  try dsimp only
  with_reducible repeat' first
    | assumption
    | (refine each_kept (fun _ _ _ => ?_) ?_)
    | apply k0
    | apply k1
    | apply k2
    | dsimp only
    | split
    | refine hc.lit (by dsimp only) ?_

theorem retirePass_kept {P : Die → Prop} (hc : Closed P [.ledger, .regions, .contexts]) (c : Nat) (d : Die) (hd : P d) : P (retirePass c d) := by
  have k0 := @retireRecord_kept P (hc.mono (by decide))
  unfold retirePass
  try dsimp only
  with_reducible repeat' first
    | assumption
    | (refine each_kept (fun _ _ _ => ?_) ?_)
    | apply k0
    | dsimp only
    | split

theorem missedEnd_kept {P : Die → Prop} (hc : Closed P [.ledger, .regions, .contexts]) (r : Nat) (d : Die) (hd : P d) : P (missedEnd r d) := by
  have k0 := @missedRecord_kept P (hc.mono (by decide))
  have k1 := @retirePass_kept P (hc.mono (by decide))
  unfold missedEnd
  try dsimp only
  with_reducible repeat' first
    | assumption
    | apply k0
    | apply k1
    | dsimp only
    | split

theorem segmentFreed_kept {P : Die → Prop} (hc : Closed P [.ledger]) (c : Nat) (g : Segment) (d : Die) (hd : P d) : P (segmentFreed c g d) := by
  have k0 := @emit_kept P (hc.mono (by decide))
  unfold segmentFreed
  try dsimp only
  with_reducible repeat' first
    | assumption
    | apply k0
    | dsimp only
    | split

theorem patternFault_kept {P : Die → Prop} (hc : Closed P [.ledger, .contexts]) (c reason : Nat) (d : Die) (hd : P d) : P (patternFault c reason d) := by
  have k0 := @emit_kept P (hc.mono (by decide))
  have k1 := hc.contexts (by decide)
  unfold patternFault
  try dsimp only
  with_reducible repeat' first
    | assumption
    | apply k0
    | apply k1
    | dsimp only
    | split
    | refine hc.lit (by dsimp only) ?_

theorem refuseEdges_kept {P : Die → Prop} (hc : Closed P [.ledger]) (x : Context) (edges : List Nat) (d : Die) (hd : P d) : P (refuseEdges x edges d) := by
  have k0 := @coupleRefused_kept P (hc.mono (by decide))
  unfold refuseEdges
  try dsimp only
  with_reducible repeat' first
    | assumption
    | apply k0
    | (refine each_kept (fun _ _ _ => ?_) ?_)
    | dsimp only
    | split

theorem enterWindow_kept {P : Die → Prop} (hc : Closed P [.ledger, .contexts]) (c cycle mask : Nat) (a : Action) (d : Die) (hd : P d) : P (enterWindow c cycle mask a d) := by
  have k0 := @refuseEdges_kept P (hc.mono (by decide))
  have k1 := hc.contexts (by decide)
  unfold enterWindow
  try dsimp only
  with_reducible repeat' first
    | assumption
    | apply k0
    | apply k1
    | dsimp only
    | split
    | refine hc.lit (by dsimp only) ?_

theorem patternEnd_kept {P : Die → Prop} (hc : Closed P [.ledger, .contexts]) (c cycle : Nat) (d : Die) (hd : P d) : P (patternEnd c cycle d) := by
  have k0 := @emit_kept P (hc.mono (by decide))
  have k1 := @segmentFreed_kept P (hc.mono (by decide))
  have k2 := hc.contexts (by decide)
  unfold patternEnd
  try dsimp only
  with_reducible repeat' first
    | assumption
    | (refine each_kept (fun _ _ _ => ?_) ?_)
    | apply k0
    | apply k1
    | apply k2
    | dsimp only
    | split
    | refine hc.lit (by dsimp only) ?_

theorem recordDone_kept {P : Die → Prop} (hc : Closed P [.ledger, .contexts]) (c : Nat) (d : Die) (hd : P d) : P (recordDone c d) := by
  have k0 := @segmentFreed_kept P (hc.mono (by decide))
  have k1 := hc.contexts (by decide)
  unfold recordDone
  try dsimp only
  with_reducible repeat' first
    | assumption
    | apply k0
    | apply k1
    | dsimp only
    | split
    | refine hc.lit (by dsimp only) ?_

theorem readingResumes_kept {P : Die → Prop} (hc : Closed P [.ledger, .contexts]) (c : Nat) (x : Context) (d : Die) (hd : P d) : P (readingResumes c x d) := by
  have k0 := @emit_kept P (hc.mono (by decide))
  have k1 := hc.contexts (by decide)
  unfold readingResumes
  try dsimp only
  with_reducible repeat' first
    | assumption
    | apply k0
    | apply k1
    | dsimp only
    | split
    | refine hc.lit (by dsimp only) ?_

theorem takeRecord_kept {P : Die → Prop} (hc : Closed P [.ledger, .regions, .contexts]) (c cycle : Nat) (b : Bytes) (d : Die) (hd : P d) : P (takeRecord c cycle b d) := by
  have k0 := @emit_kept P (hc.mono (by decide))
  have k1 := @enterWindow_kept P (hc.mono (by decide))
  have k2 := @patternEnd_kept P (hc.mono (by decide))
  have k3 := @recordDone_kept P (hc.mono (by decide))
  have k4 := @retirePass_kept P (hc.mono (by decide))
  have k5 := hc.contexts (by decide)
  unfold takeRecord
  try dsimp only
  with_reducible repeat' first
    | assumption
    | apply k0
    | apply k1
    | apply k2
    | apply k3
    | apply k4
    | apply k5
    | dsimp only
    | split
    | refine hc.lit (by dsimp only) ?_

theorem recordRead_kept {P : Die → Prop} (hc : Closed P [.ledger, .regions, .contexts]) (c : Nat) (b : Bytes) (d : Die) (hd : P d) : P (recordRead c b d) := by
  have k0 := @patternFault_kept P (hc.mono (by decide))
  have k1 := @readingResumes_kept P (hc.mono (by decide))
  have k2 := @retirePass_kept P (hc.mono (by decide))
  have k3 := @takeRecord_kept P (hc.mono (by decide))
  unfold recordRead
  try dsimp only
  with_reducible repeat' first
    | assumption
    | apply k0
    | apply k1
    | apply k2
    | apply k3
    | dsimp only
    | split

theorem openWindow_kept {P : Die → Prop} (hc : Closed P [.islands]) (i k first last : Nat) (d : Die) (hd : P d) : P (openWindow i k first last d) := by
  have k0 := @modRing_kept P (hc.mono (by decide))
  unfold openWindow
  try dsimp only
  with_reducible repeat' first
    | assumption
    | apply k0
    | dsimp only
    | split
    | refine hc.lit (by dsimp only) ?_

theorem overridden_kept {P : Die → Prop} (hc : Closed P [.ledger]) (r code reason cycle : Nat) (d : Die) (hd : P d) : P (overridden r code reason cycle d) := by
  have k0 := @emit_kept P (hc.mono (by decide))
  unfold overridden
  try dsimp only
  with_reducible repeat' first
    | assumption
    | apply k0
    | dsimp only
    | split

theorem applyInjection_kept {P : Die → Prop} (hc : Closed P [.ledger, .islands, .regions]) (i code cycle : Nat) (d : Die) (hd : P d) : P (applyInjection i code cycle d) := by
  have k0 := @modRegion_kept P _ hc (by decide)
  have k1 := @modRing_kept P (hc.mono (by decide))
  have k2 := @overridden_kept P (hc.mono (by decide))
  unfold applyInjection
  try dsimp only
  with_reducible repeat' first
    | assumption
    | apply k0
    | apply k1
    | apply k2
    | dsimp only
    | split
    | refine hc.lit (by dsimp only) ?_

theorem applyCouple_kept {P : Die → Prop} (hc : Closed P [.ledger, .ends]) (i : Nat) (on : Bool) (edges : List Nat) (cycle : Nat) (d : Die) (hd : P d) : P (applyCouple i on edges cycle d) := by
  have k0 := @coupleEnd_kept P (hc.mono (by decide))
  have k1 := @overridden_kept P (hc.mono (by decide))
  have k2 := @uncoupleEnd_kept P (hc.mono (by decide))
  unfold applyCouple
  try dsimp only
  with_reducible repeat' first
    | assumption
    | apply k0
    | (refine each_kept (fun _ _ _ => ?_) ?_)
    | apply k1
    | apply k2
    | dsimp only
    | split

theorem regionBoundary_kept {P : Die → Prop} (hc : Closed P [.regions, .contexts]) (c r : Nat) (d : Die) (hd : P d) : P (regionBoundary c r d) := by
  have k0 := @modContext_kept P (hc.mono (by decide))
  have k1 := @passAccounts_kept P (hc.mono (by decide))
  unfold regionBoundary
  try dsimp only
  with_reducible repeat' first
    | assumption
    | apply k0
    | apply k1
    | dsimp only
    | split
    | refine hc.lit (by dsimp only) ?_

theorem applyMark_kept {P : Die → Prop} (hc : Closed P [.islands, .regions, .contexts]) (c i : Nat) (d : Die) (hd : P d) : P (applyMark c i d) := by
  have k0 := @clearStep_kept P (hc.mono (by decide))
  have k1 := @modContext_kept P (hc.mono (by decide))
  have k2 := @regionBoundary_kept P (hc.mono (by decide))
  unfold applyMark
  try dsimp only
  with_reducible repeat' first
    | assumption
    | apply k0
    | apply k1
    | apply k2
    | dsimp only
    | split
    | refine hc.lit (by dsimp only) ?_

theorem applyFenceRecord_kept {P : Die → Prop} (hc : Closed P [.ledger, .regions, .commitReqs, .tenants]) (c i : Nat) (on : Bool) (cycle : Nat) (d : Die) (hd : P d) : P (applyFenceRecord c i on cycle d) := by
  have k0 := @applyFence_kept P (hc.mono (by decide))
  have k1 := @modRegion_kept P _ hc (by decide)
  have k2 := @modTenant_kept P _ hc (by decide)
  have k3 := @overridden_kept P (hc.mono (by decide))
  unfold applyFenceRecord
  try dsimp only
  with_reducible repeat' first
    | assumption
    | apply k0
    | (refine each_kept (fun _ _ _ => ?_) ?_)
    | apply k1
    | apply k2
    | apply k3
    | dsimp only
    | split
    | refine hc.lit (by dsimp only) ?_

theorem applyRecord_kept {P : Die → Prop} (hc : Closed P [.ledger, .islands, .regions, .ends, .contexts, .commitReqs, .tenants]) (c i : Nat) (x : Context) (w : WinRecord) (d : Die) (hd : P d) : P (applyRecord c i x w d) := by
  have k0 := @applyCouple_kept P (hc.mono (by decide))
  have k1 := @applyFenceRecord_kept P (hc.mono (by decide))
  have k2 := @applyInjection_kept P (hc.mono (by decide))
  have k3 := @applyMark_kept P (hc.mono (by decide))
  have k4 := @openWindow_kept P (hc.mono (by decide))
  unfold applyRecord
  try dsimp only
  with_reducible repeat' first
    | assumption
    | apply k0
    | apply k1
    | apply k2
    | apply k3
    | apply k4
    | dsimp only
    | split

theorem markApplied_kept {P : Die → Prop} (hc : Closed P [.contexts]) (c n i : Nat) (d : Die) (hd : P d) : P (markApplied c n i d) := by
  have k0 := @modContext_kept P (hc.mono (by decide))
  unfold markApplied
  try dsimp only
  with_reducible repeat' first
    | assumption
    | apply k0
    | dsimp only
    | split
    | refine hc.lit (by dsimp only) ?_

theorem applyOne_kept {P : Die → Prop} (hc : Closed P [.ledger, .islands, .regions, .ends, .contexts, .commitReqs, .tenants]) (c i n : Nat) (d : Die) (hd : P d) : P (applyOne c i n d) := by
  have k0 := @applyRecord_kept P (hc.mono (by decide))
  have k1 := @markApplied_kept P (hc.mono (by decide))
  unfold applyOne
  try dsimp only
  with_reducible repeat' first
    | assumption
    | apply k0
    | apply k1
    | dsimp only
    | split

theorem actionsAt_kept {P : Die → Prop} (hc : Closed P [.ledger, .islands, .regions, .ends, .contexts, .commitReqs, .tenants]) (i : Nat) (d : Die) (hd : P d) : P (actionsAt i d) := by
  have k0 := @applyOne_kept P (hc.mono (by decide))
  have k1 := @retirePass_kept P (hc.mono (by decide))
  unfold actionsAt
  try dsimp only
  with_reducible repeat' first
    | assumption
    | apply k0
    | (refine each_kept (fun _ _ _ => ?_) ?_)
    | apply k1
    | dsimp only
    | split

theorem issueRequest_kept {P : Die → Prop} (hc : Closed P [.ledger, .regions, .commitReqs]) (c opp : Nat) (regions : List Nat) (late : Bool) (d : Die) (hd : P d) : P (issueRequest c opp regions late d) := by
  have k0 := @modRegion_kept P _ hc (by decide)
  have k1 := @throttleUpdate_kept P (hc.mono (by decide))
  unfold issueRequest
  try dsimp only
  with_reducible repeat' first
    | assumption
    | (refine each_kept (fun _ _ _ => ?_) ?_)
    | apply k0
    | apply k1
    | dsimp only
    | split
    | refine hc.lit (by dsimp only) ?_

theorem requestIssue_kept {P : Die → Prop} (hc : Closed P [.ledger, .regions, .contexts, .commitReqs]) (c : Nat) (d : Die) (hd : P d) : P (requestIssue c d) := by
  have k0 := @issueRequest_kept P (hc.mono (by decide))
  have k1 := hc.contexts (by decide)
  unfold requestIssue
  try dsimp only
  with_reducible repeat' first
    | assumption
    | apply k0
    | apply k1
    | dsimp only
    | split
    | refine hc.lit (by dsimp only) ?_

theorem certAssembly_kept {P : Die → Prop} (hc : Closed P [.ledger, .contexts, .fresh]) (c : Nat) (d : Die) (hd : P d) : P (certAssembly c d) := by
  have k0 := @drawFree_kept P (hc.mono (by decide))
  have k1 := @emit_kept P (hc.mono (by decide))
  have k2 := hc.contexts (by decide)
  unfold certAssembly
  try dsimp only
  with_reducible repeat' first
    | assumption
    | apply k0
    | apply k1
    | apply k2
    | dsimp only
    | split
    | refine hc.lit (by dsimp only) ?_

theorem uncoupleBorders_kept {P : Die → Prop} (hc : Closed P [.ledger, .ends]) (r : Nat) (d : Die) (hd : P d) : P (uncoupleBorders r d) := by
  have k0 := @uncoupleEnd_kept P (hc.mono (by decide))
  unfold uncoupleBorders
  try dsimp only
  with_reducible repeat' first
    | assumption
    | (refine each_kept (fun _ _ _ => ?_) ?_)
    | apply k0
    | dsimp only
    | split

theorem moveRegion_kept {P : Die → Prop} (hc : Closed P [.ledger, .regions, .ends, .commitReqs]) (r : Nat) (d : Die) (hd : P d) : P (moveRegion r d) := by
  have k0 := @applyFence_kept P (hc.mono (by decide))
  have k1 := @emit_kept P (hc.mono (by decide))
  have k2 := @modRegion_kept P _ hc (by decide)
  have k3 := @uncoupleBorders_kept P (hc.mono (by decide))
  unfold moveRegion
  try dsimp only
  with_reducible repeat' first
    | assumption
    | apply k0
    | apply k1
    | apply k2
    | apply k3
    | dsimp only
    | split
    | refine hc.lit (by dsimp only) ?_

theorem acceptMove_kept {P : Die → Prop} (hc : Closed P [.regions]) (r o : Nat) (d : Die) (hd : P d) : P (acceptMove r o d) := by
  have k0 := @modRegion_kept P _ hc (by decide)
  unfold acceptMove
  try dsimp only
  with_reducible repeat' first
    | assumption
    | apply k0
    | dsimp only
    | split
    | refine hc.lit (by dsimp only) ?_

theorem chargeRail_kept {P : Die → Prop} (hc : Closed P [.rails]) (k dyn leak cal : Nat) (d : Die) (hd : P d) : P (chargeRail k dyn leak cal d) := by
  have k0 := @modRail_kept P _ hc (by decide)
  unfold chargeRail
  try dsimp only
  with_reducible repeat' first
    | assumption
    | apply k0
    | dsimp only
    | split
    | refine hc.lit (by dsimp only) ?_

theorem chargeTenant_kept {P : Die → Prop} (hc : Closed P [.tenants]) (o raw cal : Nat) (d : Die) (hd : P d) : P (chargeTenant o raw cal d) := by
  have k0 := @modTenant_kept P _ hc (by decide)
  unfold chargeTenant
  try dsimp only
  with_reducible repeat' first
    | assumption
    | apply k0
    | dsimp only
    | split
    | refine hc.lit (by dsimp only) ?_

theorem creditOwners_kept {P : Die → Prop} (hc : Closed P [.tenants]) (r : Nat) (f : Figures) (hops : List Nat) (d : Die) (hd : P d) : P (creditOwners r f hops d) := by
  have k0 := @chargeTenant_kept P (hc.mono (by decide))
  unfold creditOwners
  try dsimp only
  with_reducible repeat' first
    | assumption
    | apply k0
    | (refine each_kept (fun _ _ _ => ?_) ?_)
    | dsimp only
    | split

theorem regionInterval'_kept {P : Die → Prop} (hc : Closed P [.limits, .regions, .rails, .tenants]) (counts : List Activity) (r : Nat) (d : Die) (hd : P d) : P (regionInterval' counts r d) := by
  have k0 := @chargeRail_kept P (hc.mono (by decide))
  have k1 := @creditOwners_kept P (hc.mono (by decide))
  have k2 := @modRegion_kept P _ hc (by decide)
  unfold regionInterval'
  try dsimp only
  with_reducible repeat' first
    | assumption
    | apply k0
    | apply k1
    | apply k2
    | dsimp only
    | split
    | refine hc.lit (by dsimp only) ?_

theorem creditUpdate_kept {P : Die → Prop} (hc : Closed P [.limits]) (e : Nat) (d : Die) (hd : P d) : P (creditUpdate e d) := by
  unfold creditUpdate
  try dsimp only
  with_reducible repeat' first
    | assumption
    | dsimp only
    | split
    | refine hc.lit (by dsimp only) ?_

theorem pushVariation_kept {P : Die → Prop} (hc : Closed P [.limits]) (key : Nat) (d : Die) (hd : P d) : P (pushVariation key d) := by
  unfold pushVariation
  try dsimp only
  with_reducible repeat' first
    | assumption
    | dsimp only
    | split
    | refine hc.lit (by dsimp only) ?_

theorem closeWindow_kept {P : Die → Prop} (hc : Closed P [.limits, .islands, .regions, .rails]) (e : Nat) (d : Die) (hd : P d) : P (closeWindow e d) := by
  have k0 := @modMargin_kept P (hc.mono (by decide))
  have k1 := @modRail_kept P _ hc (by decide)
  have k2 := @modRegion_kept P _ hc (by decide)
  have k3 := @pushVariation_kept P (hc.mono (by decide))
  unfold closeWindow
  try dsimp only
  with_reducible repeat' first
    | assumption
    | (refine each_kept (fun _ _ _ => ?_) ?_)
    | apply k0
    | apply k1
    | apply k2
    | apply k3
    | dsimp only
    | split
    | refine hc.lit (by dsimp only) ?_

theorem beginInterval_kept {P : Die → Prop} (hc : Closed P [.ledger, .regions, .ends, .rails, .commitReqs]) (d : Die) (hd : P d) : P (beginInterval d) := by
  have k0 := @modRail_kept P _ hc (by decide)
  have k1 := @modRegion_kept P _ hc (by decide)
  have k2 := @moveRegion_kept P (hc.mono (by decide))
  unfold beginInterval
  try dsimp only
  with_reducible repeat' first
    | assumption
    | (refine each_kept (fun _ _ _ => ?_) ?_)
    | apply k0
    | apply k1
    | apply k2
    | dsimp only
    | split
    | refine hc.lit (by dsimp only) ?_

theorem intervalEnd_kept {P : Die → Prop} (hc : Closed P [.ledger, .limits, .islands, .regions, .ends, .rails, .commitReqs, .tenants]) (counts : List Activity) (d : Die) (hd : P d) : P (intervalEnd counts d) := by
  have k0 := @beginInterval_kept P (hc.mono (by decide))
  have k1 := @closeWindow_kept P (hc.mono (by decide))
  have k2 := @creditUpdate_kept P (hc.mono (by decide))
  have k3 := @regionInterval'_kept P (hc.mono (by decide))
  unfold intervalEnd
  try dsimp only
  with_reducible repeat' first
    | assumption
    | apply k0
    | apply k1
    | apply k2
    | (refine each_kept (fun _ _ _ => ?_) ?_)
    | apply k3
    | dsimp only
    | split
    | refine hc.lit (by dsimp only) ?_

theorem telemetryStart_kept {P : Die → Prop} (hc : Closed P [.rails]) (d : Die) (hd : P d) : P (telemetryStart d) := by
  have k0 := @modRail_kept P _ hc (by decide)
  unfold telemetryStart
  try dsimp only
  with_reducible repeat' first
    | assumption
    | (refine each_kept (fun _ _ _ => ?_) ?_)
    | apply k0
    | dsimp only
    | split
    | refine hc.lit (by dsimp only) ?_

theorem railWindowEnd_kept {P : Die → Prop} (hc : Closed P [.ledger, .rails]) (k : Nat) (d : Die) (hd : P d) : P (railWindowEnd k d) := by
  have k0 := @emit_kept P (hc.mono (by decide))
  have k1 := @modRail_kept P _ hc (by decide)
  unfold railWindowEnd
  try dsimp only
  with_reducible repeat' first
    | assumption
    | apply k0
    | apply k1
    | dsimp only
    | split
    | refine hc.lit (by dsimp only) ?_

theorem calibrationWindowEnd_kept {P : Die → Prop} (hc : Closed P [.ledger, .rails]) (d : Die) (hd : P d) : P (calibrationWindowEnd d) := by
  have k0 := @railWindowEnd_kept P (hc.mono (by decide))
  unfold calibrationWindowEnd
  try dsimp only
  with_reducible repeat' first
    | assumption
    | (refine each_kept (fun _ _ _ => ?_) ?_)
    | apply k0
    | dsimp only
    | split

theorem updateApply_kept {P : Die → Prop} (hc : Closed P [.ledger, .rails]) (k : Nat) (d : Die) (hd : P d) : P (updateApply k d) := by
  have k0 := @emit_kept P (hc.mono (by decide))
  have k1 := @modRail_kept P _ hc (by decide)
  unfold updateApply
  try dsimp only
  with_reducible repeat' first
    | assumption
    | apply k0
    | apply k1
    | dsimp only
    | split
    | refine hc.lit (by dsimp only) ?_

theorem calibrationUpdateApply_kept {P : Die → Prop} (hc : Closed P [.ledger, .rails]) (d : Die) (hd : P d) : P (calibrationUpdateApply d) := by
  have k0 := @updateApply_kept P (hc.mono (by decide))
  unfold calibrationUpdateApply
  try dsimp only
  with_reducible repeat' first
    | assumption
    | (refine each_kept (fun _ _ _ => ?_) ?_)
    | apply k0
    | dsimp only
    | split

theorem modRaise_kept {P : Die → Prop} (hc : Closed P [.regions]) (r j : Nat) (f : Raise → Raise) (d : Die) (hd : P d) : P (modRaise r j f d) := by
  have k0 := @modRegion_kept P _ hc (by decide)
  unfold modRaise
  try dsimp only
  with_reducible repeat' first
    | assumption
    | apply k0
    | dsimp only
    | split
    | refine hc.lit (by dsimp only) ?_

theorem lowerCeiling_kept {P : Die → Prop} (hc : Closed P [.ledger, .regions, .commitReqs]) (j v r : Nat) (d : Die) (hd : P d) : P (lowerCeiling j v r d) := by
  have k0 := @modRaise_kept P (hc.mono (by decide))
  have k1 := @setCeiling_kept P (hc.mono (by decide))
  unfold lowerCeiling
  try dsimp only
  with_reducible repeat' first
    | assumption
    | apply k0
    | apply k1
    | dsimp only
    | split
    | refine hc.lit (by dsimp only) ?_

theorem closeDrain_kept {P : Die → Prop} (hc : Closed P [.ledger, .limits]) (x : LimitDrain) (d : Die) (hd : P d) : P (closeDrain x d) := by
  have k0 := @drainEnd_kept P (hc.mono (by decide))
  unfold closeDrain
  try dsimp only
  with_reducible repeat' first
    | assumption
    | apply k0
    | dsimp only
    | split
    | refine hc.lit (by dsimp only) ?_

theorem setDrain_kept {P : Die → Prop} (hc : Closed P [.limits]) (x : LimitDrain) (d : Die) (hd : P d) : P (setDrain x d) := by
  unfold setDrain
  try dsimp only
  with_reducible repeat' first
    | assumption
    | dsimp only
    | split
    | refine hc.lit (by dsimp only) ?_

theorem loopOver_kept {P : Die → Prop} (hc : Closed P [.ledger, .limits, .regions, .commitReqs]) (base : Nat → Nat) (l : Loop) (d : Die) (hd : P d) : P (loopOver base l d) := by
  have k0 := @emit_kept P (hc.mono (by decide))
  have k1 := @lowerCeiling_kept P (hc.mono (by decide))
  have k2 := @setDrain_kept P (hc.mono (by decide))
  unfold loopOver
  try dsimp only
  with_reducible repeat' first
    | assumption
    | (refine each_kept (fun _ _ _ => ?_) ?_)
    | apply k0
    | apply k1
    | apply k2
    | dsimp only
    | split
    | refine hc.lit (by dsimp only) ?_

theorem runLoop_kept {P : Die → Prop} (hc : Closed P [.ledger, .limits, .regions, .commitReqs]) (base : Nat → Nat) (l : Loop) (d : Die) (hd : P d) : P (runLoop base l d) := by
  have k0 := @closeDrain_kept P (hc.mono (by decide))
  have k1 := @loopOver_kept P (hc.mono (by decide))
  unfold runLoop
  try dsimp only
  with_reducible repeat' first
    | assumption
    | apply k0
    | apply k1
    | dsimp only
    | split

theorem raiseCeiling_kept {P : Die → Prop} (hc : Closed P [.ledger, .regions, .commitReqs]) (quiet acted : Bool) (j r : Nat) (d : Die) (hd : P d) : P (raiseCeiling quiet acted j r d) := by
  have k0 := @modRaise_kept P (hc.mono (by decide))
  have k1 := @setCeiling_kept P (hc.mono (by decide))
  unfold raiseCeiling
  try dsimp only
  with_reducible repeat' first
    | assumption
    | apply k0
    | apply k1
    | dsimp only
    | split
    | refine hc.lit (by dsimp only) ?_

theorem limitEvaluation_kept {P : Die → Prop} (hc : Closed P [.ledger, .limits, .regions, .commitReqs]) (d : Die) (hd : P d) : P (limitEvaluation d) := by
  have k0 := @raiseCeiling_kept P (hc.mono (by decide))
  have k1 := @runLoop_kept P (hc.mono (by decide))
  unfold limitEvaluation
  try dsimp only
  with_reducible repeat' first
    | assumption
    | (refine each_kept (fun _ _ _ => ?_) ?_)
    | apply k0
    | apply k1
    | dsimp only
    | split
    | refine hc.lit (by dsimp only) ?_

theorem alertEvent_kept {P : Die → Prop} (hc : Closed P [.ledger]) (k phase kind word : Nat) (d : Die) (hd : P d) : P (alertEvent k phase kind word d) := by
  have k0 := @emit_kept P (hc.mono (by decide))
  unfold alertEvent
  try dsimp only
  with_reducible repeat' first
    | assumption
    | apply k0
    | dsimp only
    | split

theorem alertLog_kept {P : Die → Prop} (hc : Closed P [.ledger, .rails]) (k phase kind : Nat) (word : Option Nat) (d : Die) (hd : P d) : P (alertLog k phase kind word d) := by
  have k0 := @alertEvent_kept P (hc.mono (by decide))
  have k1 := @avsPush_kept P (hc.mono (by decide))
  have k2 := @modRail_kept P _ hc (by decide)
  unfold alertLog
  try dsimp only
  with_reducible repeat' first
    | assumption
    | apply k0
    | apply k1
    | apply k2
    | dsimp only
    | split
    | refine hc.lit (by dsimp only) ?_

theorem setVrm_kept {P : Die → Prop} (hc : Closed P [.ledger, .regions, .commitReqs]) (slot r : Nat) (v : Option Nat) (d : Die) (hd : P d) : P (setVrm slot r v d) := by
  have k0 := @modRegion_kept P _ hc (by decide)
  have k1 := @setCeiling_kept P (hc.mono (by decide))
  unfold setVrm
  try dsimp only
  with_reducible repeat' first
    | assumption
    | apply k0
    | apply k1
    | dsimp only
    | split
    | refine hc.lit (by dsimp only) ?_

theorem alertLower_kept {P : Die → Prop} (hc : Closed P [.ledger, .regions, .rails, .commitReqs]) (k : Nat) (d : Die) (hd : P d) : P (alertLower k d) := by
  have k0 := @modRail_kept P _ hc (by decide)
  have k1 := @setVrm_kept P (hc.mono (by decide))
  unfold alertLower
  try dsimp only
  with_reducible repeat' first
    | assumption
    | (refine each_kept (fun _ _ _ => ?_) ?_)
    | apply k0
    | apply k1
    | dsimp only
    | split
    | refine hc.lit (by dsimp only) ?_

theorem alertSource_kept {P : Die → Prop} (hc : Closed P [.ledger, .regions, .rails, .commitReqs]) (k : Nat) (on : Bool) (word : Option Nat) (f : Rail → Rail) (d : Die) (hd : P d) : P (alertSource k on word f d) := by
  have k0 := @alertLog_kept P (hc.mono (by decide))
  have k1 := @alertLower_kept P (hc.mono (by decide))
  have k2 := @modRail_kept P _ hc (by decide)
  unfold alertSource
  try dsimp only
  with_reducible repeat' first
    | assumption
    | apply k0
    | apply k1
    | apply k2
    | dsimp only
    | split
    | refine hc.lit (by dsimp only) ?_

theorem statusSeen_kept {P : Die → Prop} (hc : Closed P [.ledger, .regions, .rails, .commitReqs]) (k : Nat) (alert : Bool) (word : Option Nat) (d : Die) (hd : P d) : P (statusSeen k alert word d) := by
  have k0 := @alertLower_kept P (hc.mono (by decide))
  have k1 := @alertSource_kept P (hc.mono (by decide))
  have k2 := @modRail_kept P _ hc (by decide)
  unfold statusSeen
  try dsimp only
  with_reducible repeat' first
    | assumption
    | apply k0
    | apply k1
    | apply k2
    | dsimp only
    | split
    | refine hc.lit (by dsimp only) ?_

theorem statusPoll_kept {P : Die → Prop} (hc : Closed P [.ledger, .regions, .rails, .commitReqs]) (k status : Nat) (d : Die) (hd : P d) : P (statusPoll k status d) := by
  have k0 := @statusSeen_kept P (hc.mono (by decide))
  unfold statusPoll
  try dsimp only
  with_reducible repeat' first
    | assumption
    | apply k0
    | dsimp only
    | split

theorem fallCleared_kept {P : Die → Prop} (hc : Closed P [.ledger, .regions, .rails, .commitReqs]) (k : Nat) (d : Die) (hd : P d) : P (fallCleared k d) := by
  have k0 := @modRail_kept P _ hc (by decide)
  have k1 := @setVrm_kept P (hc.mono (by decide))
  unfold fallCleared
  try dsimp only
  with_reducible repeat' first
    | assumption
    | (refine each_kept (fun _ _ _ => ?_) ?_)
    | apply k0
    | apply k1
    | dsimp only
    | split
    | refine hc.lit (by dsimp only) ?_

theorem alertRises_kept {P : Die → Prop} (hc : Closed P [.ledger, .regions, .rails, .commitReqs]) (k : Nat) (d : Die) (hd : P d) : P (alertRises k d) := by
  have k0 := @fallCleared_kept P (hc.mono (by decide))
  have k1 := @modRail_kept P _ hc (by decide)
  have k2 := @setVrm_kept P (hc.mono (by decide))
  unfold alertRises
  try dsimp only
  with_reducible repeat' first
    | assumption
    | (refine each_kept (fun _ _ _ => ?_) ?_)
    | apply k0
    | apply k1
    | apply k2
    | dsimp only
    | split
    | refine hc.lit (by dsimp only) ?_

theorem fallTimeout_kept {P : Die → Prop} (hc : Closed P [.ledger, .regions, .rails, .commitReqs]) (k status : Nat) (d : Die) (hd : P d) : P (fallTimeout k status d) := by
  have k0 := @alertEvent_kept P (hc.mono (by decide))
  have k1 := @modRail_kept P _ hc (by decide)
  have k2 := @setVrm_kept P (hc.mono (by decide))
  unfold fallTimeout
  try dsimp only
  with_reducible repeat' first
    | assumption
    | apply k0
    | (refine each_kept (fun _ _ _ => ?_) ?_)
    | apply k1
    | apply k2
    | dsimp only
    | split
    | refine hc.lit (by dsimp only) ?_

theorem fallRewrite_kept {P : Die → Prop} (hc : Closed P [.rails]) (k : Nat) (d : Die) (hd : P d) : P (fallRewrite k d) := by
  have k0 := @avsPush_kept P (hc.mono (by decide))
  have k1 := @modRail_kept P _ hc (by decide)
  unfold fallRewrite
  try dsimp only
  with_reducible repeat' first
    | assumption
    | apply k0
    | apply k1
    | dsimp only
    | split
    | refine hc.lit (by dsimp only) ?_

theorem confirmationRead_kept {P : Die → Prop} (hc : Closed P [.rails]) (k : Nat) (d : Die) (hd : P d) : P (confirmationRead k d) := by
  have k0 := @avsPush_kept P (hc.mono (by decide))
  unfold confirmationRead
  try dsimp only
  with_reducible repeat' first
    | assumption
    | apply k0
    | dsimp only
    | split

theorem railConfirmed_kept {P : Die → Prop} (hc : Closed P [.ledger, .synths, .rails]) (k : Nat) (d : Die) (hd : P d) : P (railConfirmed k d) := by
  have k0 := @alertLog_kept P (hc.mono (by decide))
  have k1 := @modRail_kept P _ hc (by decide)
  have k2 := @railsUp_kept P (hc.mono (by decide))
  unfold railConfirmed
  try dsimp only
  with_reducible repeat' first
    | assumption
    | apply k0
    | apply k1
    | apply k2
    | dsimp only
    | split
    | refine hc.lit (by dsimp only) ?_

theorem flushAlerts_kept {P : Die → Prop} (hc : Closed P [.ledger, .rails]) (k word : Nat) (d : Die) (hd : P d) : P (flushAlerts k word d) := by
  have k0 := @alertEvent_kept P (hc.mono (by decide))
  have k1 := @modRail_kept P _ hc (by decide)
  unfold flushAlerts
  try dsimp only
  with_reducible repeat' first
    | assumption
    | apply k0
    | (refine each_kept (fun _ _ _ => ?_) ?_)
    | apply k1
    | dsimp only
    | split
    | refine hc.lit (by dsimp only) ?_

theorem avsDone_kept {P : Die → Prop} (hc : Closed P [.ledger, .synths, .rails]) (k : Nat) (op : AvsOp) (resp : AvsResponse) (d : Die) (hd : P d) : P (avsDone k op resp d) := by
  have k0 := @flushAlerts_kept P (hc.mono (by decide))
  have k1 := @modRail_kept P _ hc (by decide)
  have k2 := @railConfirmed_kept P (hc.mono (by decide))
  unfold avsDone
  try dsimp only
  with_reducible repeat' first
    | assumption
    | apply k0
    | apply k1
    | apply k2
    | dsimp only
    | split
    | refine hc.lit (by dsimp only) ?_

theorem avsDead_kept {P : Die → Prop} (hc : Closed P [.ledger, .regions, .rails, .commitReqs]) (k : Nat) (op : AvsOp) (d : Die) (hd : P d) : P (avsDead k op d) := by
  have k0 := @alertSource_kept P (hc.mono (by decide))
  have k1 := @avsStart_kept P (hc.mono (by decide))
  have k2 := @flushAlerts_kept P (hc.mono (by decide))
  have k3 := @modRail_kept P _ hc (by decide)
  unfold avsDead
  try dsimp only
  with_reducible repeat' first
    | assumption
    | apply k0
    | apply k1
    | apply k2
    | apply k3
    | dsimp only
    | split
    | refine hc.lit (by dsimp only) ?_

theorem avsFrameEnd_kept {P : Die → Prop} (hc : Closed P [.stop, .ledger, .regions, .synths, .rails, .commitReqs]) (k : Nat) (resp : AvsResponse) (d : Die) (hd : P d) : P (avsFrameEnd k resp d) := by
  have k0 := @alertSource_kept P (hc.mono (by decide))
  have k1 := @avsDead_kept P (hc.mono (by decide))
  have k2 := @avsDone_kept P (hc.mono (by decide))
  have k3 := @avsStart_kept P (hc.mono (by decide))
  have k4 := @modRail_kept P _ hc (by decide)
  have k5 := @statusSeen_kept P (hc.mono (by decide))
  unfold avsFrameEnd
  try dsimp only
  with_reducible repeat' first
    | assumption
    | apply k0
    | apply k1
    | apply k2
    | apply k3
    | apply k4
    | apply k5
    | dsimp only
    | split
    | refine hc.lit (by dsimp only) ?_

theorem pmbusDone_kept {P : Die → Prop} (hc : Closed P [.stop, .rails]) (k : Nat) (resp : PmbusResponse) (d : Die) (hd : P d) : P (pmbusDone k resp d) := by
  have k0 := @modRail_kept P _ hc (by decide)
  unfold pmbusDone
  try dsimp only
  with_reducible repeat' first
    | assumption
    | apply k0
    | dsimp only
    | split
    | refine hc.lit (by dsimp only) ?_

theorem pmbusTimeout_kept {P : Die → Prop} (hc : Closed P [.rails]) (k : Nat) (d : Die) (hd : P d) : P (pmbusTimeout k d) := by
  have k0 := @modRail_kept P _ hc (by decide)
  unfold pmbusTimeout
  try dsimp only
  with_reducible repeat' first
    | assumption
    | apply k0
    | dsimp only
    | split
    | refine hc.lit (by dsimp only) ?_

theorem accessFail_kept {P : Die → Prop} (hc : Closed P [.ledger]) (l : Loc) (address opcode : Nat) (d : Die) (hd : P d) : P (accessFail l address opcode d) := by
  have k0 := @emit_kept P (hc.mono (by decide))
  unfold accessFail
  try dsimp only
  with_reducible repeat' first
    | assumption
    | apply k0
    | dsimp only
    | split

theorem drainDone_kept {P : Die → Prop} (hc : Closed P [.ledger, .queues, .sram]) (cause : Nat) (d : Die) (hd : P d) : P (drainDone cause d) := by
  have k0 := @finish_kept P (hc.mono (by decide))
  unfold drainDone
  try dsimp only
  with_reducible repeat' first
    | assumption
    | apply k0
    | dsimp only
    | split

theorem drainStop_kept {P : Die → Prop} (hc : Closed P [.regs, .ledger, .queues, .sram]) (cause : Nat) (d : Die) (hd : P d) : P (drainStop cause d) := by
  have k0 := @drainDone_kept P (hc.mono (by decide))
  have k1 := @emit_kept P (hc.mono (by decide))
  have k2 := @fabricInt_kept P (hc.mono (by decide))
  unfold drainStop
  try dsimp only
  with_reducible repeat' first
    | assumption
    | apply k0
    | apply k1
    | apply k2
    | dsimp only
    | split
    | refine hc.lit (by dsimp only) ?_

theorem streamFail_kept {P : Die → Prop} (hc : Closed P [.regs, .ledger, .contexts, .queues, .sram]) (s address : Nat) (d : Die) (hd : P d) : P (streamFail s address d) := by
  have k0 := @accessFail_kept P (hc.mono (by decide))
  have k1 := @drainStop_kept P (hc.mono (by decide))
  have k2 := @finish_kept P (hc.mono (by decide))
  have k3 := @patternFault_kept P (hc.mono (by decide))
  unfold streamFail
  try dsimp only
  with_reducible repeat' first
    | assumption
    | apply k0
    | apply k1
    | apply k2
    | apply k3
    | dsimp only
    | split
    | refine hc.lit (by dsimp only) ?_

theorem modAssay_kept {P : Die → Prop} (hc : Closed P [.store]) (f : Assay → Assay) (d : Die) (hd : P d) : P (modAssay f d) := by
  unfold modAssay
  try dsimp only
  with_reducible repeat' first
    | assumption
    | dsimp only
    | split
    | refine hc.lit (by dsimp only) ?_

theorem flagItem_kept {P : Die → Prop} (hc : Closed P [.ledger, .store]) (item st opp rep : Nat) (l : Loc) (d : Die) (hd : P d) : P (flagItem item st opp rep l d) := by
  have k0 := @emit_kept P (hc.mono (by decide))
  have k1 := @modAssay_kept P (hc.mono (by decide))
  unfold flagItem
  try dsimp only
  with_reducible repeat' first
    | assumption
    | apply k0
    | apply k1
    | dsimp only
    | split
    | refine hc.lit (by dsimp only) ?_

theorem takeValue_kept {P : Die → Prop} (hc : Closed P [.ledger, .store]) (item st opp : Nat) (l : Loc) (f : Calib → Calib) (d : Die) (hd : P d) : P (takeValue item st opp l f d) := by
  have k0 := @flagItem_kept P (hc.mono (by decide))
  have k1 := @modAssay_kept P (hc.mono (by decide))
  unfold takeValue
  try dsimp only
  with_reducible repeat' first
    | assumption
    | apply k0
    | apply k1
    | dsimp only
    | split
    | refine hc.lit (by dsimp only) ?_

theorem fall_kept {P : Die → Prop} (hc : Closed P [.store]) (st i : Nat) (d : Die) (hd : P d) : P (fall st i d) := by
  have k0 := @modAssay_kept P (hc.mono (by decide))
  unfold fall
  try dsimp only
  with_reducible repeat' first
    | assumption
    | apply k0
    | dsimp only
    | split
    | refine hc.lit (by dsimp only) ?_

theorem takeItem_kept {P : Die → Prop} (hc : Closed P [.ledger, .store]) (a : AssayItem) (d : Die) (hd : P d) : P (takeItem a d) := by
  have k0 := @fall_kept P (hc.mono (by decide))
  have k1 := @takeValue_kept P (hc.mono (by decide))
  unfold takeItem
  try dsimp only
  with_reducible repeat' first
    | assumption
    | apply k0
    | apply k1
    | dsimp only
    | split
    | refine hc.lit (by dsimp only) ?_

theorem takePlumb_kept {P : Die → Prop} (hc : Closed P [.ledger, .store]) (a : AssayItem) (d : Die) (hd : P d) : P (takePlumb a d) := by
  have k0 := @fall_kept P (hc.mono (by decide))
  have k1 := @flagItem_kept P (hc.mono (by decide))
  have k2 := @modAssay_kept P (hc.mono (by decide))
  unfold takePlumb
  try dsimp only
  with_reducible repeat' first
    | assumption
    | (refine each_kept (fun _ _ _ => ?_) ?_)
    | apply k0
    | apply k1
    | apply k2
    | dsimp only
    | split
    | refine hc.lit (by dsimp only) ?_

theorem selectReplicas_kept {P : Die → Prop} (hc : Closed P [.ledger, .store]) (i : Nat) (d : Die) (hd : P d) : P (selectReplicas i d) := by
  have k0 := @flagItem_kept P (hc.mono (by decide))
  have k1 := @modAssay_kept P (hc.mono (by decide))
  unfold selectReplicas
  try dsimp only
  with_reducible repeat' first
    | assumption
    | (refine each_kept (fun _ _ _ => ?_) ?_)
    | apply k0
    | apply k1
    | dsimp only
    | split
    | refine hc.lit (by dsimp only) ?_

theorem takeMeasured_kept {P : Die → Prop} (hc : Closed P [.ledger, .store]) (l : List AssayItem) (d : Die) (hd : P d) : P (takeMeasured l d) := by
  have k0 := @takeItem_kept P (hc.mono (by decide))
  have k1 := @takePlumb_kept P (hc.mono (by decide))
  unfold takeMeasured
  try dsimp only
  with_reducible repeat' first
    | assumption
    | (refine each_kept (fun _ _ _ => ?_) ?_)
    | apply k0
    | apply k1
    | dsimp only
    | split

theorem assayRails_kept {P : Die → Prop} (hc : Closed P [.rails]) (f : Nat → Nat) (d : Die) (hd : P d) : P (assayRails f d) := by
  have k0 := @writeTarget_kept P (hc.mono (by decide))
  unfold assayRails
  try dsimp only
  with_reducible repeat' first
    | assumption
    | (refine each_kept (fun _ _ _ => ?_) ?_)
    | apply k0
    | dsimp only
    | split

theorem phaseRails_kept {P : Die → Prop} (hc : Closed P [.rails]) (d : Die) (hd : P d) : P (phaseRails d) := by
  have k0 := @assayRails_kept P (hc.mono (by decide))
  unfold phaseRails
  try dsimp only
  with_reducible repeat' first
    | assumption
    | apply k0
    | dsimp only
    | split

theorem openLoops_kept {P : Die → Prop} (hc : Closed P [.ledger, .islands, .regions, .synths]) (r : Nat) (d : Die) (hd : P d) : P (openLoops r d) := by
  have k0 := @deselect_kept P (hc.mono (by decide))
  have k1 := @droverLend_kept P (hc.mono (by decide))
  have k2 := @powerSynth_kept P (hc.mono (by decide))
  unfold openLoops
  try dsimp only
  with_reducible repeat' first
    | assumption
    | apply k0
    | (refine k1 ?_ (by assumption))
    | apply k2
    | dsimp only
    | split

theorem closeLoops_kept {P : Die → Prop} (hc : Closed P [.synths]) (r : Nat) (d : Die) (hd : P d) : P (closeLoops r d) := by
  have k0 := @acquireBoth_kept P (hc.mono (by decide))
  unfold closeLoops
  try dsimp only
  with_reducible repeat' first
    | assumption
    | apply k0
    | dsimp only
    | split

theorem commandTurn_kept {P : Die → Prop} (hc : Closed P [.ledger, .islands, .regions, .synths]) (before after : Assay) (d : Die) (hd : P d) : P (commandTurn before after d) := by
  have k0 := @closeLoops_kept P (hc.mono (by decide))
  have k1 := @openLoops_kept P (hc.mono (by decide))
  unfold commandTurn
  try dsimp only
  with_reducible repeat' first
    | assumption
    | apply k0
    | apply k1
    | dsimp only
    | split

theorem assayStarted_kept {P : Die → Prop} (hc : Closed P [.ledger, .store, .rails]) (a : Assay) (d : Die) (hd : P d) : P (assayStarted a d) := by
  have k0 := @emit_kept P (hc.mono (by decide))
  have k1 := @modRail_kept P _ hc (by decide)
  unfold assayStarted
  try dsimp only
  with_reducible repeat' first
    | assumption
    | (refine each_kept (fun _ _ _ => ?_) ?_)
    | apply k0
    | apply k1
    | dsimp only
    | split
    | refine hc.lit (by dsimp only) ?_

theorem powerUpAssay_kept {P : Die → Prop} (hc : Closed P [.ledger, .store, .rails]) (d : Die) (hd : P d) : P (powerUpAssay d) := by
  have k0 := @assayStarted_kept P (hc.mono (by decide))
  unfold powerUpAssay
  try dsimp only
  with_reducible repeat' first
    | assumption
    | apply k0
    | dsimp only
    | split

theorem assayBegin_kept {P : Die → Prop} (hc : Closed P [.ledger, .store, .islands, .ends, .rails, .contexts]) (r : Nat) (d : Die) (hd : P d) : P (assayBegin r d) := by
  have k0 := @assayStarted_kept P (hc.mono (by decide))
  have k1 := @certMark_kept P (hc.mono (by decide))
  have k2 := @refreshIsland_kept P (hc.mono (by decide))
  have k3 := @stopBellows_kept P (hc.mono (by decide))
  unfold assayBegin
  try dsimp only
  with_reducible repeat' first
    | assumption
    | apply k0
    | apply k1
    | (refine each_kept (fun _ _ _ => ?_) ?_)
    | apply k2
    | apply k3
    | dsimp only
    | split
    | refine hc.lit (by dsimp only) ?_

theorem assayPhaseEnd_kept {P : Die → Prop} (hc : Closed P [.ledger, .store, .islands, .regions, .synths, .ends, .rails, .contexts]) (l : List AssayItem) (d : Die) (hd : P d) : P (assayPhaseEnd l d) := by
  have k0 := @assayBegin_kept P (hc.mono (by decide))
  have k1 := @commandTurn_kept P (hc.mono (by decide))
  have k2 := @modAssay_kept P (hc.mono (by decide))
  have k3 := @phaseRails_kept P (hc.mono (by decide))
  have k4 := @takeMeasured_kept P (hc.mono (by decide))
  unfold assayPhaseEnd
  try dsimp only
  with_reducible repeat' first
    | assumption
    | apply k0
    | apply k1
    | apply k2
    | apply k3
    | apply k4
    | dsimp only
    | split

theorem sensorFlags_kept {P : Die → Prop} (hc : Closed P [.ledger, .sensors]) (c : Calib) (n : Nat) (d : Die) (hd : P d) : P (sensorFlags c n d) := by
  have k0 := @emit_kept P (hc.mono (by decide))
  have k1 := @modSensor_kept P _ hc (by decide)
  unfold sensorFlags
  try dsimp only
  with_reducible repeat' first
    | assumption
    | apply k0
    | apply k1
    | dsimp only
    | split
    | refine hc.lit (by dsimp only) ?_

theorem retireFallen_kept {P : Die → Prop} (hc : Closed P [.ledger, .store, .islands]) (a : Assay) (d : Die) (hd : P d) : P (retireFallen a d) := by
  have k0 := @bellowsRetire_kept P (hc.mono (by decide))
  unfold retireFallen
  try dsimp only
  with_reducible repeat' first
    | assumption
    | apply k0
    | (refine each_kept (fun _ _ _ => ?_) ?_)
    | dsimp only
    | split

theorem loadValues_kept {P : Die → Prop} (hc : Closed P [.ledger, .store, .islands, .sensors]) (a : Assay) (d : Die) (hd : P d) : P (loadValues a d) := by
  have k0 := @modMargin_kept P (hc.mono (by decide))
  have k1 := @selectReplicas_kept P (hc.mono (by decide))
  have k2 := @sensorFlags_kept P (hc.mono (by decide))
  unfold loadValues
  try dsimp only
  with_reducible repeat' first
    | assumption
    | (refine each_kept (fun _ _ _ => ?_) ?_)
    | apply k0
    | apply k1
    | apply k2
    | dsimp only
    | split
    | refine hc.lit (by dsimp only) ?_

theorem assayDone_kept {P : Die → Prop} (hc : Closed P [.ledger]) (a : Assay) (d : Die) (hd : P d) : P (assayDone a d) := by
  have k0 := @emit_kept P (hc.mono (by decide))
  unfold assayDone
  try dsimp only
  with_reducible repeat' first
    | assumption
    | apply k0
    | dsimp only
    | split

theorem clearHops_kept {P : Die → Prop} (hc : Closed P [.synths]) (r : Nat) (d : Die) (hd : P d) : P (clearHops r d) := by
  have k0 := @modSynth_kept P _ hc (by decide)
  unfold clearHops
  try dsimp only
  with_reducible repeat' first
    | assumption
    | (refine each_kept (fun _ _ _ => ?_) ?_)
    | apply k0
    | dsimp only
    | split
    | refine hc.lit (by dsimp only) ?_

theorem assayClose_kept {P : Die → Prop} (hc : Closed P [.ledger, .store, .islands, .regions, .synths, .ends, .sensors, .contexts, .commitReqs]) (d : Die) (hd : P d) : P (assayClose d) := by
  have k0 := @assayDone_kept P (hc.mono (by decide))
  have k1 := @assayRestart_kept P (hc.mono (by decide))
  have k2 := @clearHops_kept P (hc.mono (by decide))
  have k3 := @loadValues_kept P (hc.mono (by decide))
  have k4 := @missedEnd_kept P (hc.mono (by decide))
  have k5 := @modRegion_kept P _ hc (by decide)
  have k6 := @retireFallen_kept P (hc.mono (by decide))
  have k7 := @setCeiling_kept P (hc.mono (by decide))
  unfold assayClose
  try dsimp only
  with_reducible repeat' first
    | assumption
    | apply k0
    | apply k1
    | apply k2
    | (refine each_kept (fun _ _ _ => ?_) ?_)
    | apply k3
    | apply k4
    | apply k5
    | apply k6
    | apply k7
    | dsimp only
    | split
    | refine hc.lit (by dsimp only) ?_

theorem slotRecord_kept {P : Die → Prop} (hc : Closed P [.ledger]) (n : Nat) (x : Slot) (d : Die) (hd : P d) : P (slotRecord n x d) := by
  have k0 := @emit_kept P (hc.mono (by decide))
  unfold slotRecord
  try dsimp only
  with_reducible repeat' first
    | assumption
    | apply k0
    | dsimp only
    | split

theorem coefChange_kept {P : Die → Prop} (hc : Closed P [.ledger]) (kind r : Nat) (d : Die) (hd : P d) : P (coefChange kind r d) := by
  have k0 := @emit_kept P (hc.mono (by decide))
  unfold coefChange
  try dsimp only
  with_reducible repeat' first
    | assumption
    | apply k0
    | dsimp only
    | split

theorem defaultTables_kept {P : Die → Prop} (hc : Closed P [.ledger]) (r : Nat) (d : Die) (hd : P d) : P (defaultTables r d) := by
  have k0 := @coefChange_kept P (hc.mono (by decide))
  unfold defaultTables
  try dsimp only
  with_reducible repeat' first
    | assumption
    | apply k0
    | dsimp only
    | split

theorem checkFloors_kept {P : Die → Prop} (hc : Closed P [.ledger, .store]) (i : Nat) (d : Die) (hd : P d) : P (checkFloors i d) := by
  have k0 := @emit_kept P (hc.mono (by decide))
  unfold checkFloors
  try dsimp only
  with_reducible repeat' first
    | assumption
    | (refine each_kept (fun _ _ _ => ?_) ?_)
    | apply k0
    | dsimp only
    | split
    | refine hc.lit (by dsimp only) ?_

theorem applyRetired_kept {P : Die → Prop} (hc : Closed P [.clocks, .ledger, .islands, .regions, .synths, .sensors]) (e : RetireEntry) (d : Die) (hd : P d) : P (applyRetired e d) := by
  have k0 := @emit_kept P (hc.mono (by decide))
  have k1 := @modMargin_kept P (hc.mono (by decide))
  have k2 := @modRef_kept P (hc.mono (by decide))
  have k3 := @modRegion_kept P _ hc (by decide)
  have k4 := @modRoot_kept P (hc.mono (by decide))
  have k5 := @modSensor_kept P _ hc (by decide)
  have k6 := @modSynth_kept P _ hc (by decide)
  unfold applyRetired
  try dsimp only
  with_reducible repeat' first
    | assumption
    | apply k0
    | apply k1
    | apply k2
    | apply k3
    | apply k4
    | apply k5
    | apply k6
    | dsimp only
    | split
    | refine hc.lit (by dsimp only) ?_

theorem applyList_kept {P : Die → Prop} (hc : Closed P [.clocks, .ledger, .store, .islands, .regions, .synths, .sensors]) (d : Die) (hd : P d) : P (applyList d) := by
  have k0 := @applyRetired_kept P (hc.mono (by decide))
  have k1 := @blindCheck_kept P (hc.mono (by decide))
  unfold applyList
  try dsimp only
  with_reducible repeat' first
    | assumption
    | apply k0
    | apply k1
    | (refine each_kept (fun _ _ _ => ?_) ?_)
    | dsimp only
    | split

theorem loadWork_kept {P : Die → Prop} (hc : Closed P [.ledger, .store, .rails]) (d : Die) (hd : P d) : P (loadWork d) := by
  have k0 := @checkFloors_kept P (hc.mono (by decide))
  have k1 := @modRail_kept P _ hc (by decide)
  unfold loadWork
  try dsimp only
  with_reducible repeat' first
    | assumption
    | apply k0
    | (refine each_kept (fun _ _ _ => ?_) ?_)
    | apply k1
    | dsimp only
    | split
    | refine hc.lit (by dsimp only) ?_

theorem loadStore_kept {P : Die → Prop} (hc : Closed P [.clocks, .ledger, .store, .islands, .regions, .synths, .rails, .sensors]) (seen : StartupInput) (d : Die) (hd : P d) : P (loadStore seen d) := by
  have k0 := @applyList_kept P (hc.mono (by decide))
  have k1 := @defaultTables_kept P (hc.mono (by decide))
  have k2 := @emit_kept P (hc.mono (by decide))
  have k3 := @loadWork_kept P (hc.mono (by decide))
  have k4 := @slotRecord_kept P (hc.mono (by decide))
  unfold loadStore
  try dsimp only
  with_reducible repeat' first
    | assumption
    | apply k0
    | apply k1
    | (refine each_kept (fun _ _ _ => ?_) ?_)
    | apply k2
    | apply k3
    | apply k4
    | dsimp only
    | split
    | refine hc.lit (by dsimp only) ?_

theorem setSlot_kept {P : Die → Prop} (hc : Closed P [.store]) (n : Nat) (x : Slot) (d : Die) (hd : P d) : P (setSlot n x d) := by
  unfold setSlot
  try dsimp only
  with_reducible repeat' first
    | assumption
    | dsimp only
    | split
    | refine hc.lit (by dsimp only) ?_

theorem beginWrite_kept {P : Die → Prop} (hc : Closed P [.store]) (source : Nat) (image : Calib) (key : Option (Nat × Nat)) (d : Die) (hd : P d) : P (beginWrite source image key d) := by
  have k0 := @setSlot_kept P (hc.mono (by decide))
  unfold beginWrite
  try dsimp only
  with_reducible repeat' first
    | assumption
    | apply k0
    | dsimp only
    | split
    | refine hc.lit (by dsimp only) ?_

theorem writeFail_kept {P : Die → Prop} (hc : Closed P [.ledger, .store]) (w : StoreWrite) (stage address : Nat) (d : Die) (hd : P d) : P (writeFail w stage address d) := by
  have k0 := @emit_kept P (hc.mono (by decide))
  unfold writeFail
  try dsimp only
  with_reducible repeat' first
    | assumption
    | apply k0
    | dsimp only
    | split
    | refine hc.lit (by dsimp only) ?_

theorem writeDone_kept {P : Die → Prop} (hc : Closed P [.ledger, .store]) (w : StoreWrite) (d : Die) (hd : P d) : P (writeDone w d) := by
  have k0 := @emit_kept P (hc.mono (by decide))
  have k1 := @setSlot_kept P (hc.mono (by decide))
  unfold writeDone
  try dsimp only
  with_reducible repeat' first
    | assumption
    | apply k0
    | apply k1
    | dsimp only
    | split
    | refine hc.lit (by dsimp only) ?_

theorem flashComplete_kept {P : Die → Prop} (hc : Closed P [.ledger, .store, .fresh]) (ok : Bool) (d : Die) (hd : P d) : P (flashComplete ok d) := by
  have k0 := @drawFree_kept P (hc.mono (by decide))
  have k1 := @writeDone_kept P (hc.mono (by decide))
  have k2 := @writeFail_kept P (hc.mono (by decide))
  unfold flashComplete
  try dsimp only
  with_reducible repeat' first
    | assumption
    | apply k0
    | apply k1
    | apply k2
    | dsimp only
    | split
    | refine hc.lit (by dsimp only) ?_

theorem flashTimeout_kept {P : Die → Prop} (hc : Closed P [.ledger, .store, .fresh]) (d : Die) (hd : P d) : P (flashTimeout d) := by
  have k0 := @drawFree_kept P (hc.mono (by decide))
  have k1 := @writeFail_kept P (hc.mono (by decide))
  unfold flashTimeout
  try dsimp only
  with_reducible repeat' first
    | assumption
    | apply k0
    | apply k1
    | dsimp only
    | split

theorem retireWrite_kept {P : Die → Prop} (hc : Closed P [.store]) (d : Die) (hd : P d) : P (retireWrite d) := by
  have k0 := @beginWrite_kept P (hc.mono (by decide))
  unfold retireWrite
  try dsimp only
  with_reducible repeat' first
    | assumption
    | apply k0
    | dsimp only
    | split
    | refine hc.lit (by dsimp only) ?_

theorem storeRetry_kept {P : Die → Prop} (hc : Closed P [.store]) (d : Die) (hd : P d) : P (storeRetry d) := by
  have k0 := @retireWrite_kept P (hc.mono (by decide))
  unfold storeRetry
  try dsimp only
  with_reducible repeat' first
    | assumption
    | apply k0
    | dsimp only
    | split

theorem abandonWrite_kept {P : Die → Prop} (hc : Closed P [.ledger, .store, .fresh]) (d : Die) (hd : P d) : P (abandonWrite d) := by
  have k0 := @drawFree_kept P (hc.mono (by decide))
  have k1 := @writeFail_kept P (hc.mono (by decide))
  unfold abandonWrite
  try dsimp only
  with_reducible repeat' first
    | assumption
    | apply k0
    | apply k1
    | dsimp only
    | split

theorem modCore_kept {P : Die → Prop} (hc : Closed P [.chandler]) (n : Nat) (f : Core → Core) (d : Die) (hd : P d) : P (modCore n f d) := by
  unfold modCore
  try dsimp only
  with_reducible repeat' first
    | assumption
    | dsimp only
    | split
    | refine hc.lit (by dsimp only) ?_

theorem setPair_kept {P : Die → Prop} (hc : Closed P [.chandler]) (p : Pair) (d : Die) (hd : P d) : P (setPair p d) := by
  unfold setPair
  try dsimp only
  with_reducible repeat' first
    | assumption
    | dsimp only
    | split
    | refine hc.lit (by dsimp only) ?_

theorem chandlerInt_kept {P : Die → Prop} (hc : Closed P [.queues]) (d : Die) (hd : P d) : P (chandlerInt d) := by
  have k0 := @queueInt_kept P (hc.mono (by decide))
  unfold chandlerInt
  try dsimp only
  with_reducible repeat' first
    | assumption
    | (refine each_kept (fun _ _ _ => ?_) ?_)
    | apply k0
    | dsimp only
    | split

theorem coreFailure_kept {P : Die → Prop} (hc : Closed P [.chandler]) (n : Nat) (d : Die) (hd : P d) : P (coreFailure n d) := by
  have k0 := @modCore_kept P (hc.mono (by decide))
  unfold coreFailure
  try dsimp only
  with_reducible repeat' first
    | assumption
    | apply k0
    | dsimp only
    | split
    | refine hc.lit (by dsimp only) ?_

theorem restartCore_kept {P : Die → Prop} (hc : Closed P [.ledger, .chandler]) (n : Nat) (d : Die) (hd : P d) : P (restartCore n d) := by
  have k0 := @emit_kept P (hc.mono (by decide))
  have k1 := @emitReset_kept P (hc.mono (by decide))
  have k2 := @modCore_kept P (hc.mono (by decide))
  have k3 := @setPair_kept P (hc.mono (by decide))
  unfold restartCore
  try dsimp only
  with_reducible repeat' first
    | assumption
    | apply k0
    | apply k1
    | apply k2
    | apply k3
    | dsimp only
    | split
    | refine hc.lit (by dsimp only) ?_

theorem holdOut_kept {P : Die → Prop} (hc : Closed P [.ledger, .chandler]) (n : Nat) (d : Die) (hd : P d) : P (holdOut n d) := by
  have k0 := @emit_kept P (hc.mono (by decide))
  have k1 := @modCore_kept P (hc.mono (by decide))
  have k2 := @setPair_kept P (hc.mono (by decide))
  unfold holdOut
  try dsimp only
  with_reducible repeat' first
    | assumption
    | apply k0
    | apply k1
    | apply k2
    | dsimp only
    | split
    | refine hc.lit (by dsimp only) ?_

theorem restartOrHold_kept {P : Die → Prop} (hc : Closed P [.ledger, .chandler]) (n : Nat) (d : Die) (hd : P d) : P (restartOrHold n d) := by
  have k0 := @holdOut_kept P (hc.mono (by decide))
  have k1 := @restartCore_kept P (hc.mono (by decide))
  unfold restartOrHold
  try dsimp only
  with_reducible repeat' first
    | assumption
    | apply k0
    | apply k1
    | dsimp only
    | split

theorem pairLost_kept {P : Die → Prop} (hc : Closed P [.startup, .stop, .regs, .ledger, .chandler, .store, .limits, .islands, .regions, .synths, .ends, .links, .rails, .contexts, .commits, .commitReqs]) (cause : Nat) (d : Die) (hd : P d) : P (pairLost cause d) := by
  have k0 := @fabricFault_kept P (hc.mono (by decide))
  have k1 := @setPair_kept P (hc.mono (by decide))
  unfold pairLost
  try dsimp only
  with_reducible repeat' first
    | assumption
    | apply k0
    | apply k1
    | dsimp only
    | split

theorem primaryFailed_kept {P : Die → Prop} (hc : Closed P [.startup, .stop, .regs, .ledger, .chandler, .store, .limits, .islands, .regions, .synths, .ends, .links, .rails, .contexts, .commits, .commitReqs, .queues, .fresh]) (cause : Nat) (d : Die) (hd : P d) : P (primaryFailed cause d) := by
  have k0 := @chandlerInt_kept P (hc.mono (by decide))
  have k1 := @coreFailure_kept P (hc.mono (by decide))
  have k2 := @drawFree_kept P (hc.mono (by decide))
  have k3 := @emit_kept P (hc.mono (by decide))
  have k4 := @pairLost_kept P (hc.mono (by decide))
  unfold primaryFailed
  try dsimp only
  with_reducible repeat' first
    | assumption
    | apply k0
    | apply k1
    | apply k2
    | apply k3
    | apply k4
    | dsimp only
    | split
    | refine hc.lit (by dsimp only) ?_

theorem heartbeat_kept {P : Die → Prop} (hc : Closed P [.chandler]) (d : Die) (hd : P d) : P (heartbeat d) := by
  unfold heartbeat
  try dsimp only
  with_reducible repeat' first
    | assumption
    | dsimp only
    | split
    | refine hc.lit (by dsimp only) ?_

theorem heartbeatTimeout_kept {P : Die → Prop} (hc : Closed P [.startup, .stop, .regs, .ledger, .chandler, .store, .limits, .islands, .regions, .synths, .ends, .links, .rails, .contexts, .commits, .commitReqs, .queues, .fresh]) (d : Die) (hd : P d) : P (heartbeatTimeout d) := by
  have k0 := @primaryFailed_kept P (hc.mono (by decide))
  unfold heartbeatTimeout
  try dsimp only
  with_reducible repeat' first
    | assumption
    | apply k0
    | dsimp only
    | split

theorem faultSignal_kept {P : Die → Prop} (hc : Closed P [.startup, .stop, .regs, .ledger, .chandler, .store, .limits, .islands, .regions, .synths, .ends, .links, .rails, .contexts, .commits, .commitReqs, .queues, .fresh]) (n cause : Nat) (d : Die) (hd : P d) : P (faultSignal n cause d) := by
  have k0 := @coreFailure_kept P (hc.mono (by decide))
  have k1 := @pairLost_kept P (hc.mono (by decide))
  have k2 := @primaryFailed_kept P (hc.mono (by decide))
  have k3 := @restartOrHold_kept P (hc.mono (by decide))
  unfold faultSignal
  try dsimp only
  with_reducible repeat' first
    | assumption
    | apply k0
    | apply k1
    | apply k2
    | apply k3
    | dsimp only
    | split

theorem takeoverAssay_kept {P : Die → Prop} (hc : Closed P [.ledger, .store, .islands, .regions, .synths, .ends, .rails, .commitReqs]) (d : Die) (hd : P d) : P (takeoverAssay d) := by
  have k0 := @assayAbort_kept P (hc.mono (by decide))
  have k1 := @powerUpAssay_kept P (hc.mono (by decide))
  unfold takeoverAssay
  try dsimp only
  with_reducible repeat' first
    | assumption
    | apply k0
    | apply k1
    | dsimp only
    | split

theorem takeoverComplete_kept {P : Die → Prop} (hc : Closed P [.ledger, .chandler, .store, .islands, .regions, .synths, .ends, .rails, .commitReqs, .queues]) (d : Die) (hd : P d) : P (takeoverComplete d) := by
  have k0 := @modQueue_kept P _ hc (by decide)
  have k1 := @restartOrHold_kept P (hc.mono (by decide))
  have k2 := @takeoverAssay_kept P (hc.mono (by decide))
  unfold takeoverComplete
  try dsimp only
  with_reducible repeat' first
    | assumption
    | (refine each_kept (fun _ _ _ => ?_) ?_)
    | apply k0
    | apply k1
    | apply k2
    | dsimp only
    | split
    | refine hc.lit (by dsimp only) ?_

theorem restartVerified_kept {P : Die → Prop} (hc : Closed P [.chandler]) (d : Die) (hd : P d) : P (restartVerified d) := by
  have k0 := @setPair_kept P (hc.mono (by decide))
  unfold restartVerified
  try dsimp only
  with_reducible repeat' first
    | assumption
    | apply k0
    | dsimp only
    | split

theorem chandlerSynced_kept {P : Die → Prop} (hc : Closed P [.ledger, .chandler, .queues]) (d : Die) (hd : P d) : P (chandlerSynced d) := by
  have k0 := @chandlerInt_kept P (hc.mono (by decide))
  have k1 := @emit_kept P (hc.mono (by decide))
  have k2 := @emitReset_kept P (hc.mono (by decide))
  have k3 := @modCore_kept P (hc.mono (by decide))
  have k4 := @setPair_kept P (hc.mono (by decide))
  unfold chandlerSynced
  try dsimp only
  with_reducible repeat' first
    | assumption
    | apply k0
    | apply k1
    | apply k2
    | apply k3
    | apply k4
    | dsimp only
    | split
    | refine hc.lit (by dsimp only) ?_

theorem syncTimeout_kept {P : Die → Prop} (hc : Closed P [.ledger, .chandler]) (d : Die) (hd : P d) : P (syncTimeout d) := by
  have k0 := @coreFailure_kept P (hc.mono (by decide))
  have k1 := @restartOrHold_kept P (hc.mono (by decide))
  unfold syncTimeout
  try dsimp only
  with_reducible repeat' first
    | assumption
    | apply k0
    | apply k1
    | dsimp only
    | split

end Sys2Proof.Machine
end

