-- ==== Sys2Proof/Laws/KeptSystem.lean ====
section
/-! SUPPORT. What each operation of Startup, Power, Thermal, Pool, Guard, Darni, LedgerOps, Regs leaves alone: a property that the writes of its parts keep is kept by the operation. -/

namespace Sys2Proof.Machine
open Sys2Proof
set_option Elab.async false
set_option linter.all false

theorem refreshTrip_kept {P : Die → Prop} (hc : Closed P [.stop]) (d : Die) (hd : P d) : P (refreshTrip d) := by
  unfold refreshTrip
  try dsimp only
  with_reducible repeat' first
    | assumption
    | dsimp only
    | split
    | refine hc.lit (by dsimp only) ?_

theorem trayRecord_kept {P : Die → Prop} (hc : Closed P [.regs, .ledger]) (code : Nat) (d : Die) (hd : P d) : P (trayRecord code d) := by
  have k0 := @emit_kept P (hc.mono (by decide))
  have k1 := @fabricInt_kept P (hc.mono (by decide))
  unfold trayRecord
  try dsimp only
  with_reducible repeat' first
    | assumption
    | apply k0
    | apply k1
    | dsimp only
    | split

theorem setStep_kept {P : Die → Prop} (hc : Closed P [.startup]) (n : Nat) (d : Die) (hd : P d) : P (setStep n d) := by
  unfold setStep
  try dsimp only
  with_reducible repeat' first
    | assumption
    | dsimp only
    | split
    | refine hc.lit (by dsimp only) ?_

theorem setBegun_kept {P : Die → Prop} (hc : Closed P [.startup]) (d : Die) (hd : P d) : P (setBegun d) := by
  unfold setBegun
  try dsimp only
  with_reducible repeat' first
    | assumption
    | dsimp only
    | split
    | refine hc.lit (by dsimp only) ?_

theorem startCheck_kept {P : Die → Prop} (hc : Closed P [.startup]) (d : Die) (hd : P d) : P (startCheck d) := by
  unfold startCheck
  try dsimp only
  with_reducible repeat' first
    | assumption
    | dsimp only
    | split
    | refine hc.lit (by dsimp only) ?_

theorem startupGo_kept {P : Die → Prop} (hc : Closed P [.startup, .ledger, .store, .regions, .synths, .rails]) (d : Die) (hd : P d) : P (startupGo d) := by
  have k0 := @powerUpAssay_kept P (hc.mono (by decide))
  have k1 := @railsUp_kept P (hc.mono (by decide))
  have k2 := @raiseDie_kept P (hc.mono (by decide))
  have k3 := @setBegun_kept P (hc.mono (by decide))
  have k4 := @setStep_kept P (hc.mono (by decide))
  unfold startupGo
  try dsimp only
  with_reducible repeat' first
    | assumption
    | apply k0
    | apply k1
    | apply k2
    | apply k3
    | apply k4
    | dsimp only
    | split

theorem causeReleased_kept {P : Die → Prop} (hc : Closed P [.startup, .stop, .ledger, .store, .regions, .synths, .rails, .commitReqs]) (d : Die) (hd : P d) : P (causeReleased d) := by
  have k0 := @refreshTrip_kept P (hc.mono (by decide))
  have k1 := @setCeiling_kept P (hc.mono (by decide))
  have k2 := @startupGo_kept P (hc.mono (by decide))
  have k3 := @throttleAll_kept P (hc.mono (by decide))
  unfold causeReleased
  try dsimp only
  with_reducible repeat' first
    | assumption
    | (refine each_kept (fun _ _ _ => ?_) ?_)
    | apply k0
    | apply k1
    | apply k2
    | apply k3
    | dsimp only
    | split
    | refine hc.lit (by dsimp only) ?_

theorem bootDone_kept {P : Die → Prop} (hc : Closed P [.startup, .regs, .ledger, .rails]) (seen : StartupInput) (d : Die) (hd : P d) : P (bootDone seen d) := by
  have k0 := @emitReset_kept P (hc.mono (by decide))
  have k1 := @railOn_kept P (hc.mono (by decide))
  have k2 := @setStep_kept P (hc.mono (by decide))
  have k3 := @settingsDefaulted_kept P (hc.mono (by decide))
  have k4 := @trayRecord_kept P (hc.mono (by decide))
  unfold bootDone
  try dsimp only
  with_reducible repeat' first
    | assumption
    | (refine each_kept (fun _ _ _ => ?_) ?_)
    | apply k0
    | apply k1
    | apply k2
    | apply k3
    | apply k4
    | dsimp only
    | split
    | refine hc.lit (by dsimp only) ?_

theorem rootsDone_kept {P : Die → Prop} (hc : Closed P [.tally, .clocks, .startup]) (d : Die) (hd : P d) : P (rootsDone d) := by
  have k0 := @modRoot_kept P (hc.mono (by decide))
  have k1 := @setStep_kept P (hc.mono (by decide))
  unfold rootsDone
  try dsimp only
  with_reducible repeat' first
    | assumption
    | apply k0
    | apply k1
    | dsimp only
    | split
    | refine hc.lit (by dsimp only) ?_

theorem bellowsStep_kept {P : Die → Prop} (hc : Closed P [.startup, .islands]) (d : Die) (hd : P d) : P (bellowsStep d) := by
  have k0 := @setBegun_kept P (hc.mono (by decide))
  have k1 := @setStep_kept P (hc.mono (by decide))
  have k2 := @startBellows_kept P (hc.mono (by decide))
  unfold bellowsStep
  try dsimp only
  with_reducible repeat' first
    | assumption
    | (refine each_kept (fun _ _ _ => ?_) ?_)
    | apply k0
    | apply k1
    | apply k2
    | dsimp only
    | split

theorem startupStep_kept {P : Die → Prop} (hc : Closed P [.tally, .clocks, .startup, .regs, .ledger, .store, .islands, .regions, .synths, .rails, .sensors]) (seen : StartupInput) (d : Die) (hd : P d) : P (startupStep seen d) := by
  have k0 := @bellowsStep_kept P (hc.mono (by decide))
  have k1 := @bootDone_kept P (hc.mono (by decide))
  have k2 := @loadStore_kept P (hc.mono (by decide))
  have k3 := @rootsDone_kept P (hc.mono (by decide))
  have k4 := @setBegun_kept P (hc.mono (by decide))
  have k5 := @setStep_kept P (hc.mono (by decide))
  have k6 := @startCheck_kept P (hc.mono (by decide))
  have k7 := @startupGo_kept P (hc.mono (by decide))
  unfold startupStep
  try dsimp only
  with_reducible repeat' first
    | assumption
    | apply k0
    | apply k1
    | apply k2
    | apply k3
    | apply k4
    | apply k5
    | apply k6
    | apply k7
    | dsimp only
    | split

theorem bootImage_kept {P : Die → Prop} (hc : Closed P [.ledger, .chandler]) (n result version : Nat) (d : Die) (hd : P d) : P (bootImage n result version d) := by
  have k0 := @emit_kept P (hc.mono (by decide))
  have k1 := @modCore_kept P (hc.mono (by decide))
  unfold bootImage
  try dsimp only
  with_reducible repeat' first
    | assumption
    | apply k0
    | apply k1
    | dsimp only
    | split
    | refine hc.lit (by dsimp only) ?_

theorem startPair_kept {P : Die → Prop} (hc : Closed P [.chandler]) (p : Pair) (n : Nat) (d : Die) (hd : P d) : P (startPair p n d) := by
  unfold startPair
  try dsimp only
  with_reducible repeat' first
    | assumption
    | dsimp only
    | split
    | refine hc.lit (by dsimp only) ?_

theorem firmwareBroadcast_kept {P : Die → Prop} (hc : Closed P [.ledger, .chandler]) (r0 r1 version : Nat) (d : Die) (hd : P d) : P (firmwareBroadcast r0 r1 version d) := by
  have k0 := @bootImage_kept P (hc.mono (by decide))
  have k1 := @restartCore_kept P (hc.mono (by decide))
  have k2 := @setPair_kept P (hc.mono (by decide))
  have k3 := @startPair_kept P (hc.mono (by decide))
  unfold firmwareBroadcast
  try dsimp only
  with_reducible repeat' first
    | assumption
    | apply k0
    | apply k1
    | apply k2
    | apply k3
    | dsimp only
    | split
    | refine hc.lit (by dsimp only) ?_

theorem bootImageTimeout_kept {P : Die → Prop} (hc : Closed P [.chandler]) (d : Die) (hd : P d) : P (bootImageTimeout d) := by
  have k0 := @startPair_kept P (hc.mono (by decide))
  unfold bootImageTimeout
  try dsimp only
  with_reducible repeat' first
    | assumption
    | apply k0
    | dsimp only
    | split
    | refine hc.lit (by dsimp only) ?_

theorem diffRecord_kept {P : Die → Prop} (hc : Closed P [.ledger]) (x : Nat × Nat × Nat × Nat) (d : Die) (hd : P d) : P (diffRecord x d) := by
  have k0 := @emit_kept P (hc.mono (by decide))
  unfold diffRecord
  try dsimp only
  with_reducible repeat' first
    | assumption
    | apply k0
    | dsimp only
    | split

theorem joinByReady_kept {P : Die → Prop} (hc : Closed P [.tally]) (d : Die) (hd : P d) : P (joinByReady d) := by
  have k0 := @ownMaster_kept P (hc.mono (by decide))
  unfold joinByReady
  try dsimp only
  with_reducible repeat' first
    | assumption
    | apply k0
    | dsimp only
    | split
    | refine hc.lit (by dsimp only) ?_

theorem readyState_kept {P : Die → Prop} (hc : Closed P [.tally, .startup, .regs, .ledger]) (n : Nat) (d : Die) (hd : P d) : P (readyState n d) := by
  have k0 := @emit_kept P (hc.mono (by decide))
  have k1 := @emitReset_kept P (hc.mono (by decide))
  have k2 := @fabricInt_kept P (hc.mono (by decide))
  have k3 := @joinByReady_kept P (hc.mono (by decide))
  unfold readyState
  try dsimp only
  with_reducible repeat' first
    | assumption
    | apply k0
    | apply k1
    | apply k2
    | apply k3
    | dsimp only
    | split
    | refine hc.lit (by dsimp only) ?_

theorem compareTopology_kept {P : Die → Prop} (hc : Closed P [.tally, .startup, .regs, .ledger, .queues, .sram]) (hbm : Nat) (d : Die) (hd : P d) : P (compareTopology hbm d) := by
  have k0 := @diffRecord_kept P (hc.mono (by decide))
  have k1 := @finish_kept P (hc.mono (by decide))
  have k2 := @readyState_kept P (hc.mono (by decide))
  unfold compareTopology
  try dsimp only
  with_reducible repeat' first
    | assumption
    | apply k0
    | (refine each_kept (fun _ _ _ => ?_) ?_)
    | apply k1
    | apply k2
    | dsimp only
    | split
    | refine hc.lit (by dsimp only) ?_

theorem topologyTimeout_kept {P : Die → Prop} (hc : Closed P [.tally, .startup, .regs, .ledger, .queues, .sram]) (hbm : Nat) (d : Die) (hd : P d) : P (topologyTimeout hbm d) := by
  have k0 := @compareTopology_kept P (hc.mono (by decide))
  unfold topologyTimeout
  try dsimp only
  with_reducible repeat' first
    | assumption
    | apply k0
    | dsimp only
    | split

theorem topologyComplete_kept {P : Die → Prop} (hc : Closed P [.tally, .startup, .regs, .ledger, .queues, .sram]) (hbm : Nat) (d : Die) (hd : P d) : P (topologyComplete hbm d) := by
  have k0 := @compareTopology_kept P (hc.mono (by decide))
  unfold topologyComplete
  try dsimp only
  with_reducible repeat' first
    | assumption
    | apply k0
    | dsimp only
    | split

theorem aonPowerFail_kept {P : Die → Prop} (hc : Closed P [.stop]) (d : Die) (hd : P d) : P (aonPowerFail d) := by
  unfold aonPowerFail
  try dsimp only
  with_reducible repeat' first
    | assumption
    | dsimp only
    | split
    | refine hc.lit (by dsimp only) ?_

theorem aonUndervoltage_kept {P : Die → Prop} (hc : Closed P [.startup, .stop, .regs, .ledger, .store, .limits, .islands, .regions, .synths, .ends, .links, .rails, .contexts, .commits, .commitReqs]) (mv : Nat) (d : Die) (hd : P d) : P (aonUndervoltage mv d) := by
  have k0 := @fabricFault_kept P (hc.mono (by decide))
  unfold aonUndervoltage
  try dsimp only
  with_reducible repeat' first
    | assumption
    | apply k0
    | dsimp only
    | split
    | refine hc.lit (by dsimp only) ?_

theorem resetQueue_kept {P : Die → Prop} (hc : Closed P [.ledger, .queues, .sram]) (cause q : Nat) (d : Die) (hd : P d) : P (resetQueue cause q d) := by
  have k0 := @finish_kept P (hc.mono (by decide))
  have k1 := @modQueue_kept P _ hc (by decide)
  have k2 := @queueReset_kept P (hc.mono (by decide))
  unfold resetQueue
  try dsimp only
  with_reducible repeat' first
    | assumption
    | apply k0
    | apply k1
    | apply k2
    | dsimp only
    | split
    | refine hc.lit (by dsimp only) ?_

theorem resetRefs_kept {P : Die → Prop} (hc : Closed P [.clocks]) (kind : Nat) (d : Die) (hd : P d) : P (resetRefs kind d) := by
  unfold resetRefs
  try dsimp only
  with_reducible repeat' first
    | assumption
    | dsimp only
    | split
    | refine hc.lit (by dsimp only) ?_

theorem resetCores_kept {P : Die → Prop} (hc : Closed P [.ledger, .chandler]) (kind : Nat) (d : Die) (hd : P d) : P (resetCores kind d) := by
  have k0 := @emit_kept P (hc.mono (by decide))
  have k1 := @startPair_kept P (hc.mono (by decide))
  unfold resetCores
  try dsimp only
  with_reducible repeat' first
    | assumption
    | apply k0
    | apply k1
    | dsimp only
    | split
    | refine hc.lit (by dsimp only) ?_

theorem resetStop_kept {P : Die → Prop} (hc : Closed P [.stop]) (kind : Nat) (d : Die) (hd : P d) : P (resetStop kind d) := by
  unfold resetStop
  try dsimp only
  with_reducible repeat' first
    | assumption
    | dsimp only
    | split
    | refine hc.lit (by dsimp only) ?_

theorem resetLimits_kept {P : Die → Prop} (hc : Closed P [.ledger, .limits, .islands, .regions, .ends, .rails, .commitReqs, .tenants]) (d : Die) (hd : P d) : P (resetLimits d) := by
  have k0 := @intervalEnd_kept P (hc.mono (by decide))
  unfold resetLimits
  try dsimp only
  with_reducible repeat' first
    | assumption
    | apply k0
    | dsimp only
    | split
    | refine hc.lit (by dsimp only) ?_

theorem resetRegs_kept {P : Die → Prop} (hc : Closed P [.tally, .regs, .ledger]) (d : Die) (hd : P d) : P (resetRegs d) := by
  unfold resetRegs
  try dsimp only
  with_reducible repeat' first
    | assumption
    | dsimp only
    | split
    | refine hc.lit (by dsimp only) ?_

theorem dieReset_kept {P : Die → Prop} (hc : Closed P [.tally, .clocks, .startup, .stop, .regs, .ledger, .chandler, .store, .limits, .islands, .regions, .synths, .ends, .lanes, .links, .rails, .sensors, .watches, .contexts, .commits, .commitReqs, .nextCommit, .tenants, .queues, .sram, .dormant, .fresh]) (kind : Nat) (d : Die) (hd : P d) : P (dieReset kind d) := by
  have k0 := @abandonWrite_kept P (hc.mono (by decide))
  have k1 := @abortWhere_kept P (hc.mono (by decide))
  have k2 := @allRetention_kept P (hc.mono (by decide))
  have k3 := @assayAbort_kept P (hc.mono (by decide))
  have k4 := @emitReset_kept P (hc.mono (by decide))
  have k5 := @endDrains_kept P (hc.mono (by decide))
  have k6 := @resetCores_kept P (hc.mono (by decide))
  have k7 := hc.reset (by decide)
  have k8 := @resetLimits_kept P (hc.mono (by decide))
  have k9 := @resetQueue_kept P (hc.mono (by decide))
  have k10 := @resetRefs_kept P (hc.mono (by decide))
  have k11 := @resetRegs_kept P (hc.mono (by decide))
  have k12 := @resetStop_kept P (hc.mono (by decide))
  have k13 := @settingsDefaulted_kept P (hc.mono (by decide))
  have k14 := @stopBellows_kept P (hc.mono (by decide))
  have k15 := @trayRecord_kept P (hc.mono (by decide))
  unfold dieReset
  try dsimp only
  with_reducible repeat' first
    | assumption
    | apply k0
    | apply k1
    | apply k2
    | apply k3
    | (refine each_kept (fun _ _ _ => ?_) ?_)
    | apply k4
    | apply k5
    | apply k6
    | apply k7
    | apply k8
    | apply k9
    | apply k10
    | apply k11
    | apply k12
    | apply k13
    | apply k14
    | apply k15
    | dsimp only
    | split
    | refine hc.lit (by dsimp only) ?_

theorem packageWarmReset_kept {P : Die → Prop} (hc : Closed P [.tally, .clocks, .startup, .stop, .regs, .ledger, .chandler, .store, .limits, .islands, .regions, .synths, .ends, .lanes, .links, .rails, .sensors, .watches, .contexts, .commits, .commitReqs, .nextCommit, .tenants, .queues, .sram, .dormant, .fresh]) (d : Die) (hd : P d) : P (packageWarmReset d) := by
  have k0 := @dieReset_kept P (hc.mono (by decide))
  unfold packageWarmReset
  try dsimp only
  with_reducible repeat' first
    | assumption
    | apply k0
    | dsimp only
    | split

theorem fabricResetWrite_kept {P : Die → Prop} (hc : Closed P [.tally, .clocks, .startup, .stop, .regs, .ledger, .chandler, .store, .limits, .islands, .regions, .synths, .ends, .lanes, .links, .rails, .sensors, .watches, .contexts, .commits, .commitReqs, .nextCommit, .tenants, .queues, .sram, .dormant, .fresh]) (value : Nat) (d : Die) (hd : P d) : P (fabricResetWrite value d) := by
  have k0 := @dieReset_kept P (hc.mono (by decide))
  unfold fabricResetWrite
  try dsimp only
  with_reducible repeat' first
    | assumption
    | apply k0
    | dsimp only
    | split

theorem returnReplicas_kept {P : Die → Prop} (hc : Closed P [.islands]) (i : Nat) (d : Die) (hd : P d) : P (returnReplicas i d) := by
  have k0 := @modMargin_kept P (hc.mono (by decide))
  unfold returnReplicas
  try dsimp only
  with_reducible repeat' first
    | assumption
    | (refine each_kept (fun _ _ _ => ?_) ?_)
    | apply k0
    | dsimp only
    | split
    | refine hc.lit (by dsimp only) ?_

theorem returnSynths_kept {P : Die → Prop} (hc : Closed P [.synths]) (r : Nat) (d : Die) (hd : P d) : P (returnSynths r d) := by
  have k0 := @modSynth_kept P _ hc (by decide)
  unfold returnSynths
  try dsimp only
  with_reducible repeat' first
    | assumption
    | (refine each_kept (fun _ _ _ => ?_) ?_)
    | apply k0
    | dsimp only
    | split
    | refine hc.lit (by dsimp only) ?_

theorem returnRegion_kept {P : Die → Prop} (hc : Closed P [.islands, .regions, .synths]) (r : Nat) (d : Die) (hd : P d) : P (returnRegion r d) := by
  have k0 := @modRegion_kept P _ hc (by decide)
  have k1 := @returnReplicas_kept P (hc.mono (by decide))
  have k2 := @returnSynths_kept P (hc.mono (by decide))
  unfold returnRegion
  try dsimp only
  with_reducible repeat' first
    | assumption
    | (refine each_kept (fun _ _ _ => ?_) ?_)
    | apply k0
    | apply k1
    | apply k2
    | dsimp only
    | split
    | refine hc.lit (by dsimp only) ?_

theorem powerRecord_kept {P : Die → Prop} (hc : Closed P [.ledger]) (l : Loc) (new old tolerance : Nat) (d : Die) (hd : P d) : P (powerRecord l new old tolerance d) := by
  have k0 := @emit_kept P (hc.mono (by decide))
  unfold powerRecord
  try dsimp only
  with_reducible repeat' first
    | assumption
    | apply k0
    | dsimp only
    | split

theorem setPower_kept {P : Die → Prop} (hc : Closed P [.ledger, .regions]) (r n : Nat) (d : Die) (hd : P d) : P (setPower r n d) := by
  have k0 := @modRegion_kept P _ hc (by decide)
  have k1 := @powerRecord_kept P (hc.mono (by decide))
  unfold setPower
  try dsimp only
  with_reducible repeat' first
    | assumption
    | apply k0
    | apply k1
    | dsimp only
    | split
    | refine hc.lit (by dsimp only) ?_

theorem bankRegion_kept {P : Die → Prop} (hc : Closed P [.islands, .regions, .synths, .ends, .rails]) (r : Nat) (d : Die) (hd : P d) : P (bankRegion r d) := by
  have k0 := @deselect_kept P (hc.mono (by decide))
  have k1 := @powerSynth_kept P (hc.mono (by decide))
  have k2 := @refreshIsland_kept P (hc.mono (by decide))
  have k3 := @retarget_kept P (hc.mono (by decide))
  have k4 := @stopBellows_kept P (hc.mono (by decide))
  unfold bankRegion
  try dsimp only
  with_reducible repeat' first
    | assumption
    | apply k0
    | (refine each_kept (fun _ _ _ => ?_) ?_)
    | apply k1
    | apply k2
    | apply k3
    | apply k4
    | dsimp only
    | split

theorem enterBank_kept {P : Die → Prop} (hc : Closed P [.ledger, .islands, .regions, .synths, .ends, .rails]) (r : Nat) (d : Die) (hd : P d) : P (enterBank r d) := by
  have k0 := @bankRegion_kept P (hc.mono (by decide))
  have k1 := @droverLend_kept P (hc.mono (by decide))
  have k2 := @setPower_kept P (hc.mono (by decide))
  have k3 := @stopBellows_kept P (hc.mono (by decide))
  unfold enterBank
  try dsimp only
  with_reducible repeat' first
    | assumption
    | apply k0
    | (refine k1 ?_ (by assumption))
    | (refine each_kept (fun _ _ _ => ?_) ?_)
    | apply k2
    | apply k3
    | dsimp only
    | split

theorem reopen_kept {P : Die → Prop} (hc : Closed P [.islands]) (i : Nat) (d : Die) (hd : P d) : P (reopen i d) := by
  have k0 := @modRing_kept P (hc.mono (by decide))
  unfold reopen
  try dsimp only
  with_reducible repeat' first
    | assumption
    | apply k0
    | dsimp only
    | split
    | refine hc.lit (by dsimp only) ?_

theorem leaveBank_kept {P : Die → Prop} (hc : Closed P [.ledger, .regions, .synths, .ends, .rails, .contexts, .commitReqs]) (r n : Nat) (d : Die) (hd : P d) : P (leaveBank r n d) := by
  have k0 := @bankAcquire_kept P (hc.mono (by decide))
  have k1 := @missedEnd_kept P (hc.mono (by decide))
  have k2 := @refreshIsland_kept P (hc.mono (by decide))
  have k3 := @regrant_kept P (hc.mono (by decide))
  have k4 := @restore_kept P (hc.mono (by decide))
  have k5 := @retarget_kept P (hc.mono (by decide))
  have k6 := @setPower_kept P (hc.mono (by decide))
  unfold leaveBank
  try dsimp only
  with_reducible repeat' first
    | assumption
    | apply k0
    | (refine each_kept (fun _ _ _ => ?_) ?_)
    | apply k1
    | apply k2
    | apply k3
    | apply k4
    | apply k5
    | apply k6
    | dsimp only
    | split

theorem movePower_kept {P : Die → Prop} (hc : Closed P [.ledger, .islands, .regions, .synths, .ends, .rails, .contexts, .commitReqs]) (r n : Nat) (d : Die) (hd : P d) : P (movePower r n d) := by
  have k0 := @closeGate_kept P (hc.mono (by decide))
  have k1 := @enterBank_kept P (hc.mono (by decide))
  have k2 := @leaveBank_kept P (hc.mono (by decide))
  have k3 := @regrant_kept P (hc.mono (by decide))
  have k4 := @reopen_kept P (hc.mono (by decide))
  have k5 := @restore_kept P (hc.mono (by decide))
  have k6 := @setPower_kept P (hc.mono (by decide))
  have k7 := @startBellows_kept P (hc.mono (by decide))
  have k8 := @stopBellows_kept P (hc.mono (by decide))
  unfold movePower
  try dsimp only
  with_reducible repeat' first
    | assumption
    | apply k0
    | (refine each_kept (fun _ _ _ => ?_) ?_)
    | apply k1
    | apply k2
    | apply k3
    | apply k4
    | apply k5
    | apply k6
    | apply k7
    | apply k8
    | dsimp only
    | split

theorem saveDormant_kept {P : Die → Prop} (hc : Closed P [.dormant]) (d : Die) (hd : P d) : P (saveDormant d) := by
  unfold saveDormant
  try dsimp only
  with_reducible repeat' first
    | assumption
    | dsimp only
    | split
    | refine hc.lit (by dsimp only) ?_

theorem enterDormant_kept {P : Die → Prop} (hc : Closed P [.ledger, .islands, .regions, .synths, .ends, .rails, .dormant]) (d : Die) (hd : P d) : P (enterDormant d) := by
  have k0 := @bankRegion_kept P (hc.mono (by decide))
  have k1 := @droverStop_kept P (hc.mono (by decide))
  have k2 := @powerRecord_kept P (hc.mono (by decide))
  have k3 := @railOff_kept P (hc.mono (by decide))
  have k4 := @saveDormant_kept P (hc.mono (by decide))
  have k5 := @setPower_kept P (hc.mono (by decide))
  unfold enterDormant
  try dsimp only
  with_reducible repeat' first
    | assumption
    | apply k0
    | apply k1
    | (refine each_kept (fun _ _ _ => ?_) ?_)
    | apply k2
    | apply k3
    | apply k4
    | apply k5
    | dsimp only
    | split

theorem restoreDormant_kept {P : Die → Prop} (hc : Closed P [.islands, .dormant]) (d : Die) (hd : P d) : P (restoreDormant d) := by
  have k0 := @modRing_kept P (hc.mono (by decide))
  unfold restoreDormant
  try dsimp only
  with_reducible repeat' first
    | assumption
    | (refine each_kept (fun _ _ _ => ?_) ?_)
    | apply k0
    | dsimp only
    | split
    | refine hc.lit (by dsimp only) ?_

theorem leaveDormant_kept {P : Die → Prop} (hc : Closed P [.rails, .dormant]) (d : Die) (hd : P d) : P (leaveDormant d) := by
  have k0 := @railOn_kept P (hc.mono (by decide))
  unfold leaveDormant
  try dsimp only
  with_reducible repeat' first
    | assumption
    | (refine each_kept (fun _ _ _ => ?_) ?_)
    | apply k0
    | dsimp only
    | split
    | refine hc.lit (by dsimp only) ?_

theorem endDormant_kept {P : Die → Prop} (hc : Closed P [.ledger, .islands, .regions, .synths, .ends, .rails, .contexts, .commitReqs, .dormant]) (d : Die) (hd : P d) : P (endDormant d) := by
  have k0 := @leaveBank_kept P (hc.mono (by decide))
  have k1 := @powerRecord_kept P (hc.mono (by decide))
  have k2 := @restoreDormant_kept P (hc.mono (by decide))
  unfold endDormant
  try dsimp only
  with_reducible repeat' first
    | assumption
    | (refine each_kept (fun _ _ _ => ?_) ?_)
    | apply k0
    | apply k1
    | apply k2
    | dsimp only
    | split

theorem idleChange_kept {P : Die → Prop} (hc : Closed P [.ledger, .islands, .regions, .synths, .ends, .rails, .contexts, .commitReqs, .dormant]) (r : Nat) (d : Die) (hd : P d) : P (idleChange r d) := by
  have k0 := @enterDormant_kept P (hc.mono (by decide))
  have k1 := @leaveDormant_kept P (hc.mono (by decide))
  have k2 := @movePower_kept P (hc.mono (by decide))
  unfold idleChange
  try dsimp only
  with_reducible repeat' first
    | assumption
    | apply k0
    | apply k1
    | apply k2
    | dsimp only
    | split

theorem resetStops_kept {P : Die → Prop} (hc : Closed P [.islands]) (i : Nat) (d : Die) (hd : P d) : P (resetStops i d) := by
  have k0 := @clearStep_kept P (hc.mono (by decide))
  have k1 := @modMargin_kept P (hc.mono (by decide))
  have k2 := @stopBellows_kept P (hc.mono (by decide))
  unfold resetStops
  try dsimp only
  with_reducible repeat' first
    | assumption
    | apply k0
    | apply k1
    | apply k2
    | dsimp only
    | split
    | refine hc.lit (by dsimp only) ?_

theorem beginRegionReset_kept {P : Die → Prop} (hc : Closed P [.ledger, .store, .islands, .regions, .synths, .ends, .commits, .commitReqs]) (r : Nat) (withSynth : Bool) (d : Die) (hd : P d) : P (beginRegionReset r withSynth d) := by
  have k0 := @abortRegion_kept P (hc.mono (by decide))
  have k1 := @acquireBoth_kept P (hc.mono (by decide))
  have k2 := @assayAbort_kept P (hc.mono (by decide))
  have k3 := @deselect_kept P (hc.mono (by decide))
  have k4 := @droverLend_kept P (hc.mono (by decide))
  have k5 := @emitReset_kept P (hc.mono (by decide))
  have k6 := @modRegion_kept P _ hc (by decide)
  have k7 := @modRing_kept P (hc.mono (by decide))
  have k8 := @refreshIsland_kept P (hc.mono (by decide))
  have k9 := @resetStops_kept P (hc.mono (by decide))
  have k10 := @returnRegion_kept P (hc.mono (by decide))
  have k11 := @setPower_kept P (hc.mono (by decide))
  unfold beginRegionReset
  try dsimp only
  with_reducible repeat' first
    | assumption
    | apply k0
    | apply k1
    | apply k2
    | apply k3
    | (refine k4 ?_ (by assumption))
    | (refine each_kept (fun _ _ _ => ?_) ?_)
    | apply k5
    | apply k6
    | apply k7
    | apply k8
    | apply k9
    | apply k10
    | apply k11
    | dsimp only
    | split
    | refine hc.lit (by dsimp only) ?_

theorem joinPlan_kept {P : Die → Prop} (hc : Closed P [.islands]) (i : Nat) (d : Die) (hd : P d) : P (joinPlan i d) := by
  have k0 := @modRing_kept P (hc.mono (by decide))
  unfold joinPlan
  try dsimp only
  with_reducible repeat' first
    | assumption
    | apply k0
    | dsimp only
    | split
    | refine hc.lit (by dsimp only) ?_

theorem regionResetEnd_kept {P : Die → Prop} (hc : Closed P [.ledger, .islands, .regions, .ends, .contexts, .commitReqs]) (r : Nat) (d : Die) (hd : P d) : P (regionResetEnd r d) := by
  have k0 := @emitReset_kept P (hc.mono (by decide))
  have k1 := @joinPlan_kept P (hc.mono (by decide))
  have k2 := @missedEnd_kept P (hc.mono (by decide))
  have k3 := @modRegion_kept P _ hc (by decide)
  have k4 := @refreshIsland_kept P (hc.mono (by decide))
  have k5 := @regrant_kept P (hc.mono (by decide))
  have k6 := @restore_kept P (hc.mono (by decide))
  have k7 := @startBellows_kept P (hc.mono (by decide))
  unfold regionResetEnd
  try dsimp only
  with_reducible repeat' first
    | assumption
    | (refine each_kept (fun _ _ _ => ?_) ?_)
    | apply k0
    | apply k1
    | apply k2
    | apply k3
    | apply k4
    | apply k5
    | apply k6
    | apply k7
    | dsimp only
    | split
    | refine hc.lit (by dsimp only) ?_

theorem beginIslandReset_kept {P : Die → Prop} (hc : Closed P [.ledger, .islands, .ends]) (i : Nat) (d : Die) (hd : P d) : P (beginIslandReset i d) := by
  have k0 := @emitReset_kept P (hc.mono (by decide))
  have k1 := @modRing_kept P (hc.mono (by decide))
  have k2 := @refreshIsland_kept P (hc.mono (by decide))
  have k3 := @resetStops_kept P (hc.mono (by decide))
  unfold beginIslandReset
  try dsimp only
  with_reducible repeat' first
    | assumption
    | apply k0
    | apply k1
    | apply k2
    | apply k3
    | dsimp only
    | split
    | refine hc.lit (by dsimp only) ?_

theorem islandResetEnd_kept {P : Die → Prop} (hc : Closed P [.ledger, .islands, .regions, .ends, .contexts]) (i : Nat) (d : Die) (hd : P d) : P (islandResetEnd i d) := by
  have k0 := @emitReset_kept P (hc.mono (by decide))
  have k1 := @joinPlan_kept P (hc.mono (by decide))
  have k2 := @missedEnd_kept P (hc.mono (by decide))
  have k3 := @modRing_kept P (hc.mono (by decide))
  have k4 := @refreshIsland_kept P (hc.mono (by decide))
  have k5 := @startBellows_kept P (hc.mono (by decide))
  unfold islandResetEnd
  try dsimp only
  with_reducible repeat' first
    | assumption
    | apply k0
    | apply k1
    | apply k2
    | apply k3
    | apply k4
    | apply k5
    | dsimp only
    | split
    | refine hc.lit (by dsimp only) ?_

theorem modThermal_kept {P : Die → Prop} (hc : Closed P [.regions]) (r : Nat) (f : ThermalRegion → ThermalRegion) (d : Die) (hd : P d) : P (modThermal r f d) := by
  have k0 := @modRegion_kept P _ hc (by decide)
  unfold modThermal
  try dsimp only
  with_reducible repeat' first
    | assumption
    | apply k0
    | dsimp only
    | split
    | refine hc.lit (by dsimp only) ?_

theorem sensorInvalid_kept {P : Die → Prop} (hc : Closed P [.ledger, .store, .sensors]) (n cause : Nat) (reading : Int) (d : Die) (hd : P d) : P (sensorInvalid n cause reading d) := by
  have k0 := @emit_kept P (hc.mono (by decide))
  have k1 := @emitRetire_kept P (hc.mono (by decide))
  have k2 := @modSensor_kept P _ hc (by decide)
  unfold sensorInvalid
  try dsimp only
  with_reducible repeat' first
    | assumption
    | apply k0
    | apply k1
    | apply k2
    | dsimp only
    | split
    | refine hc.lit (by dsimp only) ?_

theorem convert_kept {P : Die → Prop} (hc : Closed P [.ledger, .store, .sensors, .fresh]) (x : SensorReading) (d : Die) (hd : P d) : P (convert x d) := by
  have k0 := @drawFree_kept P (hc.mono (by decide))
  have k1 := @modSensor_kept P _ hc (by decide)
  have k2 := @sensorInvalid_kept P (hc.mono (by decide))
  unfold convert
  try dsimp only
  with_reducible repeat' first
    | assumption
    | apply k0
    | apply k1
    | apply k2
    | dsimp only
    | split
    | refine hc.lit (by dsimp only) ?_

theorem evaluateHard_kept {P : Die → Prop} (hc : Closed P [.ledger, .regions, .commitReqs]) (r : Nat) (d : Die) (hd : P d) : P (evaluateHard r d) := by
  have k0 := @modThermal_kept P (hc.mono (by decide))
  have k1 := @setCeiling_kept P (hc.mono (by decide))
  unfold evaluateHard
  try dsimp only
  with_reducible repeat' first
    | assumption
    | apply k0
    | apply k1
    | dsimp only
    | split
    | refine hc.lit (by dsimp only) ?_

theorem evaluateSoft_kept {P : Die → Prop} (hc : Closed P [.ledger, .regions, .commitReqs]) (r : Nat) (d : Die) (hd : P d) : P (evaluateSoft r d) := by
  have k0 := @modThermal_kept P (hc.mono (by decide))
  have k1 := @setCeiling_kept P (hc.mono (by decide))
  unfold evaluateSoft
  try dsimp only
  with_reducible repeat' first
    | assumption
    | apply k0
    | apply k1
    | dsimp only
    | split
    | refine hc.lit (by dsimp only) ?_

theorem evaluateTrip_kept {P : Die → Prop} (hc : Closed P [.startup, .stop, .regs, .ledger, .store, .limits, .islands, .regions, .synths, .ends, .links, .rails, .contexts, .commits, .commitReqs]) (d : Die) (hd : P d) : P (evaluateTrip d) := by
  have k0 := @stopDie_kept P (hc.mono (by decide))
  unfold evaluateTrip
  try dsimp only
  with_reducible repeat' first
    | assumption
    | apply k0
    | dsimp only
    | split
    | refine hc.lit (by dsimp only) ?_

theorem sensorConversion_kept {P : Die → Prop} (hc : Closed P [.startup, .stop, .regs, .ledger, .store, .limits, .islands, .regions, .synths, .ends, .links, .rails, .sensors, .contexts, .commits, .commitReqs, .dormant, .fresh]) (readings : List SensorReading) (d : Die) (hd : P d) : P (sensorConversion readings d) := by
  have k0 := @convert_kept P (hc.mono (by decide))
  have k1 := @endDormant_kept P (hc.mono (by decide))
  have k2 := @evaluateHard_kept P (hc.mono (by decide))
  have k3 := @evaluateSoft_kept P (hc.mono (by decide))
  have k4 := @evaluateTrip_kept P (hc.mono (by decide))
  unfold sensorConversion
  try dsimp only
  with_reducible repeat' first
    | assumption
    | apply k0
    | (refine each_kept (fun _ _ _ => ?_) ?_)
    | apply k1
    | apply k2
    | apply k3
    | apply k4
    | dsimp only
    | split

theorem softStep_kept {P : Die → Prop} (hc : Closed P [.ledger, .regions, .commitReqs]) (r : Nat) (d : Die) (hd : P d) : P (softStep r d) := by
  have k0 := @modThermal_kept P (hc.mono (by decide))
  have k1 := @setCeiling_kept P (hc.mono (by decide))
  unfold softStep
  try dsimp only
  with_reducible repeat' first
    | assumption
    | apply k0
    | apply k1
    | dsimp only
    | split
    | refine hc.lit (by dsimp only) ?_

theorem softRelease_kept {P : Die → Prop} (hc : Closed P [.regions]) (r : Nat) (d : Die) (hd : P d) : P (softRelease r d) := by
  have k0 := @modThermal_kept P (hc.mono (by decide))
  unfold softRelease
  try dsimp only
  with_reducible repeat' first
    | assumption
    | apply k0
    | dsimp only
    | split
    | refine hc.lit (by dsimp only) ?_

theorem softRise_kept {P : Die → Prop} (hc : Closed P [.ledger, .regions, .commitReqs]) (r : Nat) (d : Die) (hd : P d) : P (softRise r d) := by
  have k0 := @modThermal_kept P (hc.mono (by decide))
  have k1 := @setCeiling_kept P (hc.mono (by decide))
  unfold softRise
  try dsimp only
  with_reducible repeat' first
    | assumption
    | apply k0
    | apply k1
    | dsimp only
    | split
    | refine hc.lit (by dsimp only) ?_

theorem hardRelease_kept {P : Die → Prop} (hc : Closed P [.ledger, .regions, .commitReqs]) (r : Nat) (d : Die) (hd : P d) : P (hardRelease r d) := by
  have k0 := @modThermal_kept P (hc.mono (by decide))
  have k1 := @setCeiling_kept P (hc.mono (by decide))
  have k2 := @softStep_kept P (hc.mono (by decide))
  unfold hardRelease
  try dsimp only
  with_reducible repeat' first
    | assumption
    | apply k0
    | apply k1
    | apply k2
    | dsimp only
    | split
    | refine hc.lit (by dsimp only) ?_

theorem tripRelease_kept {P : Die → Prop} (hc : Closed P [.startup, .stop, .ledger, .store, .regions, .synths, .rails, .commitReqs]) (d : Die) (hd : P d) : P (tripRelease d) := by
  have k0 := @causeReleased_kept P (hc.mono (by decide))
  unfold tripRelease
  try dsimp only
  with_reducible repeat' first
    | assumption
    | apply k0
    | dsimp only
    | split
    | refine hc.lit (by dsimp only) ?_

theorem flowLoss_kept {P : Die → Prop} (hc : Closed P [.startup, .stop, .regs, .ledger, .store, .limits, .islands, .regions, .synths, .ends, .links, .rails, .contexts, .commits, .commitReqs]) (mv : Nat) (ok : Bool) (d : Die) (hd : P d) : P (flowLoss mv ok d) := by
  have k0 := @stopDie_kept P (hc.mono (by decide))
  unfold flowLoss
  try dsimp only
  with_reducible repeat' first
    | assumption
    | apply k0
    | dsimp only
    | split
    | refine hc.lit (by dsimp only) ?_

theorem flowRelease_kept {P : Die → Prop} (hc : Closed P [.startup, .stop, .regs, .ledger, .store, .regions, .synths, .rails, .commitReqs]) (mv : Nat) (d : Die) (hd : P d) : P (flowRelease mv d) := by
  have k0 := @causeReleased_kept P (hc.mono (by decide))
  have k1 := @trayRecord_kept P (hc.mono (by decide))
  unfold flowRelease
  try dsimp only
  with_reducible repeat' first
    | assumption
    | apply k0
    | apply k1
    | dsimp only
    | split
    | refine hc.lit (by dsimp only) ?_

theorem estopAssert_kept {P : Die → Prop} (hc : Closed P [.startup, .stop, .regs, .ledger, .store, .limits, .islands, .regions, .synths, .ends, .links, .rails, .contexts, .commits, .commitReqs]) (d : Die) (hd : P d) : P (estopAssert d) := by
  have k0 := @stopDie_kept P (hc.mono (by decide))
  unfold estopAssert
  try dsimp only
  with_reducible repeat' first
    | assumption
    | apply k0
    | dsimp only
    | split
    | refine hc.lit (by dsimp only) ?_

theorem estopRelease_kept {P : Die → Prop} (hc : Closed P [.startup, .stop, .ledger, .store, .regions, .synths, .rails, .commitReqs]) (d : Die) (hd : P d) : P (estopRelease d) := by
  have k0 := @causeReleased_kept P (hc.mono (by decide))
  unfold estopRelease
  try dsimp only
  with_reducible repeat' first
    | assumption
    | apply k0
    | dsimp only
    | split
    | refine hc.lit (by dsimp only) ?_

theorem resumeRelease_kept {P : Die → Prop} (hc : Closed P [.stop, .regs, .ledger, .islands, .regions, .commitReqs]) (d : Die) (hd : P d) : P (resumeRelease d) := by
  have k0 := @emit_kept P (hc.mono (by decide))
  have k1 := @fabricInt_kept P (hc.mono (by decide))
  have k2 := @fastStep_kept P (hc.mono (by decide))
  have k3 := @regrant_kept P (hc.mono (by decide))
  have k4 := @reopen_kept P (hc.mono (by decide))
  have k5 := @restore_kept P (hc.mono (by decide))
  have k6 := @setCeiling_kept P (hc.mono (by decide))
  have k7 := @throttleAll_kept P (hc.mono (by decide))
  unfold resumeRelease
  try dsimp only
  with_reducible repeat' first
    | assumption
    | (refine each_kept (fun _ _ _ => ?_) ?_)
    | apply k0
    | apply k1
    | apply k2
    | apply k3
    | apply k4
    | apply k5
    | apply k6
    | apply k7
    | dsimp only
    | split
    | refine hc.lit (by dsimp only) ?_

theorem registerSet_kept {P : Die → Prop} (hc : Closed P [.startup, .stop, .regs, .ledger, .store, .limits, .islands, .regions, .synths, .ends, .links, .rails, .contexts, .commits, .commitReqs]) (d : Die) (hd : P d) : P (registerSet d) := by
  have k0 := @stopDie_kept P (hc.mono (by decide))
  unfold registerSet
  try dsimp only
  with_reducible repeat' first
    | assumption
    | apply k0
    | dsimp only
    | split

theorem registerClear_kept {P : Die → Prop} (hc : Closed P [.startup, .stop, .ledger, .store, .regions, .synths, .rails, .commitReqs]) (d : Die) (hd : P d) : P (registerClear d) := by
  have k0 := @causeReleased_kept P (hc.mono (by decide))
  unfold registerClear
  try dsimp only
  with_reducible repeat' first
    | assumption
    | apply k0
    | dsimp only
    | split
    | refine hc.lit (by dsimp only) ?_

theorem modPool_kept {P : Die → Prop} (hc : Closed P [.links]) (l : Nat) (f : PoolLink → PoolLink) (d : Die) (hd : P d) : P (modPool l f d) := by
  have k0 := @modLink_kept P _ hc (by decide)
  unfold modPool
  try dsimp only
  with_reducible repeat' first
    | assumption
    | apply k0
    | dsimp only
    | split
    | refine hc.lit (by dsimp only) ?_

theorem statusLink_kept {P : Die → Prop} (hc : Closed P [.ledger, .limits, .links]) (want offer : Nat) (recalling : Bool) (l : Nat) (d : Die) (hd : P d) : P (statusLink want offer recalling l d) := by
  have k0 := @modPool_kept P (hc.mono (by decide))
  have k1 := @poolRecord_kept P (hc.mono (by decide))
  have k2 := @returnLoan_kept P (hc.mono (by decide))
  have k3 := @sendPool_kept P (hc.mono (by decide))
  unfold statusLink
  try dsimp only
  with_reducible repeat' first
    | assumption
    | apply k0
    | apply k1
    | apply k2
    | apply k3
    | dsimp only
    | split
    | refine hc.lit (by dsimp only) ?_

theorem beginRound_kept {P : Die → Prop} (hc : Closed P [.limits, .regions]) (d : Die) (hd : P d) : P (beginRound d) := by
  have k0 := @modRegion_kept P _ hc (by decide)
  unfold beginRound
  try dsimp only
  with_reducible repeat' first
    | assumption
    | (refine each_kept (fun _ _ _ => ?_) ?_)
    | apply k0
    | dsimp only
    | split
    | refine hc.lit (by dsimp only) ?_

theorem statusSend_kept {P : Die → Prop} (hc : Closed P [.ledger, .limits, .regions, .links]) (d : Die) (hd : P d) : P (statusSend d) := by
  have k0 := @beginRound_kept P (hc.mono (by decide))
  have k1 := @statusLink_kept P (hc.mono (by decide))
  unfold statusSend
  try dsimp only
  with_reducible repeat' first
    | assumption
    | apply k0
    | (refine each_kept (fun _ _ _ => ?_) ?_)
    | apply k1
    | dsimp only
    | split

theorem poolFrame_kept {P : Die → Prop} (hc : Closed P [.tally, .ledger, .links]) {kind l : Nat} {f : Bytes} {effect : Die → Die} {d : Die} (he : ∀ d, P d → P (effect d)) (hd : P d) :
    P (poolFrame kind l f effect d) := by
  have k0 := @modPool_kept P (hc.mono (by decide))
  have k1 := @validFrame_kept P (hc.mono (by decide))
  have k2 := @discardFrame_kept P (hc.mono (by decide))
  unfold poolFrame
  dsimp only
  with_reducible repeat' first
    | assumption
    | apply he
    | apply k0
    | apply k1
    | apply k2
    | split

theorem resolveLoan_kept {P : Die → Prop} (hc : Closed P [.ledger, .limits, .links]) (l : Nat) (theirs : Int) (d : Die) (hd : P d) : P (resolveLoan l theirs d) := by
  have k0 := @emit_kept P (hc.mono (by decide))
  have k1 := @modPool_kept P (hc.mono (by decide))
  have k2 := @setLoan_kept P (hc.mono (by decide))
  unfold resolveLoan
  try dsimp only
  with_reducible repeat' first
    | assumption
    | apply k0
    | apply k1
    | apply k2
    | dsimp only
    | split
    | refine hc.lit (by dsimp only) ?_

theorem checkLoan_kept {P : Die → Prop} (hc : Closed P [.ledger, .limits, .links]) (l : Nat) (f : Bytes) (d : Die) (hd : P d) : P (checkLoan l f d) := by
  have k0 := @modPool_kept P (hc.mono (by decide))
  have k1 := @resolveLoan_kept P (hc.mono (by decide))
  unfold checkLoan
  try dsimp only
  with_reducible repeat' first
    | assumption
    | apply k0
    | apply k1
    | dsimp only
    | split
    | refine hc.lit (by dsimp only) ?_

theorem lend_kept {P : Die → Prop} (hc : Closed P [.ledger, .limits, .links]) (l : Nat) (f : Bytes) (d : Die) (hd : P d) : P (lend l f d) := by
  have k0 := @modPool_kept P (hc.mono (by decide))
  have k1 := @poolRecord_kept P (hc.mono (by decide))
  have k2 := @sendPool_kept P (hc.mono (by decide))
  have k3 := @setLoan_kept P (hc.mono (by decide))
  unfold lend
  try dsimp only
  with_reducible repeat' first
    | assumption
    | apply k0
    | apply k1
    | apply k2
    | apply k3
    | dsimp only
    | split
    | refine hc.lit (by dsimp only) ?_

theorem statusReceived_kept {P : Die → Prop} (hc : Closed P [.tally, .ledger, .limits, .links]) (l : Nat) (f : Bytes) (d : Die) (hd : P d) : P (statusReceived l f d) := by
  have k0 := @checkLoan_kept P (hc.mono (by decide))
  have k1 := @lend_kept P (hc.mono (by decide))
  unfold statusReceived
  try dsimp only
  with_reducible repeat' first
    | assumption
    | apply k0
    | apply k1
    | (refine poolFrame_kept (hc.mono (by decide)) (fun _ _ => ?_) ?_)
    | dsimp only
    | split

theorem grantReceived_kept {P : Die → Prop} (hc : Closed P [.tally, .ledger, .limits, .links]) (l : Nat) (f : Bytes) (d : Die) (hd : P d) : P (grantReceived l f d) := by
  have k0 := @poolRecord_kept P (hc.mono (by decide))
  have k1 := @sendPool_kept P (hc.mono (by decide))
  have k2 := @setLoan_kept P (hc.mono (by decide))
  unfold grantReceived
  try dsimp only
  with_reducible repeat' first
    | assumption
    | (refine poolFrame_kept (hc.mono (by decide)) (fun _ _ => ?_) ?_)
    | apply k0
    | apply k1
    | apply k2
    | dsimp only
    | split

theorem returnReceived_kept {P : Die → Prop} (hc : Closed P [.tally, .ledger, .limits, .links]) (l : Nat) (f : Bytes) (d : Die) (hd : P d) : P (returnReceived l f d) := by
  have k0 := @modPool_kept P (hc.mono (by decide))
  have k1 := @poolRecord_kept P (hc.mono (by decide))
  have k2 := @setLoan_kept P (hc.mono (by decide))
  unfold returnReceived
  try dsimp only
  with_reducible repeat' first
    | assumption
    | apply k0
    | (refine poolFrame_kept (hc.mono (by decide)) (fun _ _ => ?_) ?_)
    | apply k1
    | apply k2
    | dsimp only
    | split
    | refine hc.lit (by dsimp only) ?_

theorem recallReceived_kept {P : Die → Prop} (hc : Closed P [.tally, .ledger, .limits, .links]) (l : Nat) (f : Bytes) (d : Die) (hd : P d) : P (recallReceived l f d) := by
  have k0 := @poolRecord_kept P (hc.mono (by decide))
  have k1 := @returnLoan_kept P (hc.mono (by decide))
  unfold recallReceived
  try dsimp only
  with_reducible repeat' first
    | assumption
    | (refine poolFrame_kept (hc.mono (by decide)) (fun _ _ => ?_) ?_)
    | apply k0
    | apply k1
    | dsimp only
    | split

theorem linkSilent_kept {P : Die → Prop} (hc : Closed P [.ledger, .limits, .links]) (l : Nat) (d : Die) (hd : P d) : P (linkSilent l d) := by
  have k0 := @poolLost_kept P (hc.mono (by decide))
  unfold linkSilent
  try dsimp only
  with_reducible repeat' first
    | assumption
    | apply k0
    | dsimp only
    | split

theorem restoreCap_kept {P : Die → Prop} (hc : Closed P [.ledger, .limits, .links]) (l cause : Nat) (d : Die) (hd : P d) : P (restoreCap l cause d) := by
  have k0 := @emit_kept P (hc.mono (by decide))
  have k1 := @modPool_kept P (hc.mono (by decide))
  have k2 := @setLoan_kept P (hc.mono (by decide))
  unfold restoreCap
  try dsimp only
  with_reducible repeat' first
    | assumption
    | apply k0
    | apply k1
    | apply k2
    | dsimp only
    | split
    | refine hc.lit (by dsimp only) ?_

theorem lenderRestore_kept {P : Die → Prop} (hc : Closed P [.ledger, .limits, .links]) (l : Nat) (d : Die) (hd : P d) : P (lenderRestore l d) := by
  have k0 := @restoreCap_kept P (hc.mono (by decide))
  unfold lenderRestore
  try dsimp only
  with_reducible repeat' first
    | assumption
    | apply k0
    | dsimp only
    | split

theorem setGuard_kept {P : Die → Prop} (hc : Closed P [.ledger, .regions, .commitReqs]) (v c r : Nat) (d : Die) (hd : P d) : P (setGuard v c r d) := by
  have k0 := @changeCeilings_kept P (hc.mono (by decide))
  unfold setGuard
  try dsimp only
  with_reducible repeat' first
    | assumption
    | apply k0
    | dsimp only
    | split
    | refine hc.lit (by dsimp only) ?_

theorem guardRail_kept {P : Die → Prop} (hc : Closed P [.ledger, .regions, .commitReqs]) (v test k : Nat) (d : Die) (hd : P d) : P (guardRail v test k d) := by
  have k0 := @attribTo_kept P (hc.mono (by decide))
  have k1 := @emit_kept P (hc.mono (by decide))
  have k2 := @setGuard_kept P (hc.mono (by decide))
  unfold guardRail
  try dsimp only
  with_reducible repeat' first
    | assumption
    | apply k0
    | (refine each_kept (fun _ _ _ => ?_) ?_)
    | apply k1
    | apply k2
    | dsimp only
    | split

theorem guardTenant_kept {P : Die → Prop} (hc : Closed P [.ledger, .regions, .commitReqs, .tenants]) (e v : Nat) (d : Die) (hd : P d) : P (guardTenant e v d) := by
  have k0 := @guardRail_kept P (hc.mono (by decide))
  have k1 := @modTenant_kept P _ hc (by decide)
  unfold guardTenant
  try dsimp only
  with_reducible repeat' first
    | assumption
    | (refine each_kept (fun _ _ _ => ?_) ?_)
    | apply k0
    | apply k1
    | dsimp only
    | split
    | refine hc.lit (by dsimp only) ?_

theorem guardEvaluation_kept {P : Die → Prop} (hc : Closed P [.ledger, .limits, .islands, .regions, .ends, .rails, .commitReqs, .tenants]) (d : Die) (hd : P d) : P (guardEvaluation d) := by
  have k0 := @guardTenant_kept P (hc.mono (by decide))
  have k1 := @intervalEnd_kept P (hc.mono (by decide))
  unfold guardEvaluation
  try dsimp only
  with_reducible repeat' first
    | assumption
    | (refine each_kept (fun _ _ _ => ?_) ?_)
    | apply k0
    | apply k1
    | dsimp only
    | split
    | refine hc.lit (by dsimp only) ?_

theorem guardRise_kept {P : Die → Prop} (hc : Closed P [.ledger, .regions, .commitReqs, .tenants]) (t v : Nat) (d : Die) (hd : P d) : P (guardRise t v d) := by
  have k0 := @modTenant_kept P _ hc (by decide)
  have k1 := @setGuard_kept P (hc.mono (by decide))
  unfold guardRise
  try dsimp only
  with_reducible repeat' first
    | assumption
    | (refine each_kept (fun _ _ _ => ?_) ?_)
    | apply k0
    | apply k1
    | dsimp only
    | split
    | refine hc.lit (by dsimp only) ?_

theorem guardCeilingRise_kept {P : Die → Prop} (hc : Closed P [.ledger, .regions, .commitReqs, .tenants]) (d : Die) (hd : P d) : P (guardCeilingRise d) := by
  have k0 := @guardRise_kept P (hc.mono (by decide))
  unfold guardCeilingRise
  try dsimp only
  with_reducible repeat' first
    | assumption
    | (refine each_kept (fun _ _ _ => ?_) ?_)
    | apply k0
    | dsimp only
    | split

theorem doorbell_kept {P : Die → Prop} (hc : Closed P [.ledger, .queues, .sram]) (q tail : Nat) (sram : List SramWrite) (d : Die) (hd : P d) : P (doorbell q tail sram d) := by
  have k0 := @emit_kept P (hc.mono (by decide))
  have k1 := hc.host (by decide)
  have k2 := @modQueue_kept P _ hc (by decide)
  have k3 := @queueInt_kept P (hc.mono (by decide))
  unfold doorbell
  try dsimp only
  with_reducible repeat' first
    | assumption
    | (refine each_kept (fun _ _ _ => ?_) ?_)
    | apply k0
    | apply k1
    | apply k2
    | apply k3
    | dsimp only
    | split
    | refine hc.lit (by dsimp only) ?_

theorem cqHead_kept {P : Die → Prop} (hc : Closed P [.queues]) (q head : Nat) (d : Die) (hd : P d) : P (cqHead q head d) := by
  have k0 := @modQueue_kept P _ hc (by decide)
  have k1 := @queueInt_kept P (hc.mono (by decide))
  unfold cqHead
  try dsimp only
  with_reducible repeat' first
    | assumption
    | apply k0
    | apply k1
    | dsimp only
    | split
    | refine hc.lit (by dsimp only) ?_

theorem resetWrite_kept {P : Die → Prop} (hc : Closed P [.ledger, .queues, .sram]) (q : Nat) (d : Die) (hd : P d) : P (resetWrite q d) := by
  have k0 := @modQueue_kept P _ hc (by decide)
  have k1 := @queueReset_kept P (hc.mono (by decide))
  unfold resetWrite
  try dsimp only
  with_reducible repeat' first
    | assumption
    | apply k0
    | apply k1
    | dsimp only
    | split
    | refine hc.lit (by dsimp only) ?_

theorem descriptorFetch_kept {P : Die → Prop} (hc : Closed P [.ledger, .queues, .sram]) (q : Nat) (d : Die) (hd : P d) : P (descriptorFetch q d) := by
  have k0 := @finish_kept P (hc.mono (by decide))
  have k1 := @modQueue_kept P _ hc (by decide)
  have k2 := @postCompletion_kept P (hc.mono (by decide))
  unfold descriptorFetch
  try dsimp only
  with_reducible repeat' first
    | assumption
    | apply k0
    | apply k1
    | apply k2
    | dsimp only
    | split
    | refine hc.lit (by dsimp only) ?_

theorem modDrain_kept {P : Die → Prop} (hc : Closed P [.ledger]) (f : Drain → Drain) (d : Die) (hd : P d) : P (modDrain f d) := by
  unfold modDrain
  try dsimp only
  with_reducible repeat' first
    | assumption
    | dsimp only
    | split
    | refine hc.lit (by dsimp only) ?_

theorem drainOverrun_kept {P : Die → Prop} (hc : Closed P [.ledger]) (d : Die) (hd : P d) : P (drainOverrun d) := by
  have k0 := @emit_kept P (hc.mono (by decide))
  have k1 := @modDrain_kept P (hc.mono (by decide))
  unfold drainOverrun
  try dsimp only
  with_reducible repeat' first
    | assumption
    | apply k0
    | apply k1
    | dsimp only
    | split
    | refine hc.lit (by dsimp only) ?_

theorem writePage_kept {P : Die → Prop} (hc : Closed P [.ledger, .streams]) (n : Nat) (d : Die) (hd : P d) : P (writePage n d) := by
  have k0 := @modDrain_kept P (hc.mono (by decide))
  have k1 := @streamWrite_kept P (hc.mono (by decide))
  unfold writePage
  try dsimp only
  with_reducible repeat' first
    | assumption
    | apply k0
    | apply k1
    | dsimp only
    | split
    | refine hc.lit (by dsimp only) ?_

theorem writePartial_kept {P : Die → Prop} (hc : Closed P [.ledger, .streams]) (d : Die) (hd : P d) : P (writePartial d) := by
  have k0 := @drainOverrun_kept P (hc.mono (by decide))
  have k1 := @writePage_kept P (hc.mono (by decide))
  unfold writePartial
  try dsimp only
  with_reducible repeat' first
    | assumption
    | apply k0
    | apply k1
    | dsimp only
    | split

theorem drainPump_kept {P : Die → Prop} (hc : Closed P [.ledger, .streams]) : ∀ (n : Nat) (d : Die), P d → P (drainPump n d)
  | 0, _, hd => hd
  | n + 1, d, hd => by
    have k0 := @writePartial_kept P (hc.mono (by decide))
    have k1 := @modDrain_kept P (hc.mono (by decide))
    have k2 := @drainOverrun_kept P (hc.mono (by decide))
    have k3 := @writePage_kept P (hc.mono (by decide))
    have ih := drainPump_kept hc n
    unfold drainPump
    dsimp only
    with_reducible repeat' first
      | assumption
      | apply ih
      | apply k0
      | apply k1
      | apply k2
      | apply k3
      | split

theorem pageTimeout_kept {P : Die → Prop} (hc : Closed P [.ledger, .streams]) (d : Die) (hd : P d) : P (pageTimeout d) := by
  have k0 := @writePartial_kept P (hc.mono (by decide))
  unfold pageTimeout
  try dsimp only
  with_reducible repeat' first
    | assumption
    | apply k0
    | dsimp only
    | split

theorem pageComplete_kept {P : Die → Prop} (hc : Closed P [.regs, .ledger, .queues, .sram, .streams]) (page : Nat) (d : Die) (hd : P d) : P (pageComplete page d) := by
  have k0 := @drainPump_kept P (hc.mono (by decide))
  have k1 := @drainStop_kept P (hc.mono (by decide))
  have k2 := @fabricInt_kept P (hc.mono (by decide))
  have k3 := @modDrain_kept P (hc.mono (by decide))
  unfold pageComplete
  try dsimp only
  with_reducible repeat' first
    | assumption
    | apply k0
    | apply k1
    | apply k2
    | apply k3
    | dsimp only
    | split
    | refine hc.lit (by dsimp only) ?_

theorem recordAccept_kept {P : Die → Prop} (hc : Closed P [.ledger, .records, .streams]) (d : Die) (hd : P d) : P (recordAccept d) := by
  have k0 := @drainPump_kept P (hc.mono (by decide))
  have k1 := @emit_kept P (hc.mono (by decide))
  have k2 := hc.records (by decide) (by decide)
  unfold recordAccept
  try dsimp only
  with_reducible repeat' first
    | assumption
    | apply k0
    | (refine each_kept (fun _ _ _ => ?_) ?_)
    | apply k1
    | apply k2
    | dsimp only
    | split
    | refine hc.lit (by dsimp only) ?_

theorem closeSpan_kept {P : Die → Prop} (hc : Closed P [.ledger, .islands]) (i : Nat) (d : Die) (hd : P d) : P (closeSpan i d) := by
  have k0 := @attribTo_kept P (hc.mono (by decide))
  have k1 := @emit_kept P (hc.mono (by decide))
  have k2 := @modMargin_kept P (hc.mono (by decide))
  unfold closeSpan
  try dsimp only
  with_reducible repeat' first
    | assumption
    | apply k0
    | apply k1
    | apply k2
    | dsimp only
    | split
    | refine hc.lit (by dsimp only) ?_

theorem spanWindowEnd_kept {P : Die → Prop} (hc : Closed P [.ledger, .islands]) (i : Nat) (d : Die) (hd : P d) : P (spanWindowEnd i d) := by
  have k0 := @closeSpan_kept P (hc.mono (by decide))
  have k1 := @modMargin_kept P (hc.mono (by decide))
  unfold spanWindowEnd
  try dsimp only
  with_reducible repeat' first
    | assumption
    | apply k0
    | apply k1
    | dsimp only
    | split
    | refine hc.lit (by dsimp only) ?_

theorem snapshotRead_kept {P : Die → Prop} (hc : Closed P [.regs]) (d : Die) (hd : P d) : P (snapshotRead d) := by
  unfold snapshotRead
  try dsimp only
  with_reducible repeat' first
    | assumption
    | dsimp only
    | split
    | refine hc.lit (by dsimp only) ?_

theorem loRead_kept {P : Die → Prop} (hc : Closed P [.regs]) (off : Nat) (d : Die) (hd : P d) : P (loRead off d) := by
  unfold loRead
  try dsimp only
  with_reducible repeat' first
    | assumption
    | dsimp only
    | split
    | refine hc.lit (by dsimp only) ?_

theorem freezeWrite_kept {P : Die → Prop} (hc : Closed P [.regs, .ledger, .contexts]) (value : Nat) (d : Die) (hd : P d) : P (freezeWrite value d) := by
  have k0 := @freeze_kept P (hc.mono (by decide))
  unfold freezeWrite
  try dsimp only
  with_reducible repeat' first
    | assumption
    | apply k0
    | dsimp only
    | split

theorem drainHeadWrite_kept {P : Die → Prop} (hc : Closed P [.regs, .ledger, .streams]) (head : Nat) (d : Die) (hd : P d) : P (drainHeadWrite head d) := by
  have k0 := @drainPump_kept P (hc.mono (by decide))
  have k1 := @fabricInt_kept P (hc.mono (by decide))
  have k2 := @modDrain_kept P (hc.mono (by decide))
  unfold drainHeadWrite
  try dsimp only
  with_reducible repeat' first
    | assumption
    | apply k0
    | apply k1
    | apply k2
    | dsimp only
    | split
    | refine hc.lit (by dsimp only) ?_

theorem enableWrite_kept {P : Die → Prop} (hc : Closed P [.regs, .queues]) (off value : Nat) (d : Die) (hd : P d) : P (enableWrite off value d) := by
  have k0 := @modQueue_kept P _ hc (by decide)
  unfold enableWrite
  try dsimp only
  with_reducible repeat' first
    | assumption
    | apply k0
    | dsimp only
    | split
    | refine hc.lit (by dsimp only) ?_

theorem genericWrite_kept {P : Die → Prop} (hc : Closed P [.regs, .queues]) (off bytes value : Nat) (d : Die) (hd : P d) : P (genericWrite off bytes value d) := by
  have k0 := @enableWrite_kept P (hc.mono (by decide))
  unfold genericWrite
  try dsimp only
  with_reducible repeat' first
    | assumption
    | apply k0
    | dsimp only
    | split

theorem queueWrite_kept {P : Die → Prop} (hc : Closed P [.regs, .ledger, .queues, .sram]) (q off value : Nat) (d : Die) (hd : P d) : P (queueWrite q off value d) := by
  have k0 := @cqHead_kept P (hc.mono (by decide))
  have k1 := @doorbell_kept P (hc.mono (by decide))
  have k2 := @enableWrite_kept P (hc.mono (by decide))
  have k3 := @modQueue_kept P _ hc (by decide)
  have k4 := @resetWrite_kept P (hc.mono (by decide))
  unfold queueWrite
  try dsimp only
  with_reducible repeat' first
    | assumption
    | apply k0
    | apply k1
    | apply k2
    | apply k3
    | apply k4
    | dsimp only
    | split
    | refine hc.lit (by dsimp only) ?_

theorem mmioWrite_kept {P : Die → Prop} (hc : Closed P [.tally, .clocks, .startup, .stop, .regs, .ledger, .chandler, .store, .limits, .islands, .regions, .synths, .ends, .lanes, .links, .rails, .sensors, .watches, .contexts, .commits, .commitReqs, .nextCommit, .tenants, .queues, .sram, .streams, .dormant, .fresh]) (off value : Nat) (d : Die) (hd : P d) : P (mmioWrite off value d) := by
  have k0 := @drainHeadWrite_kept P (hc.mono (by decide))
  have k1 := @enableWrite_kept P (hc.mono (by decide))
  have k2 := @fabricResetWrite_kept P (hc.mono (by decide))
  have k3 := @freezeWrite_kept P (hc.mono (by decide))
  have k4 := @queueWrite_kept P (hc.mono (by decide))
  have k5 := @registerClear_kept P (hc.mono (by decide))
  have k6 := @registerSet_kept P (hc.mono (by decide))
  unfold mmioWrite
  try dsimp only
  with_reducible repeat' first
    | assumption
    | apply k0
    | apply k1
    | apply k2
    | apply k3
    | apply k4
    | apply k5
    | apply k6
    | dsimp only
    | split
    | refine hc.lit (by dsimp only) ?_

theorem fabricWord_kept {P : Die → Prop} (hc : Closed P [.tally, .clocks, .startup, .stop, .regs, .ledger, .chandler, .store, .limits, .islands, .regions, .synths, .ends, .lanes, .links, .rails, .sensors, .watches, .contexts, .commits, .commitReqs, .nextCommit, .tenants, .queues, .sram, .streams, .dormant, .fresh]) (w : Nat) (d : Die) (hd : P d) : P (fabricWord w d) := by
  have k0 := @mmioWrite_kept P (hc.mono (by decide))
  unfold fabricWord
  try dsimp only
  with_reducible repeat' first
    | assumption
    | apply k0
    | dsimp only
    | split
    | refine hc.lit (by dsimp only) ?_

theorem ledgerSelect_kept {P : Die → Prop} (hc : Closed P [.regs]) (index : Nat) (d : Die) (hd : P d) : P (ledgerSelect index d) := by
  unfold ledgerSelect
  try dsimp only
  with_reducible repeat' first
    | assumption
    | dsimp only
    | split
    | refine hc.lit (by dsimp only) ?_

theorem testForce_kept {P : Die → Prop} (hc : Closed P [.stop]) (on : Bool) (d : Die) (hd : P d) : P (testForce on d) := by
  unfold testForce
  try dsimp only
  with_reducible repeat' first
    | assumption
    | dsimp only
    | split
    | refine hc.lit (by dsimp only) ?_

end Sys2Proof.Machine
end

