-- ==== Sys2Proof/Laws/KeptCommands.lean ====
section
/-! SUPPORT. What each operation of CmdPlan, CmdOpp, CmdTenant, CmdLedger, CalImage, CmdCal, CmdRegion, CmdFabric leaves alone: a property that the writes of its parts keep is kept by the operation. -/

namespace Sys2Proof.Machine
open Sys2Proof
set_option Elab.async false
set_option linter.all false

theorem createContext_kept {P : Die → Prop} (hc : Closed P [.regions, .contexts]) (q : Nat) (e : Exec) (c : Nat) (d : Die) (hd : P d) : P (createContext q e c d) := by
  have k0 := @modRegion_kept P _ hc (by decide)
  have k1 := hc.contexts (by decide)
  unfold createContext
  try dsimp only
  with_reducible repeat' first
    | assumption
    | (refine each_kept (fun _ _ _ => ?_) ?_)
    | apply k0
    | apply k1
    | dsimp only
    | split
    | refine hc.lit (by dsimp only) ?_

theorem planLoadBody_kept {P : Die → Prop} (hc : Closed P [.regions, .contexts]) (q : Nat) (e : Exec) (p : Bytes) (d : Die) (hd : P d) : P (planLoadBody q e p d).1 := by
  have k0 := @createContext_kept P (hc.mono (by decide))
  unfold planLoadBody
  try dsimp only
  with_reducible repeat' first
    | assumption
    | (refine checked_kept (fun _ _ => ?_) ?_)
    | apply k0
    | dsimp only
    | split

theorem takeCount_kept {P : Die → Prop} (hc : Closed P [.islands]) (count i : Nat) (d : Die) (hd : P d) : P (takeCount count i d) := by
  have k0 := @closeGate_kept P (hc.mono (by decide))
  have k1 := @modRing_kept P (hc.mono (by decide))
  unfold takeCount
  try dsimp only
  with_reducible repeat' first
    | assumption
    | apply k0
    | apply k1
    | dsimp only
    | split
    | refine hc.lit (by dsimp only) ?_

theorem startPlan_kept {P : Die → Prop} (hc : Closed P [.ledger, .islands, .contexts]) (c count tally : Nat) (d : Die) (hd : P d) : P (startPlan c count tally d) := by
  have k0 := @emit_kept P (hc.mono (by decide))
  have k1 := hc.contexts (by decide)
  have k2 := @takeCount_kept P (hc.mono (by decide))
  unfold startPlan
  try dsimp only
  with_reducible repeat' first
    | assumption
    | (refine each_kept (fun _ _ _ => ?_) ?_)
    | apply k0
    | apply k1
    | apply k2
    | dsimp only
    | split
    | refine hc.lit (by dsimp only) ?_

theorem planStartBody_kept {P : Die → Prop} (hc : Closed P [.ledger, .islands, .contexts]) (q : Nat) (e : Exec) (p : Bytes) (d : Die) (hd : P d) : P (planStartBody q e p d).1 := by
  have k0 := @startPlan_kept P (hc.mono (by decide))
  unfold planStartBody
  try dsimp only
  with_reducible repeat' first
    | assumption
    | (refine checked_kept (fun _ _ => ?_) ?_)
    | apply k0
    | dsimp only
    | split

theorem releaseEdge_kept {P : Die → Prop} (hc : Closed P [.ledger, .ends]) (e : Nat) (d : Die) (hd : P d) : P (releaseEdge e d) := by
  have k0 := @coupleEnd_kept P (hc.mono (by decide))
  have k1 := @coupleRefused_kept P (hc.mono (by decide))
  unfold releaseEdge
  try dsimp only
  with_reducible repeat' first
    | assumption
    | apply k0
    | apply k1
    | dsimp only
    | split

theorem planRelease_kept {P : Die → Prop} (hc : Closed P [.ledger, .islands, .regions, .ends, .lanes, .links, .contexts]) (c : Nat) (d : Die) (hd : P d) : P (planRelease c d) := by
  have k0 := @coupleLink_kept P (hc.mono (by decide))
  have k1 := @releaseEdge_kept P (hc.mono (by decide))
  have k2 := @reopen_kept P (hc.mono (by decide))
  have k3 := @retirePass_kept P (hc.mono (by decide))
  have k4 := hc.contexts (by decide)
  unfold planRelease
  try dsimp only
  with_reducible repeat' first
    | assumption
    | apply k0
    | (refine each_kept (fun _ _ _ => ?_) ?_)
    | apply k1
    | apply k2
    | apply k3
    | apply k4
    | dsimp only
    | split
    | refine hc.lit (by dsimp only) ?_

theorem planArmBody_kept {P : Die → Prop} (hc : Closed P [.contexts]) (q : Nat) (_e : Exec) (p : Bytes) (d : Die) (hd : P d) : P (planArmBody q _e p d).1 := by
  have k0 := hc.contexts (by decide)
  unfold planArmBody
  try dsimp only
  with_reducible repeat' first
    | assumption
    | (refine checked_kept (fun _ _ => ?_) ?_)
    | apply k0
    | dsimp only
    | split
    | refine hc.lit (by dsimp only) ?_

theorem planReadBody_kept {P : Die → Prop} (_hc : Closed P []) (q : Nat) (_e : Exec) (p : Bytes) (d : Die) (hd : P d) : P (planReadBody q _e p d).1 := by
  unfold planReadBody
  try dsimp only
  with_reducible repeat' first
    | assumption
    | (refine checked_kept (fun _ _ => ?_) ?_)
    | dsimp only
    | split

theorem unloadPlan_kept {P : Die → Prop} (hc : Closed P [.ledger, .islands, .regions, .ends, .lanes, .links, .contexts, .commitReqs]) (c : Nat) (d : Die) (hd : P d) : P (unloadPlan c d) := by
  have k0 := @clearTarget_kept P (hc.mono (by decide))
  have k1 := @emit_kept P (hc.mono (by decide))
  have k2 := @modRegion_kept P _ hc (by decide)
  have k3 := @modRing_kept P (hc.mono (by decide))
  have k4 := @reopen_kept P (hc.mono (by decide))
  have k5 := hc.contexts (by decide)
  have k6 := @uncoupleEnd_kept P (hc.mono (by decide))
  have k7 := @uncoupleLink_kept P (hc.mono (by decide))
  unfold unloadPlan
  try dsimp only
  with_reducible repeat' first
    | assumption
    | apply k0
    | (refine each_kept (fun _ _ _ => ?_) ?_)
    | apply k1
    | apply k2
    | apply k3
    | apply k4
    | apply k5
    | apply k6
    | apply k7
    | dsimp only
    | split
    | refine hc.lit (by dsimp only) ?_

theorem planUnloadBody_kept {P : Die → Prop} (hc : Closed P [.ledger, .islands, .regions, .ends, .lanes, .links, .contexts, .commitReqs]) (q : Nat) (_e : Exec) (p : Bytes) (d : Die) (hd : P d) : P (planUnloadBody q _e p d).1 := by
  have k0 := @unloadPlan_kept P (hc.mono (by decide))
  unfold planUnloadBody
  try dsimp only
  with_reducible repeat' first
    | assumption
    | (refine checked_kept (fun _ _ => ?_) ?_)
    | apply k0
    | dsimp only
    | split

theorem noteHost_kept {P : Die → Prop} (hc : Closed P [.ends]) (k : Nat) (d : Die) (hd : P d) : P (noteHost k d) := by
  have k0 := @modEnd_kept P _ hc (by decide)
  unfold noteHost
  try dsimp only
  with_reducible repeat' first
    | assumption
    | apply k0
    | dsimp only
    | split
    | refine hc.lit (by dsimp only) ?_

theorem hostEdge_kept {P : Die → Prop} (hc : Closed P [.ledger, .ends, .lanes, .links]) (on : Bool) (tag v : Nat) (d : Die) (hd : P d) : P (hostEdge on tag v d).1 := by
  have k0 := @coupleRefused_kept P (hc.mono (by decide))
  have k1 := @noteHost_kept P (hc.mono (by decide))
  have k2 := @coupleEnd_kept P (hc.mono (by decide))
  have k3 := @uncoupleEnd_kept P (hc.mono (by decide))
  have k4 := @coupleLink_kept P (hc.mono (by decide))
  have k5 := @uncoupleLink_kept P (hc.mono (by decide))
  unfold hostEdge
  dsimp only
  with_reducible repeat' first
    | assumption
    | apply k0
    | apply k1
    | apply k2
    | apply k3
    | apply k4
    | apply k5
    | dsimp only
    | split

theorem hostEdges_kept {P : Die → Prop} (hc : Closed P [.ledger, .ends, .lanes, .links]) (on : Bool) (tag : Nat) : ∀ (l : List Nat) (d : Die), P d → P (hostEdges on tag l d).1
  | [], _, hd => hd
  | v :: t, d, hd => hostEdges_kept hc on tag t _ (hostEdge_kept (hc.mono (by decide)) on tag v d hd)

theorem planCoupleBody_kept {P : Die → Prop} (hc : Closed P [.ledger, .ends, .lanes, .links]) (q : Nat) (_e : Exec) (p : Bytes) (d : Die) (hd : P d) : P (planCoupleBody q _e p d).1 := by
  have k0 := @hostEdges_kept P (hc.mono (by decide))
  unfold planCoupleBody
  try dsimp only
  with_reducible repeat' first
    | assumption
    | (refine checked_kept (fun _ _ => ?_) ?_)
    | apply k0
    | dsimp only
    | split

theorem oppCommitBody_kept {P : Die → Prop} (hc : Closed P [.ledger, .regions, .synths, .commits, .nextCommit]) (q : Nat) (e : Exec) (p : Bytes) (d : Die) (hd : P d) : P (oppCommitBody q e p d).1 := by
  have k0 := @acceptCommit_kept P (hc.mono (by decide))
  unfold oppCommitBody
  try dsimp only
  with_reducible repeat' first
    | assumption
    | apply k0
    | (refine checked_kept (fun _ _ => ?_) ?_)
    | dsimp only
    | split

theorem oppCancelBody_kept {P : Die → Prop} (hc : Closed P [.ledger, .regions, .synths, .commits, .commitReqs]) (q : Nat) (_e : Exec) (p : Bytes) (d : Die) (hd : P d) : P (oppCancelBody q _e p d).1 := by
  have k0 := @abortCommit_kept P (hc.mono (by decide))
  unfold oppCancelBody
  try dsimp only
  with_reducible repeat' first
    | assumption
    | apply k0
    | (refine checked_kept (fun _ _ => ?_) ?_)
    | dsimp only
    | split

theorem oppReadBody_kept {P : Die → Prop} (hc : Closed P [.fresh]) (_q : Nat) (_e : Exec) (_p : Bytes) (d : Die) (hd : P d) : P (oppReadBody _q _e _p d).1 := by
  unfold oppReadBody
  try dsimp only
  with_reducible repeat' first
    | assumption
    | dsimp only
    | split
    | refine hc.lit (by dsimp only) ?_

theorem setPackage_kept {P : Die → Prop} (hc : Closed P [.limits]) (base burst : Nat) (d : Die) (hd : P d) : P (setPackage base burst d) := by
  unfold setPackage
  try dsimp only
  with_reducible repeat' first
    | assumption
    | dsimp only
    | split
    | refine hc.lit (by dsimp only) ?_

theorem setCaps_kept {P : Die → Prop} (hc : Closed P [.limits, .regions, .rails]) (kind : Nat) (e : Exec) (p : Bytes) (d : Die) (hd : P d) : P (setCaps kind e p d) := by
  have k0 := @modRail_kept P _ hc (by decide)
  have k1 := @modRegion_kept P _ hc (by decide)
  have k2 := @setPackage_kept P (hc.mono (by decide))
  unfold setCaps
  try dsimp only
  with_reducible repeat' first
    | assumption
    | (refine each_kept (fun _ _ _ => ?_) ?_)
    | apply k0
    | apply k1
    | apply k2
    | dsimp only
    | split
    | refine hc.lit (by dsimp only) ?_

theorem capSetBody_kept {P : Die → Prop} (hc : Closed P [.limits, .regions, .rails]) (q : Nat) (e : Exec) (p : Bytes) (d : Die) (hd : P d) : P (capSetBody q e p d).1 := by
  have k0 := @setCaps_kept P (hc.mono (by decide))
  unfold capSetBody
  try dsimp only
  with_reducible repeat' first
    | assumption
    | (refine checked_kept (fun _ _ => ?_) ?_)
    | apply k0
    | dsimp only
    | split

theorem unlatch_kept {P : Die → Prop} (hc : Closed P [.ledger, .regions, .commitReqs]) (r : Nat) (d : Die) (hd : P d) : P (unlatch r d) := by
  have k0 := @modRegion_kept P _ hc (by decide)
  have k1 := @setCeiling_kept P (hc.mono (by decide))
  unfold unlatch
  try dsimp only
  with_reducible repeat' first
    | assumption
    | apply k0
    | apply k1
    | dsimp only
    | split
    | refine hc.lit (by dsimp only) ?_

theorem hostCeiling_kept {P : Die → Prop} (hc : Closed P [.ledger, .regions, .commitReqs]) (q : Nat) (v : Option Nat) (r : Nat) (d : Die) (hd : P d) : P (hostCeiling q v r d) := by
  have k0 := @modRegion_kept P _ hc (by decide)
  have k1 := @setCeiling_kept P (hc.mono (by decide))
  unfold hostCeiling
  try dsimp only
  with_reducible repeat' first
    | assumption
    | apply k0
    | apply k1
    | dsimp only
    | split
    | refine hc.lit (by dsimp only) ?_

theorem capCeilingBody_kept {P : Die → Prop} (hc : Closed P [.ledger, .regions, .commitReqs]) (q : Nat) (_e : Exec) (p : Bytes) (d : Die) (hd : P d) : P (capCeilingBody q _e p d).1 := by
  have k0 := @hostCeiling_kept P (hc.mono (by decide))
  have k1 := @unlatch_kept P (hc.mono (by decide))
  unfold capCeilingBody
  try dsimp only
  with_reducible repeat' first
    | assumption
    | (refine checked_kept (fun _ _ => ?_) ?_)
    | (refine each_kept (fun _ _ _ => ?_) ?_)
    | apply k0
    | apply k1
    | dsimp only
    | split

theorem capReadBody_kept {P : Die → Prop} (_hc : Closed P []) (q : Nat) (_e : Exec) (p : Bytes) (d : Die) (hd : P d) : P (capReadBody q _e p d).1 := by
  unfold capReadBody
  try dsimp only
  with_reducible repeat' first
    | assumption
    | (refine checked_kept (fun _ _ => ?_) ?_)
    | dsimp only
    | split

theorem setPool_kept {P : Die → Prop} (hc : Closed P [.ledger, .limits, .regions, .links]) (pool base : Nat) (d : Die) (hd : P d) : P (setPool pool base d) := by
  have k0 := @beginRound_kept P (hc.mono (by decide))
  have k1 := @modPool_kept P (hc.mono (by decide))
  have k2 := @poolLost_kept P (hc.mono (by decide))
  have k3 := @setPackage_kept P (hc.mono (by decide))
  unfold setPool
  try dsimp only
  with_reducible repeat' first
    | assumption
    | apply k0
    | (refine each_kept (fun _ _ _ => ?_) ?_)
    | apply k1
    | apply k2
    | apply k3
    | dsimp only
    | split
    | refine hc.lit (by dsimp only) ?_

theorem poolSetBody_kept {P : Die → Prop} (hc : Closed P [.ledger, .limits, .regions, .links]) (q : Nat) (_e : Exec) (p : Bytes) (d : Die) (hd : P d) : P (poolSetBody q _e p d).1 := by
  have k0 := @setPool_kept P (hc.mono (by decide))
  unfold poolSetBody
  try dsimp only
  with_reducible repeat' first
    | assumption
    | (refine checked_kept (fun _ _ => ?_) ?_)
    | apply k0
    | dsimp only
    | split

theorem poolReadBody_kept {P : Die → Prop} (_hc : Closed P []) (q : Nat) (_e : Exec) (_p : Bytes) (d : Die) (hd : P d) : P (poolReadBody q _e _p d).1 := by
  unfold poolReadBody
  try dsimp only
  with_reducible repeat' first
    | assumption
    | (refine checked_kept (fun _ _ => ?_) ?_)
    | dsimp only
    | split

theorem rebind_kept {P : Die → Prop} (hc : Closed P [.ledger, .queues, .sram]) (t cause : Nat) (d : Die) (hd : P d) : P (rebind t cause d) := by
  have k0 := @modQueue_kept P _ hc (by decide)
  have k1 := @queueReset_kept P (hc.mono (by decide))
  unfold rebind
  try dsimp only
  with_reducible repeat' first
    | assumption
    | apply k0
    | apply k1
    | dsimp only
    | split
    | refine hc.lit (by dsimp only) ?_

theorem createTenant_kept {P : Die → Prop} (hc : Closed P [.ledger, .tenants, .queues, .sram]) (t quota : Nat) (key : Nat × Nat) (d : Die) (hd : P d) : P (createTenant t quota key d) := by
  have k0 := @modQueue_kept P _ hc (by decide)
  have k1 := @modTenant_kept P _ hc (by decide)
  have k2 := @rebind_kept P (hc.mono (by decide))
  unfold createTenant
  try dsimp only
  with_reducible repeat' first
    | assumption
    | apply k0
    | apply k1
    | apply k2
    | dsimp only
    | split
    | refine hc.lit (by dsimp only) ?_

theorem tenantCreateBody_kept {P : Die → Prop} (hc : Closed P [.ledger, .tenants, .queues, .sram]) (q : Nat) (e : Exec) (p : Bytes) (d : Die) (hd : P d) : P (tenantCreateBody q e p d).1 := by
  have k0 := @createTenant_kept P (hc.mono (by decide))
  unfold tenantCreateBody
  try dsimp only
  with_reducible repeat' first
    | assumption
    | (refine checked_kept (fun _ _ => ?_) ?_)
    | apply k0
    | dsimp only
    | split

theorem destroyTenant_kept {P : Die → Prop} (hc : Closed P [.ledger, .regions, .watches, .commitReqs, .tenants, .queues, .sram]) (t : Nat) (d : Die) (hd : P d) : P (destroyTenant t d) := by
  have k0 := @acceptMove_kept P (hc.mono (by decide))
  have k1 := @changeCeilings_kept P (hc.mono (by decide))
  have k2 := @modQueue_kept P _ hc (by decide)
  have k3 := @modTenant_kept P _ hc (by decide)
  have k4 := @modWatch_kept P _ hc (by decide)
  have k5 := @rebind_kept P (hc.mono (by decide))
  unfold destroyTenant
  try dsimp only
  with_reducible repeat' first
    | assumption
    | apply k0
    | apply k1
    | (refine each_kept (fun _ _ _ => ?_) ?_)
    | apply k2
    | apply k3
    | apply k4
    | apply k5
    | dsimp only
    | split
    | refine hc.lit (by dsimp only) ?_

theorem tenantDestroyBody_kept {P : Die → Prop} (hc : Closed P [.ledger, .regions, .watches, .commitReqs, .tenants, .queues, .sram]) (q : Nat) (_e : Exec) (p : Bytes) (d : Die) (hd : P d) : P (tenantDestroyBody q _e p d).1 := by
  have k0 := @destroyTenant_kept P (hc.mono (by decide))
  unfold tenantDestroyBody
  try dsimp only
  with_reducible repeat' first
    | assumption
    | (refine checked_kept (fun _ _ => ?_) ?_)
    | apply k0
    | dsimp only
    | split

theorem tenantMoveBody_kept {P : Die → Prop} (hc : Closed P [.regions]) (q : Nat) (_e : Exec) (p : Bytes) (d : Die) (hd : P d) : P (tenantMoveBody q _e p d).1 := by
  have k0 := @acceptMove_kept P (hc.mono (by decide))
  unfold tenantMoveBody
  try dsimp only
  with_reducible repeat' first
    | assumption
    | apply k0
    | (refine checked_kept (fun _ _ => ?_) ?_)
    | (refine each_kept (fun _ _ _ => ?_) ?_)
    | dsimp only
    | split

theorem setFence_kept {P : Die → Prop} (hc : Closed P [.regions, .tenants]) (t src : Nat) (on : Bool) (d : Die) (hd : P d) : P (setFence t src on d) := by
  have k0 := @modRegion_kept P _ hc (by decide)
  have k1 := @modTenant_kept P _ hc (by decide)
  unfold setFence
  try dsimp only
  with_reducible repeat' first
    | assumption
    | (refine each_kept (fun _ _ _ => ?_) ?_)
    | apply k0
    | apply k1
    | dsimp only
    | split
    | refine hc.lit (by dsimp only) ?_

theorem tenantFenceBody_kept {P : Die → Prop} (hc : Closed P [.regions, .tenants]) (q : Nat) (_e : Exec) (p : Bytes) (d : Die) (hd : P d) : P (tenantFenceBody q _e p d).1 := by
  have k0 := @setFence_kept P (hc.mono (by decide))
  unfold tenantFenceBody
  try dsimp only
  with_reducible repeat' first
    | assumption
    | (refine checked_kept (fun _ _ => ?_) ?_)
    | apply k0
    | dsimp only
    | split

theorem tenantReadBody_kept {P : Die → Prop} (hc : Closed P [.fresh]) (q : Nat) (_e : Exec) (p : Bytes) (d : Die) (hd : P d) : P (tenantReadBody q _e p d).1 := by
  have k0 := @drawFree_kept P (hc.mono (by decide))
  unfold tenantReadBody
  try dsimp only
  with_reducible repeat' first
    | assumption
    | (refine checked_kept (fun _ _ => ?_) ?_)
    | apply k0
    | dsimp only
    | split

theorem registerWatch_kept {P : Die → Prop} (hc : Closed P [.watches]) (q : Nat) (key : Nat × Nat) (p : Bytes) (w : Nat) (d : Die) (hd : P d) : P (registerWatch q key p w d) := by
  have k0 := @modWatch_kept P _ hc (by decide)
  unfold registerWatch
  try dsimp only
  with_reducible repeat' first
    | assumption
    | apply k0
    | dsimp only
    | split

theorem watchSetBody_kept {P : Die → Prop} (hc : Closed P [.watches]) (q : Nat) (e : Exec) (p : Bytes) (d : Die) (hd : P d) : P (watchSetBody q e p d).1 := by
  have k0 := @registerWatch_kept P (hc.mono (by decide))
  unfold watchSetBody
  try dsimp only
  with_reducible repeat' first
    | assumption
    | (refine checked_kept (fun _ _ => ?_) ?_)
    | apply k0
    | dsimp only
    | split

theorem watchClearBody_kept {P : Die → Prop} (hc : Closed P [.watches]) (q : Nat) (_e : Exec) (p : Bytes) (d : Die) (hd : P d) : P (watchClearBody q _e p d).1 := by
  have k0 := @modWatch_kept P _ hc (by decide)
  unfold watchClearBody
  try dsimp only
  with_reducible repeat' first
    | assumption
    | (refine checked_kept (fun _ _ => ?_) ?_)
    | apply k0
    | dsimp only
    | split
    | refine hc.lit (by dsimp only) ?_

theorem watchReadBody_kept {P : Die → Prop} (_hc : Closed P []) (q : Nat) (_e : Exec) (p : Bytes) (d : Die) (hd : P d) : P (watchReadBody q _e p d).1 := by
  unfold watchReadBody
  try dsimp only
  with_reducible repeat' first
    | assumption
    | (refine checked_kept (fun _ _ => ?_) ?_)
    | dsimp only
    | split

theorem thaw_kept {P : Die → Prop} (hc : Closed P [.ledger]) (d : Die) (hd : P d) : P (thaw d) := by
  have k0 := @emit_kept P (hc.mono (by decide))
  unfold thaw
  try dsimp only
  with_reducible repeat' first
    | assumption
    | apply k0
    | dsimp only
    | split
    | refine hc.lit (by dsimp only) ?_

theorem ledgerControlBody_kept {P : Die → Prop} (hc : Closed P [.regs, .ledger, .contexts]) (q : Nat) (_e : Exec) (p : Bytes) (d : Die) (hd : P d) : P (ledgerControlBody q _e p d).1 := by
  have k0 := @freeze_kept P (hc.mono (by decide))
  have k1 := @thaw_kept P (hc.mono (by decide))
  unfold ledgerControlBody
  try dsimp only
  with_reducible repeat' first
    | assumption
    | (refine checked_kept (fun _ _ => ?_) ?_)
    | apply k0
    | apply k1
    | dsimp only
    | split
    | refine hc.lit (by dsimp only) ?_

theorem startDrain_kept {P : Die → Prop} (hc : Closed P [.ledger, .streams]) (base pages : Nat) (d : Die) (hd : P d) : P (startDrain base pages d) := by
  have k0 := @drainPump_kept P (hc.mono (by decide))
  have k1 := @emit_kept P (hc.mono (by decide))
  have k2 := @modDrain_kept P (hc.mono (by decide))
  unfold startDrain
  try dsimp only
  with_reducible repeat' first
    | assumption
    | apply k0
    | apply k1
    | apply k2
    | dsimp only
    | split

theorem stopDrain_kept {P : Die → Prop} (hc : Closed P [.ledger, .streams]) (d : Die) (hd : P d) : P (stopDrain d) := by
  have k0 := @modDrain_kept P (hc.mono (by decide))
  have k1 := @writePartial_kept P (hc.mono (by decide))
  unfold stopDrain
  try dsimp only
  with_reducible repeat' first
    | assumption
    | apply k0
    | apply k1
    | dsimp only
    | split
    | refine hc.lit (by dsimp only) ?_

theorem ledgerDrainBody_kept {P : Die → Prop} (hc : Closed P [.regs, .ledger, .queues, .sram, .streams]) (q : Nat) (_e : Exec) (p : Bytes) (d : Die) (hd : P d) : P (ledgerDrainBody q _e p d).1 := by
  have k0 := @drainStop_kept P (hc.mono (by decide))
  have k1 := @modDrain_kept P (hc.mono (by decide))
  have k2 := @startDrain_kept P (hc.mono (by decide))
  have k3 := @stopDrain_kept P (hc.mono (by decide))
  unfold ledgerDrainBody
  try dsimp only
  with_reducible repeat' first
    | assumption
    | (refine checked_kept (fun _ _ => ?_) ?_)
    | apply k0
    | apply k1
    | apply k2
    | apply k3
    | dsimp only
    | split
    | refine hc.lit (by dsimp only) ?_

theorem ledgerReadBody_kept {P : Die → Prop} (hc : Closed P [.streams]) (q : Nat) (_e : Exec) (p : Bytes) (d : Die) (hd : P d) : P (ledgerReadBody q _e p d).1 := by
  have k0 := @streamWrite_kept P (hc.mono (by decide))
  unfold ledgerReadBody
  try dsimp only
  with_reducible repeat' first
    | assumption
    | (refine checked_kept (fun _ _ => ?_) ?_)
    | apply k0
    | dsimp only
    | split

theorem certReadBody_kept {P : Die → Prop} (hc : Closed P [.streams]) (q : Nat) (_e : Exec) (p : Bytes) (d : Die) (hd : P d) : P (certReadBody q _e p d).1 := by
  have k0 := @streamWrite_kept P (hc.mono (by decide))
  unfold certReadBody
  try dsimp only
  with_reducible repeat' first
    | assumption
    | (refine checked_kept (fun _ _ => ?_) ?_)
    | apply k0
    | dsimp only
    | split

theorem calWriteBody_kept {P : Die → Prop} (hc : Closed P [.store]) (q : Nat) (image : Bytes) (e : Exec) (p : Bytes) (d : Die) (hd : P d) : P (calWriteBody q image e p d).1 := by
  have k0 := @beginWrite_kept P (hc.mono (by decide))
  unfold calWriteBody
  try dsimp only
  with_reducible repeat' first
    | assumption
    | apply k0
    | (refine checked_kept (fun _ _ => ?_) ?_)
    | dsimp only
    | split

theorem calExportBody_kept {P : Die → Prop} (hc : Closed P [.streams]) (q : Nat) (_e : Exec) (p : Bytes) (d : Die) (hd : P d) : P (calExportBody q _e p d).1 := by
  have k0 := @streamWrite_kept P (hc.mono (by decide))
  unfold calExportBody
  try dsimp only
  with_reducible repeat' first
    | assumption
    | (refine checked_kept (fun _ _ => ?_) ?_)
    | apply k0
    | dsimp only
    | split

theorem calReadBody_kept {P : Die → Prop} (hc : Closed P [.fresh]) (q : Nat) (_e : Exec) (p : Bytes) (d : Die) (hd : P d) : P (calReadBody q _e p d).1 := by
  unfold calReadBody
  try dsimp only
  with_reducible repeat' first
    | assumption
    | (refine checked_kept (fun _ _ => ?_) ?_)
    | dsimp only
    | split
    | refine hc.lit (by dsimp only) ?_

theorem noteTables_kept {P : Die → Prop} (hc : Closed P [.rails]) (r : Nat) (d : Die) (hd : P d) : P (noteTables r d) := by
  have k0 := @modRail_kept P _ hc (by decide)
  unfold noteTables
  try dsimp only
  with_reducible repeat' first
    | assumption
    | (refine each_kept (fun _ _ _ => ?_) ?_)
    | apply k0
    | dsimp only
    | split
    | refine hc.lit (by dsimp only) ?_

theorem setCoefs_kept {P : Die → Prop} (hc : Closed P [.ledger, .store, .regions, .rails]) (r : Nat) (l : List Nat) (d : Die) (hd : P d) : P (setCoefs r l d) := by
  have k0 := @coefChange_kept P (hc.mono (by decide))
  have k1 := @modRegion_kept P _ hc (by decide)
  have k2 := @noteTables_kept P (hc.mono (by decide))
  unfold setCoefs
  try dsimp only
  with_reducible repeat' first
    | assumption
    | apply k0
    | apply k1
    | apply k2
    | dsimp only
    | split
    | refine hc.lit (by dsimp only) ?_

theorem setLeak_kept {P : Die → Prop} (hc : Closed P [.ledger, .store, .regions, .rails]) (r : Nat) (l : Leak) (d : Die) (hd : P d) : P (setLeak r l d) := by
  have k0 := @coefChange_kept P (hc.mono (by decide))
  have k1 := @modRegion_kept P _ hc (by decide)
  have k2 := @noteTables_kept P (hc.mono (by decide))
  unfold setLeak
  try dsimp only
  with_reducible repeat' first
    | assumption
    | apply k0
    | apply k1
    | apply k2
    | dsimp only
    | split
    | refine hc.lit (by dsimp only) ?_

theorem setGains_kept {P : Die → Prop} (hc : Closed P [.rails]) (l : List (Nat × Int)) (d : Die) (hd : P d) : P (setGains l d) := by
  have k0 := @modRail_kept P _ hc (by decide)
  unfold setGains
  try dsimp only
  with_reducible repeat' first
    | assumption
    | (refine each_kept (fun _ _ _ => ?_) ?_)
    | apply k0
    | dsimp only
    | split
    | refine hc.lit (by dsimp only) ?_

theorem calSetBody_kept {P : Die → Prop} (hc : Closed P [.ledger, .store, .regions, .rails]) (q : Nat) (e : Exec) (p : Bytes) (d : Die) (hd : P d) : P (calSetBody q e p d).1 := by
  have k0 := @setCoefs_kept P (hc.mono (by decide))
  have k1 := @setGains_kept P (hc.mono (by decide))
  have k2 := @setLeak_kept P (hc.mono (by decide))
  unfold calSetBody
  try dsimp only
  with_reducible repeat' first
    | assumption
    | (refine checked_kept (fun _ _ => ?_) ?_)
    | apply k0
    | apply k1
    | apply k2
    | dsimp only
    | split

theorem returnElement_kept {P : Die → Prop} (hc : Closed P [.clocks, .sensors]) (e : RetireEntry) (d : Die) (hd : P d) : P (returnElement e d) := by
  have k0 := @modRef_kept P (hc.mono (by decide))
  have k1 := @modRoot_kept P (hc.mono (by decide))
  have k2 := @modSensor_kept P _ hc (by decide)
  unfold returnElement
  try dsimp only
  with_reducible repeat' first
    | assumption
    | apply k0
    | apply k1
    | apply k2
    | dsimp only
    | split
    | refine hc.lit (by dsimp only) ?_

theorem removeEntries_kept {P : Die → Prop} (hc : Closed P [.clocks, .store, .sensors]) (kind sub id : Nat) (d : Die) (hd : P d) : P (removeEntries kind sub id d) := by
  have k0 := @returnElement_kept P (hc.mono (by decide))
  unfold removeEntries
  try dsimp only
  with_reducible repeat' first
    | assumption
    | (refine each_kept (fun _ _ _ => ?_) ?_)
    | apply k0
    | dsimp only
    | split
    | refine hc.lit (by dsimp only) ?_

theorem calUnretireBody_kept {P : Die → Prop} (hc : Closed P [.clocks, .store, .sensors]) (q : Nat) (_e : Exec) (p : Bytes) (d : Die) (hd : P d) : P (calUnretireBody q _e p d).1 := by
  have k0 := @removeEntries_kept P (hc.mono (by decide))
  unfold calUnretireBody
  try dsimp only
  with_reducible repeat' first
    | assumption
    | (refine checked_kept (fun _ _ => ?_) ?_)
    | apply k0
    | dsimp only
    | split

theorem acceptAssay_kept {P : Die → Prop} (hc : Closed P [.ledger, .store, .islands, .ends, .rails, .contexts]) (r : Nat) (key : Nat × Nat) (d : Die) (hd : P d) : P (acceptAssay r key d) := by
  have k0 := @assayBegin_kept P (hc.mono (by decide))
  unfold acceptAssay
  try dsimp only
  with_reducible repeat' first
    | assumption
    | apply k0
    | dsimp only
    | split
    | refine hc.lit (by dsimp only) ?_

theorem assayRegionBody_kept {P : Die → Prop} (hc : Closed P [.ledger, .store, .islands, .ends, .rails, .contexts]) (q : Nat) (e : Exec) (p : Bytes) (d : Die) (hd : P d) : P (assayRegionBody q e p d).1 := by
  have k0 := @acceptAssay_kept P (hc.mono (by decide))
  unfold assayRegionBody
  try dsimp only
  with_reducible repeat' first
    | assumption
    | apply k0
    | (refine checked_kept (fun _ _ => ?_) ?_)
    | dsimp only
    | split

theorem islandReadBody_kept {P : Die → Prop} (_hc : Closed P []) (q : Nat) (_e : Exec) (p : Bytes) (d : Die) (hd : P d) : P (islandReadBody q _e p d).1 := by
  unfold islandReadBody
  try dsimp only
  with_reducible repeat' first
    | assumption
    | (refine checked_kept (fun _ _ => ?_) ?_)
    | dsimp only
    | split

theorem islandPhaseBody_kept {P : Die → Prop} (hc : Closed P [.islands]) (q : Nat) (_e : Exec) (p : Bytes) (d : Die) (hd : P d) : P (islandPhaseBody q _e p d).1 := by
  have k0 := @modRing_kept P (hc.mono (by decide))
  unfold islandPhaseBody
  try dsimp only
  with_reducible repeat' first
    | assumption
    | (refine checked_kept (fun _ _ => ?_) ?_)
    | apply k0
    | dsimp only
    | split
    | refine hc.lit (by dsimp only) ?_

theorem islandResetBody_kept {P : Die → Prop} (hc : Closed P [.ledger, .islands, .ends]) (q : Nat) (e : Exec) (p : Bytes) (d : Die) (hd : P d) : P (islandResetBody q e p d).1 := by
  have k0 := @beginIslandReset_kept P (hc.mono (by decide))
  unfold islandResetBody
  try dsimp only
  with_reducible repeat' first
    | assumption
    | apply k0
    | (refine checked_kept (fun _ _ => ?_) ?_)
    | dsimp only
    | split

theorem regionReadBody_kept {P : Die → Prop} (_hc : Closed P []) (q : Nat) (_e : Exec) (p : Bytes) (d : Die) (hd : P d) : P (regionReadBody q _e p d).1 := by
  unfold regionReadBody
  try dsimp only
  with_reducible repeat' first
    | assumption
    | (refine checked_kept (fun _ _ => ?_) ?_)
    | dsimp only
    | split

theorem regionResetBody_kept {P : Die → Prop} (hc : Closed P [.ledger, .store, .islands, .regions, .synths, .ends, .commits, .commitReqs]) (q : Nat) (e : Exec) (p : Bytes) (d : Die) (hd : P d) : P (regionResetBody q e p d).1 := by
  have k0 := @beginRegionReset_kept P (hc.mono (by decide))
  unfold regionResetBody
  try dsimp only
  with_reducible repeat' first
    | assumption
    | apply k0
    | (refine checked_kept (fun _ _ => ?_) ?_)
    | dsimp only
    | split

theorem hostInterval_kept {P : Die → Prop} (hc : Closed P [.islands, .regions]) (r code : Nat) (d : Die) (hd : P d) : P (hostInterval r code d) := by
  have k0 := @modRegion_kept P _ hc (by decide)
  have k1 := @modRing_kept P (hc.mono (by decide))
  unfold hostInterval
  try dsimp only
  with_reducible repeat' first
    | assumption
    | (refine each_kept (fun _ _ _ => ?_) ?_)
    | apply k0
    | apply k1
    | dsimp only
    | split
    | refine hc.lit (by dsimp only) ?_

theorem configure_kept {P : Die → Prop} (hc : Closed P [.islands, .regions]) (r sel : Nat) (p : Bytes) (d : Die) (hd : P d) : P (configure r sel p d) := by
  have k0 := @hostInterval_kept P (hc.mono (by decide))
  have k1 := @modRegion_kept P _ hc (by decide)
  unfold configure
  try dsimp only
  with_reducible repeat' first
    | assumption
    | apply k0
    | apply k1
    | dsimp only
    | split
    | refine hc.lit (by dsimp only) ?_

theorem regionConfigBody_kept {P : Die → Prop} (hc : Closed P [.islands, .regions]) (q : Nat) (_e : Exec) (p : Bytes) (d : Die) (hd : P d) : P (regionConfigBody q _e p d).1 := by
  have k0 := @configure_kept P (hc.mono (by decide))
  unfold regionConfigBody
  try dsimp only
  with_reducible repeat' first
    | assumption
    | (refine checked_kept (fun _ _ => ?_) ?_)
    | apply k0
    | dsimp only
    | split

theorem regionTestBody_kept {P : Die → Prop} (hc : Closed P [.synths]) (q : Nat) (e : Exec) (p : Bytes) (d : Die) (hd : P d) : P (regionTestBody q e p d).1 := by
  have k0 := @writeSynth_kept P (hc.mono (by decide))
  unfold regionTestBody
  try dsimp only
  with_reducible repeat' first
    | assumption
    | (refine checked_kept (fun _ _ => ?_) ?_)
    | apply k0
    | dsimp only
    | split

theorem setPriority_kept {P : Die → Prop} (hc : Closed P [.tally]) (v : Nat) (d : Die) (hd : P d) : P (setPriority v d) := by
  have k0 := @modTally_kept P (hc.mono (by decide))
  have k1 := @nameBackup_kept P (hc.mono (by decide))
  unfold setPriority
  try dsimp only
  with_reducible repeat' first
    | assumption
    | apply k0
    | apply k1
    | dsimp only
    | split
    | refine hc.lit (by dsimp only) ?_

theorem tallyPriorityBody_kept {P : Die → Prop} (hc : Closed P [.tally]) (q : Nat) (_e : Exec) (p : Bytes) (d : Die) (hd : P d) : P (tallyPriorityBody q _e p d).1 := by
  have k0 := @setPriority_kept P (hc.mono (by decide))
  unfold tallyPriorityBody
  try dsimp only
  with_reducible repeat' first
    | assumption
    | (refine checked_kept (fun _ _ => ?_) ?_)
    | apply k0
    | dsimp only
    | split

theorem authoritative_kept {P : Die → Prop} (hc : Closed P [.tally, .ledger]) (d : Die) (hd : P d) : P (authoritative d) := by
  have k0 := @emit_kept P (hc.mono (by decide))
  have k1 := @modTally_kept P (hc.mono (by decide))
  unfold authoritative
  try dsimp only
  with_reducible repeat' first
    | assumption
    | apply k0
    | apply k1
    | dsimp only
    | split
    | refine hc.lit (by dsimp only) ?_

theorem realign_kept {P : Die → Prop} (hc : Closed P [.tally, .ledger]) (d : Die) (hd : P d) : P (realign d) := by
  have k0 := @followPartner_kept P (hc.mono (by decide))
  have k1 := @modTally_kept P (hc.mono (by decide))
  have k2 := @tallyStep_kept P (hc.mono (by decide))
  unfold realign
  try dsimp only
  with_reducible repeat' first
    | assumption
    | apply k0
    | apply k1
    | apply k2
    | dsimp only
    | split
    | refine hc.lit (by dsimp only) ?_

theorem tallyAuthorityBody_kept {P : Die → Prop} (hc : Closed P [.tally, .ledger]) (q : Nat) (_e : Exec) (p : Bytes) (d : Die) (hd : P d) : P (tallyAuthorityBody q _e p d).1 := by
  have k0 := @authoritative_kept P (hc.mono (by decide))
  have k1 := @realign_kept P (hc.mono (by decide))
  unfold tallyAuthorityBody
  try dsimp only
  with_reducible repeat' first
    | assumption
    | apply k0
    | (refine checked_kept (fun _ _ => ?_) ?_)
    | apply k1
    | dsimp only
    | split

theorem tallyReadBody_kept {P : Die → Prop} (_hc : Closed P []) (_q : Nat) (_e : Exec) (_p : Bytes) (d : Die) (hd : P d) : P (tallyReadBody _q _e _p d).1 := by
  unfold tallyReadBody
  try dsimp only
  with_reducible repeat' first
    | assumption
    | dsimp only
    | split

theorem fabricReadBody_kept {P : Die → Prop} (_hc : Closed P []) (_q : Nat) (_e : Exec) (_p : Bytes) (d : Die) (hd : P d) : P (fabricReadBody _q _e _p d).1 := by
  unfold fabricReadBody
  try dsimp only
  with_reducible repeat' first
    | assumption
    | dsimp only
    | split

theorem setReference_kept {P : Die → Prop} (hc : Closed P [.clocks, .ledger]) (flags select : Nat) (d : Die) (hd : P d) : P (setReference flags select d) := by
  have k0 := @refSwitch_kept P (hc.mono (by decide))
  unfold setReference
  try dsimp only
  with_reducible repeat' first
    | assumption
    | apply k0
    | dsimp only
    | split
    | refine hc.lit (by dsimp only) ?_

theorem fabricRefBody_kept {P : Die → Prop} (hc : Closed P [.clocks, .ledger]) (q : Nat) (_e : Exec) (p : Bytes) (d : Die) (hd : P d) : P (fabricRefBody q _e p d).1 := by
  have k0 := @setReference_kept P (hc.mono (by decide))
  unfold fabricRefBody
  try dsimp only
  with_reducible repeat' first
    | assumption
    | (refine checked_kept (fun _ _ => ?_) ?_)
    | apply k0
    | dsimp only
    | split

theorem acceptResume_kept {P : Die → Prop} (hc : Closed P [.stop, .regions, .synths, .rails]) (t : Nat) (d : Die) (hd : P d) : P (acceptResume t d) := by
  have k0 := @railsUp_kept P (hc.mono (by decide))
  have k1 := @raiseDie_kept P (hc.mono (by decide))
  unfold acceptResume
  try dsimp only
  with_reducible repeat' first
    | assumption
    | apply k0
    | apply k1
    | dsimp only
    | split
    | refine hc.lit (by dsimp only) ?_

theorem fabricResumeBody_kept {P : Die → Prop} (hc : Closed P [.stop, .regions, .synths, .rails]) (q : Nat) (e : Exec) (p : Bytes) (d : Die) (hd : P d) : P (fabricResumeBody q e p d).1 := by
  have k0 := @acceptResume_kept P (hc.mono (by decide))
  unfold fabricResumeBody
  try dsimp only
  with_reducible repeat' first
    | assumption
    | apply k0
    | (refine checked_kept (fun _ _ => ?_) ?_)
    | dsimp only
    | split

theorem acceptDescriptor_kept {P : Die → Prop} (hc : Closed P [.tally, .startup]) (b : Bytes) (d : Die) (hd : P d) : P (acceptDescriptor b d) := by
  have k0 := @modTally_kept P (hc.mono (by decide))
  unfold acceptDescriptor
  try dsimp only
  with_reducible repeat' first
    | assumption
    | apply k0
    | dsimp only
    | split
    | refine hc.lit (by dsimp only) ?_

theorem beginCheck_kept {P : Die → Prop} (hc : Closed P [.tally, .startup, .regs, .ledger, .queues, .sram]) (hbm : Nat) (b : Bytes) (d : Die) (hd : P d) : P (beginCheck hbm b d) := by
  have k0 := @acceptDescriptor_kept P (hc.mono (by decide))
  have k1 := @compareTopology_kept P (hc.mono (by decide))
  unfold beginCheck
  try dsimp only
  with_reducible repeat' first
    | assumption
    | apply k0
    | apply k1
    | dsimp only
    | split

theorem fabricTopologyBody_kept {P : Die → Prop} (hc : Closed P [.tally, .startup, .regs, .ledger, .queues, .sram]) (q hbm : Nat) (e : Exec) (p : Bytes) (d : Die) (hd : P d) : P (fabricTopologyBody q hbm e p d).1 := by
  have k0 := @beginCheck_kept P (hc.mono (by decide))
  unfold fabricTopologyBody
  try dsimp only
  with_reducible repeat' first
    | assumption
    | apply k0
    | (refine checked_kept (fun _ _ => ?_) ?_)
    | dsimp only
    | split

theorem fabricPowerBody_kept {P : Die → Prop} (hc : Closed P [.regions]) (q : Nat) (_e : Exec) (p : Bytes) (d : Die) (hd : P d) : P (fabricPowerBody q _e p d).1 := by
  have k0 := @modRegion_kept P _ hc (by decide)
  unfold fabricPowerBody
  try dsimp only
  with_reducible repeat' first
    | assumption
    | (refine checked_kept (fun _ _ => ?_) ?_)
    | (refine each_kept (fun _ _ _ => ?_) ?_)
    | apply k0
    | dsimp only
    | split
    | refine hc.lit (by dsimp only) ?_

end Sys2Proof.Machine
end

