-- ==== Sys2Proof/Laws/State.lean ====
section
/-! SUPPORT. What each update of the die does to each of its parts: one lemma a part, and one for each reading of a table; and what `emit` leaves alone. -/

namespace Sys2Proof.Machine
open Sys2Proof
set_option Elab.async false
set_option linter.all false

/-! ## modIsland -/

@[simp] theorem modIsland_tally (k : Nat) (f : Island → Island) (d : Die) : (modIsland k f d).tally = d.tally := rfl
@[simp] theorem modIsland_clocks (k : Nat) (f : Island → Island) (d : Die) : (modIsland k f d).clocks = d.clocks := rfl
@[simp] theorem modIsland_startup (k : Nat) (f : Island → Island) (d : Die) : (modIsland k f d).startup = d.startup := rfl
@[simp] theorem modIsland_stop (k : Nat) (f : Island → Island) (d : Die) : (modIsland k f d).stop = d.stop := rfl
@[simp] theorem modIsland_regs (k : Nat) (f : Island → Island) (d : Die) : (modIsland k f d).regs = d.regs := rfl
@[simp] theorem modIsland_ledger (k : Nat) (f : Island → Island) (d : Die) : (modIsland k f d).ledger = d.ledger := rfl
@[simp] theorem modIsland_chandler (k : Nat) (f : Island → Island) (d : Die) : (modIsland k f d).chandler = d.chandler := rfl
@[simp] theorem modIsland_store (k : Nat) (f : Island → Island) (d : Die) : (modIsland k f d).store = d.store := rfl
@[simp] theorem modIsland_limits (k : Nat) (f : Island → Island) (d : Die) : (modIsland k f d).limits = d.limits := rfl
@[simp] theorem modIsland_regions (k : Nat) (f : Island → Island) (d : Die) : (modIsland k f d).regions = d.regions := rfl
@[simp] theorem modIsland_synths (k : Nat) (f : Island → Island) (d : Die) : (modIsland k f d).synths = d.synths := rfl
@[simp] theorem modIsland_ends (k : Nat) (f : Island → Island) (d : Die) : (modIsland k f d).ends = d.ends := rfl
@[simp] theorem modIsland_lanes (k : Nat) (f : Island → Island) (d : Die) : (modIsland k f d).lanes = d.lanes := rfl
@[simp] theorem modIsland_links (k : Nat) (f : Island → Island) (d : Die) : (modIsland k f d).links = d.links := rfl
@[simp] theorem modIsland_rails (k : Nat) (f : Island → Island) (d : Die) : (modIsland k f d).rails = d.rails := rfl
@[simp] theorem modIsland_sensors (k : Nat) (f : Island → Island) (d : Die) : (modIsland k f d).sensors = d.sensors := rfl
@[simp] theorem modIsland_watches (k : Nat) (f : Island → Island) (d : Die) : (modIsland k f d).watches = d.watches := rfl
@[simp] theorem modIsland_messages (k : Nat) (f : Island → Island) (d : Die) : (modIsland k f d).messages = d.messages := rfl
@[simp] theorem modIsland_delivered (k : Nat) (f : Island → Island) (d : Die) : (modIsland k f d).delivered = d.delivered := rfl
@[simp] theorem modIsland_contexts (k : Nat) (f : Island → Island) (d : Die) : (modIsland k f d).contexts = d.contexts := rfl
@[simp] theorem modIsland_commits (k : Nat) (f : Island → Island) (d : Die) : (modIsland k f d).commits = d.commits := rfl
@[simp] theorem modIsland_commitReqs (k : Nat) (f : Island → Island) (d : Die) : (modIsland k f d).commitReqs = d.commitReqs := rfl
@[simp] theorem modIsland_nextCommit (k : Nat) (f : Island → Island) (d : Die) : (modIsland k f d).nextCommit = d.nextCommit := rfl
@[simp] theorem modIsland_tenants (k : Nat) (f : Island → Island) (d : Die) : (modIsland k f d).tenants = d.tenants := rfl
@[simp] theorem modIsland_queues (k : Nat) (f : Island → Island) (d : Die) : (modIsland k f d).queues = d.queues := rfl
@[simp] theorem modIsland_sram (k : Nat) (f : Island → Island) (d : Die) : (modIsland k f d).sram = d.sram := rfl
@[simp] theorem modIsland_streams (k : Nat) (f : Island → Island) (d : Die) : (modIsland k f d).streams = d.streams := rfl
@[simp] theorem modIsland_dormant (k : Nat) (f : Island → Island) (d : Die) : (modIsland k f d).dormant = d.dormant := rfl
@[simp] theorem modIsland_hbm (k : Nat) (f : Island → Island) (d : Die) : (modIsland k f d).hbm = d.hbm := rfl
@[simp] theorem modIsland_fresh (k : Nat) (f : Island → Island) (d : Die) : (modIsland k f d).fresh = d.fresh := rfl
@[simp] theorem region_modIsland (k : Nat) (f : Island → Island) (i : Nat) (d : Die) : region (modIsland k f d) i = region d i := rfl
@[simp] theorem synth_modIsland (k : Nat) (f : Island → Island) (i x : Nat) (d : Die) : synth (modIsland k f d) i x = synth d i x := rfl
@[simp] theorem edgeEnd_modIsland (k : Nat) (f : Island → Island) (i : Nat) (d : Die) : edgeEnd (modIsland k f d) i = edgeEnd d i := rfl
@[simp] theorem lane_modIsland (k : Nat) (f : Island → Island) (i : Nat) (d : Die) : lane (modIsland k f d) i = lane d i := rfl
@[simp] theorem link_modIsland (k : Nat) (f : Island → Island) (i : Nat) (d : Die) : link (modIsland k f d) i = link d i := rfl
@[simp] theorem rail_modIsland (k : Nat) (f : Island → Island) (i : Nat) (d : Die) : rail (modIsland k f d) i = rail d i := rfl
@[simp] theorem sensor_modIsland (k : Nat) (f : Island → Island) (i : Nat) (d : Die) : sensor (modIsland k f d) i = sensor d i := rfl
@[simp] theorem watch_modIsland (k : Nat) (f : Island → Island) (i : Nat) (d : Die) : watch (modIsland k f d) i = watch d i := rfl
@[simp] theorem tenant_modIsland (k : Nat) (f : Island → Island) (i : Nat) (d : Die) : tenant (modIsland k f d) i = tenant d i := rfl
@[simp] theorem queue_modIsland (k : Nat) (f : Island → Island) (i : Nat) (d : Die) : queue (modIsland k f d) i = queue d i := rfl
@[simp] theorem context_modIsland (k : Nat) (f : Island → Island) (i : Nat) (d : Die) : context (modIsland k f d) i = context d i := rfl

/-! ## modRing -/

@[simp] theorem modRing_tally (k : Nat) (f : Ring → Ring) (d : Die) : (modRing k f d).tally = d.tally := rfl
@[simp] theorem modRing_clocks (k : Nat) (f : Ring → Ring) (d : Die) : (modRing k f d).clocks = d.clocks := rfl
@[simp] theorem modRing_startup (k : Nat) (f : Ring → Ring) (d : Die) : (modRing k f d).startup = d.startup := rfl
@[simp] theorem modRing_stop (k : Nat) (f : Ring → Ring) (d : Die) : (modRing k f d).stop = d.stop := rfl
@[simp] theorem modRing_regs (k : Nat) (f : Ring → Ring) (d : Die) : (modRing k f d).regs = d.regs := rfl
@[simp] theorem modRing_ledger (k : Nat) (f : Ring → Ring) (d : Die) : (modRing k f d).ledger = d.ledger := rfl
@[simp] theorem modRing_chandler (k : Nat) (f : Ring → Ring) (d : Die) : (modRing k f d).chandler = d.chandler := rfl
@[simp] theorem modRing_store (k : Nat) (f : Ring → Ring) (d : Die) : (modRing k f d).store = d.store := rfl
@[simp] theorem modRing_limits (k : Nat) (f : Ring → Ring) (d : Die) : (modRing k f d).limits = d.limits := rfl
@[simp] theorem modRing_regions (k : Nat) (f : Ring → Ring) (d : Die) : (modRing k f d).regions = d.regions := rfl
@[simp] theorem modRing_synths (k : Nat) (f : Ring → Ring) (d : Die) : (modRing k f d).synths = d.synths := rfl
@[simp] theorem modRing_ends (k : Nat) (f : Ring → Ring) (d : Die) : (modRing k f d).ends = d.ends := rfl
@[simp] theorem modRing_lanes (k : Nat) (f : Ring → Ring) (d : Die) : (modRing k f d).lanes = d.lanes := rfl
@[simp] theorem modRing_links (k : Nat) (f : Ring → Ring) (d : Die) : (modRing k f d).links = d.links := rfl
@[simp] theorem modRing_rails (k : Nat) (f : Ring → Ring) (d : Die) : (modRing k f d).rails = d.rails := rfl
@[simp] theorem modRing_sensors (k : Nat) (f : Ring → Ring) (d : Die) : (modRing k f d).sensors = d.sensors := rfl
@[simp] theorem modRing_watches (k : Nat) (f : Ring → Ring) (d : Die) : (modRing k f d).watches = d.watches := rfl
@[simp] theorem modRing_messages (k : Nat) (f : Ring → Ring) (d : Die) : (modRing k f d).messages = d.messages := rfl
@[simp] theorem modRing_delivered (k : Nat) (f : Ring → Ring) (d : Die) : (modRing k f d).delivered = d.delivered := rfl
@[simp] theorem modRing_contexts (k : Nat) (f : Ring → Ring) (d : Die) : (modRing k f d).contexts = d.contexts := rfl
@[simp] theorem modRing_commits (k : Nat) (f : Ring → Ring) (d : Die) : (modRing k f d).commits = d.commits := rfl
@[simp] theorem modRing_commitReqs (k : Nat) (f : Ring → Ring) (d : Die) : (modRing k f d).commitReqs = d.commitReqs := rfl
@[simp] theorem modRing_nextCommit (k : Nat) (f : Ring → Ring) (d : Die) : (modRing k f d).nextCommit = d.nextCommit := rfl
@[simp] theorem modRing_tenants (k : Nat) (f : Ring → Ring) (d : Die) : (modRing k f d).tenants = d.tenants := rfl
@[simp] theorem modRing_queues (k : Nat) (f : Ring → Ring) (d : Die) : (modRing k f d).queues = d.queues := rfl
@[simp] theorem modRing_sram (k : Nat) (f : Ring → Ring) (d : Die) : (modRing k f d).sram = d.sram := rfl
@[simp] theorem modRing_streams (k : Nat) (f : Ring → Ring) (d : Die) : (modRing k f d).streams = d.streams := rfl
@[simp] theorem modRing_dormant (k : Nat) (f : Ring → Ring) (d : Die) : (modRing k f d).dormant = d.dormant := rfl
@[simp] theorem modRing_hbm (k : Nat) (f : Ring → Ring) (d : Die) : (modRing k f d).hbm = d.hbm := rfl
@[simp] theorem modRing_fresh (k : Nat) (f : Ring → Ring) (d : Die) : (modRing k f d).fresh = d.fresh := rfl
@[simp] theorem region_modRing (k : Nat) (f : Ring → Ring) (i : Nat) (d : Die) : region (modRing k f d) i = region d i := rfl
@[simp] theorem synth_modRing (k : Nat) (f : Ring → Ring) (i x : Nat) (d : Die) : synth (modRing k f d) i x = synth d i x := rfl
@[simp] theorem edgeEnd_modRing (k : Nat) (f : Ring → Ring) (i : Nat) (d : Die) : edgeEnd (modRing k f d) i = edgeEnd d i := rfl
@[simp] theorem lane_modRing (k : Nat) (f : Ring → Ring) (i : Nat) (d : Die) : lane (modRing k f d) i = lane d i := rfl
@[simp] theorem link_modRing (k : Nat) (f : Ring → Ring) (i : Nat) (d : Die) : link (modRing k f d) i = link d i := rfl
@[simp] theorem rail_modRing (k : Nat) (f : Ring → Ring) (i : Nat) (d : Die) : rail (modRing k f d) i = rail d i := rfl
@[simp] theorem sensor_modRing (k : Nat) (f : Ring → Ring) (i : Nat) (d : Die) : sensor (modRing k f d) i = sensor d i := rfl
@[simp] theorem watch_modRing (k : Nat) (f : Ring → Ring) (i : Nat) (d : Die) : watch (modRing k f d) i = watch d i := rfl
@[simp] theorem tenant_modRing (k : Nat) (f : Ring → Ring) (i : Nat) (d : Die) : tenant (modRing k f d) i = tenant d i := rfl
@[simp] theorem queue_modRing (k : Nat) (f : Ring → Ring) (i : Nat) (d : Die) : queue (modRing k f d) i = queue d i := rfl
@[simp] theorem context_modRing (k : Nat) (f : Ring → Ring) (i : Nat) (d : Die) : context (modRing k f d) i = context d i := rfl

/-! ## modMargin -/

@[simp] theorem modMargin_tally (k : Nat) (f : Margin → Margin) (d : Die) : (modMargin k f d).tally = d.tally := rfl
@[simp] theorem modMargin_clocks (k : Nat) (f : Margin → Margin) (d : Die) : (modMargin k f d).clocks = d.clocks := rfl
@[simp] theorem modMargin_startup (k : Nat) (f : Margin → Margin) (d : Die) : (modMargin k f d).startup = d.startup := rfl
@[simp] theorem modMargin_stop (k : Nat) (f : Margin → Margin) (d : Die) : (modMargin k f d).stop = d.stop := rfl
@[simp] theorem modMargin_regs (k : Nat) (f : Margin → Margin) (d : Die) : (modMargin k f d).regs = d.regs := rfl
@[simp] theorem modMargin_ledger (k : Nat) (f : Margin → Margin) (d : Die) : (modMargin k f d).ledger = d.ledger := rfl
@[simp] theorem modMargin_chandler (k : Nat) (f : Margin → Margin) (d : Die) : (modMargin k f d).chandler = d.chandler := rfl
@[simp] theorem modMargin_store (k : Nat) (f : Margin → Margin) (d : Die) : (modMargin k f d).store = d.store := rfl
@[simp] theorem modMargin_limits (k : Nat) (f : Margin → Margin) (d : Die) : (modMargin k f d).limits = d.limits := rfl
@[simp] theorem modMargin_regions (k : Nat) (f : Margin → Margin) (d : Die) : (modMargin k f d).regions = d.regions := rfl
@[simp] theorem modMargin_synths (k : Nat) (f : Margin → Margin) (d : Die) : (modMargin k f d).synths = d.synths := rfl
@[simp] theorem modMargin_ends (k : Nat) (f : Margin → Margin) (d : Die) : (modMargin k f d).ends = d.ends := rfl
@[simp] theorem modMargin_lanes (k : Nat) (f : Margin → Margin) (d : Die) : (modMargin k f d).lanes = d.lanes := rfl
@[simp] theorem modMargin_links (k : Nat) (f : Margin → Margin) (d : Die) : (modMargin k f d).links = d.links := rfl
@[simp] theorem modMargin_rails (k : Nat) (f : Margin → Margin) (d : Die) : (modMargin k f d).rails = d.rails := rfl
@[simp] theorem modMargin_sensors (k : Nat) (f : Margin → Margin) (d : Die) : (modMargin k f d).sensors = d.sensors := rfl
@[simp] theorem modMargin_watches (k : Nat) (f : Margin → Margin) (d : Die) : (modMargin k f d).watches = d.watches := rfl
@[simp] theorem modMargin_messages (k : Nat) (f : Margin → Margin) (d : Die) : (modMargin k f d).messages = d.messages := rfl
@[simp] theorem modMargin_delivered (k : Nat) (f : Margin → Margin) (d : Die) : (modMargin k f d).delivered = d.delivered := rfl
@[simp] theorem modMargin_contexts (k : Nat) (f : Margin → Margin) (d : Die) : (modMargin k f d).contexts = d.contexts := rfl
@[simp] theorem modMargin_commits (k : Nat) (f : Margin → Margin) (d : Die) : (modMargin k f d).commits = d.commits := rfl
@[simp] theorem modMargin_commitReqs (k : Nat) (f : Margin → Margin) (d : Die) : (modMargin k f d).commitReqs = d.commitReqs := rfl
@[simp] theorem modMargin_nextCommit (k : Nat) (f : Margin → Margin) (d : Die) : (modMargin k f d).nextCommit = d.nextCommit := rfl
@[simp] theorem modMargin_tenants (k : Nat) (f : Margin → Margin) (d : Die) : (modMargin k f d).tenants = d.tenants := rfl
@[simp] theorem modMargin_queues (k : Nat) (f : Margin → Margin) (d : Die) : (modMargin k f d).queues = d.queues := rfl
@[simp] theorem modMargin_sram (k : Nat) (f : Margin → Margin) (d : Die) : (modMargin k f d).sram = d.sram := rfl
@[simp] theorem modMargin_streams (k : Nat) (f : Margin → Margin) (d : Die) : (modMargin k f d).streams = d.streams := rfl
@[simp] theorem modMargin_dormant (k : Nat) (f : Margin → Margin) (d : Die) : (modMargin k f d).dormant = d.dormant := rfl
@[simp] theorem modMargin_hbm (k : Nat) (f : Margin → Margin) (d : Die) : (modMargin k f d).hbm = d.hbm := rfl
@[simp] theorem modMargin_fresh (k : Nat) (f : Margin → Margin) (d : Die) : (modMargin k f d).fresh = d.fresh := rfl
@[simp] theorem region_modMargin (k : Nat) (f : Margin → Margin) (i : Nat) (d : Die) : region (modMargin k f d) i = region d i := rfl
@[simp] theorem synth_modMargin (k : Nat) (f : Margin → Margin) (i x : Nat) (d : Die) : synth (modMargin k f d) i x = synth d i x := rfl
@[simp] theorem edgeEnd_modMargin (k : Nat) (f : Margin → Margin) (i : Nat) (d : Die) : edgeEnd (modMargin k f d) i = edgeEnd d i := rfl
@[simp] theorem lane_modMargin (k : Nat) (f : Margin → Margin) (i : Nat) (d : Die) : lane (modMargin k f d) i = lane d i := rfl
@[simp] theorem link_modMargin (k : Nat) (f : Margin → Margin) (i : Nat) (d : Die) : link (modMargin k f d) i = link d i := rfl
@[simp] theorem rail_modMargin (k : Nat) (f : Margin → Margin) (i : Nat) (d : Die) : rail (modMargin k f d) i = rail d i := rfl
@[simp] theorem sensor_modMargin (k : Nat) (f : Margin → Margin) (i : Nat) (d : Die) : sensor (modMargin k f d) i = sensor d i := rfl
@[simp] theorem watch_modMargin (k : Nat) (f : Margin → Margin) (i : Nat) (d : Die) : watch (modMargin k f d) i = watch d i := rfl
@[simp] theorem tenant_modMargin (k : Nat) (f : Margin → Margin) (i : Nat) (d : Die) : tenant (modMargin k f d) i = tenant d i := rfl
@[simp] theorem queue_modMargin (k : Nat) (f : Margin → Margin) (i : Nat) (d : Die) : queue (modMargin k f d) i = queue d i := rfl
@[simp] theorem context_modMargin (k : Nat) (f : Margin → Margin) (i : Nat) (d : Die) : context (modMargin k f d) i = context d i := rfl

/-! ## modHolds -/

@[simp] theorem modHolds_tally (k : Nat) (f : Holds → Holds) (d : Die) : (modHolds k f d).tally = d.tally := rfl
@[simp] theorem modHolds_clocks (k : Nat) (f : Holds → Holds) (d : Die) : (modHolds k f d).clocks = d.clocks := rfl
@[simp] theorem modHolds_startup (k : Nat) (f : Holds → Holds) (d : Die) : (modHolds k f d).startup = d.startup := rfl
@[simp] theorem modHolds_stop (k : Nat) (f : Holds → Holds) (d : Die) : (modHolds k f d).stop = d.stop := rfl
@[simp] theorem modHolds_regs (k : Nat) (f : Holds → Holds) (d : Die) : (modHolds k f d).regs = d.regs := rfl
@[simp] theorem modHolds_ledger (k : Nat) (f : Holds → Holds) (d : Die) : (modHolds k f d).ledger = d.ledger := rfl
@[simp] theorem modHolds_chandler (k : Nat) (f : Holds → Holds) (d : Die) : (modHolds k f d).chandler = d.chandler := rfl
@[simp] theorem modHolds_store (k : Nat) (f : Holds → Holds) (d : Die) : (modHolds k f d).store = d.store := rfl
@[simp] theorem modHolds_limits (k : Nat) (f : Holds → Holds) (d : Die) : (modHolds k f d).limits = d.limits := rfl
@[simp] theorem modHolds_regions (k : Nat) (f : Holds → Holds) (d : Die) : (modHolds k f d).regions = d.regions := rfl
@[simp] theorem modHolds_synths (k : Nat) (f : Holds → Holds) (d : Die) : (modHolds k f d).synths = d.synths := rfl
@[simp] theorem modHolds_ends (k : Nat) (f : Holds → Holds) (d : Die) : (modHolds k f d).ends = d.ends := rfl
@[simp] theorem modHolds_lanes (k : Nat) (f : Holds → Holds) (d : Die) : (modHolds k f d).lanes = d.lanes := rfl
@[simp] theorem modHolds_links (k : Nat) (f : Holds → Holds) (d : Die) : (modHolds k f d).links = d.links := rfl
@[simp] theorem modHolds_rails (k : Nat) (f : Holds → Holds) (d : Die) : (modHolds k f d).rails = d.rails := rfl
@[simp] theorem modHolds_sensors (k : Nat) (f : Holds → Holds) (d : Die) : (modHolds k f d).sensors = d.sensors := rfl
@[simp] theorem modHolds_watches (k : Nat) (f : Holds → Holds) (d : Die) : (modHolds k f d).watches = d.watches := rfl
@[simp] theorem modHolds_messages (k : Nat) (f : Holds → Holds) (d : Die) : (modHolds k f d).messages = d.messages := rfl
@[simp] theorem modHolds_delivered (k : Nat) (f : Holds → Holds) (d : Die) : (modHolds k f d).delivered = d.delivered := rfl
@[simp] theorem modHolds_contexts (k : Nat) (f : Holds → Holds) (d : Die) : (modHolds k f d).contexts = d.contexts := rfl
@[simp] theorem modHolds_commits (k : Nat) (f : Holds → Holds) (d : Die) : (modHolds k f d).commits = d.commits := rfl
@[simp] theorem modHolds_commitReqs (k : Nat) (f : Holds → Holds) (d : Die) : (modHolds k f d).commitReqs = d.commitReqs := rfl
@[simp] theorem modHolds_nextCommit (k : Nat) (f : Holds → Holds) (d : Die) : (modHolds k f d).nextCommit = d.nextCommit := rfl
@[simp] theorem modHolds_tenants (k : Nat) (f : Holds → Holds) (d : Die) : (modHolds k f d).tenants = d.tenants := rfl
@[simp] theorem modHolds_queues (k : Nat) (f : Holds → Holds) (d : Die) : (modHolds k f d).queues = d.queues := rfl
@[simp] theorem modHolds_sram (k : Nat) (f : Holds → Holds) (d : Die) : (modHolds k f d).sram = d.sram := rfl
@[simp] theorem modHolds_streams (k : Nat) (f : Holds → Holds) (d : Die) : (modHolds k f d).streams = d.streams := rfl
@[simp] theorem modHolds_dormant (k : Nat) (f : Holds → Holds) (d : Die) : (modHolds k f d).dormant = d.dormant := rfl
@[simp] theorem modHolds_hbm (k : Nat) (f : Holds → Holds) (d : Die) : (modHolds k f d).hbm = d.hbm := rfl
@[simp] theorem modHolds_fresh (k : Nat) (f : Holds → Holds) (d : Die) : (modHolds k f d).fresh = d.fresh := rfl
@[simp] theorem region_modHolds (k : Nat) (f : Holds → Holds) (i : Nat) (d : Die) : region (modHolds k f d) i = region d i := rfl
@[simp] theorem synth_modHolds (k : Nat) (f : Holds → Holds) (i x : Nat) (d : Die) : synth (modHolds k f d) i x = synth d i x := rfl
@[simp] theorem edgeEnd_modHolds (k : Nat) (f : Holds → Holds) (i : Nat) (d : Die) : edgeEnd (modHolds k f d) i = edgeEnd d i := rfl
@[simp] theorem lane_modHolds (k : Nat) (f : Holds → Holds) (i : Nat) (d : Die) : lane (modHolds k f d) i = lane d i := rfl
@[simp] theorem link_modHolds (k : Nat) (f : Holds → Holds) (i : Nat) (d : Die) : link (modHolds k f d) i = link d i := rfl
@[simp] theorem rail_modHolds (k : Nat) (f : Holds → Holds) (i : Nat) (d : Die) : rail (modHolds k f d) i = rail d i := rfl
@[simp] theorem sensor_modHolds (k : Nat) (f : Holds → Holds) (i : Nat) (d : Die) : sensor (modHolds k f d) i = sensor d i := rfl
@[simp] theorem watch_modHolds (k : Nat) (f : Holds → Holds) (i : Nat) (d : Die) : watch (modHolds k f d) i = watch d i := rfl
@[simp] theorem tenant_modHolds (k : Nat) (f : Holds → Holds) (i : Nat) (d : Die) : tenant (modHolds k f d) i = tenant d i := rfl
@[simp] theorem queue_modHolds (k : Nat) (f : Holds → Holds) (i : Nat) (d : Die) : queue (modHolds k f d) i = queue d i := rfl
@[simp] theorem context_modHolds (k : Nat) (f : Holds → Holds) (i : Nat) (d : Die) : context (modHolds k f d) i = context d i := rfl

/-! ## modRegion -/

@[simp] theorem modRegion_tally (k : Nat) (f : Region → Region) (d : Die) : (modRegion k f d).tally = d.tally := rfl
@[simp] theorem modRegion_clocks (k : Nat) (f : Region → Region) (d : Die) : (modRegion k f d).clocks = d.clocks := rfl
@[simp] theorem modRegion_startup (k : Nat) (f : Region → Region) (d : Die) : (modRegion k f d).startup = d.startup := rfl
@[simp] theorem modRegion_stop (k : Nat) (f : Region → Region) (d : Die) : (modRegion k f d).stop = d.stop := rfl
@[simp] theorem modRegion_regs (k : Nat) (f : Region → Region) (d : Die) : (modRegion k f d).regs = d.regs := rfl
@[simp] theorem modRegion_ledger (k : Nat) (f : Region → Region) (d : Die) : (modRegion k f d).ledger = d.ledger := rfl
@[simp] theorem modRegion_chandler (k : Nat) (f : Region → Region) (d : Die) : (modRegion k f d).chandler = d.chandler := rfl
@[simp] theorem modRegion_store (k : Nat) (f : Region → Region) (d : Die) : (modRegion k f d).store = d.store := rfl
@[simp] theorem modRegion_limits (k : Nat) (f : Region → Region) (d : Die) : (modRegion k f d).limits = d.limits := rfl
@[simp] theorem modRegion_islands (k : Nat) (f : Region → Region) (d : Die) : (modRegion k f d).islands = d.islands := rfl
@[simp] theorem modRegion_synths (k : Nat) (f : Region → Region) (d : Die) : (modRegion k f d).synths = d.synths := rfl
@[simp] theorem modRegion_ends (k : Nat) (f : Region → Region) (d : Die) : (modRegion k f d).ends = d.ends := rfl
@[simp] theorem modRegion_lanes (k : Nat) (f : Region → Region) (d : Die) : (modRegion k f d).lanes = d.lanes := rfl
@[simp] theorem modRegion_links (k : Nat) (f : Region → Region) (d : Die) : (modRegion k f d).links = d.links := rfl
@[simp] theorem modRegion_rails (k : Nat) (f : Region → Region) (d : Die) : (modRegion k f d).rails = d.rails := rfl
@[simp] theorem modRegion_sensors (k : Nat) (f : Region → Region) (d : Die) : (modRegion k f d).sensors = d.sensors := rfl
@[simp] theorem modRegion_watches (k : Nat) (f : Region → Region) (d : Die) : (modRegion k f d).watches = d.watches := rfl
@[simp] theorem modRegion_messages (k : Nat) (f : Region → Region) (d : Die) : (modRegion k f d).messages = d.messages := rfl
@[simp] theorem modRegion_delivered (k : Nat) (f : Region → Region) (d : Die) : (modRegion k f d).delivered = d.delivered := rfl
@[simp] theorem modRegion_contexts (k : Nat) (f : Region → Region) (d : Die) : (modRegion k f d).contexts = d.contexts := rfl
@[simp] theorem modRegion_commits (k : Nat) (f : Region → Region) (d : Die) : (modRegion k f d).commits = d.commits := rfl
@[simp] theorem modRegion_commitReqs (k : Nat) (f : Region → Region) (d : Die) : (modRegion k f d).commitReqs = d.commitReqs := rfl
@[simp] theorem modRegion_nextCommit (k : Nat) (f : Region → Region) (d : Die) : (modRegion k f d).nextCommit = d.nextCommit := rfl
@[simp] theorem modRegion_tenants (k : Nat) (f : Region → Region) (d : Die) : (modRegion k f d).tenants = d.tenants := rfl
@[simp] theorem modRegion_queues (k : Nat) (f : Region → Region) (d : Die) : (modRegion k f d).queues = d.queues := rfl
@[simp] theorem modRegion_sram (k : Nat) (f : Region → Region) (d : Die) : (modRegion k f d).sram = d.sram := rfl
@[simp] theorem modRegion_streams (k : Nat) (f : Region → Region) (d : Die) : (modRegion k f d).streams = d.streams := rfl
@[simp] theorem modRegion_dormant (k : Nat) (f : Region → Region) (d : Die) : (modRegion k f d).dormant = d.dormant := rfl
@[simp] theorem modRegion_hbm (k : Nat) (f : Region → Region) (d : Die) : (modRegion k f d).hbm = d.hbm := rfl
@[simp] theorem modRegion_fresh (k : Nat) (f : Region → Region) (d : Die) : (modRegion k f d).fresh = d.fresh := rfl
@[simp] theorem island_modRegion (k : Nat) (f : Region → Region) (i : Nat) (d : Die) : island (modRegion k f d) i = island d i := rfl
@[simp] theorem synth_modRegion (k : Nat) (f : Region → Region) (i x : Nat) (d : Die) : synth (modRegion k f d) i x = synth d i x := rfl
@[simp] theorem edgeEnd_modRegion (k : Nat) (f : Region → Region) (i : Nat) (d : Die) : edgeEnd (modRegion k f d) i = edgeEnd d i := rfl
@[simp] theorem lane_modRegion (k : Nat) (f : Region → Region) (i : Nat) (d : Die) : lane (modRegion k f d) i = lane d i := rfl
@[simp] theorem link_modRegion (k : Nat) (f : Region → Region) (i : Nat) (d : Die) : link (modRegion k f d) i = link d i := rfl
@[simp] theorem rail_modRegion (k : Nat) (f : Region → Region) (i : Nat) (d : Die) : rail (modRegion k f d) i = rail d i := rfl
@[simp] theorem sensor_modRegion (k : Nat) (f : Region → Region) (i : Nat) (d : Die) : sensor (modRegion k f d) i = sensor d i := rfl
@[simp] theorem watch_modRegion (k : Nat) (f : Region → Region) (i : Nat) (d : Die) : watch (modRegion k f d) i = watch d i := rfl
@[simp] theorem tenant_modRegion (k : Nat) (f : Region → Region) (i : Nat) (d : Die) : tenant (modRegion k f d) i = tenant d i := rfl
@[simp] theorem queue_modRegion (k : Nat) (f : Region → Region) (i : Nat) (d : Die) : queue (modRegion k f d) i = queue d i := rfl
@[simp] theorem context_modRegion (k : Nat) (f : Region → Region) (i : Nat) (d : Die) : context (modRegion k f d) i = context d i := rfl

/-! ## modSynth -/

@[simp] theorem modSynth_tally (r x : Nat) (f : Synth → Synth) (d : Die) : (modSynth r x f d).tally = d.tally := rfl
@[simp] theorem modSynth_clocks (r x : Nat) (f : Synth → Synth) (d : Die) : (modSynth r x f d).clocks = d.clocks := rfl
@[simp] theorem modSynth_startup (r x : Nat) (f : Synth → Synth) (d : Die) : (modSynth r x f d).startup = d.startup := rfl
@[simp] theorem modSynth_stop (r x : Nat) (f : Synth → Synth) (d : Die) : (modSynth r x f d).stop = d.stop := rfl
@[simp] theorem modSynth_regs (r x : Nat) (f : Synth → Synth) (d : Die) : (modSynth r x f d).regs = d.regs := rfl
@[simp] theorem modSynth_ledger (r x : Nat) (f : Synth → Synth) (d : Die) : (modSynth r x f d).ledger = d.ledger := rfl
@[simp] theorem modSynth_chandler (r x : Nat) (f : Synth → Synth) (d : Die) : (modSynth r x f d).chandler = d.chandler := rfl
@[simp] theorem modSynth_store (r x : Nat) (f : Synth → Synth) (d : Die) : (modSynth r x f d).store = d.store := rfl
@[simp] theorem modSynth_limits (r x : Nat) (f : Synth → Synth) (d : Die) : (modSynth r x f d).limits = d.limits := rfl
@[simp] theorem modSynth_islands (r x : Nat) (f : Synth → Synth) (d : Die) : (modSynth r x f d).islands = d.islands := rfl
@[simp] theorem modSynth_regions (r x : Nat) (f : Synth → Synth) (d : Die) : (modSynth r x f d).regions = d.regions := rfl
@[simp] theorem modSynth_ends (r x : Nat) (f : Synth → Synth) (d : Die) : (modSynth r x f d).ends = d.ends := rfl
@[simp] theorem modSynth_lanes (r x : Nat) (f : Synth → Synth) (d : Die) : (modSynth r x f d).lanes = d.lanes := rfl
@[simp] theorem modSynth_links (r x : Nat) (f : Synth → Synth) (d : Die) : (modSynth r x f d).links = d.links := rfl
@[simp] theorem modSynth_rails (r x : Nat) (f : Synth → Synth) (d : Die) : (modSynth r x f d).rails = d.rails := rfl
@[simp] theorem modSynth_sensors (r x : Nat) (f : Synth → Synth) (d : Die) : (modSynth r x f d).sensors = d.sensors := rfl
@[simp] theorem modSynth_watches (r x : Nat) (f : Synth → Synth) (d : Die) : (modSynth r x f d).watches = d.watches := rfl
@[simp] theorem modSynth_messages (r x : Nat) (f : Synth → Synth) (d : Die) : (modSynth r x f d).messages = d.messages := rfl
@[simp] theorem modSynth_delivered (r x : Nat) (f : Synth → Synth) (d : Die) : (modSynth r x f d).delivered = d.delivered := rfl
@[simp] theorem modSynth_contexts (r x : Nat) (f : Synth → Synth) (d : Die) : (modSynth r x f d).contexts = d.contexts := rfl
@[simp] theorem modSynth_commits (r x : Nat) (f : Synth → Synth) (d : Die) : (modSynth r x f d).commits = d.commits := rfl
@[simp] theorem modSynth_commitReqs (r x : Nat) (f : Synth → Synth) (d : Die) : (modSynth r x f d).commitReqs = d.commitReqs := rfl
@[simp] theorem modSynth_nextCommit (r x : Nat) (f : Synth → Synth) (d : Die) : (modSynth r x f d).nextCommit = d.nextCommit := rfl
@[simp] theorem modSynth_tenants (r x : Nat) (f : Synth → Synth) (d : Die) : (modSynth r x f d).tenants = d.tenants := rfl
@[simp] theorem modSynth_queues (r x : Nat) (f : Synth → Synth) (d : Die) : (modSynth r x f d).queues = d.queues := rfl
@[simp] theorem modSynth_sram (r x : Nat) (f : Synth → Synth) (d : Die) : (modSynth r x f d).sram = d.sram := rfl
@[simp] theorem modSynth_streams (r x : Nat) (f : Synth → Synth) (d : Die) : (modSynth r x f d).streams = d.streams := rfl
@[simp] theorem modSynth_dormant (r x : Nat) (f : Synth → Synth) (d : Die) : (modSynth r x f d).dormant = d.dormant := rfl
@[simp] theorem modSynth_hbm (r x : Nat) (f : Synth → Synth) (d : Die) : (modSynth r x f d).hbm = d.hbm := rfl
@[simp] theorem modSynth_fresh (r x : Nat) (f : Synth → Synth) (d : Die) : (modSynth r x f d).fresh = d.fresh := rfl
@[simp] theorem island_modSynth (r x : Nat) (f : Synth → Synth) (i : Nat) (d : Die) : island (modSynth r x f d) i = island d i := rfl
@[simp] theorem region_modSynth (r x : Nat) (f : Synth → Synth) (i : Nat) (d : Die) : region (modSynth r x f d) i = region d i := rfl
@[simp] theorem edgeEnd_modSynth (r x : Nat) (f : Synth → Synth) (i : Nat) (d : Die) : edgeEnd (modSynth r x f d) i = edgeEnd d i := rfl
@[simp] theorem lane_modSynth (r x : Nat) (f : Synth → Synth) (i : Nat) (d : Die) : lane (modSynth r x f d) i = lane d i := rfl
@[simp] theorem link_modSynth (r x : Nat) (f : Synth → Synth) (i : Nat) (d : Die) : link (modSynth r x f d) i = link d i := rfl
@[simp] theorem rail_modSynth (r x : Nat) (f : Synth → Synth) (i : Nat) (d : Die) : rail (modSynth r x f d) i = rail d i := rfl
@[simp] theorem sensor_modSynth (r x : Nat) (f : Synth → Synth) (i : Nat) (d : Die) : sensor (modSynth r x f d) i = sensor d i := rfl
@[simp] theorem watch_modSynth (r x : Nat) (f : Synth → Synth) (i : Nat) (d : Die) : watch (modSynth r x f d) i = watch d i := rfl
@[simp] theorem tenant_modSynth (r x : Nat) (f : Synth → Synth) (i : Nat) (d : Die) : tenant (modSynth r x f d) i = tenant d i := rfl
@[simp] theorem queue_modSynth (r x : Nat) (f : Synth → Synth) (i : Nat) (d : Die) : queue (modSynth r x f d) i = queue d i := rfl
@[simp] theorem context_modSynth (r x : Nat) (f : Synth → Synth) (i : Nat) (d : Die) : context (modSynth r x f d) i = context d i := rfl

/-! ## modEnd -/

@[simp] theorem modEnd_tally (k : Nat) (f : EdgeEnd → EdgeEnd) (d : Die) : (modEnd k f d).tally = d.tally := rfl
@[simp] theorem modEnd_clocks (k : Nat) (f : EdgeEnd → EdgeEnd) (d : Die) : (modEnd k f d).clocks = d.clocks := rfl
@[simp] theorem modEnd_startup (k : Nat) (f : EdgeEnd → EdgeEnd) (d : Die) : (modEnd k f d).startup = d.startup := rfl
@[simp] theorem modEnd_stop (k : Nat) (f : EdgeEnd → EdgeEnd) (d : Die) : (modEnd k f d).stop = d.stop := rfl
@[simp] theorem modEnd_regs (k : Nat) (f : EdgeEnd → EdgeEnd) (d : Die) : (modEnd k f d).regs = d.regs := rfl
@[simp] theorem modEnd_ledger (k : Nat) (f : EdgeEnd → EdgeEnd) (d : Die) : (modEnd k f d).ledger = d.ledger := rfl
@[simp] theorem modEnd_chandler (k : Nat) (f : EdgeEnd → EdgeEnd) (d : Die) : (modEnd k f d).chandler = d.chandler := rfl
@[simp] theorem modEnd_store (k : Nat) (f : EdgeEnd → EdgeEnd) (d : Die) : (modEnd k f d).store = d.store := rfl
@[simp] theorem modEnd_limits (k : Nat) (f : EdgeEnd → EdgeEnd) (d : Die) : (modEnd k f d).limits = d.limits := rfl
@[simp] theorem modEnd_islands (k : Nat) (f : EdgeEnd → EdgeEnd) (d : Die) : (modEnd k f d).islands = d.islands := rfl
@[simp] theorem modEnd_regions (k : Nat) (f : EdgeEnd → EdgeEnd) (d : Die) : (modEnd k f d).regions = d.regions := rfl
@[simp] theorem modEnd_synths (k : Nat) (f : EdgeEnd → EdgeEnd) (d : Die) : (modEnd k f d).synths = d.synths := rfl
@[simp] theorem modEnd_lanes (k : Nat) (f : EdgeEnd → EdgeEnd) (d : Die) : (modEnd k f d).lanes = d.lanes := rfl
@[simp] theorem modEnd_links (k : Nat) (f : EdgeEnd → EdgeEnd) (d : Die) : (modEnd k f d).links = d.links := rfl
@[simp] theorem modEnd_rails (k : Nat) (f : EdgeEnd → EdgeEnd) (d : Die) : (modEnd k f d).rails = d.rails := rfl
@[simp] theorem modEnd_sensors (k : Nat) (f : EdgeEnd → EdgeEnd) (d : Die) : (modEnd k f d).sensors = d.sensors := rfl
@[simp] theorem modEnd_watches (k : Nat) (f : EdgeEnd → EdgeEnd) (d : Die) : (modEnd k f d).watches = d.watches := rfl
@[simp] theorem modEnd_messages (k : Nat) (f : EdgeEnd → EdgeEnd) (d : Die) : (modEnd k f d).messages = d.messages := rfl
@[simp] theorem modEnd_delivered (k : Nat) (f : EdgeEnd → EdgeEnd) (d : Die) : (modEnd k f d).delivered = d.delivered := rfl
@[simp] theorem modEnd_contexts (k : Nat) (f : EdgeEnd → EdgeEnd) (d : Die) : (modEnd k f d).contexts = d.contexts := rfl
@[simp] theorem modEnd_commits (k : Nat) (f : EdgeEnd → EdgeEnd) (d : Die) : (modEnd k f d).commits = d.commits := rfl
@[simp] theorem modEnd_commitReqs (k : Nat) (f : EdgeEnd → EdgeEnd) (d : Die) : (modEnd k f d).commitReqs = d.commitReqs := rfl
@[simp] theorem modEnd_nextCommit (k : Nat) (f : EdgeEnd → EdgeEnd) (d : Die) : (modEnd k f d).nextCommit = d.nextCommit := rfl
@[simp] theorem modEnd_tenants (k : Nat) (f : EdgeEnd → EdgeEnd) (d : Die) : (modEnd k f d).tenants = d.tenants := rfl
@[simp] theorem modEnd_queues (k : Nat) (f : EdgeEnd → EdgeEnd) (d : Die) : (modEnd k f d).queues = d.queues := rfl
@[simp] theorem modEnd_sram (k : Nat) (f : EdgeEnd → EdgeEnd) (d : Die) : (modEnd k f d).sram = d.sram := rfl
@[simp] theorem modEnd_streams (k : Nat) (f : EdgeEnd → EdgeEnd) (d : Die) : (modEnd k f d).streams = d.streams := rfl
@[simp] theorem modEnd_dormant (k : Nat) (f : EdgeEnd → EdgeEnd) (d : Die) : (modEnd k f d).dormant = d.dormant := rfl
@[simp] theorem modEnd_hbm (k : Nat) (f : EdgeEnd → EdgeEnd) (d : Die) : (modEnd k f d).hbm = d.hbm := rfl
@[simp] theorem modEnd_fresh (k : Nat) (f : EdgeEnd → EdgeEnd) (d : Die) : (modEnd k f d).fresh = d.fresh := rfl
@[simp] theorem island_modEnd (k : Nat) (f : EdgeEnd → EdgeEnd) (i : Nat) (d : Die) : island (modEnd k f d) i = island d i := rfl
@[simp] theorem region_modEnd (k : Nat) (f : EdgeEnd → EdgeEnd) (i : Nat) (d : Die) : region (modEnd k f d) i = region d i := rfl
@[simp] theorem synth_modEnd (k : Nat) (f : EdgeEnd → EdgeEnd) (i x : Nat) (d : Die) : synth (modEnd k f d) i x = synth d i x := rfl
@[simp] theorem lane_modEnd (k : Nat) (f : EdgeEnd → EdgeEnd) (i : Nat) (d : Die) : lane (modEnd k f d) i = lane d i := rfl
@[simp] theorem link_modEnd (k : Nat) (f : EdgeEnd → EdgeEnd) (i : Nat) (d : Die) : link (modEnd k f d) i = link d i := rfl
@[simp] theorem rail_modEnd (k : Nat) (f : EdgeEnd → EdgeEnd) (i : Nat) (d : Die) : rail (modEnd k f d) i = rail d i := rfl
@[simp] theorem sensor_modEnd (k : Nat) (f : EdgeEnd → EdgeEnd) (i : Nat) (d : Die) : sensor (modEnd k f d) i = sensor d i := rfl
@[simp] theorem watch_modEnd (k : Nat) (f : EdgeEnd → EdgeEnd) (i : Nat) (d : Die) : watch (modEnd k f d) i = watch d i := rfl
@[simp] theorem tenant_modEnd (k : Nat) (f : EdgeEnd → EdgeEnd) (i : Nat) (d : Die) : tenant (modEnd k f d) i = tenant d i := rfl
@[simp] theorem queue_modEnd (k : Nat) (f : EdgeEnd → EdgeEnd) (i : Nat) (d : Die) : queue (modEnd k f d) i = queue d i := rfl
@[simp] theorem context_modEnd (k : Nat) (f : EdgeEnd → EdgeEnd) (i : Nat) (d : Die) : context (modEnd k f d) i = context d i := rfl

/-! ## modLane -/

@[simp] theorem modLane_tally (k : Nat) (f : Lane → Lane) (d : Die) : (modLane k f d).tally = d.tally := rfl
@[simp] theorem modLane_clocks (k : Nat) (f : Lane → Lane) (d : Die) : (modLane k f d).clocks = d.clocks := rfl
@[simp] theorem modLane_startup (k : Nat) (f : Lane → Lane) (d : Die) : (modLane k f d).startup = d.startup := rfl
@[simp] theorem modLane_stop (k : Nat) (f : Lane → Lane) (d : Die) : (modLane k f d).stop = d.stop := rfl
@[simp] theorem modLane_regs (k : Nat) (f : Lane → Lane) (d : Die) : (modLane k f d).regs = d.regs := rfl
@[simp] theorem modLane_ledger (k : Nat) (f : Lane → Lane) (d : Die) : (modLane k f d).ledger = d.ledger := rfl
@[simp] theorem modLane_chandler (k : Nat) (f : Lane → Lane) (d : Die) : (modLane k f d).chandler = d.chandler := rfl
@[simp] theorem modLane_store (k : Nat) (f : Lane → Lane) (d : Die) : (modLane k f d).store = d.store := rfl
@[simp] theorem modLane_limits (k : Nat) (f : Lane → Lane) (d : Die) : (modLane k f d).limits = d.limits := rfl
@[simp] theorem modLane_islands (k : Nat) (f : Lane → Lane) (d : Die) : (modLane k f d).islands = d.islands := rfl
@[simp] theorem modLane_regions (k : Nat) (f : Lane → Lane) (d : Die) : (modLane k f d).regions = d.regions := rfl
@[simp] theorem modLane_synths (k : Nat) (f : Lane → Lane) (d : Die) : (modLane k f d).synths = d.synths := rfl
@[simp] theorem modLane_ends (k : Nat) (f : Lane → Lane) (d : Die) : (modLane k f d).ends = d.ends := rfl
@[simp] theorem modLane_links (k : Nat) (f : Lane → Lane) (d : Die) : (modLane k f d).links = d.links := rfl
@[simp] theorem modLane_rails (k : Nat) (f : Lane → Lane) (d : Die) : (modLane k f d).rails = d.rails := rfl
@[simp] theorem modLane_sensors (k : Nat) (f : Lane → Lane) (d : Die) : (modLane k f d).sensors = d.sensors := rfl
@[simp] theorem modLane_watches (k : Nat) (f : Lane → Lane) (d : Die) : (modLane k f d).watches = d.watches := rfl
@[simp] theorem modLane_messages (k : Nat) (f : Lane → Lane) (d : Die) : (modLane k f d).messages = d.messages := rfl
@[simp] theorem modLane_delivered (k : Nat) (f : Lane → Lane) (d : Die) : (modLane k f d).delivered = d.delivered := rfl
@[simp] theorem modLane_contexts (k : Nat) (f : Lane → Lane) (d : Die) : (modLane k f d).contexts = d.contexts := rfl
@[simp] theorem modLane_commits (k : Nat) (f : Lane → Lane) (d : Die) : (modLane k f d).commits = d.commits := rfl
@[simp] theorem modLane_commitReqs (k : Nat) (f : Lane → Lane) (d : Die) : (modLane k f d).commitReqs = d.commitReqs := rfl
@[simp] theorem modLane_nextCommit (k : Nat) (f : Lane → Lane) (d : Die) : (modLane k f d).nextCommit = d.nextCommit := rfl
@[simp] theorem modLane_tenants (k : Nat) (f : Lane → Lane) (d : Die) : (modLane k f d).tenants = d.tenants := rfl
@[simp] theorem modLane_queues (k : Nat) (f : Lane → Lane) (d : Die) : (modLane k f d).queues = d.queues := rfl
@[simp] theorem modLane_sram (k : Nat) (f : Lane → Lane) (d : Die) : (modLane k f d).sram = d.sram := rfl
@[simp] theorem modLane_streams (k : Nat) (f : Lane → Lane) (d : Die) : (modLane k f d).streams = d.streams := rfl
@[simp] theorem modLane_dormant (k : Nat) (f : Lane → Lane) (d : Die) : (modLane k f d).dormant = d.dormant := rfl
@[simp] theorem modLane_hbm (k : Nat) (f : Lane → Lane) (d : Die) : (modLane k f d).hbm = d.hbm := rfl
@[simp] theorem modLane_fresh (k : Nat) (f : Lane → Lane) (d : Die) : (modLane k f d).fresh = d.fresh := rfl
@[simp] theorem island_modLane (k : Nat) (f : Lane → Lane) (i : Nat) (d : Die) : island (modLane k f d) i = island d i := rfl
@[simp] theorem region_modLane (k : Nat) (f : Lane → Lane) (i : Nat) (d : Die) : region (modLane k f d) i = region d i := rfl
@[simp] theorem synth_modLane (k : Nat) (f : Lane → Lane) (i x : Nat) (d : Die) : synth (modLane k f d) i x = synth d i x := rfl
@[simp] theorem edgeEnd_modLane (k : Nat) (f : Lane → Lane) (i : Nat) (d : Die) : edgeEnd (modLane k f d) i = edgeEnd d i := rfl
@[simp] theorem link_modLane (k : Nat) (f : Lane → Lane) (i : Nat) (d : Die) : link (modLane k f d) i = link d i := rfl
@[simp] theorem rail_modLane (k : Nat) (f : Lane → Lane) (i : Nat) (d : Die) : rail (modLane k f d) i = rail d i := rfl
@[simp] theorem sensor_modLane (k : Nat) (f : Lane → Lane) (i : Nat) (d : Die) : sensor (modLane k f d) i = sensor d i := rfl
@[simp] theorem watch_modLane (k : Nat) (f : Lane → Lane) (i : Nat) (d : Die) : watch (modLane k f d) i = watch d i := rfl
@[simp] theorem tenant_modLane (k : Nat) (f : Lane → Lane) (i : Nat) (d : Die) : tenant (modLane k f d) i = tenant d i := rfl
@[simp] theorem queue_modLane (k : Nat) (f : Lane → Lane) (i : Nat) (d : Die) : queue (modLane k f d) i = queue d i := rfl
@[simp] theorem context_modLane (k : Nat) (f : Lane → Lane) (i : Nat) (d : Die) : context (modLane k f d) i = context d i := rfl

/-! ## modLink -/

@[simp] theorem modLink_tally (k : Nat) (f : Link → Link) (d : Die) : (modLink k f d).tally = d.tally := rfl
@[simp] theorem modLink_clocks (k : Nat) (f : Link → Link) (d : Die) : (modLink k f d).clocks = d.clocks := rfl
@[simp] theorem modLink_startup (k : Nat) (f : Link → Link) (d : Die) : (modLink k f d).startup = d.startup := rfl
@[simp] theorem modLink_stop (k : Nat) (f : Link → Link) (d : Die) : (modLink k f d).stop = d.stop := rfl
@[simp] theorem modLink_regs (k : Nat) (f : Link → Link) (d : Die) : (modLink k f d).regs = d.regs := rfl
@[simp] theorem modLink_ledger (k : Nat) (f : Link → Link) (d : Die) : (modLink k f d).ledger = d.ledger := rfl
@[simp] theorem modLink_chandler (k : Nat) (f : Link → Link) (d : Die) : (modLink k f d).chandler = d.chandler := rfl
@[simp] theorem modLink_store (k : Nat) (f : Link → Link) (d : Die) : (modLink k f d).store = d.store := rfl
@[simp] theorem modLink_limits (k : Nat) (f : Link → Link) (d : Die) : (modLink k f d).limits = d.limits := rfl
@[simp] theorem modLink_islands (k : Nat) (f : Link → Link) (d : Die) : (modLink k f d).islands = d.islands := rfl
@[simp] theorem modLink_regions (k : Nat) (f : Link → Link) (d : Die) : (modLink k f d).regions = d.regions := rfl
@[simp] theorem modLink_synths (k : Nat) (f : Link → Link) (d : Die) : (modLink k f d).synths = d.synths := rfl
@[simp] theorem modLink_ends (k : Nat) (f : Link → Link) (d : Die) : (modLink k f d).ends = d.ends := rfl
@[simp] theorem modLink_lanes (k : Nat) (f : Link → Link) (d : Die) : (modLink k f d).lanes = d.lanes := rfl
@[simp] theorem modLink_rails (k : Nat) (f : Link → Link) (d : Die) : (modLink k f d).rails = d.rails := rfl
@[simp] theorem modLink_sensors (k : Nat) (f : Link → Link) (d : Die) : (modLink k f d).sensors = d.sensors := rfl
@[simp] theorem modLink_watches (k : Nat) (f : Link → Link) (d : Die) : (modLink k f d).watches = d.watches := rfl
@[simp] theorem modLink_messages (k : Nat) (f : Link → Link) (d : Die) : (modLink k f d).messages = d.messages := rfl
@[simp] theorem modLink_delivered (k : Nat) (f : Link → Link) (d : Die) : (modLink k f d).delivered = d.delivered := rfl
@[simp] theorem modLink_contexts (k : Nat) (f : Link → Link) (d : Die) : (modLink k f d).contexts = d.contexts := rfl
@[simp] theorem modLink_commits (k : Nat) (f : Link → Link) (d : Die) : (modLink k f d).commits = d.commits := rfl
@[simp] theorem modLink_commitReqs (k : Nat) (f : Link → Link) (d : Die) : (modLink k f d).commitReqs = d.commitReqs := rfl
@[simp] theorem modLink_nextCommit (k : Nat) (f : Link → Link) (d : Die) : (modLink k f d).nextCommit = d.nextCommit := rfl
@[simp] theorem modLink_tenants (k : Nat) (f : Link → Link) (d : Die) : (modLink k f d).tenants = d.tenants := rfl
@[simp] theorem modLink_queues (k : Nat) (f : Link → Link) (d : Die) : (modLink k f d).queues = d.queues := rfl
@[simp] theorem modLink_sram (k : Nat) (f : Link → Link) (d : Die) : (modLink k f d).sram = d.sram := rfl
@[simp] theorem modLink_streams (k : Nat) (f : Link → Link) (d : Die) : (modLink k f d).streams = d.streams := rfl
@[simp] theorem modLink_dormant (k : Nat) (f : Link → Link) (d : Die) : (modLink k f d).dormant = d.dormant := rfl
@[simp] theorem modLink_hbm (k : Nat) (f : Link → Link) (d : Die) : (modLink k f d).hbm = d.hbm := rfl
@[simp] theorem modLink_fresh (k : Nat) (f : Link → Link) (d : Die) : (modLink k f d).fresh = d.fresh := rfl
@[simp] theorem island_modLink (k : Nat) (f : Link → Link) (i : Nat) (d : Die) : island (modLink k f d) i = island d i := rfl
@[simp] theorem region_modLink (k : Nat) (f : Link → Link) (i : Nat) (d : Die) : region (modLink k f d) i = region d i := rfl
@[simp] theorem synth_modLink (k : Nat) (f : Link → Link) (i x : Nat) (d : Die) : synth (modLink k f d) i x = synth d i x := rfl
@[simp] theorem edgeEnd_modLink (k : Nat) (f : Link → Link) (i : Nat) (d : Die) : edgeEnd (modLink k f d) i = edgeEnd d i := rfl
@[simp] theorem lane_modLink (k : Nat) (f : Link → Link) (i : Nat) (d : Die) : lane (modLink k f d) i = lane d i := rfl
@[simp] theorem rail_modLink (k : Nat) (f : Link → Link) (i : Nat) (d : Die) : rail (modLink k f d) i = rail d i := rfl
@[simp] theorem sensor_modLink (k : Nat) (f : Link → Link) (i : Nat) (d : Die) : sensor (modLink k f d) i = sensor d i := rfl
@[simp] theorem watch_modLink (k : Nat) (f : Link → Link) (i : Nat) (d : Die) : watch (modLink k f d) i = watch d i := rfl
@[simp] theorem tenant_modLink (k : Nat) (f : Link → Link) (i : Nat) (d : Die) : tenant (modLink k f d) i = tenant d i := rfl
@[simp] theorem queue_modLink (k : Nat) (f : Link → Link) (i : Nat) (d : Die) : queue (modLink k f d) i = queue d i := rfl
@[simp] theorem context_modLink (k : Nat) (f : Link → Link) (i : Nat) (d : Die) : context (modLink k f d) i = context d i := rfl

/-! ## modRail -/

@[simp] theorem modRail_tally (k : Nat) (f : Rail → Rail) (d : Die) : (modRail k f d).tally = d.tally := rfl
@[simp] theorem modRail_clocks (k : Nat) (f : Rail → Rail) (d : Die) : (modRail k f d).clocks = d.clocks := rfl
@[simp] theorem modRail_startup (k : Nat) (f : Rail → Rail) (d : Die) : (modRail k f d).startup = d.startup := rfl
@[simp] theorem modRail_stop (k : Nat) (f : Rail → Rail) (d : Die) : (modRail k f d).stop = d.stop := rfl
@[simp] theorem modRail_regs (k : Nat) (f : Rail → Rail) (d : Die) : (modRail k f d).regs = d.regs := rfl
@[simp] theorem modRail_ledger (k : Nat) (f : Rail → Rail) (d : Die) : (modRail k f d).ledger = d.ledger := rfl
@[simp] theorem modRail_chandler (k : Nat) (f : Rail → Rail) (d : Die) : (modRail k f d).chandler = d.chandler := rfl
@[simp] theorem modRail_store (k : Nat) (f : Rail → Rail) (d : Die) : (modRail k f d).store = d.store := rfl
@[simp] theorem modRail_limits (k : Nat) (f : Rail → Rail) (d : Die) : (modRail k f d).limits = d.limits := rfl
@[simp] theorem modRail_islands (k : Nat) (f : Rail → Rail) (d : Die) : (modRail k f d).islands = d.islands := rfl
@[simp] theorem modRail_regions (k : Nat) (f : Rail → Rail) (d : Die) : (modRail k f d).regions = d.regions := rfl
@[simp] theorem modRail_synths (k : Nat) (f : Rail → Rail) (d : Die) : (modRail k f d).synths = d.synths := rfl
@[simp] theorem modRail_ends (k : Nat) (f : Rail → Rail) (d : Die) : (modRail k f d).ends = d.ends := rfl
@[simp] theorem modRail_lanes (k : Nat) (f : Rail → Rail) (d : Die) : (modRail k f d).lanes = d.lanes := rfl
@[simp] theorem modRail_links (k : Nat) (f : Rail → Rail) (d : Die) : (modRail k f d).links = d.links := rfl
@[simp] theorem modRail_sensors (k : Nat) (f : Rail → Rail) (d : Die) : (modRail k f d).sensors = d.sensors := rfl
@[simp] theorem modRail_watches (k : Nat) (f : Rail → Rail) (d : Die) : (modRail k f d).watches = d.watches := rfl
@[simp] theorem modRail_messages (k : Nat) (f : Rail → Rail) (d : Die) : (modRail k f d).messages = d.messages := rfl
@[simp] theorem modRail_delivered (k : Nat) (f : Rail → Rail) (d : Die) : (modRail k f d).delivered = d.delivered := rfl
@[simp] theorem modRail_contexts (k : Nat) (f : Rail → Rail) (d : Die) : (modRail k f d).contexts = d.contexts := rfl
@[simp] theorem modRail_commits (k : Nat) (f : Rail → Rail) (d : Die) : (modRail k f d).commits = d.commits := rfl
@[simp] theorem modRail_commitReqs (k : Nat) (f : Rail → Rail) (d : Die) : (modRail k f d).commitReqs = d.commitReqs := rfl
@[simp] theorem modRail_nextCommit (k : Nat) (f : Rail → Rail) (d : Die) : (modRail k f d).nextCommit = d.nextCommit := rfl
@[simp] theorem modRail_tenants (k : Nat) (f : Rail → Rail) (d : Die) : (modRail k f d).tenants = d.tenants := rfl
@[simp] theorem modRail_queues (k : Nat) (f : Rail → Rail) (d : Die) : (modRail k f d).queues = d.queues := rfl
@[simp] theorem modRail_sram (k : Nat) (f : Rail → Rail) (d : Die) : (modRail k f d).sram = d.sram := rfl
@[simp] theorem modRail_streams (k : Nat) (f : Rail → Rail) (d : Die) : (modRail k f d).streams = d.streams := rfl
@[simp] theorem modRail_dormant (k : Nat) (f : Rail → Rail) (d : Die) : (modRail k f d).dormant = d.dormant := rfl
@[simp] theorem modRail_hbm (k : Nat) (f : Rail → Rail) (d : Die) : (modRail k f d).hbm = d.hbm := rfl
@[simp] theorem modRail_fresh (k : Nat) (f : Rail → Rail) (d : Die) : (modRail k f d).fresh = d.fresh := rfl
@[simp] theorem island_modRail (k : Nat) (f : Rail → Rail) (i : Nat) (d : Die) : island (modRail k f d) i = island d i := rfl
@[simp] theorem region_modRail (k : Nat) (f : Rail → Rail) (i : Nat) (d : Die) : region (modRail k f d) i = region d i := rfl
@[simp] theorem synth_modRail (k : Nat) (f : Rail → Rail) (i x : Nat) (d : Die) : synth (modRail k f d) i x = synth d i x := rfl
@[simp] theorem edgeEnd_modRail (k : Nat) (f : Rail → Rail) (i : Nat) (d : Die) : edgeEnd (modRail k f d) i = edgeEnd d i := rfl
@[simp] theorem lane_modRail (k : Nat) (f : Rail → Rail) (i : Nat) (d : Die) : lane (modRail k f d) i = lane d i := rfl
@[simp] theorem link_modRail (k : Nat) (f : Rail → Rail) (i : Nat) (d : Die) : link (modRail k f d) i = link d i := rfl
@[simp] theorem sensor_modRail (k : Nat) (f : Rail → Rail) (i : Nat) (d : Die) : sensor (modRail k f d) i = sensor d i := rfl
@[simp] theorem watch_modRail (k : Nat) (f : Rail → Rail) (i : Nat) (d : Die) : watch (modRail k f d) i = watch d i := rfl
@[simp] theorem tenant_modRail (k : Nat) (f : Rail → Rail) (i : Nat) (d : Die) : tenant (modRail k f d) i = tenant d i := rfl
@[simp] theorem queue_modRail (k : Nat) (f : Rail → Rail) (i : Nat) (d : Die) : queue (modRail k f d) i = queue d i := rfl
@[simp] theorem context_modRail (k : Nat) (f : Rail → Rail) (i : Nat) (d : Die) : context (modRail k f d) i = context d i := rfl

/-! ## modSensor -/

@[simp] theorem modSensor_tally (k : Nat) (f : Sensor → Sensor) (d : Die) : (modSensor k f d).tally = d.tally := rfl
@[simp] theorem modSensor_clocks (k : Nat) (f : Sensor → Sensor) (d : Die) : (modSensor k f d).clocks = d.clocks := rfl
@[simp] theorem modSensor_startup (k : Nat) (f : Sensor → Sensor) (d : Die) : (modSensor k f d).startup = d.startup := rfl
@[simp] theorem modSensor_stop (k : Nat) (f : Sensor → Sensor) (d : Die) : (modSensor k f d).stop = d.stop := rfl
@[simp] theorem modSensor_regs (k : Nat) (f : Sensor → Sensor) (d : Die) : (modSensor k f d).regs = d.regs := rfl
@[simp] theorem modSensor_ledger (k : Nat) (f : Sensor → Sensor) (d : Die) : (modSensor k f d).ledger = d.ledger := rfl
@[simp] theorem modSensor_chandler (k : Nat) (f : Sensor → Sensor) (d : Die) : (modSensor k f d).chandler = d.chandler := rfl
@[simp] theorem modSensor_store (k : Nat) (f : Sensor → Sensor) (d : Die) : (modSensor k f d).store = d.store := rfl
@[simp] theorem modSensor_limits (k : Nat) (f : Sensor → Sensor) (d : Die) : (modSensor k f d).limits = d.limits := rfl
@[simp] theorem modSensor_islands (k : Nat) (f : Sensor → Sensor) (d : Die) : (modSensor k f d).islands = d.islands := rfl
@[simp] theorem modSensor_regions (k : Nat) (f : Sensor → Sensor) (d : Die) : (modSensor k f d).regions = d.regions := rfl
@[simp] theorem modSensor_synths (k : Nat) (f : Sensor → Sensor) (d : Die) : (modSensor k f d).synths = d.synths := rfl
@[simp] theorem modSensor_ends (k : Nat) (f : Sensor → Sensor) (d : Die) : (modSensor k f d).ends = d.ends := rfl
@[simp] theorem modSensor_lanes (k : Nat) (f : Sensor → Sensor) (d : Die) : (modSensor k f d).lanes = d.lanes := rfl
@[simp] theorem modSensor_links (k : Nat) (f : Sensor → Sensor) (d : Die) : (modSensor k f d).links = d.links := rfl
@[simp] theorem modSensor_rails (k : Nat) (f : Sensor → Sensor) (d : Die) : (modSensor k f d).rails = d.rails := rfl
@[simp] theorem modSensor_watches (k : Nat) (f : Sensor → Sensor) (d : Die) : (modSensor k f d).watches = d.watches := rfl
@[simp] theorem modSensor_messages (k : Nat) (f : Sensor → Sensor) (d : Die) : (modSensor k f d).messages = d.messages := rfl
@[simp] theorem modSensor_delivered (k : Nat) (f : Sensor → Sensor) (d : Die) : (modSensor k f d).delivered = d.delivered := rfl
@[simp] theorem modSensor_contexts (k : Nat) (f : Sensor → Sensor) (d : Die) : (modSensor k f d).contexts = d.contexts := rfl
@[simp] theorem modSensor_commits (k : Nat) (f : Sensor → Sensor) (d : Die) : (modSensor k f d).commits = d.commits := rfl
@[simp] theorem modSensor_commitReqs (k : Nat) (f : Sensor → Sensor) (d : Die) : (modSensor k f d).commitReqs = d.commitReqs := rfl
@[simp] theorem modSensor_nextCommit (k : Nat) (f : Sensor → Sensor) (d : Die) : (modSensor k f d).nextCommit = d.nextCommit := rfl
@[simp] theorem modSensor_tenants (k : Nat) (f : Sensor → Sensor) (d : Die) : (modSensor k f d).tenants = d.tenants := rfl
@[simp] theorem modSensor_queues (k : Nat) (f : Sensor → Sensor) (d : Die) : (modSensor k f d).queues = d.queues := rfl
@[simp] theorem modSensor_sram (k : Nat) (f : Sensor → Sensor) (d : Die) : (modSensor k f d).sram = d.sram := rfl
@[simp] theorem modSensor_streams (k : Nat) (f : Sensor → Sensor) (d : Die) : (modSensor k f d).streams = d.streams := rfl
@[simp] theorem modSensor_dormant (k : Nat) (f : Sensor → Sensor) (d : Die) : (modSensor k f d).dormant = d.dormant := rfl
@[simp] theorem modSensor_hbm (k : Nat) (f : Sensor → Sensor) (d : Die) : (modSensor k f d).hbm = d.hbm := rfl
@[simp] theorem modSensor_fresh (k : Nat) (f : Sensor → Sensor) (d : Die) : (modSensor k f d).fresh = d.fresh := rfl
@[simp] theorem island_modSensor (k : Nat) (f : Sensor → Sensor) (i : Nat) (d : Die) : island (modSensor k f d) i = island d i := rfl
@[simp] theorem region_modSensor (k : Nat) (f : Sensor → Sensor) (i : Nat) (d : Die) : region (modSensor k f d) i = region d i := rfl
@[simp] theorem synth_modSensor (k : Nat) (f : Sensor → Sensor) (i x : Nat) (d : Die) : synth (modSensor k f d) i x = synth d i x := rfl
@[simp] theorem edgeEnd_modSensor (k : Nat) (f : Sensor → Sensor) (i : Nat) (d : Die) : edgeEnd (modSensor k f d) i = edgeEnd d i := rfl
@[simp] theorem lane_modSensor (k : Nat) (f : Sensor → Sensor) (i : Nat) (d : Die) : lane (modSensor k f d) i = lane d i := rfl
@[simp] theorem link_modSensor (k : Nat) (f : Sensor → Sensor) (i : Nat) (d : Die) : link (modSensor k f d) i = link d i := rfl
@[simp] theorem rail_modSensor (k : Nat) (f : Sensor → Sensor) (i : Nat) (d : Die) : rail (modSensor k f d) i = rail d i := rfl
@[simp] theorem watch_modSensor (k : Nat) (f : Sensor → Sensor) (i : Nat) (d : Die) : watch (modSensor k f d) i = watch d i := rfl
@[simp] theorem tenant_modSensor (k : Nat) (f : Sensor → Sensor) (i : Nat) (d : Die) : tenant (modSensor k f d) i = tenant d i := rfl
@[simp] theorem queue_modSensor (k : Nat) (f : Sensor → Sensor) (i : Nat) (d : Die) : queue (modSensor k f d) i = queue d i := rfl
@[simp] theorem context_modSensor (k : Nat) (f : Sensor → Sensor) (i : Nat) (d : Die) : context (modSensor k f d) i = context d i := rfl

/-! ## modWatch -/

@[simp] theorem modWatch_tally (k : Nat) (f : Watch → Watch) (d : Die) : (modWatch k f d).tally = d.tally := rfl
@[simp] theorem modWatch_clocks (k : Nat) (f : Watch → Watch) (d : Die) : (modWatch k f d).clocks = d.clocks := rfl
@[simp] theorem modWatch_startup (k : Nat) (f : Watch → Watch) (d : Die) : (modWatch k f d).startup = d.startup := rfl
@[simp] theorem modWatch_stop (k : Nat) (f : Watch → Watch) (d : Die) : (modWatch k f d).stop = d.stop := rfl
@[simp] theorem modWatch_regs (k : Nat) (f : Watch → Watch) (d : Die) : (modWatch k f d).regs = d.regs := rfl
@[simp] theorem modWatch_ledger (k : Nat) (f : Watch → Watch) (d : Die) : (modWatch k f d).ledger = d.ledger := rfl
@[simp] theorem modWatch_chandler (k : Nat) (f : Watch → Watch) (d : Die) : (modWatch k f d).chandler = d.chandler := rfl
@[simp] theorem modWatch_store (k : Nat) (f : Watch → Watch) (d : Die) : (modWatch k f d).store = d.store := rfl
@[simp] theorem modWatch_limits (k : Nat) (f : Watch → Watch) (d : Die) : (modWatch k f d).limits = d.limits := rfl
@[simp] theorem modWatch_islands (k : Nat) (f : Watch → Watch) (d : Die) : (modWatch k f d).islands = d.islands := rfl
@[simp] theorem modWatch_regions (k : Nat) (f : Watch → Watch) (d : Die) : (modWatch k f d).regions = d.regions := rfl
@[simp] theorem modWatch_synths (k : Nat) (f : Watch → Watch) (d : Die) : (modWatch k f d).synths = d.synths := rfl
@[simp] theorem modWatch_ends (k : Nat) (f : Watch → Watch) (d : Die) : (modWatch k f d).ends = d.ends := rfl
@[simp] theorem modWatch_lanes (k : Nat) (f : Watch → Watch) (d : Die) : (modWatch k f d).lanes = d.lanes := rfl
@[simp] theorem modWatch_links (k : Nat) (f : Watch → Watch) (d : Die) : (modWatch k f d).links = d.links := rfl
@[simp] theorem modWatch_rails (k : Nat) (f : Watch → Watch) (d : Die) : (modWatch k f d).rails = d.rails := rfl
@[simp] theorem modWatch_sensors (k : Nat) (f : Watch → Watch) (d : Die) : (modWatch k f d).sensors = d.sensors := rfl
@[simp] theorem modWatch_messages (k : Nat) (f : Watch → Watch) (d : Die) : (modWatch k f d).messages = d.messages := rfl
@[simp] theorem modWatch_delivered (k : Nat) (f : Watch → Watch) (d : Die) : (modWatch k f d).delivered = d.delivered := rfl
@[simp] theorem modWatch_contexts (k : Nat) (f : Watch → Watch) (d : Die) : (modWatch k f d).contexts = d.contexts := rfl
@[simp] theorem modWatch_commits (k : Nat) (f : Watch → Watch) (d : Die) : (modWatch k f d).commits = d.commits := rfl
@[simp] theorem modWatch_commitReqs (k : Nat) (f : Watch → Watch) (d : Die) : (modWatch k f d).commitReqs = d.commitReqs := rfl
@[simp] theorem modWatch_nextCommit (k : Nat) (f : Watch → Watch) (d : Die) : (modWatch k f d).nextCommit = d.nextCommit := rfl
@[simp] theorem modWatch_tenants (k : Nat) (f : Watch → Watch) (d : Die) : (modWatch k f d).tenants = d.tenants := rfl
@[simp] theorem modWatch_queues (k : Nat) (f : Watch → Watch) (d : Die) : (modWatch k f d).queues = d.queues := rfl
@[simp] theorem modWatch_sram (k : Nat) (f : Watch → Watch) (d : Die) : (modWatch k f d).sram = d.sram := rfl
@[simp] theorem modWatch_streams (k : Nat) (f : Watch → Watch) (d : Die) : (modWatch k f d).streams = d.streams := rfl
@[simp] theorem modWatch_dormant (k : Nat) (f : Watch → Watch) (d : Die) : (modWatch k f d).dormant = d.dormant := rfl
@[simp] theorem modWatch_hbm (k : Nat) (f : Watch → Watch) (d : Die) : (modWatch k f d).hbm = d.hbm := rfl
@[simp] theorem modWatch_fresh (k : Nat) (f : Watch → Watch) (d : Die) : (modWatch k f d).fresh = d.fresh := rfl
@[simp] theorem island_modWatch (k : Nat) (f : Watch → Watch) (i : Nat) (d : Die) : island (modWatch k f d) i = island d i := rfl
@[simp] theorem region_modWatch (k : Nat) (f : Watch → Watch) (i : Nat) (d : Die) : region (modWatch k f d) i = region d i := rfl
@[simp] theorem synth_modWatch (k : Nat) (f : Watch → Watch) (i x : Nat) (d : Die) : synth (modWatch k f d) i x = synth d i x := rfl
@[simp] theorem edgeEnd_modWatch (k : Nat) (f : Watch → Watch) (i : Nat) (d : Die) : edgeEnd (modWatch k f d) i = edgeEnd d i := rfl
@[simp] theorem lane_modWatch (k : Nat) (f : Watch → Watch) (i : Nat) (d : Die) : lane (modWatch k f d) i = lane d i := rfl
@[simp] theorem link_modWatch (k : Nat) (f : Watch → Watch) (i : Nat) (d : Die) : link (modWatch k f d) i = link d i := rfl
@[simp] theorem rail_modWatch (k : Nat) (f : Watch → Watch) (i : Nat) (d : Die) : rail (modWatch k f d) i = rail d i := rfl
@[simp] theorem sensor_modWatch (k : Nat) (f : Watch → Watch) (i : Nat) (d : Die) : sensor (modWatch k f d) i = sensor d i := rfl
@[simp] theorem tenant_modWatch (k : Nat) (f : Watch → Watch) (i : Nat) (d : Die) : tenant (modWatch k f d) i = tenant d i := rfl
@[simp] theorem queue_modWatch (k : Nat) (f : Watch → Watch) (i : Nat) (d : Die) : queue (modWatch k f d) i = queue d i := rfl
@[simp] theorem context_modWatch (k : Nat) (f : Watch → Watch) (i : Nat) (d : Die) : context (modWatch k f d) i = context d i := rfl

/-! ## modTenant -/

@[simp] theorem modTenant_tally (k : Nat) (f : Tenant → Tenant) (d : Die) : (modTenant k f d).tally = d.tally := rfl
@[simp] theorem modTenant_clocks (k : Nat) (f : Tenant → Tenant) (d : Die) : (modTenant k f d).clocks = d.clocks := rfl
@[simp] theorem modTenant_startup (k : Nat) (f : Tenant → Tenant) (d : Die) : (modTenant k f d).startup = d.startup := rfl
@[simp] theorem modTenant_stop (k : Nat) (f : Tenant → Tenant) (d : Die) : (modTenant k f d).stop = d.stop := rfl
@[simp] theorem modTenant_regs (k : Nat) (f : Tenant → Tenant) (d : Die) : (modTenant k f d).regs = d.regs := rfl
@[simp] theorem modTenant_ledger (k : Nat) (f : Tenant → Tenant) (d : Die) : (modTenant k f d).ledger = d.ledger := rfl
@[simp] theorem modTenant_chandler (k : Nat) (f : Tenant → Tenant) (d : Die) : (modTenant k f d).chandler = d.chandler := rfl
@[simp] theorem modTenant_store (k : Nat) (f : Tenant → Tenant) (d : Die) : (modTenant k f d).store = d.store := rfl
@[simp] theorem modTenant_limits (k : Nat) (f : Tenant → Tenant) (d : Die) : (modTenant k f d).limits = d.limits := rfl
@[simp] theorem modTenant_islands (k : Nat) (f : Tenant → Tenant) (d : Die) : (modTenant k f d).islands = d.islands := rfl
@[simp] theorem modTenant_regions (k : Nat) (f : Tenant → Tenant) (d : Die) : (modTenant k f d).regions = d.regions := rfl
@[simp] theorem modTenant_synths (k : Nat) (f : Tenant → Tenant) (d : Die) : (modTenant k f d).synths = d.synths := rfl
@[simp] theorem modTenant_ends (k : Nat) (f : Tenant → Tenant) (d : Die) : (modTenant k f d).ends = d.ends := rfl
@[simp] theorem modTenant_lanes (k : Nat) (f : Tenant → Tenant) (d : Die) : (modTenant k f d).lanes = d.lanes := rfl
@[simp] theorem modTenant_links (k : Nat) (f : Tenant → Tenant) (d : Die) : (modTenant k f d).links = d.links := rfl
@[simp] theorem modTenant_rails (k : Nat) (f : Tenant → Tenant) (d : Die) : (modTenant k f d).rails = d.rails := rfl
@[simp] theorem modTenant_sensors (k : Nat) (f : Tenant → Tenant) (d : Die) : (modTenant k f d).sensors = d.sensors := rfl
@[simp] theorem modTenant_watches (k : Nat) (f : Tenant → Tenant) (d : Die) : (modTenant k f d).watches = d.watches := rfl
@[simp] theorem modTenant_messages (k : Nat) (f : Tenant → Tenant) (d : Die) : (modTenant k f d).messages = d.messages := rfl
@[simp] theorem modTenant_delivered (k : Nat) (f : Tenant → Tenant) (d : Die) : (modTenant k f d).delivered = d.delivered := rfl
@[simp] theorem modTenant_contexts (k : Nat) (f : Tenant → Tenant) (d : Die) : (modTenant k f d).contexts = d.contexts := rfl
@[simp] theorem modTenant_commits (k : Nat) (f : Tenant → Tenant) (d : Die) : (modTenant k f d).commits = d.commits := rfl
@[simp] theorem modTenant_commitReqs (k : Nat) (f : Tenant → Tenant) (d : Die) : (modTenant k f d).commitReqs = d.commitReqs := rfl
@[simp] theorem modTenant_nextCommit (k : Nat) (f : Tenant → Tenant) (d : Die) : (modTenant k f d).nextCommit = d.nextCommit := rfl
@[simp] theorem modTenant_queues (k : Nat) (f : Tenant → Tenant) (d : Die) : (modTenant k f d).queues = d.queues := rfl
@[simp] theorem modTenant_sram (k : Nat) (f : Tenant → Tenant) (d : Die) : (modTenant k f d).sram = d.sram := rfl
@[simp] theorem modTenant_streams (k : Nat) (f : Tenant → Tenant) (d : Die) : (modTenant k f d).streams = d.streams := rfl
@[simp] theorem modTenant_dormant (k : Nat) (f : Tenant → Tenant) (d : Die) : (modTenant k f d).dormant = d.dormant := rfl
@[simp] theorem modTenant_hbm (k : Nat) (f : Tenant → Tenant) (d : Die) : (modTenant k f d).hbm = d.hbm := rfl
@[simp] theorem modTenant_fresh (k : Nat) (f : Tenant → Tenant) (d : Die) : (modTenant k f d).fresh = d.fresh := rfl
@[simp] theorem island_modTenant (k : Nat) (f : Tenant → Tenant) (i : Nat) (d : Die) : island (modTenant k f d) i = island d i := rfl
@[simp] theorem region_modTenant (k : Nat) (f : Tenant → Tenant) (i : Nat) (d : Die) : region (modTenant k f d) i = region d i := rfl
@[simp] theorem synth_modTenant (k : Nat) (f : Tenant → Tenant) (i x : Nat) (d : Die) : synth (modTenant k f d) i x = synth d i x := rfl
@[simp] theorem edgeEnd_modTenant (k : Nat) (f : Tenant → Tenant) (i : Nat) (d : Die) : edgeEnd (modTenant k f d) i = edgeEnd d i := rfl
@[simp] theorem lane_modTenant (k : Nat) (f : Tenant → Tenant) (i : Nat) (d : Die) : lane (modTenant k f d) i = lane d i := rfl
@[simp] theorem link_modTenant (k : Nat) (f : Tenant → Tenant) (i : Nat) (d : Die) : link (modTenant k f d) i = link d i := rfl
@[simp] theorem rail_modTenant (k : Nat) (f : Tenant → Tenant) (i : Nat) (d : Die) : rail (modTenant k f d) i = rail d i := rfl
@[simp] theorem sensor_modTenant (k : Nat) (f : Tenant → Tenant) (i : Nat) (d : Die) : sensor (modTenant k f d) i = sensor d i := rfl
@[simp] theorem watch_modTenant (k : Nat) (f : Tenant → Tenant) (i : Nat) (d : Die) : watch (modTenant k f d) i = watch d i := rfl
@[simp] theorem queue_modTenant (k : Nat) (f : Tenant → Tenant) (i : Nat) (d : Die) : queue (modTenant k f d) i = queue d i := rfl
@[simp] theorem context_modTenant (k : Nat) (f : Tenant → Tenant) (i : Nat) (d : Die) : context (modTenant k f d) i = context d i := rfl

/-! ## modQueue -/

@[simp] theorem modQueue_tally (k : Nat) (f : Queue → Queue) (d : Die) : (modQueue k f d).tally = d.tally := rfl
@[simp] theorem modQueue_clocks (k : Nat) (f : Queue → Queue) (d : Die) : (modQueue k f d).clocks = d.clocks := rfl
@[simp] theorem modQueue_startup (k : Nat) (f : Queue → Queue) (d : Die) : (modQueue k f d).startup = d.startup := rfl
@[simp] theorem modQueue_stop (k : Nat) (f : Queue → Queue) (d : Die) : (modQueue k f d).stop = d.stop := rfl
@[simp] theorem modQueue_regs (k : Nat) (f : Queue → Queue) (d : Die) : (modQueue k f d).regs = d.regs := rfl
@[simp] theorem modQueue_ledger (k : Nat) (f : Queue → Queue) (d : Die) : (modQueue k f d).ledger = d.ledger := rfl
@[simp] theorem modQueue_chandler (k : Nat) (f : Queue → Queue) (d : Die) : (modQueue k f d).chandler = d.chandler := rfl
@[simp] theorem modQueue_store (k : Nat) (f : Queue → Queue) (d : Die) : (modQueue k f d).store = d.store := rfl
@[simp] theorem modQueue_limits (k : Nat) (f : Queue → Queue) (d : Die) : (modQueue k f d).limits = d.limits := rfl
@[simp] theorem modQueue_islands (k : Nat) (f : Queue → Queue) (d : Die) : (modQueue k f d).islands = d.islands := rfl
@[simp] theorem modQueue_regions (k : Nat) (f : Queue → Queue) (d : Die) : (modQueue k f d).regions = d.regions := rfl
@[simp] theorem modQueue_synths (k : Nat) (f : Queue → Queue) (d : Die) : (modQueue k f d).synths = d.synths := rfl
@[simp] theorem modQueue_ends (k : Nat) (f : Queue → Queue) (d : Die) : (modQueue k f d).ends = d.ends := rfl
@[simp] theorem modQueue_lanes (k : Nat) (f : Queue → Queue) (d : Die) : (modQueue k f d).lanes = d.lanes := rfl
@[simp] theorem modQueue_links (k : Nat) (f : Queue → Queue) (d : Die) : (modQueue k f d).links = d.links := rfl
@[simp] theorem modQueue_rails (k : Nat) (f : Queue → Queue) (d : Die) : (modQueue k f d).rails = d.rails := rfl
@[simp] theorem modQueue_sensors (k : Nat) (f : Queue → Queue) (d : Die) : (modQueue k f d).sensors = d.sensors := rfl
@[simp] theorem modQueue_watches (k : Nat) (f : Queue → Queue) (d : Die) : (modQueue k f d).watches = d.watches := rfl
@[simp] theorem modQueue_messages (k : Nat) (f : Queue → Queue) (d : Die) : (modQueue k f d).messages = d.messages := rfl
@[simp] theorem modQueue_delivered (k : Nat) (f : Queue → Queue) (d : Die) : (modQueue k f d).delivered = d.delivered := rfl
@[simp] theorem modQueue_contexts (k : Nat) (f : Queue → Queue) (d : Die) : (modQueue k f d).contexts = d.contexts := rfl
@[simp] theorem modQueue_commits (k : Nat) (f : Queue → Queue) (d : Die) : (modQueue k f d).commits = d.commits := rfl
@[simp] theorem modQueue_commitReqs (k : Nat) (f : Queue → Queue) (d : Die) : (modQueue k f d).commitReqs = d.commitReqs := rfl
@[simp] theorem modQueue_nextCommit (k : Nat) (f : Queue → Queue) (d : Die) : (modQueue k f d).nextCommit = d.nextCommit := rfl
@[simp] theorem modQueue_tenants (k : Nat) (f : Queue → Queue) (d : Die) : (modQueue k f d).tenants = d.tenants := rfl
@[simp] theorem modQueue_sram (k : Nat) (f : Queue → Queue) (d : Die) : (modQueue k f d).sram = d.sram := rfl
@[simp] theorem modQueue_streams (k : Nat) (f : Queue → Queue) (d : Die) : (modQueue k f d).streams = d.streams := rfl
@[simp] theorem modQueue_dormant (k : Nat) (f : Queue → Queue) (d : Die) : (modQueue k f d).dormant = d.dormant := rfl
@[simp] theorem modQueue_hbm (k : Nat) (f : Queue → Queue) (d : Die) : (modQueue k f d).hbm = d.hbm := rfl
@[simp] theorem modQueue_fresh (k : Nat) (f : Queue → Queue) (d : Die) : (modQueue k f d).fresh = d.fresh := rfl
@[simp] theorem island_modQueue (k : Nat) (f : Queue → Queue) (i : Nat) (d : Die) : island (modQueue k f d) i = island d i := rfl
@[simp] theorem region_modQueue (k : Nat) (f : Queue → Queue) (i : Nat) (d : Die) : region (modQueue k f d) i = region d i := rfl
@[simp] theorem synth_modQueue (k : Nat) (f : Queue → Queue) (i x : Nat) (d : Die) : synth (modQueue k f d) i x = synth d i x := rfl
@[simp] theorem edgeEnd_modQueue (k : Nat) (f : Queue → Queue) (i : Nat) (d : Die) : edgeEnd (modQueue k f d) i = edgeEnd d i := rfl
@[simp] theorem lane_modQueue (k : Nat) (f : Queue → Queue) (i : Nat) (d : Die) : lane (modQueue k f d) i = lane d i := rfl
@[simp] theorem link_modQueue (k : Nat) (f : Queue → Queue) (i : Nat) (d : Die) : link (modQueue k f d) i = link d i := rfl
@[simp] theorem rail_modQueue (k : Nat) (f : Queue → Queue) (i : Nat) (d : Die) : rail (modQueue k f d) i = rail d i := rfl
@[simp] theorem sensor_modQueue (k : Nat) (f : Queue → Queue) (i : Nat) (d : Die) : sensor (modQueue k f d) i = sensor d i := rfl
@[simp] theorem watch_modQueue (k : Nat) (f : Queue → Queue) (i : Nat) (d : Die) : watch (modQueue k f d) i = watch d i := rfl
@[simp] theorem tenant_modQueue (k : Nat) (f : Queue → Queue) (i : Nat) (d : Die) : tenant (modQueue k f d) i = tenant d i := rfl
@[simp] theorem context_modQueue (k : Nat) (f : Queue → Queue) (i : Nat) (d : Die) : context (modQueue k f d) i = context d i := rfl

/-! ## setContext -/

@[simp] theorem setContext_tally (k : Nat) (v : Option Context) (d : Die) : (setContext k v d).tally = d.tally := rfl
@[simp] theorem setContext_clocks (k : Nat) (v : Option Context) (d : Die) : (setContext k v d).clocks = d.clocks := rfl
@[simp] theorem setContext_startup (k : Nat) (v : Option Context) (d : Die) : (setContext k v d).startup = d.startup := rfl
@[simp] theorem setContext_stop (k : Nat) (v : Option Context) (d : Die) : (setContext k v d).stop = d.stop := rfl
@[simp] theorem setContext_regs (k : Nat) (v : Option Context) (d : Die) : (setContext k v d).regs = d.regs := rfl
@[simp] theorem setContext_ledger (k : Nat) (v : Option Context) (d : Die) : (setContext k v d).ledger = d.ledger := rfl
@[simp] theorem setContext_chandler (k : Nat) (v : Option Context) (d : Die) : (setContext k v d).chandler = d.chandler := rfl
@[simp] theorem setContext_store (k : Nat) (v : Option Context) (d : Die) : (setContext k v d).store = d.store := rfl
@[simp] theorem setContext_limits (k : Nat) (v : Option Context) (d : Die) : (setContext k v d).limits = d.limits := rfl
@[simp] theorem setContext_islands (k : Nat) (v : Option Context) (d : Die) : (setContext k v d).islands = d.islands := rfl
@[simp] theorem setContext_regions (k : Nat) (v : Option Context) (d : Die) : (setContext k v d).regions = d.regions := rfl
@[simp] theorem setContext_synths (k : Nat) (v : Option Context) (d : Die) : (setContext k v d).synths = d.synths := rfl
@[simp] theorem setContext_ends (k : Nat) (v : Option Context) (d : Die) : (setContext k v d).ends = d.ends := rfl
@[simp] theorem setContext_lanes (k : Nat) (v : Option Context) (d : Die) : (setContext k v d).lanes = d.lanes := rfl
@[simp] theorem setContext_links (k : Nat) (v : Option Context) (d : Die) : (setContext k v d).links = d.links := rfl
@[simp] theorem setContext_rails (k : Nat) (v : Option Context) (d : Die) : (setContext k v d).rails = d.rails := rfl
@[simp] theorem setContext_sensors (k : Nat) (v : Option Context) (d : Die) : (setContext k v d).sensors = d.sensors := rfl
@[simp] theorem setContext_watches (k : Nat) (v : Option Context) (d : Die) : (setContext k v d).watches = d.watches := rfl
@[simp] theorem setContext_messages (k : Nat) (v : Option Context) (d : Die) : (setContext k v d).messages = d.messages := rfl
@[simp] theorem setContext_delivered (k : Nat) (v : Option Context) (d : Die) : (setContext k v d).delivered = d.delivered := rfl
@[simp] theorem setContext_commits (k : Nat) (v : Option Context) (d : Die) : (setContext k v d).commits = d.commits := rfl
@[simp] theorem setContext_commitReqs (k : Nat) (v : Option Context) (d : Die) : (setContext k v d).commitReqs = d.commitReqs := rfl
@[simp] theorem setContext_nextCommit (k : Nat) (v : Option Context) (d : Die) : (setContext k v d).nextCommit = d.nextCommit := rfl
@[simp] theorem setContext_tenants (k : Nat) (v : Option Context) (d : Die) : (setContext k v d).tenants = d.tenants := rfl
@[simp] theorem setContext_queues (k : Nat) (v : Option Context) (d : Die) : (setContext k v d).queues = d.queues := rfl
@[simp] theorem setContext_sram (k : Nat) (v : Option Context) (d : Die) : (setContext k v d).sram = d.sram := rfl
@[simp] theorem setContext_streams (k : Nat) (v : Option Context) (d : Die) : (setContext k v d).streams = d.streams := rfl
@[simp] theorem setContext_dormant (k : Nat) (v : Option Context) (d : Die) : (setContext k v d).dormant = d.dormant := rfl
@[simp] theorem setContext_hbm (k : Nat) (v : Option Context) (d : Die) : (setContext k v d).hbm = d.hbm := rfl
@[simp] theorem setContext_fresh (k : Nat) (v : Option Context) (d : Die) : (setContext k v d).fresh = d.fresh := rfl
@[simp] theorem island_setContext (k : Nat) (v : Option Context) (i : Nat) (d : Die) : island (setContext k v d) i = island d i := rfl
@[simp] theorem region_setContext (k : Nat) (v : Option Context) (i : Nat) (d : Die) : region (setContext k v d) i = region d i := rfl
@[simp] theorem synth_setContext (k : Nat) (v : Option Context) (i x : Nat) (d : Die) : synth (setContext k v d) i x = synth d i x := rfl
@[simp] theorem edgeEnd_setContext (k : Nat) (v : Option Context) (i : Nat) (d : Die) : edgeEnd (setContext k v d) i = edgeEnd d i := rfl
@[simp] theorem lane_setContext (k : Nat) (v : Option Context) (i : Nat) (d : Die) : lane (setContext k v d) i = lane d i := rfl
@[simp] theorem link_setContext (k : Nat) (v : Option Context) (i : Nat) (d : Die) : link (setContext k v d) i = link d i := rfl
@[simp] theorem rail_setContext (k : Nat) (v : Option Context) (i : Nat) (d : Die) : rail (setContext k v d) i = rail d i := rfl
@[simp] theorem sensor_setContext (k : Nat) (v : Option Context) (i : Nat) (d : Die) : sensor (setContext k v d) i = sensor d i := rfl
@[simp] theorem watch_setContext (k : Nat) (v : Option Context) (i : Nat) (d : Die) : watch (setContext k v d) i = watch d i := rfl
@[simp] theorem tenant_setContext (k : Nat) (v : Option Context) (i : Nat) (d : Die) : tenant (setContext k v d) i = tenant d i := rfl
@[simp] theorem queue_setContext (k : Nat) (v : Option Context) (i : Nat) (d : Die) : queue (setContext k v d) i = queue d i := rfl

/-! ## modContext -/

@[simp] theorem modContext_tally (k : Nat) (f : Context → Context) (d : Die) : (modContext k f d).tally = d.tally := rfl
@[simp] theorem modContext_clocks (k : Nat) (f : Context → Context) (d : Die) : (modContext k f d).clocks = d.clocks := rfl
@[simp] theorem modContext_startup (k : Nat) (f : Context → Context) (d : Die) : (modContext k f d).startup = d.startup := rfl
@[simp] theorem modContext_stop (k : Nat) (f : Context → Context) (d : Die) : (modContext k f d).stop = d.stop := rfl
@[simp] theorem modContext_regs (k : Nat) (f : Context → Context) (d : Die) : (modContext k f d).regs = d.regs := rfl
@[simp] theorem modContext_ledger (k : Nat) (f : Context → Context) (d : Die) : (modContext k f d).ledger = d.ledger := rfl
@[simp] theorem modContext_chandler (k : Nat) (f : Context → Context) (d : Die) : (modContext k f d).chandler = d.chandler := rfl
@[simp] theorem modContext_store (k : Nat) (f : Context → Context) (d : Die) : (modContext k f d).store = d.store := rfl
@[simp] theorem modContext_limits (k : Nat) (f : Context → Context) (d : Die) : (modContext k f d).limits = d.limits := rfl
@[simp] theorem modContext_islands (k : Nat) (f : Context → Context) (d : Die) : (modContext k f d).islands = d.islands := rfl
@[simp] theorem modContext_regions (k : Nat) (f : Context → Context) (d : Die) : (modContext k f d).regions = d.regions := rfl
@[simp] theorem modContext_synths (k : Nat) (f : Context → Context) (d : Die) : (modContext k f d).synths = d.synths := rfl
@[simp] theorem modContext_ends (k : Nat) (f : Context → Context) (d : Die) : (modContext k f d).ends = d.ends := rfl
@[simp] theorem modContext_lanes (k : Nat) (f : Context → Context) (d : Die) : (modContext k f d).lanes = d.lanes := rfl
@[simp] theorem modContext_links (k : Nat) (f : Context → Context) (d : Die) : (modContext k f d).links = d.links := rfl
@[simp] theorem modContext_rails (k : Nat) (f : Context → Context) (d : Die) : (modContext k f d).rails = d.rails := rfl
@[simp] theorem modContext_sensors (k : Nat) (f : Context → Context) (d : Die) : (modContext k f d).sensors = d.sensors := rfl
@[simp] theorem modContext_watches (k : Nat) (f : Context → Context) (d : Die) : (modContext k f d).watches = d.watches := rfl
@[simp] theorem modContext_messages (k : Nat) (f : Context → Context) (d : Die) : (modContext k f d).messages = d.messages := rfl
@[simp] theorem modContext_delivered (k : Nat) (f : Context → Context) (d : Die) : (modContext k f d).delivered = d.delivered := rfl
@[simp] theorem modContext_commits (k : Nat) (f : Context → Context) (d : Die) : (modContext k f d).commits = d.commits := rfl
@[simp] theorem modContext_commitReqs (k : Nat) (f : Context → Context) (d : Die) : (modContext k f d).commitReqs = d.commitReqs := rfl
@[simp] theorem modContext_nextCommit (k : Nat) (f : Context → Context) (d : Die) : (modContext k f d).nextCommit = d.nextCommit := rfl
@[simp] theorem modContext_tenants (k : Nat) (f : Context → Context) (d : Die) : (modContext k f d).tenants = d.tenants := rfl
@[simp] theorem modContext_queues (k : Nat) (f : Context → Context) (d : Die) : (modContext k f d).queues = d.queues := rfl
@[simp] theorem modContext_sram (k : Nat) (f : Context → Context) (d : Die) : (modContext k f d).sram = d.sram := rfl
@[simp] theorem modContext_streams (k : Nat) (f : Context → Context) (d : Die) : (modContext k f d).streams = d.streams := rfl
@[simp] theorem modContext_dormant (k : Nat) (f : Context → Context) (d : Die) : (modContext k f d).dormant = d.dormant := rfl
@[simp] theorem modContext_hbm (k : Nat) (f : Context → Context) (d : Die) : (modContext k f d).hbm = d.hbm := rfl
@[simp] theorem modContext_fresh (k : Nat) (f : Context → Context) (d : Die) : (modContext k f d).fresh = d.fresh := rfl
@[simp] theorem island_modContext (k : Nat) (f : Context → Context) (i : Nat) (d : Die) : island (modContext k f d) i = island d i := rfl
@[simp] theorem region_modContext (k : Nat) (f : Context → Context) (i : Nat) (d : Die) : region (modContext k f d) i = region d i := rfl
@[simp] theorem synth_modContext (k : Nat) (f : Context → Context) (i x : Nat) (d : Die) : synth (modContext k f d) i x = synth d i x := rfl
@[simp] theorem edgeEnd_modContext (k : Nat) (f : Context → Context) (i : Nat) (d : Die) : edgeEnd (modContext k f d) i = edgeEnd d i := rfl
@[simp] theorem lane_modContext (k : Nat) (f : Context → Context) (i : Nat) (d : Die) : lane (modContext k f d) i = lane d i := rfl
@[simp] theorem link_modContext (k : Nat) (f : Context → Context) (i : Nat) (d : Die) : link (modContext k f d) i = link d i := rfl
@[simp] theorem rail_modContext (k : Nat) (f : Context → Context) (i : Nat) (d : Die) : rail (modContext k f d) i = rail d i := rfl
@[simp] theorem sensor_modContext (k : Nat) (f : Context → Context) (i : Nat) (d : Die) : sensor (modContext k f d) i = sensor d i := rfl
@[simp] theorem watch_modContext (k : Nat) (f : Context → Context) (i : Nat) (d : Die) : watch (modContext k f d) i = watch d i := rfl
@[simp] theorem tenant_modContext (k : Nat) (f : Context → Context) (i : Nat) (d : Die) : tenant (modContext k f d) i = tenant d i := rfl
@[simp] theorem queue_modContext (k : Nat) (f : Context → Context) (i : Nat) (d : Die) : queue (modContext k f d) i = queue d i := rfl

/-! ## sramWrite -/

@[simp] theorem sramWrite_tally (a : Nat) (b : Bytes) (d : Die) : (sramWrite a b d).tally = d.tally := rfl
@[simp] theorem sramWrite_clocks (a : Nat) (b : Bytes) (d : Die) : (sramWrite a b d).clocks = d.clocks := rfl
@[simp] theorem sramWrite_startup (a : Nat) (b : Bytes) (d : Die) : (sramWrite a b d).startup = d.startup := rfl
@[simp] theorem sramWrite_stop (a : Nat) (b : Bytes) (d : Die) : (sramWrite a b d).stop = d.stop := rfl
@[simp] theorem sramWrite_regs (a : Nat) (b : Bytes) (d : Die) : (sramWrite a b d).regs = d.regs := rfl
@[simp] theorem sramWrite_ledger (a : Nat) (b : Bytes) (d : Die) : (sramWrite a b d).ledger = d.ledger := rfl
@[simp] theorem sramWrite_chandler (a : Nat) (b : Bytes) (d : Die) : (sramWrite a b d).chandler = d.chandler := rfl
@[simp] theorem sramWrite_store (a : Nat) (b : Bytes) (d : Die) : (sramWrite a b d).store = d.store := rfl
@[simp] theorem sramWrite_limits (a : Nat) (b : Bytes) (d : Die) : (sramWrite a b d).limits = d.limits := rfl
@[simp] theorem sramWrite_islands (a : Nat) (b : Bytes) (d : Die) : (sramWrite a b d).islands = d.islands := rfl
@[simp] theorem sramWrite_regions (a : Nat) (b : Bytes) (d : Die) : (sramWrite a b d).regions = d.regions := rfl
@[simp] theorem sramWrite_synths (a : Nat) (b : Bytes) (d : Die) : (sramWrite a b d).synths = d.synths := rfl
@[simp] theorem sramWrite_ends (a : Nat) (b : Bytes) (d : Die) : (sramWrite a b d).ends = d.ends := rfl
@[simp] theorem sramWrite_lanes (a : Nat) (b : Bytes) (d : Die) : (sramWrite a b d).lanes = d.lanes := rfl
@[simp] theorem sramWrite_links (a : Nat) (b : Bytes) (d : Die) : (sramWrite a b d).links = d.links := rfl
@[simp] theorem sramWrite_rails (a : Nat) (b : Bytes) (d : Die) : (sramWrite a b d).rails = d.rails := rfl
@[simp] theorem sramWrite_sensors (a : Nat) (b : Bytes) (d : Die) : (sramWrite a b d).sensors = d.sensors := rfl
@[simp] theorem sramWrite_watches (a : Nat) (b : Bytes) (d : Die) : (sramWrite a b d).watches = d.watches := rfl
@[simp] theorem sramWrite_messages (a : Nat) (b : Bytes) (d : Die) : (sramWrite a b d).messages = d.messages := rfl
@[simp] theorem sramWrite_delivered (a : Nat) (b : Bytes) (d : Die) : (sramWrite a b d).delivered = d.delivered := rfl
@[simp] theorem sramWrite_contexts (a : Nat) (b : Bytes) (d : Die) : (sramWrite a b d).contexts = d.contexts := rfl
@[simp] theorem sramWrite_commits (a : Nat) (b : Bytes) (d : Die) : (sramWrite a b d).commits = d.commits := rfl
@[simp] theorem sramWrite_commitReqs (a : Nat) (b : Bytes) (d : Die) : (sramWrite a b d).commitReqs = d.commitReqs := rfl
@[simp] theorem sramWrite_nextCommit (a : Nat) (b : Bytes) (d : Die) : (sramWrite a b d).nextCommit = d.nextCommit := rfl
@[simp] theorem sramWrite_tenants (a : Nat) (b : Bytes) (d : Die) : (sramWrite a b d).tenants = d.tenants := rfl
@[simp] theorem sramWrite_queues (a : Nat) (b : Bytes) (d : Die) : (sramWrite a b d).queues = d.queues := rfl
@[simp] theorem sramWrite_streams (a : Nat) (b : Bytes) (d : Die) : (sramWrite a b d).streams = d.streams := rfl
@[simp] theorem sramWrite_dormant (a : Nat) (b : Bytes) (d : Die) : (sramWrite a b d).dormant = d.dormant := rfl
@[simp] theorem sramWrite_hbm (a : Nat) (b : Bytes) (d : Die) : (sramWrite a b d).hbm = d.hbm := rfl
@[simp] theorem sramWrite_fresh (a : Nat) (b : Bytes) (d : Die) : (sramWrite a b d).fresh = d.fresh := rfl
@[simp] theorem island_sramWrite (a : Nat) (b : Bytes) (i : Nat) (d : Die) : island (sramWrite a b d) i = island d i := rfl
@[simp] theorem region_sramWrite (a : Nat) (b : Bytes) (i : Nat) (d : Die) : region (sramWrite a b d) i = region d i := rfl
@[simp] theorem synth_sramWrite (a : Nat) (b : Bytes) (i x : Nat) (d : Die) : synth (sramWrite a b d) i x = synth d i x := rfl
@[simp] theorem edgeEnd_sramWrite (a : Nat) (b : Bytes) (i : Nat) (d : Die) : edgeEnd (sramWrite a b d) i = edgeEnd d i := rfl
@[simp] theorem lane_sramWrite (a : Nat) (b : Bytes) (i : Nat) (d : Die) : lane (sramWrite a b d) i = lane d i := rfl
@[simp] theorem link_sramWrite (a : Nat) (b : Bytes) (i : Nat) (d : Die) : link (sramWrite a b d) i = link d i := rfl
@[simp] theorem rail_sramWrite (a : Nat) (b : Bytes) (i : Nat) (d : Die) : rail (sramWrite a b d) i = rail d i := rfl
@[simp] theorem sensor_sramWrite (a : Nat) (b : Bytes) (i : Nat) (d : Die) : sensor (sramWrite a b d) i = sensor d i := rfl
@[simp] theorem watch_sramWrite (a : Nat) (b : Bytes) (i : Nat) (d : Die) : watch (sramWrite a b d) i = watch d i := rfl
@[simp] theorem tenant_sramWrite (a : Nat) (b : Bytes) (i : Nat) (d : Die) : tenant (sramWrite a b d) i = tenant d i := rfl
@[simp] theorem queue_sramWrite (a : Nat) (b : Bytes) (i : Nat) (d : Die) : queue (sramWrite a b d) i = queue d i := rfl
@[simp] theorem context_sramWrite (a : Nat) (b : Bytes) (i : Nat) (d : Die) : context (sramWrite a b d) i = context d i := rfl

/-! ## streamWrite -/

@[simp] theorem streamWrite_tally (a : Nat) (b : Bytes) (d : Die) : (streamWrite a b d).tally = d.tally := rfl
@[simp] theorem streamWrite_clocks (a : Nat) (b : Bytes) (d : Die) : (streamWrite a b d).clocks = d.clocks := rfl
@[simp] theorem streamWrite_startup (a : Nat) (b : Bytes) (d : Die) : (streamWrite a b d).startup = d.startup := rfl
@[simp] theorem streamWrite_stop (a : Nat) (b : Bytes) (d : Die) : (streamWrite a b d).stop = d.stop := rfl
@[simp] theorem streamWrite_regs (a : Nat) (b : Bytes) (d : Die) : (streamWrite a b d).regs = d.regs := rfl
@[simp] theorem streamWrite_ledger (a : Nat) (b : Bytes) (d : Die) : (streamWrite a b d).ledger = d.ledger := rfl
@[simp] theorem streamWrite_chandler (a : Nat) (b : Bytes) (d : Die) : (streamWrite a b d).chandler = d.chandler := rfl
@[simp] theorem streamWrite_store (a : Nat) (b : Bytes) (d : Die) : (streamWrite a b d).store = d.store := rfl
@[simp] theorem streamWrite_limits (a : Nat) (b : Bytes) (d : Die) : (streamWrite a b d).limits = d.limits := rfl
@[simp] theorem streamWrite_islands (a : Nat) (b : Bytes) (d : Die) : (streamWrite a b d).islands = d.islands := rfl
@[simp] theorem streamWrite_regions (a : Nat) (b : Bytes) (d : Die) : (streamWrite a b d).regions = d.regions := rfl
@[simp] theorem streamWrite_synths (a : Nat) (b : Bytes) (d : Die) : (streamWrite a b d).synths = d.synths := rfl
@[simp] theorem streamWrite_ends (a : Nat) (b : Bytes) (d : Die) : (streamWrite a b d).ends = d.ends := rfl
@[simp] theorem streamWrite_lanes (a : Nat) (b : Bytes) (d : Die) : (streamWrite a b d).lanes = d.lanes := rfl
@[simp] theorem streamWrite_links (a : Nat) (b : Bytes) (d : Die) : (streamWrite a b d).links = d.links := rfl
@[simp] theorem streamWrite_rails (a : Nat) (b : Bytes) (d : Die) : (streamWrite a b d).rails = d.rails := rfl
@[simp] theorem streamWrite_sensors (a : Nat) (b : Bytes) (d : Die) : (streamWrite a b d).sensors = d.sensors := rfl
@[simp] theorem streamWrite_watches (a : Nat) (b : Bytes) (d : Die) : (streamWrite a b d).watches = d.watches := rfl
@[simp] theorem streamWrite_messages (a : Nat) (b : Bytes) (d : Die) : (streamWrite a b d).messages = d.messages := rfl
@[simp] theorem streamWrite_delivered (a : Nat) (b : Bytes) (d : Die) : (streamWrite a b d).delivered = d.delivered := rfl
@[simp] theorem streamWrite_contexts (a : Nat) (b : Bytes) (d : Die) : (streamWrite a b d).contexts = d.contexts := rfl
@[simp] theorem streamWrite_commits (a : Nat) (b : Bytes) (d : Die) : (streamWrite a b d).commits = d.commits := rfl
@[simp] theorem streamWrite_commitReqs (a : Nat) (b : Bytes) (d : Die) : (streamWrite a b d).commitReqs = d.commitReqs := rfl
@[simp] theorem streamWrite_nextCommit (a : Nat) (b : Bytes) (d : Die) : (streamWrite a b d).nextCommit = d.nextCommit := rfl
@[simp] theorem streamWrite_tenants (a : Nat) (b : Bytes) (d : Die) : (streamWrite a b d).tenants = d.tenants := rfl
@[simp] theorem streamWrite_queues (a : Nat) (b : Bytes) (d : Die) : (streamWrite a b d).queues = d.queues := rfl
@[simp] theorem streamWrite_sram (a : Nat) (b : Bytes) (d : Die) : (streamWrite a b d).sram = d.sram := rfl
@[simp] theorem streamWrite_dormant (a : Nat) (b : Bytes) (d : Die) : (streamWrite a b d).dormant = d.dormant := rfl
@[simp] theorem streamWrite_hbm (a : Nat) (b : Bytes) (d : Die) : (streamWrite a b d).hbm = d.hbm := rfl
@[simp] theorem streamWrite_fresh (a : Nat) (b : Bytes) (d : Die) : (streamWrite a b d).fresh = d.fresh := rfl
@[simp] theorem island_streamWrite (a : Nat) (b : Bytes) (i : Nat) (d : Die) : island (streamWrite a b d) i = island d i := rfl
@[simp] theorem region_streamWrite (a : Nat) (b : Bytes) (i : Nat) (d : Die) : region (streamWrite a b d) i = region d i := rfl
@[simp] theorem synth_streamWrite (a : Nat) (b : Bytes) (i x : Nat) (d : Die) : synth (streamWrite a b d) i x = synth d i x := rfl
@[simp] theorem edgeEnd_streamWrite (a : Nat) (b : Bytes) (i : Nat) (d : Die) : edgeEnd (streamWrite a b d) i = edgeEnd d i := rfl
@[simp] theorem lane_streamWrite (a : Nat) (b : Bytes) (i : Nat) (d : Die) : lane (streamWrite a b d) i = lane d i := rfl
@[simp] theorem link_streamWrite (a : Nat) (b : Bytes) (i : Nat) (d : Die) : link (streamWrite a b d) i = link d i := rfl
@[simp] theorem rail_streamWrite (a : Nat) (b : Bytes) (i : Nat) (d : Die) : rail (streamWrite a b d) i = rail d i := rfl
@[simp] theorem sensor_streamWrite (a : Nat) (b : Bytes) (i : Nat) (d : Die) : sensor (streamWrite a b d) i = sensor d i := rfl
@[simp] theorem watch_streamWrite (a : Nat) (b : Bytes) (i : Nat) (d : Die) : watch (streamWrite a b d) i = watch d i := rfl
@[simp] theorem tenant_streamWrite (a : Nat) (b : Bytes) (i : Nat) (d : Die) : tenant (streamWrite a b d) i = tenant d i := rfl
@[simp] theorem queue_streamWrite (a : Nat) (b : Bytes) (i : Nat) (d : Die) : queue (streamWrite a b d) i = queue d i := rfl
@[simp] theorem context_streamWrite (a : Nat) (b : Bytes) (i : Nat) (d : Die) : context (streamWrite a b d) i = context d i := rfl

/-! ## fabricInt -/

@[simp] theorem fabricInt_tally (b : Nat) (d : Die) : (fabricInt b d).tally = d.tally := rfl
@[simp] theorem fabricInt_clocks (b : Nat) (d : Die) : (fabricInt b d).clocks = d.clocks := rfl
@[simp] theorem fabricInt_startup (b : Nat) (d : Die) : (fabricInt b d).startup = d.startup := rfl
@[simp] theorem fabricInt_stop (b : Nat) (d : Die) : (fabricInt b d).stop = d.stop := rfl
@[simp] theorem fabricInt_ledger (b : Nat) (d : Die) : (fabricInt b d).ledger = d.ledger := rfl
@[simp] theorem fabricInt_chandler (b : Nat) (d : Die) : (fabricInt b d).chandler = d.chandler := rfl
@[simp] theorem fabricInt_store (b : Nat) (d : Die) : (fabricInt b d).store = d.store := rfl
@[simp] theorem fabricInt_limits (b : Nat) (d : Die) : (fabricInt b d).limits = d.limits := rfl
@[simp] theorem fabricInt_islands (b : Nat) (d : Die) : (fabricInt b d).islands = d.islands := rfl
@[simp] theorem fabricInt_regions (b : Nat) (d : Die) : (fabricInt b d).regions = d.regions := rfl
@[simp] theorem fabricInt_synths (b : Nat) (d : Die) : (fabricInt b d).synths = d.synths := rfl
@[simp] theorem fabricInt_ends (b : Nat) (d : Die) : (fabricInt b d).ends = d.ends := rfl
@[simp] theorem fabricInt_lanes (b : Nat) (d : Die) : (fabricInt b d).lanes = d.lanes := rfl
@[simp] theorem fabricInt_links (b : Nat) (d : Die) : (fabricInt b d).links = d.links := rfl
@[simp] theorem fabricInt_rails (b : Nat) (d : Die) : (fabricInt b d).rails = d.rails := rfl
@[simp] theorem fabricInt_sensors (b : Nat) (d : Die) : (fabricInt b d).sensors = d.sensors := rfl
@[simp] theorem fabricInt_watches (b : Nat) (d : Die) : (fabricInt b d).watches = d.watches := rfl
@[simp] theorem fabricInt_messages (b : Nat) (d : Die) : (fabricInt b d).messages = d.messages := rfl
@[simp] theorem fabricInt_delivered (b : Nat) (d : Die) : (fabricInt b d).delivered = d.delivered := rfl
@[simp] theorem fabricInt_contexts (b : Nat) (d : Die) : (fabricInt b d).contexts = d.contexts := rfl
@[simp] theorem fabricInt_commits (b : Nat) (d : Die) : (fabricInt b d).commits = d.commits := rfl
@[simp] theorem fabricInt_commitReqs (b : Nat) (d : Die) : (fabricInt b d).commitReqs = d.commitReqs := rfl
@[simp] theorem fabricInt_nextCommit (b : Nat) (d : Die) : (fabricInt b d).nextCommit = d.nextCommit := rfl
@[simp] theorem fabricInt_tenants (b : Nat) (d : Die) : (fabricInt b d).tenants = d.tenants := rfl
@[simp] theorem fabricInt_queues (b : Nat) (d : Die) : (fabricInt b d).queues = d.queues := rfl
@[simp] theorem fabricInt_sram (b : Nat) (d : Die) : (fabricInt b d).sram = d.sram := rfl
@[simp] theorem fabricInt_streams (b : Nat) (d : Die) : (fabricInt b d).streams = d.streams := rfl
@[simp] theorem fabricInt_dormant (b : Nat) (d : Die) : (fabricInt b d).dormant = d.dormant := rfl
@[simp] theorem fabricInt_hbm (b : Nat) (d : Die) : (fabricInt b d).hbm = d.hbm := rfl
@[simp] theorem fabricInt_fresh (b : Nat) (d : Die) : (fabricInt b d).fresh = d.fresh := rfl
@[simp] theorem island_fabricInt (b : Nat) (i : Nat) (d : Die) : island (fabricInt b d) i = island d i := rfl
@[simp] theorem region_fabricInt (b : Nat) (i : Nat) (d : Die) : region (fabricInt b d) i = region d i := rfl
@[simp] theorem synth_fabricInt (b : Nat) (i x : Nat) (d : Die) : synth (fabricInt b d) i x = synth d i x := rfl
@[simp] theorem edgeEnd_fabricInt (b : Nat) (i : Nat) (d : Die) : edgeEnd (fabricInt b d) i = edgeEnd d i := rfl
@[simp] theorem lane_fabricInt (b : Nat) (i : Nat) (d : Die) : lane (fabricInt b d) i = lane d i := rfl
@[simp] theorem link_fabricInt (b : Nat) (i : Nat) (d : Die) : link (fabricInt b d) i = link d i := rfl
@[simp] theorem rail_fabricInt (b : Nat) (i : Nat) (d : Die) : rail (fabricInt b d) i = rail d i := rfl
@[simp] theorem sensor_fabricInt (b : Nat) (i : Nat) (d : Die) : sensor (fabricInt b d) i = sensor d i := rfl
@[simp] theorem watch_fabricInt (b : Nat) (i : Nat) (d : Die) : watch (fabricInt b d) i = watch d i := rfl
@[simp] theorem tenant_fabricInt (b : Nat) (i : Nat) (d : Die) : tenant (fabricInt b d) i = tenant d i := rfl
@[simp] theorem queue_fabricInt (b : Nat) (i : Nat) (d : Die) : queue (fabricInt b d) i = queue d i := rfl
@[simp] theorem context_fabricInt (b : Nat) (i : Nat) (d : Die) : context (fabricInt b d) i = context d i := rfl

/-! ## queueInt -/

@[simp] theorem queueInt_tally (q b : Nat) (d : Die) : (queueInt q b d).tally = d.tally := rfl
@[simp] theorem queueInt_clocks (q b : Nat) (d : Die) : (queueInt q b d).clocks = d.clocks := rfl
@[simp] theorem queueInt_startup (q b : Nat) (d : Die) : (queueInt q b d).startup = d.startup := rfl
@[simp] theorem queueInt_stop (q b : Nat) (d : Die) : (queueInt q b d).stop = d.stop := rfl
@[simp] theorem queueInt_regs (q b : Nat) (d : Die) : (queueInt q b d).regs = d.regs := rfl
@[simp] theorem queueInt_ledger (q b : Nat) (d : Die) : (queueInt q b d).ledger = d.ledger := rfl
@[simp] theorem queueInt_chandler (q b : Nat) (d : Die) : (queueInt q b d).chandler = d.chandler := rfl
@[simp] theorem queueInt_store (q b : Nat) (d : Die) : (queueInt q b d).store = d.store := rfl
@[simp] theorem queueInt_limits (q b : Nat) (d : Die) : (queueInt q b d).limits = d.limits := rfl
@[simp] theorem queueInt_islands (q b : Nat) (d : Die) : (queueInt q b d).islands = d.islands := rfl
@[simp] theorem queueInt_regions (q b : Nat) (d : Die) : (queueInt q b d).regions = d.regions := rfl
@[simp] theorem queueInt_synths (q b : Nat) (d : Die) : (queueInt q b d).synths = d.synths := rfl
@[simp] theorem queueInt_ends (q b : Nat) (d : Die) : (queueInt q b d).ends = d.ends := rfl
@[simp] theorem queueInt_lanes (q b : Nat) (d : Die) : (queueInt q b d).lanes = d.lanes := rfl
@[simp] theorem queueInt_links (q b : Nat) (d : Die) : (queueInt q b d).links = d.links := rfl
@[simp] theorem queueInt_rails (q b : Nat) (d : Die) : (queueInt q b d).rails = d.rails := rfl
@[simp] theorem queueInt_sensors (q b : Nat) (d : Die) : (queueInt q b d).sensors = d.sensors := rfl
@[simp] theorem queueInt_watches (q b : Nat) (d : Die) : (queueInt q b d).watches = d.watches := rfl
@[simp] theorem queueInt_messages (q b : Nat) (d : Die) : (queueInt q b d).messages = d.messages := rfl
@[simp] theorem queueInt_delivered (q b : Nat) (d : Die) : (queueInt q b d).delivered = d.delivered := rfl
@[simp] theorem queueInt_contexts (q b : Nat) (d : Die) : (queueInt q b d).contexts = d.contexts := rfl
@[simp] theorem queueInt_commits (q b : Nat) (d : Die) : (queueInt q b d).commits = d.commits := rfl
@[simp] theorem queueInt_commitReqs (q b : Nat) (d : Die) : (queueInt q b d).commitReqs = d.commitReqs := rfl
@[simp] theorem queueInt_nextCommit (q b : Nat) (d : Die) : (queueInt q b d).nextCommit = d.nextCommit := rfl
@[simp] theorem queueInt_tenants (q b : Nat) (d : Die) : (queueInt q b d).tenants = d.tenants := rfl
@[simp] theorem queueInt_sram (q b : Nat) (d : Die) : (queueInt q b d).sram = d.sram := rfl
@[simp] theorem queueInt_streams (q b : Nat) (d : Die) : (queueInt q b d).streams = d.streams := rfl
@[simp] theorem queueInt_dormant (q b : Nat) (d : Die) : (queueInt q b d).dormant = d.dormant := rfl
@[simp] theorem queueInt_hbm (q b : Nat) (d : Die) : (queueInt q b d).hbm = d.hbm := rfl
@[simp] theorem queueInt_fresh (q b : Nat) (d : Die) : (queueInt q b d).fresh = d.fresh := rfl
@[simp] theorem island_queueInt (q b : Nat) (i : Nat) (d : Die) : island (queueInt q b d) i = island d i := rfl
@[simp] theorem region_queueInt (q b : Nat) (i : Nat) (d : Die) : region (queueInt q b d) i = region d i := rfl
@[simp] theorem synth_queueInt (q b : Nat) (i x : Nat) (d : Die) : synth (queueInt q b d) i x = synth d i x := rfl
@[simp] theorem edgeEnd_queueInt (q b : Nat) (i : Nat) (d : Die) : edgeEnd (queueInt q b d) i = edgeEnd d i := rfl
@[simp] theorem lane_queueInt (q b : Nat) (i : Nat) (d : Die) : lane (queueInt q b d) i = lane d i := rfl
@[simp] theorem link_queueInt (q b : Nat) (i : Nat) (d : Die) : link (queueInt q b d) i = link d i := rfl
@[simp] theorem rail_queueInt (q b : Nat) (i : Nat) (d : Die) : rail (queueInt q b d) i = rail d i := rfl
@[simp] theorem sensor_queueInt (q b : Nat) (i : Nat) (d : Die) : sensor (queueInt q b d) i = sensor d i := rfl
@[simp] theorem watch_queueInt (q b : Nat) (i : Nat) (d : Die) : watch (queueInt q b d) i = watch d i := rfl
@[simp] theorem tenant_queueInt (q b : Nat) (i : Nat) (d : Die) : tenant (queueInt q b d) i = tenant d i := rfl
@[simp] theorem context_queueInt (q b : Nat) (i : Nat) (d : Die) : context (queueInt q b d) i = context d i := rfl

/-! ## modTally -/

@[simp] theorem modTally_clocks (f : Tally → Tally) (d : Die) : (modTally f d).clocks = d.clocks := rfl
@[simp] theorem modTally_startup (f : Tally → Tally) (d : Die) : (modTally f d).startup = d.startup := rfl
@[simp] theorem modTally_stop (f : Tally → Tally) (d : Die) : (modTally f d).stop = d.stop := rfl
@[simp] theorem modTally_regs (f : Tally → Tally) (d : Die) : (modTally f d).regs = d.regs := rfl
@[simp] theorem modTally_ledger (f : Tally → Tally) (d : Die) : (modTally f d).ledger = d.ledger := rfl
@[simp] theorem modTally_chandler (f : Tally → Tally) (d : Die) : (modTally f d).chandler = d.chandler := rfl
@[simp] theorem modTally_store (f : Tally → Tally) (d : Die) : (modTally f d).store = d.store := rfl
@[simp] theorem modTally_limits (f : Tally → Tally) (d : Die) : (modTally f d).limits = d.limits := rfl
@[simp] theorem modTally_islands (f : Tally → Tally) (d : Die) : (modTally f d).islands = d.islands := rfl
@[simp] theorem modTally_regions (f : Tally → Tally) (d : Die) : (modTally f d).regions = d.regions := rfl
@[simp] theorem modTally_synths (f : Tally → Tally) (d : Die) : (modTally f d).synths = d.synths := rfl
@[simp] theorem modTally_ends (f : Tally → Tally) (d : Die) : (modTally f d).ends = d.ends := rfl
@[simp] theorem modTally_lanes (f : Tally → Tally) (d : Die) : (modTally f d).lanes = d.lanes := rfl
@[simp] theorem modTally_links (f : Tally → Tally) (d : Die) : (modTally f d).links = d.links := rfl
@[simp] theorem modTally_rails (f : Tally → Tally) (d : Die) : (modTally f d).rails = d.rails := rfl
@[simp] theorem modTally_sensors (f : Tally → Tally) (d : Die) : (modTally f d).sensors = d.sensors := rfl
@[simp] theorem modTally_watches (f : Tally → Tally) (d : Die) : (modTally f d).watches = d.watches := rfl
@[simp] theorem modTally_messages (f : Tally → Tally) (d : Die) : (modTally f d).messages = d.messages := rfl
@[simp] theorem modTally_delivered (f : Tally → Tally) (d : Die) : (modTally f d).delivered = d.delivered := rfl
@[simp] theorem modTally_contexts (f : Tally → Tally) (d : Die) : (modTally f d).contexts = d.contexts := rfl
@[simp] theorem modTally_commits (f : Tally → Tally) (d : Die) : (modTally f d).commits = d.commits := rfl
@[simp] theorem modTally_commitReqs (f : Tally → Tally) (d : Die) : (modTally f d).commitReqs = d.commitReqs := rfl
@[simp] theorem modTally_nextCommit (f : Tally → Tally) (d : Die) : (modTally f d).nextCommit = d.nextCommit := rfl
@[simp] theorem modTally_tenants (f : Tally → Tally) (d : Die) : (modTally f d).tenants = d.tenants := rfl
@[simp] theorem modTally_queues (f : Tally → Tally) (d : Die) : (modTally f d).queues = d.queues := rfl
@[simp] theorem modTally_sram (f : Tally → Tally) (d : Die) : (modTally f d).sram = d.sram := rfl
@[simp] theorem modTally_streams (f : Tally → Tally) (d : Die) : (modTally f d).streams = d.streams := rfl
@[simp] theorem modTally_dormant (f : Tally → Tally) (d : Die) : (modTally f d).dormant = d.dormant := rfl
@[simp] theorem modTally_hbm (f : Tally → Tally) (d : Die) : (modTally f d).hbm = d.hbm := rfl
@[simp] theorem modTally_fresh (f : Tally → Tally) (d : Die) : (modTally f d).fresh = d.fresh := rfl
@[simp] theorem island_modTally (f : Tally → Tally) (i : Nat) (d : Die) : island (modTally f d) i = island d i := rfl
@[simp] theorem region_modTally (f : Tally → Tally) (i : Nat) (d : Die) : region (modTally f d) i = region d i := rfl
@[simp] theorem synth_modTally (f : Tally → Tally) (i x : Nat) (d : Die) : synth (modTally f d) i x = synth d i x := rfl
@[simp] theorem edgeEnd_modTally (f : Tally → Tally) (i : Nat) (d : Die) : edgeEnd (modTally f d) i = edgeEnd d i := rfl
@[simp] theorem lane_modTally (f : Tally → Tally) (i : Nat) (d : Die) : lane (modTally f d) i = lane d i := rfl
@[simp] theorem link_modTally (f : Tally → Tally) (i : Nat) (d : Die) : link (modTally f d) i = link d i := rfl
@[simp] theorem rail_modTally (f : Tally → Tally) (i : Nat) (d : Die) : rail (modTally f d) i = rail d i := rfl
@[simp] theorem sensor_modTally (f : Tally → Tally) (i : Nat) (d : Die) : sensor (modTally f d) i = sensor d i := rfl
@[simp] theorem watch_modTally (f : Tally → Tally) (i : Nat) (d : Die) : watch (modTally f d) i = watch d i := rfl
@[simp] theorem tenant_modTally (f : Tally → Tally) (i : Nat) (d : Die) : tenant (modTally f d) i = tenant d i := rfl
@[simp] theorem queue_modTally (f : Tally → Tally) (i : Nat) (d : Die) : queue (modTally f d) i = queue d i := rfl
@[simp] theorem context_modTally (f : Tally → Tally) (i : Nat) (d : Die) : context (modTally f d) i = context d i := rfl

/-! ## drawFree -/

@[simp] theorem drawFree_tally (d : Die) : (drawFree d).tally = d.tally := rfl
@[simp] theorem drawFree_clocks (d : Die) : (drawFree d).clocks = d.clocks := rfl
@[simp] theorem drawFree_startup (d : Die) : (drawFree d).startup = d.startup := rfl
@[simp] theorem drawFree_stop (d : Die) : (drawFree d).stop = d.stop := rfl
@[simp] theorem drawFree_regs (d : Die) : (drawFree d).regs = d.regs := rfl
@[simp] theorem drawFree_ledger (d : Die) : (drawFree d).ledger = d.ledger := rfl
@[simp] theorem drawFree_chandler (d : Die) : (drawFree d).chandler = d.chandler := rfl
@[simp] theorem drawFree_store (d : Die) : (drawFree d).store = d.store := rfl
@[simp] theorem drawFree_limits (d : Die) : (drawFree d).limits = d.limits := rfl
@[simp] theorem drawFree_islands (d : Die) : (drawFree d).islands = d.islands := rfl
@[simp] theorem drawFree_regions (d : Die) : (drawFree d).regions = d.regions := rfl
@[simp] theorem drawFree_synths (d : Die) : (drawFree d).synths = d.synths := rfl
@[simp] theorem drawFree_ends (d : Die) : (drawFree d).ends = d.ends := rfl
@[simp] theorem drawFree_lanes (d : Die) : (drawFree d).lanes = d.lanes := rfl
@[simp] theorem drawFree_links (d : Die) : (drawFree d).links = d.links := rfl
@[simp] theorem drawFree_rails (d : Die) : (drawFree d).rails = d.rails := rfl
@[simp] theorem drawFree_sensors (d : Die) : (drawFree d).sensors = d.sensors := rfl
@[simp] theorem drawFree_watches (d : Die) : (drawFree d).watches = d.watches := rfl
@[simp] theorem drawFree_messages (d : Die) : (drawFree d).messages = d.messages := rfl
@[simp] theorem drawFree_delivered (d : Die) : (drawFree d).delivered = d.delivered := rfl
@[simp] theorem drawFree_contexts (d : Die) : (drawFree d).contexts = d.contexts := rfl
@[simp] theorem drawFree_commits (d : Die) : (drawFree d).commits = d.commits := rfl
@[simp] theorem drawFree_commitReqs (d : Die) : (drawFree d).commitReqs = d.commitReqs := rfl
@[simp] theorem drawFree_nextCommit (d : Die) : (drawFree d).nextCommit = d.nextCommit := rfl
@[simp] theorem drawFree_tenants (d : Die) : (drawFree d).tenants = d.tenants := rfl
@[simp] theorem drawFree_queues (d : Die) : (drawFree d).queues = d.queues := rfl
@[simp] theorem drawFree_sram (d : Die) : (drawFree d).sram = d.sram := rfl
@[simp] theorem drawFree_streams (d : Die) : (drawFree d).streams = d.streams := rfl
@[simp] theorem drawFree_dormant (d : Die) : (drawFree d).dormant = d.dormant := rfl
@[simp] theorem drawFree_hbm (d : Die) : (drawFree d).hbm = d.hbm := rfl
@[simp] theorem island_drawFree (i : Nat) (d : Die) : island (drawFree d) i = island d i := rfl
@[simp] theorem region_drawFree (i : Nat) (d : Die) : region (drawFree d) i = region d i := rfl
@[simp] theorem synth_drawFree (i x : Nat) (d : Die) : synth (drawFree d) i x = synth d i x := rfl
@[simp] theorem edgeEnd_drawFree (i : Nat) (d : Die) : edgeEnd (drawFree d) i = edgeEnd d i := rfl
@[simp] theorem lane_drawFree (i : Nat) (d : Die) : lane (drawFree d) i = lane d i := rfl
@[simp] theorem link_drawFree (i : Nat) (d : Die) : link (drawFree d) i = link d i := rfl
@[simp] theorem rail_drawFree (i : Nat) (d : Die) : rail (drawFree d) i = rail d i := rfl
@[simp] theorem sensor_drawFree (i : Nat) (d : Die) : sensor (drawFree d) i = sensor d i := rfl
@[simp] theorem watch_drawFree (i : Nat) (d : Die) : watch (drawFree d) i = watch d i := rfl
@[simp] theorem tenant_drawFree (i : Nat) (d : Die) : tenant (drawFree d) i = tenant d i := rfl
@[simp] theorem queue_drawFree (i : Nat) (d : Die) : queue (drawFree d) i = queue d i := rfl
@[simp] theorem context_drawFree (i : Nat) (d : Die) : context (drawFree d) i = context d i := rfl

/-! ## The entry written, and every other entry -/

theorem island_modIsland_same {k : Nat} {f : Island → Island} {d : Die} (h : tblWf {} d.islands = true) : island (modIsland k f d) k = f (island d k) := tget_tmod_same h
theorem island_modIsland_other {k i : Nat} {f : Island → Island} {d : Die} (h : tblWf {} d.islands = true) (hi : i ≠ k) : island (modIsland k f d) i = island d i := tget_tmod_other h hi
theorem region_modRegion_same {k : Nat} {f : Region → Region} {d : Die} (h : tblWf {} d.regions = true) : region (modRegion k f d) k = f (region d k) := tget_tmod_same h
theorem region_modRegion_other {k i : Nat} {f : Region → Region} {d : Die} (h : tblWf {} d.regions = true) (hi : i ≠ k) : region (modRegion k f d) i = region d i := tget_tmod_other h hi
theorem edgeEnd_modEnd_same {k : Nat} {f : EdgeEnd → EdgeEnd} {d : Die} (h : tblWf {} d.ends = true) : edgeEnd (modEnd k f d) k = f (edgeEnd d k) := tget_tmod_same h
theorem edgeEnd_modEnd_other {k i : Nat} {f : EdgeEnd → EdgeEnd} {d : Die} (h : tblWf {} d.ends = true) (hi : i ≠ k) : edgeEnd (modEnd k f d) i = edgeEnd d i := tget_tmod_other h hi
theorem lane_modLane_same {k : Nat} {f : Lane → Lane} {d : Die} (h : tblWf {} d.lanes = true) : lane (modLane k f d) k = f (lane d k) := tget_tmod_same h
theorem lane_modLane_other {k i : Nat} {f : Lane → Lane} {d : Die} (h : tblWf {} d.lanes = true) (hi : i ≠ k) : lane (modLane k f d) i = lane d i := tget_tmod_other h hi
theorem link_modLink_same {k : Nat} {f : Link → Link} {d : Die} (h : tblWf {} d.links = true) : link (modLink k f d) k = f (link d k) := tget_tmod_same h
theorem link_modLink_other {k i : Nat} {f : Link → Link} {d : Die} (h : tblWf {} d.links = true) (hi : i ≠ k) : link (modLink k f d) i = link d i := tget_tmod_other h hi
theorem rail_modRail_same {k : Nat} {f : Rail → Rail} {d : Die} (h : tblWf {} d.rails = true) : rail (modRail k f d) k = f (rail d k) := tget_tmod_same h
theorem rail_modRail_other {k i : Nat} {f : Rail → Rail} {d : Die} (h : tblWf {} d.rails = true) (hi : i ≠ k) : rail (modRail k f d) i = rail d i := tget_tmod_other h hi
theorem sensor_modSensor_same {k : Nat} {f : Sensor → Sensor} {d : Die} (h : tblWf {} d.sensors = true) : sensor (modSensor k f d) k = f (sensor d k) := tget_tmod_same h
theorem sensor_modSensor_other {k i : Nat} {f : Sensor → Sensor} {d : Die} (h : tblWf {} d.sensors = true) (hi : i ≠ k) : sensor (modSensor k f d) i = sensor d i := tget_tmod_other h hi
theorem watch_modWatch_same {k : Nat} {f : Watch → Watch} {d : Die} (h : tblWf {} d.watches = true) : watch (modWatch k f d) k = f (watch d k) := tget_tmod_same h
theorem watch_modWatch_other {k i : Nat} {f : Watch → Watch} {d : Die} (h : tblWf {} d.watches = true) (hi : i ≠ k) : watch (modWatch k f d) i = watch d i := tget_tmod_other h hi
theorem tenant_modTenant_same {k : Nat} {f : Tenant → Tenant} {d : Die} (h : tblWf {} d.tenants = true) : tenant (modTenant k f d) k = f (tenant d k) := tget_tmod_same h
theorem tenant_modTenant_other {k i : Nat} {f : Tenant → Tenant} {d : Die} (h : tblWf {} d.tenants = true) (hi : i ≠ k) : tenant (modTenant k f d) i = tenant d i := tget_tmod_other h hi
theorem queue_modQueue_same {k : Nat} {f : Queue → Queue} {d : Die} (h : tblWf {} d.queues = true) : queue (modQueue k f d) k = f (queue d k) := tget_tmod_same h
theorem queue_modQueue_other {k i : Nat} {f : Queue → Queue} {d : Die} (h : tblWf {} d.queues = true) (hi : i ≠ k) : queue (modQueue k f d) i = queue d i := tget_tmod_other h hi
theorem island_modRing_same {k : Nat} {f : Ring → Ring} {d : Die} (h : tblWf {} d.islands = true) : island (modRing k f d) k = { island d k with ring := f (island d k).ring } := by
  unfold modRing
  exact island_modIsland_same h
theorem island_modRing_other {k i : Nat} {f : Ring → Ring} {d : Die} (h : tblWf {} d.islands = true) (hi : i ≠ k) : island (modRing k f d) i = island d i := by
  unfold modRing
  exact island_modIsland_other h hi
theorem island_modMargin_same {k : Nat} {f : Margin → Margin} {d : Die} (h : tblWf {} d.islands = true) : island (modMargin k f d) k = { island d k with margin := f (island d k).margin } := by
  unfold modMargin
  exact island_modIsland_same h
theorem island_modMargin_other {k i : Nat} {f : Margin → Margin} {d : Die} (h : tblWf {} d.islands = true) (hi : i ≠ k) : island (modMargin k f d) i = island d i := by
  unfold modMargin
  exact island_modIsland_other h hi
theorem island_modHolds_same {k : Nat} {f : Holds → Holds} {d : Die} (h : tblWf {} d.islands = true) : island (modHolds k f d) k = { island d k with holds := f (island d k).holds } := by
  unfold modHolds
  exact island_modIsland_same h
theorem island_modHolds_other {k i : Nat} {f : Holds → Holds} {d : Die} (h : tblWf {} d.islands = true) (hi : i ≠ k) : island (modHolds k f d) i = island d i := by
  unfold modHolds
  exact island_modIsland_other h hi
theorem synth_modSynth_same {r x : Nat} {f : Synth → Synth} {d : Die} (h : tblWf {} d.synths = true) : synth (modSynth r x f d) r x = f (synth d r x) := tget_tmod_same h
theorem synth_modSynth_other {r x q y : Nat} {f : Synth → Synth} {d : Die} (h : tblWf {} d.synths = true) (hi : 2 * q + y ≠ 2 * r + x) : synth (modSynth r x f d) q y = synth d q y := tget_tmod_other h hi
theorem context_setContext_same {c : Nat} {v : Option Context} {d : Die} (h : tblWf none d.contexts = true) : context (setContext c v d) c = v := tget_tset_same h
theorem context_setContext_other {c i : Nat} {v : Option Context} {d : Die} (h : tblWf none d.contexts = true) (hi : i ≠ c) : context (setContext c v d) i = context d i := tget_tset_other h hi
theorem context_modContext_same {c : Nat} {f : Context → Context} {d : Die} (h : tblWf none d.contexts = true) : context (modContext c f d) c = (context d c).map f := tget_tset_same h
@[simp] theorem ref_modRef_same (n : Nat) (f : Ref → Ref) (d : Die) : ref (modRef n f d) n = f (ref d n) := by
  by_cases h : n = 0 <;> simp [ref, modRef, h]
@[simp] theorem root_modRoot_same (n : Nat) (f : Root → Root) (d : Die) : root (modRoot n f d) n = f (root d n) := by
  by_cases h : n = 0 <;> simp [root, modRoot, h]

/-! ## emit -/

/-- `emit` writes the Ledger alone. -/
theorem emit_eq (c : Nat) (l : Loc) (b : Bytes) (d : Die) : ∃ g, emit c l b d = { d with ledger := g } ∧ g.ring = d.ledger.ring ∧ g.index = d.ledger.index ∧ g.count = d.ledger.count ∧ g.drain = d.ledger.drain := by
  unfold emit
  dsimp only
  split
  · exact ⟨_, rfl, rfl, rfl, rfl, rfl⟩
  · split <;> exact ⟨_, rfl, rfl, rfl, rfl, rfl⟩

@[simp] theorem emit_tally (c : Nat) (l : Loc) (b : Bytes) (d : Die) : (emit c l b d).tally = d.tally := by
  obtain ⟨g, h, -⟩ := emit_eq c l b d
  rw [h]
@[simp] theorem emit_clocks (c : Nat) (l : Loc) (b : Bytes) (d : Die) : (emit c l b d).clocks = d.clocks := by
  obtain ⟨g, h, -⟩ := emit_eq c l b d
  rw [h]
@[simp] theorem emit_startup (c : Nat) (l : Loc) (b : Bytes) (d : Die) : (emit c l b d).startup = d.startup := by
  obtain ⟨g, h, -⟩ := emit_eq c l b d
  rw [h]
@[simp] theorem emit_stop (c : Nat) (l : Loc) (b : Bytes) (d : Die) : (emit c l b d).stop = d.stop := by
  obtain ⟨g, h, -⟩ := emit_eq c l b d
  rw [h]
@[simp] theorem emit_regs (c : Nat) (l : Loc) (b : Bytes) (d : Die) : (emit c l b d).regs = d.regs := by
  obtain ⟨g, h, -⟩ := emit_eq c l b d
  rw [h]
@[simp] theorem emit_chandler (c : Nat) (l : Loc) (b : Bytes) (d : Die) : (emit c l b d).chandler = d.chandler := by
  obtain ⟨g, h, -⟩ := emit_eq c l b d
  rw [h]
@[simp] theorem emit_store (c : Nat) (l : Loc) (b : Bytes) (d : Die) : (emit c l b d).store = d.store := by
  obtain ⟨g, h, -⟩ := emit_eq c l b d
  rw [h]
@[simp] theorem emit_limits (c : Nat) (l : Loc) (b : Bytes) (d : Die) : (emit c l b d).limits = d.limits := by
  obtain ⟨g, h, -⟩ := emit_eq c l b d
  rw [h]
@[simp] theorem emit_islands (c : Nat) (l : Loc) (b : Bytes) (d : Die) : (emit c l b d).islands = d.islands := by
  obtain ⟨g, h, -⟩ := emit_eq c l b d
  rw [h]
@[simp] theorem emit_regions (c : Nat) (l : Loc) (b : Bytes) (d : Die) : (emit c l b d).regions = d.regions := by
  obtain ⟨g, h, -⟩ := emit_eq c l b d
  rw [h]
@[simp] theorem emit_synths (c : Nat) (l : Loc) (b : Bytes) (d : Die) : (emit c l b d).synths = d.synths := by
  obtain ⟨g, h, -⟩ := emit_eq c l b d
  rw [h]
@[simp] theorem emit_ends (c : Nat) (l : Loc) (b : Bytes) (d : Die) : (emit c l b d).ends = d.ends := by
  obtain ⟨g, h, -⟩ := emit_eq c l b d
  rw [h]
@[simp] theorem emit_lanes (c : Nat) (l : Loc) (b : Bytes) (d : Die) : (emit c l b d).lanes = d.lanes := by
  obtain ⟨g, h, -⟩ := emit_eq c l b d
  rw [h]
@[simp] theorem emit_links (c : Nat) (l : Loc) (b : Bytes) (d : Die) : (emit c l b d).links = d.links := by
  obtain ⟨g, h, -⟩ := emit_eq c l b d
  rw [h]
@[simp] theorem emit_rails (c : Nat) (l : Loc) (b : Bytes) (d : Die) : (emit c l b d).rails = d.rails := by
  obtain ⟨g, h, -⟩ := emit_eq c l b d
  rw [h]
@[simp] theorem emit_sensors (c : Nat) (l : Loc) (b : Bytes) (d : Die) : (emit c l b d).sensors = d.sensors := by
  obtain ⟨g, h, -⟩ := emit_eq c l b d
  rw [h]
@[simp] theorem emit_watches (c : Nat) (l : Loc) (b : Bytes) (d : Die) : (emit c l b d).watches = d.watches := by
  obtain ⟨g, h, -⟩ := emit_eq c l b d
  rw [h]
@[simp] theorem emit_messages (c : Nat) (l : Loc) (b : Bytes) (d : Die) : (emit c l b d).messages = d.messages := by
  obtain ⟨g, h, -⟩ := emit_eq c l b d
  rw [h]
@[simp] theorem emit_delivered (c : Nat) (l : Loc) (b : Bytes) (d : Die) : (emit c l b d).delivered = d.delivered := by
  obtain ⟨g, h, -⟩ := emit_eq c l b d
  rw [h]
@[simp] theorem emit_contexts (c : Nat) (l : Loc) (b : Bytes) (d : Die) : (emit c l b d).contexts = d.contexts := by
  obtain ⟨g, h, -⟩ := emit_eq c l b d
  rw [h]
@[simp] theorem emit_commits (c : Nat) (l : Loc) (b : Bytes) (d : Die) : (emit c l b d).commits = d.commits := by
  obtain ⟨g, h, -⟩ := emit_eq c l b d
  rw [h]
@[simp] theorem emit_commitReqs (c : Nat) (l : Loc) (b : Bytes) (d : Die) : (emit c l b d).commitReqs = d.commitReqs := by
  obtain ⟨g, h, -⟩ := emit_eq c l b d
  rw [h]
@[simp] theorem emit_nextCommit (c : Nat) (l : Loc) (b : Bytes) (d : Die) : (emit c l b d).nextCommit = d.nextCommit := by
  obtain ⟨g, h, -⟩ := emit_eq c l b d
  rw [h]
@[simp] theorem emit_tenants (c : Nat) (l : Loc) (b : Bytes) (d : Die) : (emit c l b d).tenants = d.tenants := by
  obtain ⟨g, h, -⟩ := emit_eq c l b d
  rw [h]
@[simp] theorem emit_queues (c : Nat) (l : Loc) (b : Bytes) (d : Die) : (emit c l b d).queues = d.queues := by
  obtain ⟨g, h, -⟩ := emit_eq c l b d
  rw [h]
@[simp] theorem emit_sram (c : Nat) (l : Loc) (b : Bytes) (d : Die) : (emit c l b d).sram = d.sram := by
  obtain ⟨g, h, -⟩ := emit_eq c l b d
  rw [h]
@[simp] theorem emit_streams (c : Nat) (l : Loc) (b : Bytes) (d : Die) : (emit c l b d).streams = d.streams := by
  obtain ⟨g, h, -⟩ := emit_eq c l b d
  rw [h]
@[simp] theorem emit_dormant (c : Nat) (l : Loc) (b : Bytes) (d : Die) : (emit c l b d).dormant = d.dormant := by
  obtain ⟨g, h, -⟩ := emit_eq c l b d
  rw [h]
@[simp] theorem emit_hbm (c : Nat) (l : Loc) (b : Bytes) (d : Die) : (emit c l b d).hbm = d.hbm := by
  obtain ⟨g, h, -⟩ := emit_eq c l b d
  rw [h]
@[simp] theorem emit_fresh (c : Nat) (l : Loc) (b : Bytes) (d : Die) : (emit c l b d).fresh = d.fresh := by
  obtain ⟨g, h, -⟩ := emit_eq c l b d
  rw [h]
@[simp] theorem island_emit (c : Nat) (l : Loc) (b : Bytes) (i : Nat) (d : Die) : island (emit c l b d) i = island d i := by
  obtain ⟨g, h, -⟩ := emit_eq c l b d
  rw [h]
  rfl
@[simp] theorem region_emit (c : Nat) (l : Loc) (b : Bytes) (i : Nat) (d : Die) : region (emit c l b d) i = region d i := by
  obtain ⟨g, h, -⟩ := emit_eq c l b d
  rw [h]
  rfl
@[simp] theorem synth_emit (c : Nat) (l : Loc) (b : Bytes) (i x : Nat) (d : Die) : synth (emit c l b d) i x = synth d i x := by
  obtain ⟨g, h, -⟩ := emit_eq c l b d
  rw [h]
  rfl
@[simp] theorem edgeEnd_emit (c : Nat) (l : Loc) (b : Bytes) (i : Nat) (d : Die) : edgeEnd (emit c l b d) i = edgeEnd d i := by
  obtain ⟨g, h, -⟩ := emit_eq c l b d
  rw [h]
  rfl
@[simp] theorem lane_emit (c : Nat) (l : Loc) (b : Bytes) (i : Nat) (d : Die) : lane (emit c l b d) i = lane d i := by
  obtain ⟨g, h, -⟩ := emit_eq c l b d
  rw [h]
  rfl
@[simp] theorem link_emit (c : Nat) (l : Loc) (b : Bytes) (i : Nat) (d : Die) : link (emit c l b d) i = link d i := by
  obtain ⟨g, h, -⟩ := emit_eq c l b d
  rw [h]
  rfl
@[simp] theorem rail_emit (c : Nat) (l : Loc) (b : Bytes) (i : Nat) (d : Die) : rail (emit c l b d) i = rail d i := by
  obtain ⟨g, h, -⟩ := emit_eq c l b d
  rw [h]
  rfl
@[simp] theorem sensor_emit (c : Nat) (l : Loc) (b : Bytes) (i : Nat) (d : Die) : sensor (emit c l b d) i = sensor d i := by
  obtain ⟨g, h, -⟩ := emit_eq c l b d
  rw [h]
  rfl
@[simp] theorem watch_emit (c : Nat) (l : Loc) (b : Bytes) (i : Nat) (d : Die) : watch (emit c l b d) i = watch d i := by
  obtain ⟨g, h, -⟩ := emit_eq c l b d
  rw [h]
  rfl
@[simp] theorem tenant_emit (c : Nat) (l : Loc) (b : Bytes) (i : Nat) (d : Die) : tenant (emit c l b d) i = tenant d i := by
  obtain ⟨g, h, -⟩ := emit_eq c l b d
  rw [h]
  rfl
@[simp] theorem queue_emit (c : Nat) (l : Loc) (b : Bytes) (i : Nat) (d : Die) : queue (emit c l b d) i = queue d i := by
  obtain ⟨g, h, -⟩ := emit_eq c l b d
  rw [h]
  rfl
@[simp] theorem context_emit (c : Nat) (l : Loc) (b : Bytes) (i : Nat) (d : Die) : context (emit c l b d) i = context d i := by
  obtain ⟨g, h, -⟩ := emit_eq c l b d
  rw [h]
  rfl
@[simp] theorem root_emit (c : Nat) (l : Loc) (b : Bytes) (i : Nat) (d : Die) : root (emit c l b d) i = root d i := by
  obtain ⟨g, h, -⟩ := emit_eq c l b d
  rw [h]
  rfl
@[simp] theorem ref_emit (c : Nat) (l : Loc) (b : Bytes) (i : Nat) (d : Die) : ref (emit c l b d) i = ref d i := by
  obtain ⟨g, h, -⟩ := emit_eq c l b d
  rw [h]
  rfl

end Sys2Proof.Machine
end

