-- ==== Sys2Proof/Laws/Run.lean ====
section
/-! SUPPORT. What running a command comes to: where what it names exists it answers a next state, with the queue of waiting commands as it stands. -/

namespace Sys2Proof.Machine
open Sys2Proof
set_option Elab.async false
set_option linter.all false

@[simp] theorem run_true (f : Die → Die) (s : State) : run true f s = .next { s with die := f s.die } := rfl

theorem run_named {b : Bool} {f : Die → Die} {s : State} (h : b = true) : run b f s = .next { s with die := f s.die } := by
  subst h; rfl

theorem run_next {b : Bool} {f : Die → Die} {s t : State} (h : run b f s = .next t) : b = true ∧ t = { s with die := f s.die } := by
  cases b with
  | true => exact ⟨rfl, (Host.Outcome.next.inj h).symm⟩
  | false => cases h

/-- The next state of a command run, where its names exist. -/
theorem gives_run {c : Instr} {b : Bool} {f : Die → Die} {s : State} {post : Die → Prop} (hx : exec c s = run b f s) (hb : b = true) (hp : post (f s.die)) :
    Gives c s post :=
  ⟨{ s with die := f s.die }, by rw [hx, run_named hb], rfl, hp⟩

end Sys2Proof.Machine
end

