-- ==== Sys2Proof/Laws/Closures.lean ====
section
/-! SUPPORT. Three properties that the writes of the die keep: agreeing with a die outside a list of parts, the canonical form of the tables, and the count of the Ledger's ring. -/

namespace Sys2Proof.Machine
open Sys2Proof
set_option Elab.async false
set_option linter.all false

theorem sameBut_refl (l : List Part) (d : Die) : SameBut l d d := by
  intro p _
  cases p <;> first | rfl | exact ⟨rfl, rfl, rfl⟩

/-- A die reached by an operation on one part of the list still agrees outside the list. -/
theorem sameBut_step {l : List Part} {a b c : Die} (h : SameBut l a b) (hs : ∀ p, p ∉ l → samePart b c p) : SameBut l a c := by
  intro p hp
  have h1 := h p hp
  have h2 := hs p hp
  cases p <;> first | exact h2.trans h1 | exact ⟨h2.1.trans h1.1, h2.2.1.trans h1.2.1, h2.2.2.trans h1.2.2⟩

theorem sameBut_closed (l : List Part) (a : Die) : Closed (SameBut l a) l where
  lits _ _ _ h hd := sameBut_step hd h
  islands m k f d hd := sameBut_step hd (fun p hp => by cases p <;> first | rfl | exact ⟨rfl, rfl, rfl⟩ | exact absurd m hp)
  regions m k f d hd := sameBut_step hd (fun p hp => by cases p <;> first | rfl | exact ⟨rfl, rfl, rfl⟩ | exact absurd m hp)
  synths m r x f d hd := sameBut_step hd (fun p hp => by cases p <;> first | rfl | exact ⟨rfl, rfl, rfl⟩ | exact absurd m hp)
  ends m k f d hd := sameBut_step hd (fun p hp => by cases p <;> first | rfl | exact ⟨rfl, rfl, rfl⟩ | exact absurd m hp)
  lanes m k f d hd := sameBut_step hd (fun p hp => by cases p <;> first | rfl | exact ⟨rfl, rfl, rfl⟩ | exact absurd m hp)
  links m k f d hd := sameBut_step hd (fun p hp => by cases p <;> first | rfl | exact ⟨rfl, rfl, rfl⟩ | exact absurd m hp)
  rails m k f d hd := sameBut_step hd (fun p hp => by cases p <;> first | rfl | exact ⟨rfl, rfl, rfl⟩ | exact absurd m hp)
  sensors m k f d hd := sameBut_step hd (fun p hp => by cases p <;> first | rfl | exact ⟨rfl, rfl, rfl⟩ | exact absurd m hp)
  watches m k f d hd := sameBut_step hd (fun p hp => by cases p <;> first | rfl | exact ⟨rfl, rfl, rfl⟩ | exact absurd m hp)
  contexts m c v d hd := sameBut_step hd (fun p hp => by cases p <;> first | rfl | exact ⟨rfl, rfl, rfl⟩ | exact absurd m hp)
  tenants m k f d hd := sameBut_step hd (fun p hp => by cases p <;> first | rfl | exact ⟨rfl, rfl, rfl⟩ | exact absurd m hp)
  queues m k f d hd := sameBut_step hd (fun p hp => by cases p <;> first | rfl | exact ⟨rfl, rfl, rfl⟩ | exact absurd m hp)
  sram m x b d hd := sameBut_step hd (fun p hp => by cases p <;> first | rfl | exact ⟨rfl, rfl, rfl⟩ | exact absurd m hp)
  host m w d hd := sameBut_step hd (fun p hp => by cases p <;> first | rfl | exact ⟨rfl, rfl, rfl⟩ | exact absurd m hp)
  hbm m i v d hd := sameBut_step hd (fun p hp => by cases p <;> first | rfl | exact ⟨rfl, rfl, rfl⟩ | exact absurd m hp)
  records m m' x d hd := sameBut_step hd (fun p hp => by cases p <;> first | rfl | exact absurd m hp | exact absurd m' hp)
  reset m d hd := sameBut_step hd (fun p hp => by
    cases p
    all_goals first
      | rfl
      | exact ⟨rfl, rfl, rfl⟩
      | exact absurd (m _ (by decide)) hp)

theorem canonical_tables {d d' : Die} (h : ∀ p ∈ [Part.islands, .regions, .synths, .ends, .lanes, .links, .rails, .sensors, .watches, .contexts, .tenants, .queues, .sram, .hbm, .records], samePart d d' p)
    (hd : d.Canonical) : d'.Canonical := by
  have e1 : d'.islands = d.islands := h .islands (by decide)
  have e2 : d'.regions = d.regions := h .regions (by decide)
  have e3 : d'.synths = d.synths := h .synths (by decide)
  have e4 : d'.ends = d.ends := h .ends (by decide)
  have e5 : d'.lanes = d.lanes := h .lanes (by decide)
  have e6 : d'.links = d.links := h .links (by decide)
  have e7 : d'.rails = d.rails := h .rails (by decide)
  have e8 : d'.sensors = d.sensors := h .sensors (by decide)
  have e9 : d'.watches = d.watches := h .watches (by decide)
  have e10 : d'.contexts = d.contexts := h .contexts (by decide)
  have e11 : d'.tenants = d.tenants := h .tenants (by decide)
  have e12 : d'.queues = d.queues := h .queues (by decide)
  have e13 : d'.sram = d.sram := h .sram (by decide)
  have e14 : d'.hbm = d.hbm := h .hbm (by decide)
  exact ⟨by rw [e1]; exact hd.islands, by rw [e2]; exact hd.regions, by rw [e3]; exact hd.synths, by rw [e4]; exact hd.ends, by rw [e5]; exact hd.lanes,
    by rw [e6]; exact hd.links, by rw [e7]; exact hd.rails, by rw [e8]; exact hd.sensors, by rw [e9]; exact hd.watches, by rw [e10]; exact hd.contexts,
    by rw [e11]; exact hd.tenants, by rw [e12]; exact hd.queues, by rw [e14]; exact hd.hbm, by rw [e13]; exact hd.sram⟩

/-- Every write of the die keeps its tables canonical. -/
theorem canonical_closed (l : List Part) : Closed Die.Canonical l where
  lits _ _ h _ hd := canonical_tables h hd
  islands _ _ _ _ hd := { hd with islands := tmod_wf hd.islands }
  regions _ _ _ _ hd := { hd with regions := tmod_wf hd.regions }
  synths _ _ _ _ _ hd := { hd with synths := tmod_wf hd.synths }
  ends _ _ _ _ hd := { hd with ends := tmod_wf hd.ends }
  lanes _ _ _ _ hd := { hd with lanes := tmod_wf hd.lanes }
  links _ _ _ _ hd := { hd with links := tmod_wf hd.links }
  rails _ _ _ _ hd := { hd with rails := tmod_wf hd.rails }
  sensors _ _ _ _ hd := { hd with sensors := tmod_wf hd.sensors }
  watches _ _ _ _ hd := { hd with watches := tmod_wf hd.watches }
  contexts _ _ _ _ hd := { hd with contexts := tset_wf hd.contexts }
  tenants _ _ _ _ hd := { hd with tenants := tmod_wf hd.tenants }
  queues _ _ _ _ hd := { hd with queues := tmod_wf hd.queues }
  sram _ _ _ _ hd := { hd with sram := sramPut_wf _ hd.sram }
  host _ _ _ hd := { hd with sram := hostCells_wf _ hd.sram }
  hbm _ _ _ _ hd := { hd with hbm := tset_wf hd.hbm }
  records _ _ _ _ hd := { hd with }
  reset _ _ hd :=
    { hd with
      islands := canonical_wf _
      regions := canonical_wf _
      synths := canonical_wf _
      links := canonical_wf _
      rails := canonical_wf _
      sensors := canonical_wf _
      ends := rfl
      lanes := rfl
      contexts := rfl
      watches := rfl
      tenants := rfl }

/-- A record written keeps the ring, the write index and the count in step. -/
theorem writeRecord_counted {x : Record} {d : Die} (h : d.ledger.Counted) : (writeRecord x d).ledger.Counted := by
  obtain ⟨h1, h2⟩ := h
  refine ⟨?_, ?_⟩
  · show (((if decide (Config.ledgerRecords ≤ d.ledger.ring.length) = true then d.ledger.ring.tail else d.ledger.ring) ++ [x]).length) = min (d.ledger.count + 1) Config.ledgerRecords
    simp only [decide_eq_true_eq, List.length_append, List.length_singleton]
    have hp : 0 < Config.ledgerRecords := by decide
    split
    · rw [List.length_tail]; omega
    · omega
  · show (d.ledger.index + 1) % Config.ledgerRecords = (d.ledger.count + 1) % Config.ledgerRecords
    rw [h2, Nat.mod_add_mod]

/-- Every write of the die keeps the Ledger's ring and count in step. -/
theorem counted_closed (l : List Part) : Closed (fun d => d.ledger.Counted) l where
  lits d d' h _ hd := by
    obtain ⟨e1, e2, e3⟩ : d'.ledger.ring = d.ledger.ring ∧ d'.ledger.index = d.ledger.index ∧ d'.ledger.count = d.ledger.count := h .records (by decide)
    exact ⟨by rw [e1, e3]; exact hd.1, by rw [e2, e3]; exact hd.2⟩
  islands _ _ _ _ hd := hd
  regions _ _ _ _ hd := hd
  synths _ _ _ _ _ hd := hd
  ends _ _ _ _ hd := hd
  lanes _ _ _ _ hd := hd
  links _ _ _ _ hd := hd
  rails _ _ _ _ hd := hd
  sensors _ _ _ _ hd := hd
  watches _ _ _ _ hd := hd
  contexts _ _ _ _ hd := hd
  tenants _ _ _ _ hd := hd
  queues _ _ _ _ hd := hd
  sram _ _ _ _ hd := hd
  host _ _ _ hd := hd
  hbm _ _ _ _ hd := hd
  records _ _ _ _ hd := writeRecord_counted hd
  reset _ _ hd := hd

end Sys2Proof.Machine
end

