-- ==== Sys2Proof/Laws/Untouched.lean ====
section
/-! SUPPORT. Parts of the die that shared operations leave alone, as rewriting rules. -/

namespace Sys2Proof.Machine
open Sys2Proof
set_option Elab.async false
set_option linter.all false

theorem each_clocks {α : Type} {l : List α} {f : α → Die → Die} {d : Die} (h : ∀ a d, (f a d).clocks = d.clocks) : (each l f d).clocks = d.clocks :=
  each_kept (P := fun e => e.clocks = d.clocks) (fun a e he => (h a e).trans he) rfl

theorem each_limits {α : Type} {l : List α} {f : α → Die → Die} {d : Die} (h : ∀ a d, (f a d).limits = d.limits) : (each l f d).limits = d.limits :=
  each_kept (P := fun e => e.limits = d.limits) (fun a e he => (h a e).trans he) rfl

theorem each_startup {α : Type} {l : List α} {f : α → Die → Die} {d : Die} (h : ∀ a d, (f a d).startup = d.startup) : (each l f d).startup = d.startup :=
  each_kept (P := fun e => e.startup = d.startup) (fun a e he => (h a e).trans he) rfl

theorem each_stop {α : Type} {l : List α} {f : α → Die → Die} {d : Die} (h : ∀ a d, (f a d).stop = d.stop) : (each l f d).stop = d.stop :=
  each_kept (P := fun e => e.stop = d.stop) (fun a e he => (h a e).trans he) rfl

theorem each_store {α : Type} {l : List α} {f : α → Die → Die} {d : Die} (h : ∀ a d, (f a d).store = d.store) : (each l f d).store = d.store :=
  each_kept (P := fun e => e.store = d.store) (fun a e he => (h a e).trans he) rfl

theorem each_tally {α : Type} {l : List α} {f : α → Die → Die} {d : Die} (h : ∀ a d, (f a d).tally = d.tally) : (each l f d).tally = d.tally :=
  each_kept (P := fun e => e.tally = d.tally) (fun a e he => (h a e).trans he) rfl

@[simp] theorem abortWhere_stop (p : Commit → Nat → Bool) (reason fault : Nat) (d : Die) : (abortWhere p reason fault d).stop = d.stop :=
  (abortWhere_kept (sameBut_closed _ d) p reason fault d (sameBut_refl _ d)) .stop (by decide)

@[simp] theorem abortWhere_startup (p : Commit → Nat → Bool) (reason fault : Nat) (d : Die) : (abortWhere p reason fault d).startup = d.startup :=
  (abortWhere_kept (sameBut_closed _ d) p reason fault d (sameBut_refl _ d)) .startup (by decide)

@[simp] theorem abortWhere_tally (p : Commit → Nat → Bool) (reason fault : Nat) (d : Die) : (abortWhere p reason fault d).tally = d.tally :=
  (abortWhere_kept (sameBut_closed _ d) p reason fault d (sameBut_refl _ d)) .tally (by decide)

@[simp] theorem abortWhere_clocks (p : Commit → Nat → Bool) (reason fault : Nat) (d : Die) : (abortWhere p reason fault d).clocks = d.clocks :=
  (abortWhere_kept (sameBut_closed _ d) p reason fault d (sameBut_refl _ d)) .clocks (by decide)

@[simp] theorem abortWhere_limits (p : Commit → Nat → Bool) (reason fault : Nat) (d : Die) : (abortWhere p reason fault d).limits = d.limits :=
  (abortWhere_kept (sameBut_closed _ d) p reason fault d (sameBut_refl _ d)) .limits (by decide)

@[simp] theorem assayAbort_stop (r cause : Nat) (d : Die) : (assayAbort r cause d).stop = d.stop :=
  (assayAbort_kept (sameBut_closed _ d) r cause d (sameBut_refl _ d)) .stop (by decide)

@[simp] theorem assayAbort_startup (r cause : Nat) (d : Die) : (assayAbort r cause d).startup = d.startup :=
  (assayAbort_kept (sameBut_closed _ d) r cause d (sameBut_refl _ d)) .startup (by decide)

@[simp] theorem assayAbort_tally (r cause : Nat) (d : Die) : (assayAbort r cause d).tally = d.tally :=
  (assayAbort_kept (sameBut_closed _ d) r cause d (sameBut_refl _ d)) .tally (by decide)

@[simp] theorem assayAbort_clocks (r cause : Nat) (d : Die) : (assayAbort r cause d).clocks = d.clocks :=
  (assayAbort_kept (sameBut_closed _ d) r cause d (sameBut_refl _ d)) .clocks (by decide)

@[simp] theorem assayAbort_limits (r cause : Nat) (d : Die) : (assayAbort r cause d).limits = d.limits :=
  (assayAbort_kept (sameBut_closed _ d) r cause d (sameBut_refl _ d)) .limits (by decide)

@[simp] theorem setCeiling_stop (j r : Nat) (v : Option Nat) (d : Die) : (setCeiling j r v d).stop = d.stop :=
  (setCeiling_kept (sameBut_closed _ d) j r v d (sameBut_refl _ d)) .stop (by decide)

@[simp] theorem setCeiling_startup (j r : Nat) (v : Option Nat) (d : Die) : (setCeiling j r v d).startup = d.startup :=
  (setCeiling_kept (sameBut_closed _ d) j r v d (sameBut_refl _ d)) .startup (by decide)

@[simp] theorem setCeiling_store (j r : Nat) (v : Option Nat) (d : Die) : (setCeiling j r v d).store = d.store :=
  (setCeiling_kept (sameBut_closed _ d) j r v d (sameBut_refl _ d)) .store (by decide)

@[simp] theorem setCeiling_tally (j r : Nat) (v : Option Nat) (d : Die) : (setCeiling j r v d).tally = d.tally :=
  (setCeiling_kept (sameBut_closed _ d) j r v d (sameBut_refl _ d)) .tally (by decide)

@[simp] theorem setCeiling_clocks (j r : Nat) (v : Option Nat) (d : Die) : (setCeiling j r v d).clocks = d.clocks :=
  (setCeiling_kept (sameBut_closed _ d) j r v d (sameBut_refl _ d)) .clocks (by decide)

@[simp] theorem setCeiling_limits (j r : Nat) (v : Option Nat) (d : Die) : (setCeiling j r v d).limits = d.limits :=
  (setCeiling_kept (sameBut_closed _ d) j r v d (sameBut_refl _ d)) .limits (by decide)

@[simp] theorem stopBellows_stop (i : Nat) (d : Die) : (stopBellows i d).stop = d.stop :=
  (stopBellows_kept (sameBut_closed _ d) i d (sameBut_refl _ d)) .stop (by decide)

@[simp] theorem stopBellows_startup (i : Nat) (d : Die) : (stopBellows i d).startup = d.startup :=
  (stopBellows_kept (sameBut_closed _ d) i d (sameBut_refl _ d)) .startup (by decide)

@[simp] theorem stopBellows_store (i : Nat) (d : Die) : (stopBellows i d).store = d.store :=
  (stopBellows_kept (sameBut_closed _ d) i d (sameBut_refl _ d)) .store (by decide)

@[simp] theorem stopBellows_tally (i : Nat) (d : Die) : (stopBellows i d).tally = d.tally :=
  (stopBellows_kept (sameBut_closed _ d) i d (sameBut_refl _ d)) .tally (by decide)

@[simp] theorem stopBellows_clocks (i : Nat) (d : Die) : (stopBellows i d).clocks = d.clocks :=
  (stopBellows_kept (sameBut_closed _ d) i d (sameBut_refl _ d)) .clocks (by decide)

@[simp] theorem stopBellows_limits (i : Nat) (d : Die) : (stopBellows i d).limits = d.limits :=
  (stopBellows_kept (sameBut_closed _ d) i d (sameBut_refl _ d)) .limits (by decide)

@[simp] theorem stopSynths_stop (r : Nat) (d : Die) : (stopSynths r d).stop = d.stop :=
  (stopSynths_kept (sameBut_closed _ d) r d (sameBut_refl _ d)) .stop (by decide)

@[simp] theorem stopSynths_startup (r : Nat) (d : Die) : (stopSynths r d).startup = d.startup :=
  (stopSynths_kept (sameBut_closed _ d) r d (sameBut_refl _ d)) .startup (by decide)

@[simp] theorem stopSynths_store (r : Nat) (d : Die) : (stopSynths r d).store = d.store :=
  (stopSynths_kept (sameBut_closed _ d) r d (sameBut_refl _ d)) .store (by decide)

@[simp] theorem stopSynths_tally (r : Nat) (d : Die) : (stopSynths r d).tally = d.tally :=
  (stopSynths_kept (sameBut_closed _ d) r d (sameBut_refl _ d)) .tally (by decide)

@[simp] theorem stopSynths_clocks (r : Nat) (d : Die) : (stopSynths r d).clocks = d.clocks :=
  (stopSynths_kept (sameBut_closed _ d) r d (sameBut_refl _ d)) .clocks (by decide)

@[simp] theorem stopSynths_limits (r : Nat) (d : Die) : (stopSynths r d).limits = d.limits :=
  (stopSynths_kept (sameBut_closed _ d) r d (sameBut_refl _ d)) .limits (by decide)

@[simp] theorem allRetention_stop (d : Die) : (allRetention d).stop = d.stop :=
  (allRetention_kept (sameBut_closed _ d) d (sameBut_refl _ d)) .stop (by decide)

@[simp] theorem allRetention_startup (d : Die) : (allRetention d).startup = d.startup :=
  (allRetention_kept (sameBut_closed _ d) d (sameBut_refl _ d)) .startup (by decide)

@[simp] theorem allRetention_store (d : Die) : (allRetention d).store = d.store :=
  (allRetention_kept (sameBut_closed _ d) d (sameBut_refl _ d)) .store (by decide)

@[simp] theorem allRetention_tally (d : Die) : (allRetention d).tally = d.tally :=
  (allRetention_kept (sameBut_closed _ d) d (sameBut_refl _ d)) .tally (by decide)

@[simp] theorem allRetention_clocks (d : Die) : (allRetention d).clocks = d.clocks :=
  (allRetention_kept (sameBut_closed _ d) d (sameBut_refl _ d)) .clocks (by decide)

@[simp] theorem allRetention_limits (d : Die) : (allRetention d).limits = d.limits :=
  (allRetention_kept (sameBut_closed _ d) d (sameBut_refl _ d)) .limits (by decide)

@[simp] theorem endDrains_stop (d : Die) : (endDrains d).stop = d.stop :=
  (endDrains_kept (sameBut_closed _ d) d (sameBut_refl _ d)) .stop (by decide)

@[simp] theorem endDrains_startup (d : Die) : (endDrains d).startup = d.startup :=
  (endDrains_kept (sameBut_closed _ d) d (sameBut_refl _ d)) .startup (by decide)

@[simp] theorem endDrains_store (d : Die) : (endDrains d).store = d.store :=
  (endDrains_kept (sameBut_closed _ d) d (sameBut_refl _ d)) .store (by decide)

@[simp] theorem endDrains_tally (d : Die) : (endDrains d).tally = d.tally :=
  (endDrains_kept (sameBut_closed _ d) d (sameBut_refl _ d)) .tally (by decide)

@[simp] theorem endDrains_clocks (d : Die) : (endDrains d).clocks = d.clocks :=
  (endDrains_kept (sameBut_closed _ d) d (sameBut_refl _ d)) .clocks (by decide)

@[simp] theorem returnLoan_stop (l ack : Nat) (d : Die) : (returnLoan l ack d).stop = d.stop :=
  (returnLoan_kept (sameBut_closed _ d) l ack d (sameBut_refl _ d)) .stop (by decide)

@[simp] theorem returnLoan_startup (l ack : Nat) (d : Die) : (returnLoan l ack d).startup = d.startup :=
  (returnLoan_kept (sameBut_closed _ d) l ack d (sameBut_refl _ d)) .startup (by decide)

@[simp] theorem returnLoan_store (l ack : Nat) (d : Die) : (returnLoan l ack d).store = d.store :=
  (returnLoan_kept (sameBut_closed _ d) l ack d (sameBut_refl _ d)) .store (by decide)

@[simp] theorem returnLoan_tally (l ack : Nat) (d : Die) : (returnLoan l ack d).tally = d.tally :=
  (returnLoan_kept (sameBut_closed _ d) l ack d (sameBut_refl _ d)) .tally (by decide)

@[simp] theorem returnLoan_clocks (l ack : Nat) (d : Die) : (returnLoan l ack d).clocks = d.clocks :=
  (returnLoan_kept (sameBut_closed _ d) l ack d (sameBut_refl _ d)) .clocks (by decide)

@[simp] theorem freeze_stop (cause : Nat) (d : Die) : (freeze cause d).stop = d.stop :=
  (freeze_kept (sameBut_closed _ d) cause d (sameBut_refl _ d)) .stop (by decide)

@[simp] theorem freeze_startup (cause : Nat) (d : Die) : (freeze cause d).startup = d.startup :=
  (freeze_kept (sameBut_closed _ d) cause d (sameBut_refl _ d)) .startup (by decide)

@[simp] theorem freeze_store (cause : Nat) (d : Die) : (freeze cause d).store = d.store :=
  (freeze_kept (sameBut_closed _ d) cause d (sameBut_refl _ d)) .store (by decide)

@[simp] theorem freeze_tally (cause : Nat) (d : Die) : (freeze cause d).tally = d.tally :=
  (freeze_kept (sameBut_closed _ d) cause d (sameBut_refl _ d)) .tally (by decide)

@[simp] theorem freeze_clocks (cause : Nat) (d : Die) : (freeze cause d).clocks = d.clocks :=
  (freeze_kept (sameBut_closed _ d) cause d (sameBut_refl _ d)) .clocks (by decide)

@[simp] theorem freeze_limits (cause : Nat) (d : Die) : (freeze cause d).limits = d.limits :=
  (freeze_kept (sameBut_closed _ d) cause d (sameBut_refl _ d)) .limits (by decide)

@[simp] theorem throttleAll_stop (d : Die) : (throttleAll d).stop = d.stop :=
  (throttleAll_kept (sameBut_closed _ d) d (sameBut_refl _ d)) .stop (by decide)

@[simp] theorem throttleAll_startup (d : Die) : (throttleAll d).startup = d.startup :=
  (throttleAll_kept (sameBut_closed _ d) d (sameBut_refl _ d)) .startup (by decide)

@[simp] theorem throttleAll_store (d : Die) : (throttleAll d).store = d.store :=
  (throttleAll_kept (sameBut_closed _ d) d (sameBut_refl _ d)) .store (by decide)

@[simp] theorem throttleAll_tally (d : Die) : (throttleAll d).tally = d.tally :=
  (throttleAll_kept (sameBut_closed _ d) d (sameBut_refl _ d)) .tally (by decide)

@[simp] theorem throttleAll_clocks (d : Die) : (throttleAll d).clocks = d.clocks :=
  (throttleAll_kept (sameBut_closed _ d) d (sameBut_refl _ d)) .clocks (by decide)

@[simp] theorem throttleAll_limits (d : Die) : (throttleAll d).limits = d.limits :=
  (throttleAll_kept (sameBut_closed _ d) d (sameBut_refl _ d)) .limits (by decide)

@[simp] theorem haltDie_tally (coolant : Bool) (d : Die) : (haltDie coolant d).tally = d.tally :=
  (haltDie_kept (sameBut_closed _ d) coolant d (sameBut_refl _ d)) .tally (by decide)

@[simp] theorem haltDie_clocks (coolant : Bool) (d : Die) : (haltDie coolant d).clocks = d.clocks :=
  (haltDie_kept (sameBut_closed _ d) coolant d (sameBut_refl _ d)) .clocks (by decide)

@[simp] theorem fabricFault_tally (cause detail : Nat) (d : Die) : (fabricFault cause detail d).tally = d.tally :=
  (fabricFault_kept (sameBut_closed _ d) cause detail d (sameBut_refl _ d)) .tally (by decide)

@[simp] theorem fabricFault_clocks (cause detail : Nat) (d : Die) : (fabricFault cause detail d).clocks = d.clocks :=
  (fabricFault_kept (sameBut_closed _ d) cause detail d (sameBut_refl _ d)) .clocks (by decide)

@[simp] theorem refSwitch_tally (n cause : Nat) (d : Die) : (refSwitch n cause d).tally = d.tally :=
  (refSwitch_kept (sameBut_closed _ d) n cause d (sameBut_refl _ d)) .tally (by decide)

@[simp] theorem refSwitch_stop (n cause : Nat) (d : Die) : (refSwitch n cause d).stop = d.stop :=
  (refSwitch_kept (sameBut_closed _ d) n cause d (sameBut_refl _ d)) .stop (by decide)

@[simp] theorem emitRetire_clocks (kind sub count : Nat) (l : Loc) (id : Nat) (d : Die) : (emitRetire kind sub count l id d).clocks = d.clocks :=
  (emitRetire_kept (sameBut_closed _ d) kind sub count l id d (sameBut_refl _ d)) .clocks (by decide)

@[simp] theorem emitRetire_tally (kind sub count : Nat) (l : Loc) (id : Nat) (d : Die) : (emitRetire kind sub count l id d).tally = d.tally :=
  (emitRetire_kept (sameBut_closed _ d) kind sub count l id d (sameBut_refl _ d)) .tally (by decide)

@[simp] theorem emitRetire_stop (kind sub count : Nat) (l : Loc) (id : Nat) (d : Die) : (emitRetire kind sub count l id d).stop = d.stop :=
  (emitRetire_kept (sameBut_closed _ d) kind sub count l id d (sameBut_refl _ d)) .stop (by decide)

end Sys2Proof.Machine
end

