-- ==== Sys2Proof/Laws/Operations.lean ====
section
/-! SUPPORT. What the shared operations do to the stop state of the die, once for each. -/

namespace Sys2Proof.Machine
open Sys2Proof
set_option Elab.async false
set_option linter.all false

theorem iff'_stop {c : Bool} {f : Die → Die} {d : Die} (h : ∀ d, (f d).stop = d.stop) : (iff' c f d).stop = d.stop := by
  unfold iff'
  split <;> simp [h]

/-- The halt stops the die and cancels a scheduled release; nothing else of the stop state changes (R264). -/
theorem haltDie_stop (c : Bool) (d : Die) : (haltDie c d).stop = { d.stop with stopped := true, resumeAt := none } := by
  unfold haltDie
  dsimp only
  simp only [each_stop, returnLoan_stop, allRetention_stop, endDrains_stop, stopSynths_stop, stopBellows_stop, setCeiling_stop, iff'_stop, implies_true]
  split <;> (try split) <;> simp

/-- A fabric fault that stops the die (R415). -/
theorem fabricFault_stop {c det : Nat} {d : Die} (hc : c ≠ 3) : (fabricFault c det d).stop =
    { d.stop with fault := c, faultDetail := det, faultStop := some c, td := if d.stop.stopped then d.stop.td else d.tally.now, resumeAt := none, stopped := true } := by
  unfold fabricFault
  dsimp only
  rw [if_neg hc]
  split
  · rename_i h
    simp only [freeze_stop, fabricInt_stop, emit_stop, freeze_tally, fabricInt_tally, emit_tally] at h ⊢
    simp at h
    simp [h]
  · simp only [throttleAll_stop, haltDie_stop]
    simp

/-- A stop of the die (R264, R266). -/
theorem stopDie_stop (c sn : Nat) (d : Die) : (stopDie c sn d).stop = { d.stop with
    coolant := d.stop.coolant || decide (c = 1)
    trip := d.stop.trip || decide (c = 2)
    estop := d.stop.estop || decide (c = 3)
    register := d.stop.register || decide (c = 4)
    thermtrip := d.stop.thermtrip || decide (c ≤ 2)
    stood := d.stop.stood ||| 2 ^ (c - 1)
    td := d.tally.now
    resumeAt := none
    stopped := true } := by
  unfold stopDie
  dsimp only
  rw [throttleAll_stop]
  have hf : ∀ e : Die, (if c ≤ 2 then freeze c e else e).stop = e.stop := by
    intro e
    split <;> simp
  rw [hf]
  split
  · rename_i h
    simp at h
    rw [iff'_stop]
    · simp [h]
    · intro e
      apply each_stop
      intro a d
      simp
  · simp [haltDie_stop]

end Sys2Proof.Machine
end

