-- ==== Sys2Proof/Laws/CanonicalKept.lean ====
section
/-! SUPPORT. The operations keep the tables of the die in their canonical form, as rewriting rules. -/

namespace Sys2Proof.Machine
open Sys2Proof
set_option Elab.async false
set_option linter.all false

@[simp] theorem can_islands {d : Die} (h : d.Canonical) : tblWf {} d.islands = true := h.islands

@[simp] theorem can_regions {d : Die} (h : d.Canonical) : tblWf {} d.regions = true := h.regions

@[simp] theorem can_synths {d : Die} (h : d.Canonical) : tblWf {} d.synths = true := h.synths

@[simp] theorem can_ends {d : Die} (h : d.Canonical) : tblWf {} d.ends = true := h.ends

@[simp] theorem can_lanes {d : Die} (h : d.Canonical) : tblWf {} d.lanes = true := h.lanes

@[simp] theorem can_links {d : Die} (h : d.Canonical) : tblWf {} d.links = true := h.links

@[simp] theorem can_rails {d : Die} (h : d.Canonical) : tblWf {} d.rails = true := h.rails

@[simp] theorem can_sensors {d : Die} (h : d.Canonical) : tblWf {} d.sensors = true := h.sensors

@[simp] theorem can_watches {d : Die} (h : d.Canonical) : tblWf {} d.watches = true := h.watches

@[simp] theorem can_contexts {d : Die} (h : d.Canonical) : tblWf none d.contexts = true := h.contexts

@[simp] theorem can_tenants {d : Die} (h : d.Canonical) : tblWf {} d.tenants = true := h.tenants

@[simp] theorem can_queues {d : Die} (h : d.Canonical) : tblWf {} d.queues = true := h.queues

@[simp] theorem can_hbm {d : Die} (h : d.Canonical) : tblWf none d.hbm = true := h.hbm

@[simp] theorem can_sram {d : Die} (h : d.Canonical) : tblWf 0#8 d.sram = true := h.sram

@[simp] theorem can_mk a_tally a_clocks a_startup a_stop a_regs a_ledger a_chandler a_store a_limits a_islands a_regions a_synths a_ends a_lanes a_links a_rails a_sensors a_watches a_messages a_delivered a_contexts a_commits a_commitReqs a_nextCommit a_tenants a_queues a_sram a_streams a_dormant a_hbm a_fresh : Die.Canonical ⟨a_tally, a_clocks, a_startup, a_stop, a_regs, a_ledger, a_chandler, a_store, a_limits, a_islands, a_regions, a_synths, a_ends, a_lanes, a_links, a_rails, a_sensors, a_watches, a_messages, a_delivered, a_contexts, a_commits, a_commitReqs, a_nextCommit, a_tenants, a_queues, a_sram, a_streams, a_dormant, a_hbm, a_fresh⟩ ↔ (tblWf {} a_islands = true ∧ tblWf {} a_regions = true ∧ tblWf {} a_synths = true ∧ tblWf {} a_ends = true ∧ tblWf {} a_lanes = true ∧ tblWf {} a_links = true ∧ tblWf {} a_rails = true ∧ tblWf {} a_sensors = true ∧ tblWf {} a_watches = true ∧ tblWf none a_contexts = true ∧ tblWf {} a_tenants = true ∧ tblWf {} a_queues = true ∧ tblWf none a_hbm = true ∧ tblWf 0#8 a_sram = true) :=
  ⟨fun h => ⟨h.islands, h.regions, h.synths, h.ends, h.lanes, h.links, h.rails, h.sensors, h.watches, h.contexts, h.tenants, h.queues, h.hbm, h.sram⟩, fun h => ⟨h.1, h.2.1, h.2.2.1, h.2.2.2.1, h.2.2.2.2.1, h.2.2.2.2.2.1, h.2.2.2.2.2.2.1, h.2.2.2.2.2.2.2.1, h.2.2.2.2.2.2.2.2.1, h.2.2.2.2.2.2.2.2.2.1, h.2.2.2.2.2.2.2.2.2.2.1, h.2.2.2.2.2.2.2.2.2.2.2.1, h.2.2.2.2.2.2.2.2.2.2.2.2.1, h.2.2.2.2.2.2.2.2.2.2.2.2.2⟩⟩

theorem each_can {α : Type} {l : List α} {f : α → Die → Die} {d : Die} (h : d.Canonical) (hf : ∀ a d, d.Canonical → (f a d).Canonical) : (each l f d).Canonical := each_kept (P := Die.Canonical) hf h

@[simp] theorem modRing_can (i : Nat) (f : Ring → Ring) (d : Die) (hc0 : d.Canonical) : (modRing i f d).Canonical := modRing_kept (canonical_closed _) i f d hc0

@[simp] theorem modMargin_can (i : Nat) (f : Margin → Margin) (d : Die) (hc0 : d.Canonical) : (modMargin i f d).Canonical := modMargin_kept (canonical_closed _) i f d hc0

@[simp] theorem modHolds_can (i : Nat) (f : Holds → Holds) (d : Die) (hc0 : d.Canonical) : (modHolds i f d).Canonical := modHolds_kept (canonical_closed _) i f d hc0

@[simp] theorem modRegion_can (r : Nat) (f : Region → Region) (d : Die) (hc0 : d.Canonical) : (modRegion r f d).Canonical := modRegion_kept (canonical_closed [.regions]) (by decide) r f d hc0

@[simp] theorem modSynth_can (r x : Nat) (f : Synth → Synth) (d : Die) (hc0 : d.Canonical) : (modSynth r x f d).Canonical := modSynth_kept (canonical_closed [.synths]) (by decide) r x f d hc0

@[simp] theorem modEnd_can (k : Nat) (f : EdgeEnd → EdgeEnd) (d : Die) (hc0 : d.Canonical) : (modEnd k f d).Canonical := modEnd_kept (canonical_closed [.ends]) (by decide) k f d hc0

@[simp] theorem modLane_can (k : Nat) (f : Lane → Lane) (d : Die) (hc0 : d.Canonical) : (modLane k f d).Canonical := modLane_kept (canonical_closed [.lanes]) (by decide) k f d hc0

@[simp] theorem modLink_can (l : Nat) (f : Link → Link) (d : Die) (hc0 : d.Canonical) : (modLink l f d).Canonical := modLink_kept (canonical_closed [.links]) (by decide) l f d hc0

@[simp] theorem modRail_can (k : Nat) (f : Rail → Rail) (d : Die) (hc0 : d.Canonical) : (modRail k f d).Canonical := modRail_kept (canonical_closed [.rails]) (by decide) k f d hc0

@[simp] theorem modSensor_can (n : Nat) (f : Sensor → Sensor) (d : Die) (hc0 : d.Canonical) : (modSensor n f d).Canonical := modSensor_kept (canonical_closed [.sensors]) (by decide) n f d hc0

@[simp] theorem modWatch_can (w : Nat) (f : Watch → Watch) (d : Die) (hc0 : d.Canonical) : (modWatch w f d).Canonical := modWatch_kept (canonical_closed [.watches]) (by decide) w f d hc0

@[simp] theorem modTenant_can (t : Nat) (f : Tenant → Tenant) (d : Die) (hc0 : d.Canonical) : (modTenant t f d).Canonical := modTenant_kept (canonical_closed [.tenants]) (by decide) t f d hc0

@[simp] theorem modQueue_can (q : Nat) (f : Queue → Queue) (d : Die) (hc0 : d.Canonical) : (modQueue q f d).Canonical := modQueue_kept (canonical_closed [.queues]) (by decide) q f d hc0

@[simp] theorem drawFree_can (d : Die) (hc0 : d.Canonical) : (drawFree d).Canonical := drawFree_kept (canonical_closed _) d hc0

@[simp] theorem emit_can (code : Nat) (l : Loc) (payload : Bytes) (d : Die) (hc0 : d.Canonical) : (emit code l payload d).Canonical := emit_kept (canonical_closed _) code l payload d hc0

@[simp] theorem emitRetire_can (kind sub count : Nat) (l : Loc) (id : Nat) (d : Die) (hc0 : d.Canonical) : (emitRetire kind sub count l id d).Canonical := emitRetire_kept (canonical_closed _) kind sub count l id d hc0

@[simp] theorem fabricInt_can (b : Nat) (d : Die) (hc0 : d.Canonical) : (fabricInt b d).Canonical := fabricInt_kept (canonical_closed _) b d hc0

@[simp] theorem freeze_can (cause : Nat) (d : Die) (hc0 : d.Canonical) : (freeze cause d).Canonical := freeze_kept (canonical_closed _) cause d hc0

@[simp] theorem retarget_can (k : Nat) (d : Die) (hc0 : d.Canonical) : (retarget k d).Canonical := retarget_kept (canonical_closed _) k d hc0

@[simp] theorem railOn_can (k : Nat) (d : Die) (hc0 : d.Canonical) : (railOn k d).Canonical := railOn_kept (canonical_closed _) k d hc0

@[simp] theorem allRetention_can (d : Die) (hc0 : d.Canonical) : (allRetention d).Canonical := allRetention_kept (canonical_closed _) d hc0

@[simp] theorem throttleUpdate_can (r : Nat) (d : Die) (hc0 : d.Canonical) : (throttleUpdate r d).Canonical := throttleUpdate_kept (canonical_closed _) r d hc0

@[simp] theorem throttleAll_can (d : Die) (hc0 : d.Canonical) : (throttleAll d).Canonical := throttleAll_kept (canonical_closed _) d hc0

@[simp] theorem joinRequest_can (src : CommitSource) (target ctx r : Nat) (d : Die) (hc0 : d.Canonical) : (joinRequest src target ctx r d).Canonical := joinRequest_kept (canonical_closed _) src target ctx r d hc0

@[simp] theorem regrant_can (r : Nat) (d : Die) (hc0 : d.Canonical) : (regrant r d).Canonical := regrant_kept (canonical_closed _) r d hc0

@[simp] theorem ceilingChanged_can (before r : Nat) (d : Die) (hc0 : d.Canonical) : (ceilingChanged before r d).Canonical := ceilingChanged_kept (canonical_closed _) before r d hc0

@[simp] theorem changeCeilings_can (r : Nat) (f : Region → Region) (d : Die) (hc0 : d.Canonical) : (changeCeilings r f d).Canonical := changeCeilings_kept (canonical_closed _) r f d hc0

@[simp] theorem setCeiling_can (j r : Nat) (v : Option Nat) (d : Die) (hc0 : d.Canonical) : (setCeiling j r v d).Canonical := setCeiling_kept (canonical_closed _) j r v d hc0

@[simp] theorem writeSynth_can (r sy : Nat) (s : Setting) (use : SynthUse) (must : Bool) (d : Die) (hc0 : d.Canonical) : (writeSynth r sy s use must d).Canonical := writeSynth_kept (canonical_closed _) r sy s use must d hc0

@[simp] theorem powerSynth_can (r sy : Nat) (d : Die) (hc0 : d.Canonical) : (powerSynth r sy d).Canonical := powerSynth_kept (canonical_closed _) r sy d hc0

@[simp] theorem retuneStandby_can (r : Nat) (d : Die) (hc0 : d.Canonical) : (retuneStandby r d).Canonical := retuneStandby_kept (canonical_closed _) r d hc0

@[simp] theorem droverStop_can (r : Nat) (d : Die) (hc0 : d.Canonical) : (droverStop r d).Canonical := droverStop_kept (canonical_closed _) r d hc0

@[simp] theorem modCommit_can (id : Nat) (f : Commit → Commit) (d : Die) (hc0 : d.Canonical) : (modCommit id f d).Canonical := modCommit_kept (canonical_closed _) id f d hc0

@[simp] theorem clearTarget_can (r : Nat) (d : Die) (hc0 : d.Canonical) : (clearTarget r d).Canonical := clearTarget_kept (canonical_closed _) r d hc0

@[simp] theorem abortCommit_can (id reason rgn fault : Nat) (d : Die) (hc0 : d.Canonical) : (abortCommit id reason rgn fault d).Canonical := abortCommit_kept (canonical_closed _) id reason rgn fault d hc0

@[simp] theorem abortWhere_can (p : Commit → Nat → Bool) (reason fault : Nat) (d : Die) (hc0 : d.Canonical) : (abortWhere p reason fault d).Canonical := abortWhere_kept (canonical_closed _) p reason fault d hc0

@[simp] theorem abortRegion_can (r reason fault : Nat) (d : Die) (hc0 : d.Canonical) : (abortRegion r reason fault d).Canonical := abortRegion_kept (canonical_closed _) r reason fault d hc0

@[simp] theorem postCompletion_can (q : Nat) (desc : Bytes) (slot status flags result detail : Nat) (d : Die) (hc0 : d.Canonical) : (postCompletion q desc slot status flags result detail d).Canonical := postCompletion_kept (canonical_closed _) q desc slot status flags result detail d hc0

@[simp] theorem finish_can (q : Nat) (reply : Reply) (d : Die) (hc0 : d.Canonical) : (finish q reply d).Canonical := finish_kept (canonical_closed _) q reply d hc0

@[simp] theorem coupleEnd_can (src k : Nat) (d : Die) (hc0 : d.Canonical) : (coupleEnd src k d).Canonical := coupleEnd_kept (canonical_closed _) src k d hc0

@[simp] theorem uncoupleEnd_can (src k : Nat) (d : Die) (hc0 : d.Canonical) : (uncoupleEnd src k d).Canonical := uncoupleEnd_kept (canonical_closed _) src k d hc0

@[simp] theorem coupleRefused_can (i e reason src : Nat) (d : Die) (hc0 : d.Canonical) : (coupleRefused i e reason src d).Canonical := coupleRefused_kept (canonical_closed _) i e reason src d hc0

@[simp] theorem refreshIsland_can (i : Nat) (d : Die) (hc0 : d.Canonical) : (refreshIsland i d).Canonical := refreshIsland_kept (canonical_closed _) i d hc0

@[simp] theorem clearLinkLanes_can (l : Nat) (d : Die) (hc0 : d.Canonical) : (clearLinkLanes l d).Canonical := clearLinkLanes_kept (canonical_closed _) l d hc0

@[simp] theorem coupleLink_can (l tag : Nat) (d : Die) (hc0 : d.Canonical) : (coupleLink l tag d).Canonical := coupleLink_kept (canonical_closed _) l tag d hc0

@[simp] theorem uncoupleLink_can (l : Nat) (d : Die) (hc0 : d.Canonical) : (uncoupleLink l d).Canonical := uncoupleLink_kept (canonical_closed _) l d hc0

@[simp] theorem closeGate_can (i : Nat) (d : Die) (hc0 : d.Canonical) : (closeGate i d).Canonical := closeGate_kept (canonical_closed _) i d hc0

@[simp] theorem stopBellows_can (i : Nat) (d : Die) (hc0 : d.Canonical) : (stopBellows i d).Canonical := stopBellows_kept (canonical_closed _) i d hc0

@[simp] theorem startBellows_can (i : Nat) (d : Die) (hc0 : d.Canonical) : (startBellows i d).Canonical := startBellows_kept (canonical_closed _) i d hc0

@[simp] theorem regionClockLost_can (r : Nat) (d : Die) (hc0 : d.Canonical) : (regionClockLost r d).Canonical := regionClockLost_kept (canonical_closed _) r d hc0

@[simp] theorem regionClockBack_can (r : Nat) (d : Die) (hc0 : d.Canonical) : (regionClockBack r d).Canonical := regionClockBack_kept (canonical_closed _) r d hc0

@[simp] theorem selectSynth_can (r sy : Nat) (d : Die) (hc0 : d.Canonical) : (selectSynth r sy d).Canonical := selectSynth_kept (canonical_closed _) r sy d hc0

@[simp] theorem deselect_can (r : Nat) (d : Die) (hc0 : d.Canonical) : (deselect r d).Canonical := deselect_kept (canonical_closed _) r d hc0

@[simp] theorem adoptOpp_can (r k : Nat) (d : Die) (hc0 : d.Canonical) : (adoptOpp r k d).Canonical := adoptOpp_kept (canonical_closed _) r k d hc0

@[simp] theorem clearRuns_can (r : Nat) (d : Die) (hc0 : d.Canonical) : (clearRuns r d).Canonical := clearRuns_kept (canonical_closed _) r d hc0

@[simp] theorem noteOutside_can (r : Nat) (d : Die) (hc0 : d.Canonical) : (noteOutside r d).Canonical := noteOutside_kept (canonical_closed _) r d hc0

@[simp] theorem missedRecord_can (r : Nat) (d : Die) (hc0 : d.Canonical) : (missedRecord r d).Canonical := missedRecord_kept (canonical_closed _) r d hc0

@[simp] theorem assayAbort_can (r cause : Nat) (d : Die) (hc0 : d.Canonical) : (assayAbort r cause d).Canonical := assayAbort_kept (canonical_closed _) r cause d hc0

@[simp] theorem abortForSynth_can (r sy : Nat) (d : Die) (hc0 : d.Canonical) : (abortForSynth r sy d).Canonical := abortForSynth_kept (canonical_closed _) r sy d hc0

@[simp] theorem synthFailure_can (r sy : Nat) (d : Die) (hc0 : d.Canonical) : (synthFailure r sy d).Canonical := synthFailure_kept (canonical_closed _) r sy d hc0

@[simp] theorem setLoan_can (l : Nat) (v : Int) (d : Die) (hc0 : d.Canonical) : (setLoan l v d).Canonical := setLoan_kept (canonical_closed _) l v d hc0

@[simp] theorem sendPool_can (l kind ack amount : Nat) (d : Die) (hc0 : d.Canonical) : (sendPool l kind ack amount d).Canonical := sendPool_kept (canonical_closed _) l kind ack amount d hc0

@[simp] theorem poolRecord_can (code l amount role : Nat) (d : Die) (hc0 : d.Canonical) : (poolRecord code l amount role d).Canonical := poolRecord_kept (canonical_closed _) code l amount role d hc0

@[simp] theorem returnLoan_can (l ack : Nat) (d : Die) (hc0 : d.Canonical) : (returnLoan l ack d).Canonical := returnLoan_kept (canonical_closed _) l ack d hc0

@[simp] theorem stopSynths_can (r : Nat) (d : Die) (hc0 : d.Canonical) : (stopSynths r d).Canonical := stopSynths_kept (canonical_closed _) r d hc0

@[simp] theorem endDrains_can (d : Die) (hc0 : d.Canonical) : (endDrains d).Canonical := endDrains_kept (canonical_closed _) d hc0

@[simp] theorem railsUp_can (d : Die) (hc0 : d.Canonical) : (railsUp d).Canonical := railsUp_kept (canonical_closed _) d hc0

@[simp] theorem emitReset_can (kind phase origin : Nat) (l : Loc) (d : Die) (hc0 : d.Canonical) : (emitReset kind phase origin l d).Canonical := emitReset_kept (canonical_closed _) kind phase origin l d hc0

@[simp] theorem validFrame_can (l : Nat) (d : Die) (hc0 : d.Canonical) : (validFrame l d).Canonical := validFrame_kept (canonical_closed _) l d hc0

@[simp] theorem recheckAll_can (i : Nat) (obs : RingObs) (d : Die) (hc0 : d.Canonical) : (recheckAll i obs d).Canonical := recheckAll_kept (canonical_closed _) i obs d hc0

@[simp] theorem compare_can (i : Nat) (obs : RingObs) (d : Die) (hc0 : d.Canonical) : (compare i obs d).Canonical := compare_kept (canonical_closed _) i obs d hc0

@[simp] theorem endStaleEnd_can (k : Nat) (d : Die) (hc0 : d.Canonical) : (endStaleEnd k d).Canonical := endStaleEnd_kept (canonical_closed _) k d hc0

@[simp] theorem sampleToken_can (dOwn : Nat) (k : Nat) (tok : Option Nat) (d : Die) (hc0 : d.Canonical) : (sampleToken dOwn k tok d).Canonical := sampleToken_kept (canonical_closed _) dOwn k tok d hc0

@[simp] theorem sampleTokens_can (i : Nat) (toks : List (Option Nat)) (d : Die) (hc0 : d.Canonical) : (sampleTokens i toks d).Canonical := sampleTokens_kept (canonical_closed _) i toks d hc0

@[simp] theorem countHold_can (i pos cause : Nat) (d : Die) (hc0 : d.Canonical) : (countHold i pos cause d).Canonical := countHold_kept (canonical_closed _) i pos cause d hc0

@[simp] theorem crossingRecord_can (code i kind : Nat) (u : LaneUse) (d : Die) (hc0 : d.Canonical) : (crossingRecord code i kind u d).Canonical := crossingRecord_kept (canonical_closed _) code i kind u d hc0

@[simp] theorem countGuard_can (i : Nat) (u : LaneUse) (d : Die) (hc0 : d.Canonical) : (countGuard i u d).Canonical := countGuard_kept (canonical_closed _) i u d hc0

@[simp] theorem useLaneOp_can (i : Nat) (u : LaneUse) (d : Die) (hc0 : d.Canonical) : (useLaneOp i u d).Canonical := useLaneOp_kept (canonical_closed _) i u d hc0

@[simp] theorem ageLanes_can (i : Nat) (d : Die) (hc0 : d.Canonical) : (ageLanes i d).Canonical := ageLanes_kept (canonical_closed _) i d hc0

@[simp] theorem starvedSlot_can (i : Nat) (d : Die) (hc0 : d.Canonical) : (starvedSlot i d).Canonical := starvedSlot_kept (canonical_closed _) i d hc0

@[simp] theorem deliver_can (i : Nat) (d : Die) (hc0 : d.Canonical) : (deliver i d).Canonical := deliver_kept (canonical_closed _) i d hc0

@[simp] theorem nextSlot_can (i : Nat) (obs : RingObs) (d : Die) (hc0 : d.Canonical) : (nextSlot i obs d).Canonical := nextSlot_kept (canonical_closed _) i obs d hc0

@[simp] theorem closedSlot_can (i : Nat) (obs : RingObs) (d : Die) (hc0 : d.Canonical) : (closedSlot i obs d).Canonical := closedSlot_kept (canonical_closed _) i obs d hc0

@[simp] theorem periodAccounts_can (i len : Nat) (d : Die) (hc0 : d.Canonical) : (periodAccounts i len d).Canonical := periodAccounts_kept (canonical_closed _) i len d hc0

@[simp] theorem linkStaleEnd_can (l : Nat) (d : Die) (hc0 : d.Canonical) : (linkStaleEnd l d).Canonical := linkStaleEnd_kept (canonical_closed _) l d hc0

@[simp] theorem releaseLink_can (l cause : Nat) (d : Die) (hc0 : d.Canonical) : (releaseLink l cause d).Canonical := releaseLink_kept (canonical_closed _) l cause d hc0

@[simp] theorem poolLost_can (l cause : Nat) (d : Die) (hc0 : d.Canonical) : (poolLost l cause d).Canonical := poolLost_kept (canonical_closed _) l cause d hc0

@[simp] theorem regionInterval_can (r : Nat) (d : Die) (hc0 : d.Canonical) : (regionInterval r d).Canonical := regionInterval_kept (canonical_closed _) r d hc0

@[simp] theorem clearStep_can (i : Nat) (d : Die) (hc0 : d.Canonical) : (clearStep i d).Canonical := clearStep_kept (canonical_closed _) i d hc0

@[simp] theorem pauseIslands_can (r k t : Nat) (d : Die) (hc0 : d.Canonical) : (pauseIslands r k t d).Canonical := pauseIslands_kept (canonical_closed _) r k t d hc0

@[simp] theorem missedEnd_can (r : Nat) (d : Die) (hc0 : d.Canonical) : (missedEnd r d).Canonical := missedEnd_kept (canonical_closed _) r d hc0

@[simp] theorem segmentFreed_can (c : Nat) (g : Segment) (d : Die) (hc0 : d.Canonical) : (segmentFreed c g d).Canonical := segmentFreed_kept (canonical_closed _) c g d hc0

@[simp] theorem uncoupleBorders_can (r : Nat) (d : Die) (hc0 : d.Canonical) : (uncoupleBorders r d).Canonical := uncoupleBorders_kept (canonical_closed _) r d hc0

@[simp] theorem chargeRail_can (k dyn leak cal : Nat) (d : Die) (hc0 : d.Canonical) : (chargeRail k dyn leak cal d).Canonical := chargeRail_kept (canonical_closed _) k dyn leak cal d hc0

@[simp] theorem creditOwners_can (r : Nat) (f : Figures) (hops : List Nat) (d : Die) (hc0 : d.Canonical) : (creditOwners r f hops d).Canonical := creditOwners_kept (canonical_closed _) r f hops d hc0

@[simp] theorem creditUpdate_can (e : Nat) (d : Die) (hc0 : d.Canonical) : (creditUpdate e d).Canonical := creditUpdate_kept (canonical_closed _) e d hc0

@[simp] theorem railWindowEnd_can (k : Nat) (d : Die) (hc0 : d.Canonical) : (railWindowEnd k d).Canonical := railWindowEnd_kept (canonical_closed _) k d hc0

@[simp] theorem updateApply_can (k : Nat) (d : Die) (hc0 : d.Canonical) : (updateApply k d).Canonical := updateApply_kept (canonical_closed _) k d hc0

@[simp] theorem lowerCeiling_can (j v r : Nat) (d : Die) (hc0 : d.Canonical) : (lowerCeiling j v r d).Canonical := lowerCeiling_kept (canonical_closed _) j v r d hc0

@[simp] theorem closeDrain_can (x : LimitDrain) (d : Die) (hc0 : d.Canonical) : (closeDrain x d).Canonical := closeDrain_kept (canonical_closed _) x d hc0

@[simp] theorem alertEvent_can (k phase kind word : Nat) (d : Die) (hc0 : d.Canonical) : (alertEvent k phase kind word d).Canonical := alertEvent_kept (canonical_closed _) k phase kind word d hc0

@[simp] theorem setVrm_can (slot r : Nat) (v : Option Nat) (d : Die) (hc0 : d.Canonical) : (setVrm slot r v d).Canonical := setVrm_kept (canonical_closed _) slot r v d hc0

@[simp] theorem diffRecord_can (x : Nat × Nat × Nat × Nat) (d : Die) (hc0 : d.Canonical) : (diffRecord x d).Canonical := diffRecord_kept (canonical_closed _) x d hc0

@[simp] theorem readyState_can (n : Nat) (d : Die) (hc0 : d.Canonical) : (readyState n d).Canonical := readyState_kept (canonical_closed _) n d hc0

@[simp] theorem returnRegion_can (r : Nat) (d : Die) (hc0 : d.Canonical) : (returnRegion r d).Canonical := returnRegion_kept (canonical_closed _) r d hc0

@[simp] theorem setPower_can (r n : Nat) (d : Die) (hc0 : d.Canonical) : (setPower r n d).Canonical := setPower_kept (canonical_closed _) r n d hc0

@[simp] theorem bankRegion_can (r : Nat) (d : Die) (hc0 : d.Canonical) : (bankRegion r d).Canonical := bankRegion_kept (canonical_closed _) r d hc0

@[simp] theorem reopen_can (i : Nat) (d : Die) (hc0 : d.Canonical) : (reopen i d).Canonical := reopen_kept (canonical_closed _) i d hc0

@[simp] theorem resetStops_can (i : Nat) (d : Die) (hc0 : d.Canonical) : (resetStops i d).Canonical := resetStops_kept (canonical_closed _) i d hc0

@[simp] theorem joinPlan_can (i : Nat) (d : Die) (hc0 : d.Canonical) : (joinPlan i d).Canonical := joinPlan_kept (canonical_closed _) i d hc0

@[simp] theorem convert_can (x : SensorReading) (d : Die) (hc0 : d.Canonical) : (convert x d).Canonical := convert_kept (canonical_closed _) x d hc0

@[simp] theorem evaluateHard_can (r : Nat) (d : Die) (hc0 : d.Canonical) : (evaluateHard r d).Canonical := evaluateHard_kept (canonical_closed _) r d hc0

@[simp] theorem evaluateSoft_can (r : Nat) (d : Die) (hc0 : d.Canonical) : (evaluateSoft r d).Canonical := evaluateSoft_kept (canonical_closed _) r d hc0

@[simp] theorem modPool_can (l : Nat) (f : PoolLink → PoolLink) (d : Die) (hc0 : d.Canonical) : (modPool l f d).Canonical := modPool_kept (canonical_closed _) l f d hc0

@[simp] theorem statusLink_can (want offer : Nat) (recalling : Bool) (l : Nat) (d : Die) (hc0 : d.Canonical) : (statusLink want offer recalling l d).Canonical := statusLink_kept (canonical_closed _) want offer recalling l d hc0

@[simp] theorem setGuard_can (v c r : Nat) (d : Die) (hc0 : d.Canonical) : (setGuard v c r d).Canonical := setGuard_kept (canonical_closed _) v c r d hc0

@[simp] theorem takeCount_can (count i : Nat) (d : Die) (hc0 : d.Canonical) : (takeCount count i d).Canonical := takeCount_kept (canonical_closed _) count i d hc0

@[simp] theorem releaseEdge_can (e : Nat) (d : Die) (hc0 : d.Canonical) : (releaseEdge e d).Canonical := releaseEdge_kept (canonical_closed _) e d hc0

@[simp] theorem noteHost_can (k : Nat) (d : Die) (hc0 : d.Canonical) : (noteHost k d).Canonical := noteHost_kept (canonical_closed _) k d hc0

@[simp] theorem unlatch_can (r : Nat) (d : Die) (hc0 : d.Canonical) : (unlatch r d).Canonical := unlatch_kept (canonical_closed _) r d hc0

@[simp] theorem hostCeiling_can (q : Nat) (v : Option Nat) (r : Nat) (d : Die) (hc0 : d.Canonical) : (hostCeiling q v r d).Canonical := hostCeiling_kept (canonical_closed _) q v r d hc0

end Sys2Proof.Machine
end

