-- ==== Sys2Proof/Laws/Access.lean ====
section
/-! SUPPORT. Reading what was written: the tables of a canonical die, the command SRAM, and operations repeated along a list. -/

namespace Sys2Proof.Machine
open Sys2Proof
set_option Elab.async false
set_option linter.all false

theorem le_len : ∀ (n v : Nat), (le n v).length = n
  | 0, _ => rfl
  | n + 1, v => by simp [le, le_len n]

theorem zeros_len (n : Nat) : (zeros n).length = n := by simp [zeros]

/-- The bytes put are the bytes read. -/
theorem sramPut_get : ∀ (b : Bytes) {m : List Host.Cell} {a : Nat} (j : Nat), tblWf 0#8 m = true → j < b.length → tget 0#8 (sramPut m a b) (a + j) = b.getD j 0#8
  | [], _, _, j, _, h => by simp at h
  | x :: t, m, a, j, hm, h => by
    show tget 0#8 (sramPut (tset 0#8 m a x) (a + 1) t) (a + j) = _
    cases j with
    | zero => rw [sramPut_other t (tset_wf hm) (by omega)]; exact tget_tset_same hm
    | succ j =>
      have := sramPut_get t (m := tset 0#8 m a x) (a := a + 1) j (tset_wf hm) (by simpa using h)
      rw [show a + (j + 1) = a + 1 + j by omega, this]; rfl

/-- The SRAM reads as it was written. -/
theorem read_put {a n b} {d : Die} (hc : tblWf 0#8 d.sram = true) (hn : b.length = n) : sramRead (sramWrite a b d) a n = b := by
  subst hn
  unfold sramRead sramWrite
  apply List.ext_getElem (by simp)
  intro j h1 h2
  simp only [List.getElem_map, List.getElem_range]
  rw [sramPut_get b j hc h2]
  simp [List.getD, List.getElem?_eq_getElem h2]

/-- Elsewhere the SRAM reads as before. -/
theorem read_other {a n b c} {d : Die} (hc : tblWf 0#8 d.sram = true) (h : c + n ≤ a ∨ a + b.length ≤ c) : sramRead (sramWrite a b d) c n = sramRead d c n := by
  unfold sramRead sramWrite
  apply List.map_congr_left
  intro j hj
  rw [List.mem_range] at hj
  exact sramPut_other b hc (by omega)

theorem read_same {c n} {a b : Die} (h : a.sram = b.sram) : sramRead a c n = sramRead b c n := by unfold sramRead; rw [h]

theorem queue_same {q f} {d : Die} (hc : d.Canonical) : queue (modQueue q f d) q = f (queue d q) := tget_tmod_same hc.queues

theorem queue_other {q p f} {d : Die} (hc : d.Canonical) (h : p ≠ q) : queue (modQueue q f d) p = queue d p := tget_tmod_other hc.queues h

theorem queue_of {a b : Die} (h : a.queues = b.queues) (q) : queue a q = queue b q := by unfold queue; rw [h]

theorem sram_can {a b} {d : Die} (hc : d.Canonical) : (sramWrite a b d).Canonical := ⟨hc.islands, hc.regions, hc.synths, hc.ends, hc.lanes, hc.links, hc.rails, hc.sensors, hc.watches, hc.contexts, hc.tenants, hc.queues, hc.hbm, sramPut_wf _ hc.sram⟩

/-- What every turn keeps is kept through a list. -/
theorem each_inv {α : Type} {P : Die → Prop} {f : α → Die → Die} (l : List α) (hf : ∀ a e, a ∈ l → P e → P (f a e)) : ∀ {d : Die}, P d → P (each l f d) := by
  induction l with
  | nil => exact fun h => h
  | cons a l ih => exact fun h => ih (fun b e hb => hf b e (List.mem_cons_of_mem _ hb)) (hf a _ (List.mem_cons_self ..) h)

/-- What one turn makes, and the others keep, stands after all of them. -/
theorem each_make {α : Type} {I P : Die → Prop} {f : α → Die → Die} (l : List α) (a : α) (ha : a ∈ l) (hi : ∀ b e, b ∈ l → I e → I (f b e)) (hm : ∀ e, I e → P (f a e)) (hk : ∀ b e, b ∈ l → I e → P e → P (f b e)) :
    ∀ {d : Die}, I d → I (each l f d) ∧ P (each l f d) := by
  induction l with
  | nil => simp at ha
  | cons b l ih =>
    intro d hd
    rcases List.mem_cons.1 ha with h | h
    · subst h
      exact each_inv (P := fun e => I e ∧ P e) l (fun c e hc ⟨x, y⟩ => ⟨hi c e (List.mem_cons_of_mem _ hc) x, hk c e (List.mem_cons_of_mem _ hc) x y⟩) ⟨hi _ _ (List.mem_cons_self ..) hd, hm _ hd⟩
    · exact ih h (fun c e hc => hi c e (List.mem_cons_of_mem _ hc)) (fun c e hc => hk c e (List.mem_cons_of_mem _ hc)) (hi _ _ (List.mem_cons_self ..) hd)

/-- Along a list without repeats each element is changed once. -/
theorem each_get {β : Type} {I : Die → Prop} {get : Die → Nat → β} {f : Nat → Die → Die} {g : Nat → β → β} (l : List Nat) (hn : l.Nodup) (hi : ∀ a e, a ∈ l → I e → I (f a e)) (hs : ∀ a e, a ∈ l → I e → get (f a e) a = g a (get e a))
    (ho : ∀ a b e, a ∈ l → I e → b ≠ a → get (f a e) b = get e b) : ∀ {d : Die}, I d → I (each l f d) ∧ ∀ r, (r ∈ l → get (each l f d) r = g r (get d r)) ∧ (r ∉ l → get (each l f d) r = get d r) := by
  induction l with
  | nil => exact fun h => ⟨h, fun r => ⟨fun h => by simp at h, fun _ => rfl⟩⟩
  | cons a l ih =>
    intro d hd
    rw [List.nodup_cons] at hn
    obtain ⟨i1, i2⟩ := ih hn.2 (fun b e hb => hi b e (List.mem_cons_of_mem _ hb)) (fun b e hb => hs b e (List.mem_cons_of_mem _ hb)) (fun b c e hb => ho b c e (List.mem_cons_of_mem _ hb)) (hi a d (List.mem_cons_self ..) hd)
    refine ⟨i1, fun r => ⟨fun hr => ?_, fun hr => ?_⟩⟩
    · by_cases h : r = a
      · subst h
        exact ((i2 r).2 hn.1).trans (hs r d (List.mem_cons_self ..) hd)
      · have hl : r ∈ l := by rcases List.mem_cons.1 hr with h' | h'; exact absurd h' h; exact h'
        exact ((i2 r).1 hl).trans (by rw [ho a r d (List.mem_cons_self ..) hd h])
    · rw [List.mem_cons, not_or] at hr
      exact ((i2 r).2 hr.2).trans (ho a r d (List.mem_cons_self ..) hd hr.1)

theorem set_nodup (m) : (setRegions m).Nodup := List.Pairwise.filter _ List.nodup_range

theorem region_same {k f} {d : Die} (h : d.Canonical) : region (modRegion k f d) k = f (region d k) := region_modRegion_same h.regions

theorem region_other {k j f} {d : Die} (h : d.Canonical) (hk : j ≠ k) : region (modRegion k f d) j = region d j := region_modRegion_other h.regions hk

/-- Along a list of regions each is changed once. -/
theorem each_region {g : Nat → Region → Region} (l : List Nat) (hn : l.Nodup) {d : Die} (hc : d.Canonical) : (each l (fun r d => modRegion r (g r) d) d).Canonical ∧
    ∀ r, (r ∈ l → region (each l (fun r d => modRegion r (g r) d) d) r = g r (region d r)) ∧ (r ∉ l → region (each l (fun r d => modRegion r (g r) d) d) r = region d r) :=
  each_get (I := Die.Canonical) (get := region) (f := fun r d => modRegion r (g r) d) (g := g) l hn (fun a e _ h => by simp [h]) (fun a e _ h => region_same h) (fun a b e _ h hb => region_other h hb) hc

theorem isl_same {k : Nat} {f : Ring → Ring} {d : Die} (h : d.Canonical) : island (modRing k f d) k = { island d k with ring := f (island d k).ring } := tget_tmod_same (f := fun x : Island => { x with ring := f x.ring }) h.islands

theorem isl_other {k j : Nat} {f : Ring → Ring} {d : Die} (h : d.Canonical) (hk : j ≠ k) : island (modRing k f d) j = island d j := tget_tmod_other (f := fun x : Island => { x with ring := f x.ring }) h.islands hk

theorem ctx_other {c k v} {d : Die} (h : d.Canonical) (hk : k ≠ c) : context (setContext c v d) k = context d k := tget_tset_other h.contexts hk

end Sys2Proof.Machine
end

