-- ==== Sys2Proof/Laws/KeptExec.lean ====
section
/-! SUPPORT. What each command leaves alone: a property that the writes of its parts keep is kept by the command, and so is the queue of waiting commands. AON_POWER_GOOD, which writes the whole die, is not among them. -/

namespace Sys2Proof.Machine
open Sys2Proof
set_option Elab.async false
set_option linter.all false

theorem exec_aonPowerFail_kept {P : Die → Prop} (hc : Closed P [.stop])  (s t : State) (hd : P s.die) (h : exec (.aonPowerFail ) s = .next t) : t.pending = s.pending ∧ P t.die := by
  obtain ⟨-, rfl⟩ := run_next (show execAonPowerFail  s = .next t from h)
  refine ⟨rfl, ?_⟩
  have k0 := @aonPowerFail_kept P (hc.mono (by decide))
  dsimp only
  with_reducible repeat' first
    | assumption
    | apply k0
    | dsimp only
    | split
    | refine hc.lit (by dsimp only) ?_

theorem exec_aonUndervoltage_kept {P : Die → Prop} (hc : Closed P [.startup, .stop, .regs, .ledger, .store, .limits, .islands, .regions, .synths, .ends, .links, .rails, .contexts, .commits, .commitReqs]) lowestMv (s t : State) (hd : P s.die) (h : exec (.aonUndervoltage lowestMv) s = .next t) : t.pending = s.pending ∧ P t.die := by
  obtain ⟨-, rfl⟩ := run_next (show execAonUndervoltage lowestMv s = .next t from h)
  refine ⟨rfl, ?_⟩
  have k0 := @aonUndervoltage_kept P (hc.mono (by decide))
  dsimp only
  with_reducible repeat' first
    | assumption
    | apply k0
    | dsimp only
    | split
    | refine hc.lit (by dsimp only) ?_

theorem exec_packageWarmReset_kept {P : Die → Prop} (hc : Closed P [.tally, .clocks, .startup, .stop, .regs, .ledger, .chandler, .store, .limits, .islands, .regions, .synths, .ends, .lanes, .links, .rails, .sensors, .watches, .contexts, .commits, .commitReqs, .nextCommit, .tenants, .queues, .sram, .dormant, .fresh])  (s t : State) (hd : P s.die) (h : exec (.packageWarmReset ) s = .next t) : t.pending = s.pending ∧ P t.die := by
  obtain ⟨-, rfl⟩ := run_next (show execPackageWarmReset  s = .next t from h)
  refine ⟨rfl, ?_⟩
  have k0 := @packageWarmReset_kept P (hc.mono (by decide))
  dsimp only
  with_reducible repeat' first
    | assumption
    | apply k0
    | dsimp only
    | split
    | refine hc.lit (by dsimp only) ?_

theorem exec_startupStepComplete_kept {P : Die → Prop} (hc : Closed P [.tally, .clocks, .startup, .regs, .ledger, .store, .islands, .regions, .synths, .rails, .sensors]) seen (s t : State) (hd : P s.die) (h : exec (.startupStepComplete seen) s = .next t) : t.pending = s.pending ∧ P t.die := by
  obtain ⟨-, rfl⟩ := run_next (show execStartupStepComplete seen s = .next t from h)
  refine ⟨rfl, ?_⟩
  have k0 := @startupStep_kept P (hc.mono (by decide))
  dsimp only
  with_reducible repeat' first
    | assumption
    | apply k0
    | dsimp only
    | split
    | refine hc.lit (by dsimp only) ?_

theorem exec_firmwareBroadcast_kept {P : Die → Prop} (hc : Closed P [.ledger, .chandler]) result0 result1 version (s t : State) (hd : P s.die) (h : exec (.firmwareBroadcast result0 result1 version) s = .next t) : t.pending = s.pending ∧ P t.die := by
  obtain ⟨-, rfl⟩ := run_next (show execFirmwareBroadcast result0 result1 version s = .next t from h)
  refine ⟨rfl, ?_⟩
  have k0 := @firmwareBroadcast_kept P (hc.mono (by decide))
  dsimp only
  with_reducible repeat' first
    | assumption
    | apply k0
    | dsimp only
    | split
    | refine hc.lit (by dsimp only) ?_

theorem exec_bootImageTimeout_kept {P : Die → Prop} (hc : Closed P [.chandler])  (s t : State) (hd : P s.die) (h : exec (.bootImageTimeout ) s = .next t) : t.pending = s.pending ∧ P t.die := by
  obtain ⟨-, rfl⟩ := run_next (show execBootImageTimeout  s = .next t from h)
  refine ⟨rfl, ?_⟩
  have k0 := @bootImageTimeout_kept P (hc.mono (by decide))
  dsimp only
  with_reducible repeat' first
    | assumption
    | apply k0
    | dsimp only
    | split
    | refine hc.lit (by dsimp only) ?_

theorem exec_topologyCheckTimeout_kept {P : Die → Prop} (hc : Closed P [.tally, .startup, .regs, .ledger, .queues, .sram]) hbmTrained (s t : State) (hd : P s.die) (h : exec (.topologyCheckTimeout hbmTrained) s = .next t) : t.pending = s.pending ∧ P t.die := by
  obtain ⟨-, rfl⟩ := run_next (show execTopologyCheckTimeout hbmTrained s = .next t from h)
  refine ⟨rfl, ?_⟩
  have k0 := @topologyTimeout_kept P (hc.mono (by decide))
  dsimp only
  with_reducible repeat' first
    | assumption
    | apply k0
    | dsimp only
    | split
    | refine hc.lit (by dsimp only) ?_

theorem exec_topologyCheckComplete_kept {P : Die → Prop} (hc : Closed P [.tally, .startup, .regs, .ledger, .queues, .sram]) hbmTrained (s t : State) (hd : P s.die) (h : exec (.topologyCheckComplete hbmTrained) s = .next t) : t.pending = s.pending ∧ P t.die := by
  obtain ⟨-, rfl⟩ := run_next (show execTopologyCheckComplete hbmTrained s = .next t from h)
  refine ⟨rfl, ?_⟩
  have k0 := @topologyComplete_kept P (hc.mono (by decide))
  dsimp only
  with_reducible repeat' first
    | assumption
    | apply k0
    | dsimp only
    | split
    | refine hc.lit (by dsimp only) ?_

theorem exec_refActivityLoss_kept {P : Die → Prop} (hc : Closed P [.tally, .clocks, .startup, .stop, .regs, .ledger, .store, .limits, .islands, .regions, .synths, .ends, .links, .rails, .contexts, .commits, .commitReqs]) ref (s t : State) (hd : P s.die) (h : exec (.refActivityLoss ref) s = .next t) : t.pending = s.pending ∧ P t.die := by
  obtain ⟨-, rfl⟩ := run_next (show execRefActivityLoss ref s = .next t from h)
  refine ⟨rfl, ?_⟩
  have k0 := @refActivityLoss_kept P (hc.mono (by decide))
  dsimp only
  with_reducible repeat' first
    | assumption
    | apply k0
    | dsimp only
    | split
    | refine hc.lit (by dsimp only) ?_

theorem exec_refFrequencyWindowEnd_kept {P : Die → Prop} (hc : Closed P [.tally, .clocks, .startup, .stop, .regs, .ledger, .store, .limits, .islands, .regions, .synths, .ends, .links, .rails, .contexts, .commits, .commitReqs]) ref count (s t : State) (hd : P s.die) (h : exec (.refFrequencyWindowEnd ref count) s = .next t) : t.pending = s.pending ∧ P t.die := by
  obtain ⟨-, rfl⟩ := run_next (show execRefFrequencyWindowEnd ref count s = .next t from h)
  refine ⟨rfl, ?_⟩
  have k0 := @refWindow_kept P (hc.mono (by decide))
  dsimp only
  with_reducible repeat' first
    | assumption
    | apply k0
    | dsimp only
    | split
    | refine hc.lit (by dsimp only) ?_

theorem exec_noReferenceTimeout_kept {P : Die → Prop} (hc : Closed P [.tally, .clocks, .startup, .stop, .regs, .ledger, .store, .limits, .islands, .regions, .synths, .ends, .links, .rails, .contexts, .commits, .commitReqs])  (s t : State) (hd : P s.die) (h : exec (.noReferenceTimeout ) s = .next t) : t.pending = s.pending ∧ P t.die := by
  obtain ⟨-, rfl⟩ := run_next (show execNoReferenceTimeout  s = .next t from h)
  refine ⟨rfl, ?_⟩
  have k0 := @noReferenceTimeout_kept P (hc.mono (by decide))
  dsimp only
  with_reducible repeat' first
    | assumption
    | apply k0
    | dsimp only
    | split
    | refine hc.lit (by dsimp only) ?_

theorem exec_rootLockLoss_kept {P : Die → Prop} (hc : Closed P [.tally, .clocks, .startup, .stop, .regs, .ledger, .store, .limits, .islands, .regions, .synths, .ends, .links, .rails, .contexts, .commits, .commitReqs]) errorNs (s t : State) (hd : P s.die) (h : exec (.rootLockLoss errorNs) s = .next t) : t.pending = s.pending ∧ P t.die := by
  obtain ⟨-, rfl⟩ := run_next (show execRootLockLoss errorNs s = .next t from h)
  refine ⟨rfl, ?_⟩
  have k0 := @rootLockLoss_kept P (hc.mono (by decide))
  dsimp only
  with_reducible repeat' first
    | assumption
    | apply k0
    | dsimp only
    | split
    | refine hc.lit (by dsimp only) ?_

theorem exec_rootDisagreement_kept {P : Die → Prop} (hc : Closed P [.clocks, .ledger]) errorNs (s t : State) (hd : P s.die) (h : exec (.rootDisagreement errorNs) s = .next t) : t.pending = s.pending ∧ P t.die := by
  obtain ⟨-, rfl⟩ := run_next (show execRootDisagreement errorNs s = .next t from h)
  refine ⟨rfl, ?_⟩
  have k0 := @rootDisagreement_kept P (hc.mono (by decide))
  dsimp only
  with_reducible repeat' first
    | assumption
    | apply k0
    | dsimp only
    | split
    | refine hc.lit (by dsimp only) ?_

theorem exec_rootSwitchConfirm_kept {P : Die → Prop} (hc : Closed P [.tally, .clocks, .startup, .stop, .regs, .ledger, .store, .limits, .islands, .regions, .synths, .ends, .links, .rails, .contexts, .commits, .commitReqs, .fresh]) fail0 fail1 (s t : State) (hd : P s.die) (h : exec (.rootSwitchConfirm fail0 fail1) s = .next t) : t.pending = s.pending ∧ P t.die := by
  obtain ⟨-, rfl⟩ := run_next (show execRootSwitchConfirm fail0 fail1 s = .next t from h)
  refine ⟨rfl, ?_⟩
  have k0 := @rootConfirm_kept P (hc.mono (by decide))
  dsimp only
  with_reducible repeat' first
    | assumption
    | apply k0
    | dsimp only
    | split
    | refine hc.lit (by dsimp only) ?_

theorem exec_synthBandSearchDone_kept {P : Die → Prop} (hc : Closed P [.synths]) region synth counts (s t : State) (hd : P s.die) (h : exec (.synthBandSearchDone region synth counts) s = .next t) : t.pending = s.pending ∧ P t.die := by
  obtain ⟨-, rfl⟩ := run_next (show execSynthBandSearchDone region synth counts s = .next t from h)
  refine ⟨rfl, ?_⟩
  have k0 := @bandSearchDone_kept P (hc.mono (by decide))
  dsimp only
  with_reducible repeat' first
    | assumption
    | apply k0
    | dsimp only
    | split
    | refine hc.lit (by dsimp only) ?_

theorem exec_synthLockWindowEnd_kept {P : Die → Prop} (hc : Closed P [.ledger, .store, .islands, .regions, .synths, .ends, .watches, .messages, .contexts, .commits, .commitReqs, .queues, .sram]) region synth count (s t : State) (hd : P s.die) (h : exec (.synthLockWindowEnd region synth count) s = .next t) : t.pending = s.pending ∧ P t.die := by
  obtain ⟨-, rfl⟩ := run_next (show execSynthLockWindowEnd region synth count s = .next t from h)
  refine ⟨rfl, ?_⟩
  have k0 := @lockWindow_kept P (hc.mono (by decide))
  dsimp only
  with_reducible repeat' first
    | assumption
    | apply k0
    | dsimp only
    | split
    | refine hc.lit (by dsimp only) ?_

theorem exec_synthExcursion_kept {P : Die → Prop} (hc : Closed P [.ledger, .store, .islands, .regions, .synths, .ends, .watches, .messages, .contexts, .commits, .commitReqs]) region synth count (s t : State) (hd : P s.die) (h : exec (.synthExcursion region synth count) s = .next t) : t.pending = s.pending ∧ P t.die := by
  obtain ⟨-, rfl⟩ := run_next (show execSynthExcursion region synth count s = .next t from h)
  refine ⟨rfl, ?_⟩
  have k0 := @excursion_kept P (hc.mono (by decide))
  dsimp only
  with_reducible repeat' first
    | assumption
    | apply k0
    | dsimp only
    | split
    | refine hc.lit (by dsimp only) ?_

theorem exec_synthAcquisitionTimeout_kept {P : Die → Prop} (hc : Closed P [.ledger, .store, .islands, .regions, .synths, .ends, .watches, .messages, .contexts, .commits, .commitReqs, .queues, .sram]) region synth (s t : State) (hd : P s.die) (h : exec (.synthAcquisitionTimeout region synth) s = .next t) : t.pending = s.pending ∧ P t.die := by
  obtain ⟨-, rfl⟩ := run_next (show execSynthAcquisitionTimeout region synth s = .next t from h)
  refine ⟨rfl, ?_⟩
  have k0 := @acquisitionTimeout_kept P (hc.mono (by decide))
  dsimp only
  with_reducible repeat' first
    | assumption
    | apply k0
    | dsimp only
    | split
    | refine hc.lit (by dsimp only) ?_

theorem exec_synthRetryAcquire_kept {P : Die → Prop} (hc : Closed P [.synths]) region synth (s t : State) (hd : P s.die) (h : exec (.synthRetryAcquire region synth) s = .next t) : t.pending = s.pending ∧ P t.die := by
  obtain ⟨-, rfl⟩ := run_next (show execSynthRetryAcquire region synth s = .next t from h)
  refine ⟨rfl, ?_⟩
  have k0 := @retryAcquire_kept P (hc.mono (by decide))
  dsimp only
  with_reducible repeat' first
    | assumption
    | apply k0
    | dsimp only
    | split
    | refine hc.lit (by dsimp only) ?_

theorem exec_injectionWindowEnd_kept {P : Die → Prop} (hc : Closed P [.ledger, .islands, .regions]) island periods (s t : State) (hd : P s.die) (h : exec (.injectionWindowEnd island periods) s = .next t) : t.pending = s.pending ∧ P t.die := by
  obtain ⟨-, rfl⟩ := run_next (show execInjectionWindowEnd island periods s = .next t from h)
  refine ⟨rfl, ?_⟩
  have k0 := @injectionWindow_kept P (hc.mono (by decide))
  dsimp only
  with_reducible repeat' first
    | assumption
    | apply k0
    | dsimp only
    | split
    | refine hc.lit (by dsimp only) ?_

theorem exec_injectionAcquisitionTimeout_kept {P : Die → Prop} (hc : Closed P [.ledger, .store, .islands]) island (s t : State) (hd : P s.die) (h : exec (.injectionAcquisitionTimeout island) s = .next t) : t.pending = s.pending ∧ P t.die := by
  obtain ⟨-, rfl⟩ := run_next (show execInjectionAcquisitionTimeout island s = .next t from h)
  refine ⟨rfl, ?_⟩
  have k0 := @injectionTimeout_kept P (hc.mono (by decide))
  dsimp only
  with_reducible repeat' first
    | assumption
    | apply k0
    | dsimp only
    | split
    | refine hc.lit (by dsimp only) ?_

theorem exec_bellowsSettleDone_kept {P : Die → Prop} (hc : Closed P [.islands]) island (s t : State) (hd : P s.die) (h : exec (.bellowsSettleDone island) s = .next t) : t.pending = s.pending ∧ P t.die := by
  obtain ⟨-, rfl⟩ := run_next (show execBellowsSettleDone island s = .next t from h)
  refine ⟨rfl, ?_⟩
  have k0 := @settleDone_kept P (hc.mono (by decide))
  dsimp only
  with_reducible repeat' first
    | assumption
    | apply k0
    | dsimp only
    | split
    | refine hc.lit (by dsimp only) ?_

theorem exec_injectionResume_kept {P : Die → Prop} (hc : Closed P [.islands]) island (s t : State) (hd : P s.die) (h : exec (.injectionResume island) s = .next t) : t.pending = s.pending ∧ P t.die := by
  obtain ⟨-, rfl⟩ := run_next (show execInjectionResume island s = .next t from h)
  refine ⟨rfl, ?_⟩
  have k0 := @injectionResume_kept P (hc.mono (by decide))
  dsimp only
  with_reducible repeat' first
    | assumption
    | apply k0
    | dsimp only
    | split
    | refine hc.lit (by dsimp only) ?_

theorem exec_phaseStep_kept {P : Die → Prop} (hc : Closed P [.islands]) island tFree (s t : State) (hd : P s.die) (h : exec (.phaseStep island tFree) s = .next t) : t.pending = s.pending ∧ P t.die := by
  obtain ⟨-, rfl⟩ := run_next (show execPhaseStep island tFree s = .next t from h)
  refine ⟨rfl, ?_⟩
  have k0 := @phaseStep_kept P (hc.mono (by decide))
  dsimp only
  with_reducible repeat' first
    | assumption
    | apply k0
    | dsimp only
    | split
    | refine hc.lit (by dsimp only) ?_

theorem exec_ringPeriod_kept {P : Die → Prop} (hc : Closed P [.ledger, .limits, .islands, .ends, .lanes, .links, .contexts]) island obs (s t : State) (hd : P s.die) (h : exec (.ringPeriod island obs) s = .next t) : t.pending = s.pending ∧ P t.die := by
  obtain ⟨-, rfl⟩ := run_next (show execRingPeriod island obs s = .next t from h)
  refine ⟨rfl, ?_⟩
  have k0 := @ringPeriod_kept P (hc.mono (by decide))
  dsimp only
  with_reducible repeat' first
    | assumption
    | apply k0
    | dsimp only
    | split
    | refine hc.lit (by dsimp only) ?_

theorem exec_plumbDisagreementResolved_kept {P : Die → Prop} (hc : Closed P [.ledger, .store, .islands]) island replica (s t : State) (hd : P s.die) (h : exec (.plumbDisagreementResolved island replica) s = .next t) : t.pending = s.pending ∧ P t.die := by
  obtain ⟨-, rfl⟩ := run_next (show execPlumbDisagreementResolved island replica s = .next t from h)
  refine ⟨rfl, ?_⟩
  have k0 := @disagreementResolved_kept P (hc.mono (by decide))
  dsimp only
  with_reducible repeat' first
    | assumption
    | apply k0
    | dsimp only
    | split
    | refine hc.lit (by dsimp only) ?_

theorem exec_alertIntervalEnd_kept {P : Die → Prop} (hc : Closed P [.ledger, .islands, .regions, .commitReqs])  (s t : State) (hd : P s.die) (h : exec (.alertIntervalEnd ) s = .next t) : t.pending = s.pending ∧ P t.die := by
  obtain ⟨-, rfl⟩ := run_next (show execAlertIntervalEnd  s = .next t from h)
  refine ⟨rfl, ?_⟩
  have k0 := @alertIntervalEnd_kept P (hc.mono (by decide))
  dsimp only
  with_reducible repeat' first
    | assumption
    | apply k0
    | dsimp only
    | split
    | refine hc.lit (by dsimp only) ?_

theorem exec_marginReleaseTimeout_kept {P : Die → Prop} (hc : Closed P [.ledger, .regions, .commitReqs]) region (s t : State) (hd : P s.die) (h : exec (.marginReleaseTimeout region) s = .next t) : t.pending = s.pending ∧ P t.die := by
  obtain ⟨-, rfl⟩ := run_next (show execMarginReleaseTimeout region s = .next t from h)
  refine ⟨rfl, ?_⟩
  have k0 := @marginRelease_kept P (hc.mono (by decide))
  dsimp only
  with_reducible repeat' first
    | assumption
    | apply k0
    | dsimp only
    | split
    | refine hc.lit (by dsimp only) ?_

theorem exec_unplannedStepBoundary_kept {P : Die → Prop} (hc : Closed P [.islands])  (s t : State) (hd : P s.die) (h : exec (.unplannedStepBoundary ) s = .next t) : t.pending = s.pending ∧ P t.die := by
  obtain ⟨-, rfl⟩ := run_next (show execUnplannedStepBoundary  s = .next t from h)
  refine ⟨rfl, ?_⟩
  have k0 := @unplannedStep_kept P (hc.mono (by decide))
  dsimp only
  with_reducible repeat' first
    | assumption
    | apply k0
    | dsimp only
    | split
    | refine hc.lit (by dsimp only) ?_

theorem exec_droverRestart_kept {P : Die → Prop} (hc : Closed P [.ledger, .regions]) region (s t : State) (hd : P s.die) (h : exec (.droverRestart region) s = .next t) : t.pending = s.pending ∧ P t.die := by
  obtain ⟨-, rfl⟩ := run_next (show execDroverRestart region s = .next t from h)
  refine ⟨rfl, ?_⟩
  have k0 := @droverRestart_kept P (hc.mono (by decide))
  dsimp only
  with_reducible repeat' first
    | assumption
    | apply k0
    | dsimp only
    | split
    | refine hc.lit (by dsimp only) ?_

theorem exec_edgeActivation_kept {P : Die → Prop} (hc : Closed P [.ends]) edge side (s t : State) (hd : P s.die) (h : exec (.edgeActivation edge side) s = .next t) : t.pending = s.pending ∧ P t.die := by
  obtain ⟨-, rfl⟩ := run_next (show execEdgeActivation edge side s = .next t from h)
  refine ⟨rfl, ?_⟩
  have k0 := @edgeActivation_kept P (hc.mono (by decide))
  dsimp only
  with_reducible repeat' first
    | assumption
    | apply k0
    | dsimp only
    | split
    | refine hc.lit (by dsimp only) ?_

theorem exec_hoopFrameForm_kept {P : Die → Prop} (hc : Closed P [.links]) link (s t : State) (hd : P s.die) (h : exec (.hoopFrameForm link) s = .next t) : t.pending = s.pending ∧ P t.die := by
  obtain ⟨-, rfl⟩ := run_next (show execHoopFrameForm link s = .next t from h)
  refine ⟨rfl, ?_⟩
  have k0 := @hoopForm_kept P (hc.mono (by decide))
  dsimp only
  with_reducible repeat' first
    | assumption
    | apply k0
    | dsimp only
    | split
    | refine hc.lit (by dsimp only) ?_

theorem exec_hoopFrameReceived_kept {P : Die → Prop} (hc : Closed P [.tally, .ledger, .limits, .links]) link frame (s t : State) (hd : P s.die) (h : exec (.hoopFrameReceived link frame) s = .next t) : t.pending = s.pending ∧ P t.die := by
  obtain ⟨-, rfl⟩ := run_next (show execHoopFrameReceived link frame s = .next t from h)
  refine ⟨rfl, ?_⟩
  have k0 := @hoopReceived_kept P (hc.mono (by decide))
  dsimp only
  with_reducible repeat' first
    | assumption
    | apply k0
    | dsimp only
    | split
    | refine hc.lit (by dsimp only) ?_

theorem exec_hoopLinkFrameTimeout_kept {P : Die → Prop} (hc : Closed P [.ledger, .links]) link (s t : State) (hd : P s.die) (h : exec (.hoopLinkFrameTimeout link) s = .next t) : t.pending = s.pending ∧ P t.die := by
  obtain ⟨-, rfl⟩ := run_next (show execHoopLinkFrameTimeout link s = .next t from h)
  refine ⟨rfl, ?_⟩
  have k0 := @hoopTimeout_kept P (hc.mono (by decide))
  dsimp only
  with_reducible repeat' first
    | assumption
    | apply k0
    | dsimp only
    | split
    | refine hc.lit (by dsimp only) ?_

theorem exec_hoopStaleRelease_kept {P : Die → Prop} (hc : Closed P [.ledger, .ends, .links, .contexts]) hoopEnd (s t : State) (hd : P s.die) (h : exec (.hoopStaleRelease hoopEnd) s = .next t) : t.pending = s.pending ∧ P t.die := by
  obtain ⟨-, rfl⟩ := run_next (show execHoopStaleRelease hoopEnd s = .next t from h)
  refine ⟨rfl, ?_⟩
  have k0 := @staleRelease_kept P (hc.mono (by decide))
  dsimp only
  with_reducible repeat' first
    | assumption
    | apply k0
    | dsimp only
    | split
    | refine hc.lit (by dsimp only) ?_

theorem exec_criticalPathIntervalEnd_kept {P : Die → Prop} (hc : Closed P [.limits])  (s t : State) (hd : P s.die) (h : exec (.criticalPathIntervalEnd ) s = .next t) : t.pending = s.pending ∧ P t.die := by
  obtain ⟨-, rfl⟩ := run_next (show execCriticalPathIntervalEnd  s = .next t from h)
  refine ⟨rfl, ?_⟩
  have k0 := @criticalPathEnd_kept P (hc.mono (by decide))
  dsimp only
  with_reducible repeat' first
    | assumption
    | apply k0
    | dsimp only
    | split
    | refine hc.lit (by dsimp only) ?_

theorem exec_linkDown_kept {P : Die → Prop} (hc : Closed P [.tally, .ledger, .limits, .lanes, .links]) link (s t : State) (hd : P s.die) (h : exec (.linkDown link) s = .next t) : t.pending = s.pending ∧ P t.die := by
  obtain ⟨-, rfl⟩ := run_next (show execLinkDown link s = .next t from h)
  refine ⟨rfl, ?_⟩
  have k0 := @linkDownOp_kept P (hc.mono (by decide))
  dsimp only
  with_reducible repeat' first
    | assumption
    | apply k0
    | dsimp only
    | split
    | refine hc.lit (by dsimp only) ?_

theorem exec_linkUp_kept {P : Die → Prop} (hc : Closed P [.ledger, .limits, .links]) link (s t : State) (hd : P s.die) (h : exec (.linkUp link) s = .next t) : t.pending = s.pending ∧ P t.die := by
  obtain ⟨-, rfl⟩ := run_next (show execLinkUp link s = .next t from h)
  refine ⟨rfl, ?_⟩
  have k0 := @linkUpOp_kept P (hc.mono (by decide))
  dsimp only
  with_reducible repeat' first
    | assumption
    | apply k0
    | dsimp only
    | split
    | refine hc.lit (by dsimp only) ?_

theorem exec_linkRetrainBegin_kept {P : Die → Prop} (hc : Closed P [.ledger, .lanes, .links]) link (s t : State) (hd : P s.die) (h : exec (.linkRetrainBegin link) s = .next t) : t.pending = s.pending ∧ P t.die := by
  obtain ⟨-, rfl⟩ := run_next (show execLinkRetrainBegin link s = .next t from h)
  refine ⟨rfl, ?_⟩
  have k0 := @retrainBegin_kept P (hc.mono (by decide))
  dsimp only
  with_reducible repeat' first
    | assumption
    | apply k0
    | dsimp only
    | split
    | refine hc.lit (by dsimp only) ?_

theorem exec_linkRetrainEnd_kept {P : Die → Prop} (hc : Closed P [.ledger, .links]) link (s t : State) (hd : P s.die) (h : exec (.linkRetrainEnd link) s = .next t) : t.pending = s.pending ∧ P t.die := by
  obtain ⟨-, rfl⟩ := run_next (show execLinkRetrainEnd link s = .next t from h)
  refine ⟨rfl, ?_⟩
  have k0 := @retrainEnd_kept P (hc.mono (by decide))
  dsimp only
  with_reducible repeat' first
    | assumption
    | apply k0
    | dsimp only
    | split
    | refine hc.lit (by dsimp only) ?_

theorem exec_hbmRetrainBegin_kept {P : Die → Prop} (hc : Closed P [.ledger, .hbm]) island (s t : State) (hd : P s.die) (h : exec (.hbmRetrainBegin island) s = .next t) : t.pending = s.pending ∧ P t.die := by
  obtain ⟨-, rfl⟩ := run_next (show execHbmRetrainBegin island s = .next t from h)
  refine ⟨rfl, ?_⟩
  have k0 := @hbmBegin_kept P (hc.mono (by decide))
  dsimp only
  with_reducible repeat' first
    | assumption
    | apply k0
    | dsimp only
    | split
    | refine hc.lit (by dsimp only) ?_

theorem exec_hbmRetrainEnd_kept {P : Die → Prop} (hc : Closed P [.ledger, .hbm]) island (s t : State) (hd : P s.die) (h : exec (.hbmRetrainEnd island) s = .next t) : t.pending = s.pending ∧ P t.die := by
  obtain ⟨-, rfl⟩ := run_next (show execHbmRetrainEnd island s = .next t from h)
  refine ⟨rfl, ?_⟩
  have k0 := @hbmEnd_kept P (hc.mono (by decide))
  dsimp only
  with_reducible repeat' first
    | assumption
    | apply k0
    | dsimp only
    | split
    | refine hc.lit (by dsimp only) ?_

theorem exec_sidebandReceiverUp_kept {P : Die → Prop} (hc : Closed P [.links]) link (s t : State) (hd : P s.die) (h : exec (.sidebandReceiverUp link) s = .next t) : t.pending = s.pending ∧ P t.die := by
  obtain ⟨-, rfl⟩ := run_next (show execSidebandReceiverUp link s = .next t from h)
  refine ⟨rfl, ?_⟩
  have k0 := @receiverUp_kept P (hc.mono (by decide))
  dsimp only
  with_reducible repeat' first
    | assumption
    | apply k0
    | dsimp only
    | split
    | refine hc.lit (by dsimp only) ?_

theorem exec_sidebandReceiverDown_kept {P : Die → Prop} (hc : Closed P [.tally, .links]) link (s t : State) (hd : P s.die) (h : exec (.sidebandReceiverDown link) s = .next t) : t.pending = s.pending ∧ P t.die := by
  obtain ⟨-, rfl⟩ := run_next (show execSidebandReceiverDown link s = .next t from h)
  refine ⟨rfl, ?_⟩
  have k0 := @receiverDown_kept P (hc.mono (by decide))
  dsimp only
  with_reducible repeat' first
    | assumption
    | apply k0
    | dsimp only
    | split
    | refine hc.lit (by dsimp only) ?_

theorem exec_sidebandFrameBoundary_kept {P : Die → Prop} (hc : Closed P [.links]) link (s t : State) (hd : P s.die) (h : exec (.sidebandFrameBoundary link) s = .next t) : t.pending = s.pending ∧ P t.die := by
  obtain ⟨-, rfl⟩ := run_next (show execSidebandFrameBoundary link s = .next t from h)
  refine ⟨rfl, ?_⟩
  have k0 := @frameBoundary_kept P (hc.mono (by decide))
  dsimp only
  with_reducible repeat' first
    | assumption
    | apply k0
    | dsimp only
    | split
    | refine hc.lit (by dsimp only) ?_

theorem exec_sidebandFrameDiscarded_kept {P : Die → Prop} (hc : Closed P [.tally, .ledger, .links]) link (s t : State) (hd : P s.die) (h : exec (.sidebandFrameDiscarded link) s = .next t) : t.pending = s.pending ∧ P t.die := by
  obtain ⟨-, rfl⟩ := run_next (show execSidebandFrameDiscarded link s = .next t from h)
  refine ⟨rfl, ?_⟩
  have k0 := @discardFrame_kept P (hc.mono (by decide))
  dsimp only
  with_reducible repeat' first
    | assumption
    | apply k0
    | dsimp only
    | split
    | refine hc.lit (by dsimp only) ?_

theorem exec_tallySyncSend_kept {P : Die → Prop} (hc : Closed P [.links]) link (s t : State) (hd : P s.die) (h : exec (.tallySyncSend link) s = .next t) : t.pending = s.pending ∧ P t.die := by
  obtain ⟨-, rfl⟩ := run_next (show execTallySyncSend link s = .next t from h)
  refine ⟨rfl, ?_⟩
  have k0 := @tallySyncSend_kept P (hc.mono (by decide))
  dsimp only
  with_reducible repeat' first
    | assumption
    | apply k0
    | dsimp only
    | split
    | refine hc.lit (by dsimp only) ?_

theorem exec_tallySyncReceived_kept {P : Die → Prop} (hc : Closed P [.tally, .ledger, .links]) link frame (s t : State) (hd : P s.die) (h : exec (.tallySyncReceived link frame) s = .next t) : t.pending = s.pending ∧ P t.die := by
  obtain ⟨-, rfl⟩ := run_next (show execTallySyncReceived link frame s = .next t from h)
  refine ⟨rfl, ?_⟩
  have k0 := @tallySyncReceived_kept P (hc.mono (by decide))
  dsimp only
  with_reducible repeat' first
    | assumption
    | apply k0
    | dsimp only
    | split
    | refine hc.lit (by dsimp only) ?_

theorem exec_tallyReplyReceived_kept {P : Die → Prop} (hc : Closed P [.tally, .ledger, .links]) link frame (s t : State) (hd : P s.die) (h : exec (.tallyReplyReceived link frame) s = .next t) : t.pending = s.pending ∧ P t.die := by
  obtain ⟨-, rfl⟩ := run_next (show execTallyReplyReceived link frame s = .next t from h)
  refine ⟨rfl, ?_⟩
  have k0 := @tallyReplyReceived_kept P (hc.mono (by decide))
  dsimp only
  with_reducible repeat' first
    | assumption
    | apply k0
    | dsimp only
    | split
    | refine hc.lit (by dsimp only) ?_

theorem exec_tallyOffsetAverage_kept {P : Die → Prop} (hc : Closed P [.tally, .ledger])  (s t : State) (hd : P s.die) (h : exec (.tallyOffsetAverage ) s = .next t) : t.pending = s.pending ∧ P t.die := by
  obtain ⟨-, rfl⟩ := run_next (show execTallyOffsetAverage  s = .next t from h)
  refine ⟨rfl, ?_⟩
  have k0 := @tallyOffsetAverage_kept P (hc.mono (by decide))
  dsimp only
  with_reducible repeat' first
    | assumption
    | apply k0
    | dsimp only
    | split
    | refine hc.lit (by dsimp only) ?_

theorem exec_tallySettled_kept {P : Die → Prop} (hc : Closed P [.tally])  (s t : State) (hd : P s.die) (h : exec (.tallySettled ) s = .next t) : t.pending = s.pending ∧ P t.die := by
  obtain ⟨-, rfl⟩ := run_next (show execTallySettled  s = .next t from h)
  refine ⟨rfl, ?_⟩
  have k0 := @tallySettled_kept P (hc.mono (by decide))
  dsimp only
  with_reducible repeat' first
    | assumption
    | apply k0
    | dsimp only
    | split
    | refine hc.lit (by dsimp only) ?_

theorem exec_tallyBeaconIncrement_kept {P : Die → Prop} (hc : Closed P [.tally])  (s t : State) (hd : P s.die) (h : exec (.tallyBeaconIncrement ) s = .next t) : t.pending = s.pending ∧ P t.die := by
  obtain ⟨-, rfl⟩ := run_next (show execTallyBeaconIncrement  s = .next t from h)
  refine ⟨rfl, ?_⟩
  have k0 := @tallyBeacon_kept P (hc.mono (by decide))
  dsimp only
  with_reducible repeat' first
    | assumption
    | apply k0
    | dsimp only
    | split
    | refine hc.lit (by dsimp only) ?_

theorem exec_tallyMasterLost_kept {P : Die → Prop} (hc : Closed P [.tally, .ledger])  (s t : State) (hd : P s.die) (h : exec (.tallyMasterLost ) s = .next t) : t.pending = s.pending ∧ P t.die := by
  obtain ⟨-, rfl⟩ := run_next (show execTallyMasterLost  s = .next t from h)
  refine ⟨rfl, ?_⟩
  have k0 := @tallyMasterLost_kept P (hc.mono (by decide))
  dsimp only
  with_reducible repeat' first
    | assumption
    | apply k0
    | dsimp only
    | split
    | refine hc.lit (by dsimp only) ?_

theorem exec_tallyMasterWaitExpiry_kept {P : Die → Prop} (hc : Closed P [.tally, .ledger])  (s t : State) (hd : P s.die) (h : exec (.tallyMasterWaitExpiry ) s = .next t) : t.pending = s.pending ∧ P t.die := by
  obtain ⟨-, rfl⟩ := run_next (show execTallyMasterWaitExpiry  s = .next t from h)
  refine ⟨rfl, ?_⟩
  have k0 := @tallyWaitExpiry_kept P (hc.mono (by decide))
  dsimp only
  with_reducible repeat' first
    | assumption
    | apply k0
    | dsimp only
    | split
    | refine hc.lit (by dsimp only) ?_

theorem exec_tallyWatchFire_kept {P : Die → Prop} (hc : Closed P [.watches, .messages]) watch (s t : State) (hd : P s.die) (h : exec (.tallyWatchFire watch) s = .next t) : t.pending = s.pending ∧ P t.die := by
  obtain ⟨-, rfl⟩ := run_next (show execTallyWatchFire watch s = .next t from h)
  refine ⟨rfl, ?_⟩
  have k0 := @tallyWatchFire_kept P (hc.mono (by decide))
  dsimp only
  with_reducible repeat' first
    | assumption
    | apply k0
    | dsimp only
    | split
    | refine hc.lit (by dsimp only) ?_

theorem exec_cycleWatchFire_kept {P : Die → Prop} (hc : Closed P [.watches, .messages]) watch stamp (s t : State) (hd : P s.die) (h : exec (.cycleWatchFire watch stamp) s = .next t) : t.pending = s.pending ∧ P t.die := by
  obtain ⟨-, rfl⟩ := run_next (show execCycleWatchFire watch stamp s = .next t from h)
  refine ⟨rfl, ?_⟩
  have k0 := @cycleWatchFire_kept P (hc.mono (by decide))
  dsimp only
  with_reducible repeat' first
    | assumption
    | apply k0
    | dsimp only
    | split
    | refine hc.lit (by dsimp only) ?_

theorem exec_watchArmed_kept {P : Die → Prop} (hc : Closed P [.watches, .messages]) watch (s t : State) (hd : P s.die) (h : exec (.watchArmed watch) s = .next t) : t.pending = s.pending ∧ P t.die := by
  obtain ⟨-, rfl⟩ := run_next (show execWatchArmed watch s = .next t from h)
  refine ⟨rfl, ?_⟩
  have k0 := @armWatch_kept P (hc.mono (by decide))
  dsimp only
  with_reducible repeat' first
    | assumption
    | apply k0
    | dsimp only
    | split
    | refine hc.lit (by dsimp only) ?_

theorem exec_watchMessageDelivery_kept {P : Die → Prop} (hc : Closed P [.messages, .delivered])  (s t : State) (hd : P s.die) (h : exec (.watchMessageDelivery ) s = .next t) : t.pending = s.pending ∧ P t.die := by
  obtain ⟨-, rfl⟩ := run_next (show execWatchMessageDelivery  s = .next t from h)
  refine ⟨rfl, ?_⟩
  have k0 := @deliverWatch_kept P (hc.mono (by decide))
  dsimp only
  with_reducible repeat' first
    | assumption
    | apply k0
    | dsimp only
    | split
    | refine hc.lit (by dsimp only) ?_

theorem exec_commitAccept_kept {P : Die → Prop} (hc : Closed P [.ledger, .regions, .synths, .commits, .commitReqs, .nextCommit])  (s t : State) (hd : P s.die) (h : exec (.commitAccept ) s = .next t) : t.pending = s.pending ∧ P t.die := by
  obtain ⟨-, rfl⟩ := run_next (show execCommitAccept  s = .next t from h)
  refine ⟨rfl, ?_⟩
  have k0 := @commitAccept_kept P (hc.mono (by decide))
  dsimp only
  with_reducible repeat' first
    | assumption
    | apply k0
    | dsimp only
    | split
    | refine hc.lit (by dsimp only) ?_

theorem exec_commitVoltageRise_kept {P : Die → Prop} (hc : Closed P [.rails, .commits]) commit (s t : State) (hd : P s.die) (h : exec (.commitVoltageRise commit) s = .next t) : t.pending = s.pending ∧ P t.die := by
  obtain ⟨-, rfl⟩ := run_next (show execCommitVoltageRise commit s = .next t from h)
  refine ⟨rfl, ?_⟩
  have k0 := @voltageRise_kept P (hc.mono (by decide))
  dsimp only
  with_reducible repeat' first
    | assumption
    | apply k0
    | dsimp only
    | split
    | refine hc.lit (by dsimp only) ?_

theorem exec_commitDecision_kept {P : Die → Prop} (hc : Closed P [.ledger, .regions, .synths, .commits, .commitReqs]) commit (s t : State) (hd : P s.die) (h : exec (.commitDecision commit) s = .next t) : t.pending = s.pending ∧ P t.die := by
  obtain ⟨-, rfl⟩ := run_next (show execCommitDecision commit s = .next t from h)
  refine ⟨rfl, ?_⟩
  have k0 := @commitDecision_kept P (hc.mono (by decide))
  dsimp only
  with_reducible repeat' first
    | assumption
    | apply k0
    | dsimp only
    | split
    | refine hc.lit (by dsimp only) ?_

theorem exec_commitStrobe_kept {P : Die → Prop} (hc : Closed P [.ledger, .regions, .commits, .commitReqs]) commit (s t : State) (hd : P s.die) (h : exec (.commitStrobe commit) s = .next t) : t.pending = s.pending ∧ P t.die := by
  obtain ⟨-, rfl⟩ := run_next (show execCommitStrobe commit s = .next t from h)
  refine ⟨rfl, ?_⟩
  have k0 := @commitStrobe_kept P (hc.mono (by decide))
  dsimp only
  with_reducible repeat' first
    | assumption
    | apply k0
    | dsimp only
    | split
    | refine hc.lit (by dsimp only) ?_

theorem exec_regionSwitchingInstant_kept {P : Die → Prop} (hc : Closed P [.ledger, .islands, .regions, .synths, .commits, .commitReqs]) region offset (s t : State) (hd : P s.die) (h : exec (.regionSwitchingInstant region offset) s = .next t) : t.pending = s.pending ∧ P t.die := by
  obtain ⟨-, rfl⟩ := run_next (show execRegionSwitchingInstant region offset s = .next t from h)
  refine ⟨rfl, ?_⟩
  have k0 := @switchingInstant_kept P (hc.mono (by decide))
  dsimp only
  with_reducible repeat' first
    | assumption
    | apply k0
    | dsimp only
    | split
    | refine hc.lit (by dsimp only) ?_

theorem exec_commitVoltageFall_kept {P : Die → Prop} (hc : Closed P [.rails, .commits]) commit (s t : State) (hd : P s.die) (h : exec (.commitVoltageFall commit) s = .next t) : t.pending = s.pending ∧ P t.die := by
  obtain ⟨-, rfl⟩ := run_next (show execCommitVoltageFall commit s = .next t from h)
  refine ⟨rfl, ?_⟩
  have k0 := @voltageFall_kept P (hc.mono (by decide))
  dsimp only
  with_reducible repeat' first
    | assumption
    | apply k0
    | dsimp only
    | split
    | refine hc.lit (by dsimp only) ?_

theorem exec_settlementCommitRequest_kept {P : Die → Prop} (hc : Closed P [.regions, .commitReqs]) region (s t : State) (hd : P s.die) (h : exec (.settlementCommitRequest region) s = .next t) : t.pending = s.pending ∧ P t.die := by
  obtain ⟨-, rfl⟩ := run_next (show execSettlementCommitRequest region s = .next t from h)
  refine ⟨rfl, ?_⟩
  have k0 := @settlementRequest_kept P (hc.mono (by decide))
  dsimp only
  with_reducible repeat' first
    | assumption
    | apply k0
    | dsimp only
    | split
    | refine hc.lit (by dsimp only) ?_

theorem exec_restoringCommitRetry_kept {P : Die → Prop} (hc : Closed P [.regions, .commitReqs]) region (s t : State) (hd : P s.die) (h : exec (.restoringCommitRetry region) s = .next t) : t.pending = s.pending ∧ P t.die := by
  obtain ⟨-, rfl⟩ := run_next (show execRestoringCommitRetry region s = .next t from h)
  refine ⟨rfl, ?_⟩
  have k0 := @restoringRetry_kept P (hc.mono (by decide))
  dsimp only
  with_reducible repeat' first
    | assumption
    | apply k0
    | dsimp only
    | split
    | refine hc.lit (by dsimp only) ?_

theorem exec_pauseSwitchLend_kept {P : Die → Prop} (hc : Closed P [.ledger, .islands, .regions, .synths, .commits, .commitReqs]) region (s t : State) (hd : P s.die) (h : exec (.pauseSwitchLend region) s = .next t) : t.pending = s.pending ∧ P t.die := by
  obtain ⟨-, rfl⟩ := run_next (show execPauseSwitchLend region s = .next t from h)
  refine ⟨rfl, ?_⟩
  have k0 := @pauseLend_kept P (hc.mono (by decide))
  dsimp only
  with_reducible repeat' first
    | assumption
    | apply k0
    | dsimp only
    | split
    | refine hc.lit (by dsimp only) ?_

theorem exec_pauseSwitchGateTimeout_kept {P : Die → Prop} (hc : Closed P [.ledger, .islands, .regions]) island (s t : State) (hd : P s.die) (h : exec (.pauseSwitchGateTimeout island) s = .next t) : t.pending = s.pending ∧ P t.die := by
  obtain ⟨-, rfl⟩ := run_next (show execPauseSwitchGateTimeout island s = .next t from h)
  refine ⟨rfl, ?_⟩
  have k0 := @pauseGate_kept P (hc.mono (by decide))
  dsimp only
  with_reducible repeat' first
    | assumption
    | apply k0
    | dsimp only
    | split
    | refine hc.lit (by dsimp only) ?_

theorem exec_regionActionApply_kept {P : Die → Prop} (hc : Closed P [.ledger, .regions, .commitReqs]) region (s t : State) (hd : P s.die) (h : exec (.regionActionApply region) s = .next t) : t.pending = s.pending ∧ P t.die := by
  obtain ⟨-, rfl⟩ := run_next (show execRegionActionApply region s = .next t from h)
  refine ⟨rfl, ?_⟩
  have k0 := @actionApply_kept P (hc.mono (by decide))
  dsimp only
  with_reducible repeat' first
    | assumption
    | apply k0
    | dsimp only
    | split
    | refine hc.lit (by dsimp only) ?_

theorem exec_patternRecordRead_kept {P : Die → Prop} (hc : Closed P [.ledger, .regions, .contexts]) context record (s t : State) (hd : P s.die) (h : exec (.patternRecordRead context record) s = .next t) : t.pending = s.pending ∧ P t.die := by
  obtain ⟨-, rfl⟩ := run_next (show execPatternRecordRead context record s = .next t from h)
  refine ⟨rfl, ?_⟩
  have k0 := @recordRead_kept P (hc.mono (by decide))
  dsimp only
  with_reducible repeat' first
    | assumption
    | apply k0
    | dsimp only
    | split
    | refine hc.lit (by dsimp only) ?_

theorem exec_patternActionApply_kept {P : Die → Prop} (hc : Closed P [.ledger, .islands, .regions, .ends, .contexts, .commitReqs, .tenants]) island (s t : State) (hd : P s.die) (h : exec (.patternActionApply island) s = .next t) : t.pending = s.pending ∧ P t.die := by
  obtain ⟨-, rfl⟩ := run_next (show execPatternActionApply island s = .next t from h)
  refine ⟨rfl, ?_⟩
  have k0 := @actionsAt_kept P (hc.mono (by decide))
  dsimp only
  with_reducible repeat' first
    | assumption
    | apply k0
    | dsimp only
    | split
    | refine hc.lit (by dsimp only) ?_

theorem exec_oppRequestIssue_kept {P : Die → Prop} (hc : Closed P [.ledger, .regions, .contexts, .commitReqs]) context (s t : State) (hd : P s.die) (h : exec (.oppRequestIssue context) s = .next t) : t.pending = s.pending ∧ P t.die := by
  obtain ⟨-, rfl⟩ := run_next (show execOppRequestIssue context s = .next t from h)
  refine ⟨rfl, ?_⟩
  have k0 := @requestIssue_kept P (hc.mono (by decide))
  dsimp only
  with_reducible repeat' first
    | assumption
    | apply k0
    | dsimp only
    | split
    | refine hc.lit (by dsimp only) ?_

theorem exec_certAssembly_kept {P : Die → Prop} (hc : Closed P [.ledger, .contexts, .fresh]) context (s t : State) (hd : P s.die) (h : exec (.certAssembly context) s = .next t) : t.pending = s.pending ∧ P t.die := by
  obtain ⟨-, rfl⟩ := run_next (show execCertAssembly context s = .next t from h)
  refine ⟨rfl, ?_⟩
  have k0 := @certAssembly_kept P (hc.mono (by decide))
  dsimp only
  with_reducible repeat' first
    | assumption
    | apply k0
    | dsimp only
    | split
    | refine hc.lit (by dsimp only) ?_

theorem exec_energyIntervalEnd_kept {P : Die → Prop} (hc : Closed P [.ledger, .limits, .islands, .regions, .ends, .rails, .commitReqs, .tenants]) counts (s t : State) (hd : P s.die) (h : exec (.energyIntervalEnd counts) s = .next t) : t.pending = s.pending ∧ P t.die := by
  obtain ⟨-, rfl⟩ := run_next (show execEnergyIntervalEnd counts s = .next t from h)
  refine ⟨rfl, ?_⟩
  have k0 := @intervalEnd_kept P (hc.mono (by decide))
  dsimp only
  with_reducible repeat' first
    | assumption
    | apply k0
    | dsimp only
    | split
    | refine hc.lit (by dsimp only) ?_

theorem exec_telemetryReadStart_kept {P : Die → Prop} (hc : Closed P [.rails])  (s t : State) (hd : P s.die) (h : exec (.telemetryReadStart ) s = .next t) : t.pending = s.pending ∧ P t.die := by
  obtain ⟨-, rfl⟩ := run_next (show execTelemetryReadStart  s = .next t from h)
  refine ⟨rfl, ?_⟩
  have k0 := @telemetryStart_kept P (hc.mono (by decide))
  dsimp only
  with_reducible repeat' first
    | assumption
    | apply k0
    | dsimp only
    | split
    | refine hc.lit (by dsimp only) ?_

theorem exec_calibrationWindowEnd_kept {P : Die → Prop} (hc : Closed P [.ledger, .rails])  (s t : State) (hd : P s.die) (h : exec (.calibrationWindowEnd ) s = .next t) : t.pending = s.pending ∧ P t.die := by
  obtain ⟨-, rfl⟩ := run_next (show execCalibrationWindowEnd  s = .next t from h)
  refine ⟨rfl, ?_⟩
  have k0 := @calibrationWindowEnd_kept P (hc.mono (by decide))
  dsimp only
  with_reducible repeat' first
    | assumption
    | apply k0
    | dsimp only
    | split
    | refine hc.lit (by dsimp only) ?_

theorem exec_calibrationUpdateApply_kept {P : Die → Prop} (hc : Closed P [.ledger, .rails])  (s t : State) (hd : P s.die) (h : exec (.calibrationUpdateApply ) s = .next t) : t.pending = s.pending ∧ P t.die := by
  obtain ⟨-, rfl⟩ := run_next (show execCalibrationUpdateApply  s = .next t from h)
  refine ⟨rfl, ?_⟩
  have k0 := @calibrationUpdateApply_kept P (hc.mono (by decide))
  dsimp only
  with_reducible repeat' first
    | assumption
    | apply k0
    | dsimp only
    | split
    | refine hc.lit (by dsimp only) ?_

theorem exec_limitEvaluation_kept {P : Die → Prop} (hc : Closed P [.ledger, .limits, .regions, .commitReqs])  (s t : State) (hd : P s.die) (h : exec (.limitEvaluation ) s = .next t) : t.pending = s.pending ∧ P t.die := by
  obtain ⟨-, rfl⟩ := run_next (show execLimitEvaluation  s = .next t from h)
  refine ⟨rfl, ?_⟩
  have k0 := @limitEvaluation_kept P (hc.mono (by decide))
  dsimp only
  with_reducible repeat' first
    | assumption
    | apply k0
    | dsimp only
    | split
    | refine hc.lit (by dsimp only) ?_

theorem exec_vrmStatusPoll_kept {P : Die → Prop} (hc : Closed P [.ledger, .regions, .rails, .commitReqs]) rail status (s t : State) (hd : P s.die) (h : exec (.vrmStatusPoll rail status) s = .next t) : t.pending = s.pending ∧ P t.die := by
  obtain ⟨-, rfl⟩ := run_next (show execVrmStatusPoll rail status s = .next t from h)
  refine ⟨rfl, ?_⟩
  have k0 := @statusPoll_kept P (hc.mono (by decide))
  dsimp only
  with_reducible repeat' first
    | assumption
    | apply k0
    | dsimp only
    | split
    | refine hc.lit (by dsimp only) ?_

theorem exec_vrmAlertRise_kept {P : Die → Prop} (hc : Closed P [.ledger, .regions, .rails, .commitReqs]) rail (s t : State) (hd : P s.die) (h : exec (.vrmAlertRise rail) s = .next t) : t.pending = s.pending ∧ P t.die := by
  obtain ⟨-, rfl⟩ := run_next (show execVrmAlertRise rail s = .next t from h)
  refine ⟨rfl, ?_⟩
  have k0 := @alertRises_kept P (hc.mono (by decide))
  dsimp only
  with_reducible repeat' first
    | assumption
    | apply k0
    | dsimp only
    | split
    | refine hc.lit (by dsimp only) ?_

theorem exec_voltageFallTimeout_kept {P : Die → Prop} (hc : Closed P [.ledger, .regions, .rails, .commitReqs]) rail status (s t : State) (hd : P s.die) (h : exec (.voltageFallTimeout rail status) s = .next t) : t.pending = s.pending ∧ P t.die := by
  obtain ⟨-, rfl⟩ := run_next (show execVoltageFallTimeout rail status s = .next t from h)
  refine ⟨rfl, ?_⟩
  have k0 := @fallTimeout_kept P (hc.mono (by decide))
  dsimp only
  with_reducible repeat' first
    | assumption
    | apply k0
    | dsimp only
    | split
    | refine hc.lit (by dsimp only) ?_

theorem exec_fallTargetRewrite_kept {P : Die → Prop} (hc : Closed P [.rails]) rail (s t : State) (hd : P s.die) (h : exec (.fallTargetRewrite rail) s = .next t) : t.pending = s.pending ∧ P t.die := by
  obtain ⟨-, rfl⟩ := run_next (show execFallTargetRewrite rail s = .next t from h)
  refine ⟨rfl, ?_⟩
  have k0 := @fallRewrite_kept P (hc.mono (by decide))
  dsimp only
  with_reducible repeat' first
    | assumption
    | apply k0
    | dsimp only
    | split
    | refine hc.lit (by dsimp only) ?_

theorem exec_sensorConversion_kept {P : Die → Prop} (hc : Closed P [.startup, .stop, .regs, .ledger, .store, .limits, .islands, .regions, .synths, .ends, .links, .rails, .sensors, .contexts, .commits, .commitReqs, .dormant, .fresh]) readings (s t : State) (hd : P s.die) (h : exec (.sensorConversion readings) s = .next t) : t.pending = s.pending ∧ P t.die := by
  obtain ⟨-, rfl⟩ := run_next (show execSensorConversion readings s = .next t from h)
  refine ⟨rfl, ?_⟩
  have k0 := @sensorConversion_kept P (hc.mono (by decide))
  dsimp only
  with_reducible repeat' first
    | assumption
    | apply k0
    | dsimp only
    | split
    | refine hc.lit (by dsimp only) ?_

theorem exec_thermalSoftStep_kept {P : Die → Prop} (hc : Closed P [.ledger, .regions, .commitReqs]) region (s t : State) (hd : P s.die) (h : exec (.thermalSoftStep region) s = .next t) : t.pending = s.pending ∧ P t.die := by
  obtain ⟨-, rfl⟩ := run_next (show execThermalSoftStep region s = .next t from h)
  refine ⟨rfl, ?_⟩
  have k0 := @softStep_kept P (hc.mono (by decide))
  dsimp only
  with_reducible repeat' first
    | assumption
    | apply k0
    | dsimp only
    | split
    | refine hc.lit (by dsimp only) ?_

theorem exec_thermalSoftRelease_kept {P : Die → Prop} (hc : Closed P [.regions]) region (s t : State) (hd : P s.die) (h : exec (.thermalSoftRelease region) s = .next t) : t.pending = s.pending ∧ P t.die := by
  obtain ⟨-, rfl⟩ := run_next (show execThermalSoftRelease region s = .next t from h)
  refine ⟨rfl, ?_⟩
  have k0 := @softRelease_kept P (hc.mono (by decide))
  dsimp only
  with_reducible repeat' first
    | assumption
    | apply k0
    | dsimp only
    | split
    | refine hc.lit (by dsimp only) ?_

theorem exec_thermalSoftRise_kept {P : Die → Prop} (hc : Closed P [.ledger, .regions, .commitReqs]) region (s t : State) (hd : P s.die) (h : exec (.thermalSoftRise region) s = .next t) : t.pending = s.pending ∧ P t.die := by
  obtain ⟨-, rfl⟩ := run_next (show execThermalSoftRise region s = .next t from h)
  refine ⟨rfl, ?_⟩
  have k0 := @softRise_kept P (hc.mono (by decide))
  dsimp only
  with_reducible repeat' first
    | assumption
    | apply k0
    | dsimp only
    | split
    | refine hc.lit (by dsimp only) ?_

theorem exec_thermalHardRelease_kept {P : Die → Prop} (hc : Closed P [.ledger, .regions, .commitReqs]) region (s t : State) (hd : P s.die) (h : exec (.thermalHardRelease region) s = .next t) : t.pending = s.pending ∧ P t.die := by
  obtain ⟨-, rfl⟩ := run_next (show execThermalHardRelease region s = .next t from h)
  refine ⟨rfl, ?_⟩
  have k0 := @hardRelease_kept P (hc.mono (by decide))
  dsimp only
  with_reducible repeat' first
    | assumption
    | apply k0
    | dsimp only
    | split
    | refine hc.lit (by dsimp only) ?_

theorem exec_thermalTripRelease_kept {P : Die → Prop} (hc : Closed P [.startup, .stop, .ledger, .store, .regions, .synths, .rails, .commitReqs])  (s t : State) (hd : P s.die) (h : exec (.thermalTripRelease ) s = .next t) : t.pending = s.pending ∧ P t.die := by
  obtain ⟨-, rfl⟩ := run_next (show execThermalTripRelease  s = .next t from h)
  refine ⟨rfl, ?_⟩
  have k0 := @tripRelease_kept P (hc.mono (by decide))
  dsimp only
  with_reducible repeat' first
    | assumption
    | apply k0
    | dsimp only
    | split
    | refine hc.lit (by dsimp only) ?_

theorem exec_flowLoss_kept {P : Die → Prop} (hc : Closed P [.startup, .stop, .regs, .ledger, .store, .limits, .islands, .regions, .synths, .ends, .links, .rails, .contexts, .commits, .commitReqs]) senseMv flowOk (s t : State) (hd : P s.die) (h : exec (.flowLoss senseMv flowOk) s = .next t) : t.pending = s.pending ∧ P t.die := by
  obtain ⟨-, rfl⟩ := run_next (show execFlowLoss senseMv flowOk s = .next t from h)
  refine ⟨rfl, ?_⟩
  have k0 := @flowLoss_kept P (hc.mono (by decide))
  dsimp only
  with_reducible repeat' first
    | assumption
    | apply k0
    | dsimp only
    | split
    | refine hc.lit (by dsimp only) ?_

theorem exec_flowRelease_kept {P : Die → Prop} (hc : Closed P [.startup, .stop, .regs, .ledger, .store, .regions, .synths, .rails, .commitReqs]) senseMv (s t : State) (hd : P s.die) (h : exec (.flowRelease senseMv) s = .next t) : t.pending = s.pending ∧ P t.die := by
  obtain ⟨-, rfl⟩ := run_next (show execFlowRelease senseMv s = .next t from h)
  refine ⟨rfl, ?_⟩
  have k0 := @flowRelease_kept P (hc.mono (by decide))
  dsimp only
  with_reducible repeat' first
    | assumption
    | apply k0
    | dsimp only
    | split
    | refine hc.lit (by dsimp only) ?_

theorem exec_estopAssert_kept {P : Die → Prop} (hc : Closed P [.startup, .stop, .regs, .ledger, .store, .limits, .islands, .regions, .synths, .ends, .links, .rails, .contexts, .commits, .commitReqs])  (s t : State) (hd : P s.die) (h : exec (.estopAssert ) s = .next t) : t.pending = s.pending ∧ P t.die := by
  obtain ⟨-, rfl⟩ := run_next (show execEstopAssert  s = .next t from h)
  refine ⟨rfl, ?_⟩
  have k0 := @estopAssert_kept P (hc.mono (by decide))
  dsimp only
  with_reducible repeat' first
    | assumption
    | apply k0
    | dsimp only
    | split
    | refine hc.lit (by dsimp only) ?_

theorem exec_estopRelease_kept {P : Die → Prop} (hc : Closed P [.startup, .stop, .ledger, .store, .regions, .synths, .rails, .commitReqs])  (s t : State) (hd : P s.die) (h : exec (.estopRelease ) s = .next t) : t.pending = s.pending ∧ P t.die := by
  obtain ⟨-, rfl⟩ := run_next (show execEstopRelease  s = .next t from h)
  refine ⟨rfl, ?_⟩
  have k0 := @estopRelease_kept P (hc.mono (by decide))
  dsimp only
  with_reducible repeat' first
    | assumption
    | apply k0
    | dsimp only
    | split
    | refine hc.lit (by dsimp only) ?_

theorem exec_resumeRelease_kept {P : Die → Prop} (hc : Closed P [.stop, .regs, .ledger, .islands, .regions, .commitReqs])  (s t : State) (hd : P s.die) (h : exec (.resumeRelease ) s = .next t) : t.pending = s.pending ∧ P t.die := by
  obtain ⟨-, rfl⟩ := run_next (show execResumeRelease  s = .next t from h)
  refine ⟨rfl, ?_⟩
  have k0 := @resumeRelease_kept P (hc.mono (by decide))
  dsimp only
  with_reducible repeat' first
    | assumption
    | apply k0
    | dsimp only
    | split
    | refine hc.lit (by dsimp only) ?_

theorem exec_poolStatusSend_kept {P : Die → Prop} (hc : Closed P [.ledger, .limits, .regions, .links])  (s t : State) (hd : P s.die) (h : exec (.poolStatusSend ) s = .next t) : t.pending = s.pending ∧ P t.die := by
  obtain ⟨-, rfl⟩ := run_next (show execPoolStatusSend  s = .next t from h)
  refine ⟨rfl, ?_⟩
  have k0 := @statusSend_kept P (hc.mono (by decide))
  dsimp only
  with_reducible repeat' first
    | assumption
    | apply k0
    | dsimp only
    | split
    | refine hc.lit (by dsimp only) ?_

theorem exec_poolStatusReceived_kept {P : Die → Prop} (hc : Closed P [.tally, .ledger, .limits, .links]) link frame (s t : State) (hd : P s.die) (h : exec (.poolStatusReceived link frame) s = .next t) : t.pending = s.pending ∧ P t.die := by
  obtain ⟨-, rfl⟩ := run_next (show execPoolStatusReceived link frame s = .next t from h)
  refine ⟨rfl, ?_⟩
  have k0 := @statusReceived_kept P (hc.mono (by decide))
  dsimp only
  with_reducible repeat' first
    | assumption
    | apply k0
    | dsimp only
    | split
    | refine hc.lit (by dsimp only) ?_

theorem exec_poolGrantReceived_kept {P : Die → Prop} (hc : Closed P [.tally, .ledger, .limits, .links]) link frame (s t : State) (hd : P s.die) (h : exec (.poolGrantReceived link frame) s = .next t) : t.pending = s.pending ∧ P t.die := by
  obtain ⟨-, rfl⟩ := run_next (show execPoolGrantReceived link frame s = .next t from h)
  refine ⟨rfl, ?_⟩
  have k0 := @grantReceived_kept P (hc.mono (by decide))
  dsimp only
  with_reducible repeat' first
    | assumption
    | apply k0
    | dsimp only
    | split
    | refine hc.lit (by dsimp only) ?_

theorem exec_poolReturnReceived_kept {P : Die → Prop} (hc : Closed P [.tally, .ledger, .limits, .links]) link frame (s t : State) (hd : P s.die) (h : exec (.poolReturnReceived link frame) s = .next t) : t.pending = s.pending ∧ P t.die := by
  obtain ⟨-, rfl⟩ := run_next (show execPoolReturnReceived link frame s = .next t from h)
  refine ⟨rfl, ?_⟩
  have k0 := @returnReceived_kept P (hc.mono (by decide))
  dsimp only
  with_reducible repeat' first
    | assumption
    | apply k0
    | dsimp only
    | split
    | refine hc.lit (by dsimp only) ?_

theorem exec_poolRecallReceived_kept {P : Die → Prop} (hc : Closed P [.tally, .ledger, .limits, .links]) link frame (s t : State) (hd : P s.die) (h : exec (.poolRecallReceived link frame) s = .next t) : t.pending = s.pending ∧ P t.die := by
  obtain ⟨-, rfl⟩ := run_next (show execPoolRecallReceived link frame s = .next t from h)
  refine ⟨rfl, ?_⟩
  have k0 := @recallReceived_kept P (hc.mono (by decide))
  dsimp only
  with_reducible repeat' first
    | assumption
    | apply k0
    | dsimp only
    | split
    | refine hc.lit (by dsimp only) ?_

theorem exec_poolLinkSilent_kept {P : Die → Prop} (hc : Closed P [.ledger, .limits, .links]) link (s t : State) (hd : P s.die) (h : exec (.poolLinkSilent link) s = .next t) : t.pending = s.pending ∧ P t.die := by
  obtain ⟨-, rfl⟩ := run_next (show execPoolLinkSilent link s = .next t from h)
  refine ⟨rfl, ?_⟩
  have k0 := @linkSilent_kept P (hc.mono (by decide))
  dsimp only
  with_reducible repeat' first
    | assumption
    | apply k0
    | dsimp only
    | split
    | refine hc.lit (by dsimp only) ?_

theorem exec_poolLenderRestore_kept {P : Die → Prop} (hc : Closed P [.ledger, .limits, .links]) link (s t : State) (hd : P s.die) (h : exec (.poolLenderRestore link) s = .next t) : t.pending = s.pending ∧ P t.die := by
  obtain ⟨-, rfl⟩ := run_next (show execPoolLenderRestore link s = .next t from h)
  refine ⟨rfl, ?_⟩
  have k0 := @lenderRestore_kept P (hc.mono (by decide))
  dsimp only
  with_reducible repeat' first
    | assumption
    | apply k0
    | dsimp only
    | split
    | refine hc.lit (by dsimp only) ?_

theorem exec_guardEvaluation_kept {P : Die → Prop} (hc : Closed P [.ledger, .limits, .islands, .regions, .ends, .rails, .commitReqs, .tenants])  (s t : State) (hd : P s.die) (h : exec (.guardEvaluation ) s = .next t) : t.pending = s.pending ∧ P t.die := by
  obtain ⟨-, rfl⟩ := run_next (show execGuardEvaluation  s = .next t from h)
  refine ⟨rfl, ?_⟩
  have k0 := @guardEvaluation_kept P (hc.mono (by decide))
  dsimp only
  with_reducible repeat' first
    | assumption
    | apply k0
    | dsimp only
    | split
    | refine hc.lit (by dsimp only) ?_

theorem exec_guardCeilingRise_kept {P : Die → Prop} (hc : Closed P [.ledger, .regions, .commitReqs, .tenants])  (s t : State) (hd : P s.die) (h : exec (.guardCeilingRise ) s = .next t) : t.pending = s.pending ∧ P t.die := by
  obtain ⟨-, rfl⟩ := run_next (show execGuardCeilingRise  s = .next t from h)
  refine ⟨rfl, ?_⟩
  have k0 := @guardCeilingRise_kept P (hc.mono (by decide))
  dsimp only
  with_reducible repeat' first
    | assumption
    | apply k0
    | dsimp only
    | split
    | refine hc.lit (by dsimp only) ?_

theorem exec_assayPhaseEnd_kept {P : Die → Prop} (hc : Closed P [.ledger, .store, .islands, .regions, .synths, .ends, .rails, .contexts]) measured (s t : State) (hd : P s.die) (h : exec (.assayPhaseEnd measured) s = .next t) : t.pending = s.pending ∧ P t.die := by
  obtain ⟨-, rfl⟩ := run_next (show execAssayPhaseEnd measured s = .next t from h)
  refine ⟨rfl, ?_⟩
  have k0 := @assayPhaseEnd_kept P (hc.mono (by decide))
  dsimp only
  with_reducible repeat' first
    | assumption
    | apply k0
    | dsimp only
    | split
    | refine hc.lit (by dsimp only) ?_

theorem exec_assayClose_kept {P : Die → Prop} (hc : Closed P [.ledger, .store, .islands, .regions, .synths, .ends, .sensors, .contexts, .commitReqs])  (s t : State) (hd : P s.die) (h : exec (.assayClose ) s = .next t) : t.pending = s.pending ∧ P t.die := by
  obtain ⟨-, rfl⟩ := run_next (show execAssayClose  s = .next t from h)
  refine ⟨rfl, ?_⟩
  have k0 := @assayClose_kept P (hc.mono (by decide))
  dsimp only
  with_reducible repeat' first
    | assumption
    | apply k0
    | dsimp only
    | split
    | refine hc.lit (by dsimp only) ?_

theorem exec_flashOperationComplete_kept {P : Die → Prop} (hc : Closed P [.ledger, .store, .fresh]) ok (s t : State) (hd : P s.die) (h : exec (.flashOperationComplete ok) s = .next t) : t.pending = s.pending ∧ P t.die := by
  obtain ⟨-, rfl⟩ := run_next (show execFlashOperationComplete ok s = .next t from h)
  refine ⟨rfl, ?_⟩
  have k0 := @flashComplete_kept P (hc.mono (by decide))
  dsimp only
  with_reducible repeat' first
    | assumption
    | apply k0
    | dsimp only
    | split
    | refine hc.lit (by dsimp only) ?_

theorem exec_flashOperationTimeout_kept {P : Die → Prop} (hc : Closed P [.ledger, .store, .fresh])  (s t : State) (hd : P s.die) (h : exec (.flashOperationTimeout ) s = .next t) : t.pending = s.pending ∧ P t.die := by
  obtain ⟨-, rfl⟩ := run_next (show execFlashOperationTimeout  s = .next t from h)
  refine ⟨rfl, ?_⟩
  have k0 := @flashTimeout_kept P (hc.mono (by decide))
  dsimp only
  with_reducible repeat' first
    | assumption
    | apply k0
    | dsimp only
    | split
    | refine hc.lit (by dsimp only) ?_

theorem exec_storeWriteRetire_kept {P : Die → Prop} (hc : Closed P [.store])  (s t : State) (hd : P s.die) (h : exec (.storeWriteRetire ) s = .next t) : t.pending = s.pending ∧ P t.die := by
  obtain ⟨-, rfl⟩ := run_next (show execStoreWriteRetire  s = .next t from h)
  refine ⟨rfl, ?_⟩
  have k0 := @retireWrite_kept P (hc.mono (by decide))
  dsimp only
  with_reducible repeat' first
    | assumption
    | apply k0
    | dsimp only
    | split
    | refine hc.lit (by dsimp only) ?_

theorem exec_storeWriteRetry_kept {P : Die → Prop} (hc : Closed P [.store])  (s t : State) (hd : P s.die) (h : exec (.storeWriteRetry ) s = .next t) : t.pending = s.pending ∧ P t.die := by
  obtain ⟨-, rfl⟩ := run_next (show execStoreWriteRetry  s = .next t from h)
  refine ⟨rfl, ?_⟩
  have k0 := @storeRetry_kept P (hc.mono (by decide))
  dsimp only
  with_reducible repeat' first
    | assumption
    | apply k0
    | dsimp only
    | split
    | refine hc.lit (by dsimp only) ?_

theorem exec_chandlerHeartbeat_kept {P : Die → Prop} (hc : Closed P [.chandler])  (s t : State) (hd : P s.die) (h : exec (.chandlerHeartbeat ) s = .next t) : t.pending = s.pending ∧ P t.die := by
  obtain ⟨-, rfl⟩ := run_next (show execChandlerHeartbeat  s = .next t from h)
  refine ⟨rfl, ?_⟩
  have k0 := @heartbeat_kept P (hc.mono (by decide))
  dsimp only
  with_reducible repeat' first
    | assumption
    | apply k0
    | dsimp only
    | split
    | refine hc.lit (by dsimp only) ?_

theorem exec_chandlerHeartbeatTimeout_kept {P : Die → Prop} (hc : Closed P [.startup, .stop, .regs, .ledger, .chandler, .store, .limits, .islands, .regions, .synths, .ends, .links, .rails, .contexts, .commits, .commitReqs, .queues, .fresh])  (s t : State) (hd : P s.die) (h : exec (.chandlerHeartbeatTimeout ) s = .next t) : t.pending = s.pending ∧ P t.die := by
  obtain ⟨-, rfl⟩ := run_next (show execChandlerHeartbeatTimeout  s = .next t from h)
  refine ⟨rfl, ?_⟩
  have k0 := @heartbeatTimeout_kept P (hc.mono (by decide))
  dsimp only
  with_reducible repeat' first
    | assumption
    | apply k0
    | dsimp only
    | split
    | refine hc.lit (by dsimp only) ?_

theorem exec_chandlerFaultSignal_kept {P : Die → Prop} (hc : Closed P [.startup, .stop, .regs, .ledger, .chandler, .store, .limits, .islands, .regions, .synths, .ends, .links, .rails, .contexts, .commits, .commitReqs, .queues, .fresh]) core cause (s t : State) (hd : P s.die) (h : exec (.chandlerFaultSignal core cause) s = .next t) : t.pending = s.pending ∧ P t.die := by
  obtain ⟨-, rfl⟩ := run_next (show execChandlerFaultSignal core cause s = .next t from h)
  refine ⟨rfl, ?_⟩
  have k0 := @faultSignal_kept P (hc.mono (by decide))
  dsimp only
  with_reducible repeat' first
    | assumption
    | apply k0
    | dsimp only
    | split
    | refine hc.lit (by dsimp only) ?_

theorem exec_chandlerTakeoverComplete_kept {P : Die → Prop} (hc : Closed P [.ledger, .chandler, .store, .islands, .regions, .synths, .ends, .rails, .commitReqs, .queues])  (s t : State) (hd : P s.die) (h : exec (.chandlerTakeoverComplete ) s = .next t) : t.pending = s.pending ∧ P t.die := by
  obtain ⟨-, rfl⟩ := run_next (show execChandlerTakeoverComplete  s = .next t from h)
  refine ⟨rfl, ?_⟩
  have k0 := @takeoverComplete_kept P (hc.mono (by decide))
  dsimp only
  with_reducible repeat' first
    | assumption
    | apply k0
    | dsimp only
    | split
    | refine hc.lit (by dsimp only) ?_

theorem exec_chandlerRestartVerified_kept {P : Die → Prop} (hc : Closed P [.chandler])  (s t : State) (hd : P s.die) (h : exec (.chandlerRestartVerified ) s = .next t) : t.pending = s.pending ∧ P t.die := by
  obtain ⟨-, rfl⟩ := run_next (show execChandlerRestartVerified  s = .next t from h)
  refine ⟨rfl, ?_⟩
  have k0 := @restartVerified_kept P (hc.mono (by decide))
  dsimp only
  with_reducible repeat' first
    | assumption
    | apply k0
    | dsimp only
    | split
    | refine hc.lit (by dsimp only) ?_

theorem exec_chandlerSynced_kept {P : Die → Prop} (hc : Closed P [.ledger, .chandler, .queues])  (s t : State) (hd : P s.die) (h : exec (.chandlerSynced ) s = .next t) : t.pending = s.pending ∧ P t.die := by
  obtain ⟨-, rfl⟩ := run_next (show execChandlerSynced  s = .next t from h)
  refine ⟨rfl, ?_⟩
  have k0 := @chandlerSynced_kept P (hc.mono (by decide))
  dsimp only
  with_reducible repeat' first
    | assumption
    | apply k0
    | dsimp only
    | split
    | refine hc.lit (by dsimp only) ?_

theorem exec_chandlerSyncTimeout_kept {P : Die → Prop} (hc : Closed P [.ledger, .chandler])  (s t : State) (hd : P s.die) (h : exec (.chandlerSyncTimeout ) s = .next t) : t.pending = s.pending ∧ P t.die := by
  obtain ⟨-, rfl⟩ := run_next (show execChandlerSyncTimeout  s = .next t from h)
  refine ⟨rfl, ?_⟩
  have k0 := @syncTimeout_kept P (hc.mono (by decide))
  dsimp only
  with_reducible repeat' first
    | assumption
    | apply k0
    | dsimp only
    | split
    | refine hc.lit (by dsimp only) ?_

theorem exec_descriptorFetch_kept {P : Die → Prop} (hc : Closed P [.ledger, .queues, .sram]) queue (s t : State) (hd : P s.die) (h : exec (.descriptorFetch queue) s = .next t) : t.pending = s.pending ∧ P t.die := by
  obtain ⟨-, rfl⟩ := run_next (show execDescriptorFetch queue s = .next t from h)
  refine ⟨rfl, ?_⟩
  have k0 := @descriptorFetch_kept P (hc.mono (by decide))
  dsimp only
  with_reducible repeat' first
    | assumption
    | apply k0
    | dsimp only
    | split
    | refine hc.lit (by dsimp only) ?_

theorem exec_avsbusFrameEnd_kept {P : Die → Prop} (hc : Closed P [.stop, .ledger, .regions, .synths, .rails, .commitReqs]) rail resp (s t : State) (hd : P s.die) (h : exec (.avsbusFrameEnd rail resp) s = .next t) : t.pending = s.pending ∧ P t.die := by
  obtain ⟨-, rfl⟩ := run_next (show execAvsbusFrameEnd rail resp s = .next t from h)
  refine ⟨rfl, ?_⟩
  have k0 := @avsFrameEnd_kept P (hc.mono (by decide))
  dsimp only
  with_reducible repeat' first
    | assumption
    | apply k0
    | dsimp only
    | split
    | refine hc.lit (by dsimp only) ?_

theorem exec_pmbusTransactionComplete_kept {P : Die → Prop} (hc : Closed P [.stop, .rails]) rail resp (s t : State) (hd : P s.die) (h : exec (.pmbusTransactionComplete rail resp) s = .next t) : t.pending = s.pending ∧ P t.die := by
  obtain ⟨-, rfl⟩ := run_next (show execPmbusTransactionComplete rail resp s = .next t from h)
  refine ⟨rfl, ?_⟩
  have k0 := @pmbusDone_kept P (hc.mono (by decide))
  dsimp only
  with_reducible repeat' first
    | assumption
    | apply k0
    | dsimp only
    | split
    | refine hc.lit (by dsimp only) ?_

theorem exec_streamAccessFail_kept {P : Die → Prop} (hc : Closed P [.regs, .ledger, .contexts, .queues, .sram]) stream address (s t : State) (hd : P s.die) (h : exec (.streamAccessFail stream address) s = .next t) : t.pending = s.pending ∧ P t.die := by
  obtain ⟨-, rfl⟩ := run_next (show execStreamAccessFail stream address s = .next t from h)
  refine ⟨rfl, ?_⟩
  have k0 := @streamFail_kept P (hc.mono (by decide))
  dsimp only
  with_reducible repeat' first
    | assumption
    | apply k0
    | dsimp only
    | split
    | refine hc.lit (by dsimp only) ?_

theorem exec_ledgerRecordAccept_kept {P : Die → Prop} (hc : Closed P [.ledger, .records, .streams])  (s t : State) (hd : P s.die) (h : exec (.ledgerRecordAccept ) s = .next t) : t.pending = s.pending ∧ P t.die := by
  obtain ⟨-, rfl⟩ := run_next (show execLedgerRecordAccept  s = .next t from h)
  refine ⟨rfl, ?_⟩
  have k0 := @recordAccept_kept P (hc.mono (by decide))
  dsimp only
  with_reducible repeat' first
    | assumption
    | apply k0
    | dsimp only
    | split
    | refine hc.lit (by dsimp only) ?_

theorem exec_stretchSpanWindowEnd_kept {P : Die → Prop} (hc : Closed P [.ledger, .islands]) island (s t : State) (hd : P s.die) (h : exec (.stretchSpanWindowEnd island) s = .next t) : t.pending = s.pending ∧ P t.die := by
  obtain ⟨-, rfl⟩ := run_next (show execStretchSpanWindowEnd island s = .next t from h)
  refine ⟨rfl, ?_⟩
  have k0 := @spanWindowEnd_kept P (hc.mono (by decide))
  dsimp only
  with_reducible repeat' first
    | assumption
    | apply k0
    | dsimp only
    | split
    | refine hc.lit (by dsimp only) ?_

theorem exec_drainPageTimeout_kept {P : Die → Prop} (hc : Closed P [.ledger, .streams])  (s t : State) (hd : P s.die) (h : exec (.drainPageTimeout ) s = .next t) : t.pending = s.pending ∧ P t.die := by
  obtain ⟨-, rfl⟩ := run_next (show execDrainPageTimeout  s = .next t from h)
  refine ⟨rfl, ?_⟩
  have k0 := @pageTimeout_kept P (hc.mono (by decide))
  dsimp only
  with_reducible repeat' first
    | assumption
    | apply k0
    | dsimp only
    | split
    | refine hc.lit (by dsimp only) ?_

theorem exec_drainPageWriteComplete_kept {P : Die → Prop} (hc : Closed P [.regs, .ledger, .queues, .sram, .streams]) page (s t : State) (hd : P s.die) (h : exec (.drainPageWriteComplete page) s = .next t) : t.pending = s.pending ∧ P t.die := by
  obtain ⟨-, rfl⟩ := run_next (show execDrainPageWriteComplete page s = .next t from h)
  refine ⟨rfl, ?_⟩
  have k0 := @pageComplete_kept P (hc.mono (by decide))
  dsimp only
  with_reducible repeat' first
    | assumption
    | apply k0
    | dsimp only
    | split
    | refine hc.lit (by dsimp only) ?_

theorem exec_regionIdleChange_kept {P : Die → Prop} (hc : Closed P [.ledger, .islands, .regions, .synths, .ends, .rails, .contexts, .commitReqs, .dormant]) region (s t : State) (hd : P s.die) (h : exec (.regionIdleChange region) s = .next t) : t.pending = s.pending ∧ P t.die := by
  obtain ⟨-, rfl⟩ := run_next (show execRegionIdleChange region s = .next t from h)
  refine ⟨rfl, ?_⟩
  have k0 := @idleChange_kept P (hc.mono (by decide))
  dsimp only
  with_reducible repeat' first
    | assumption
    | apply k0
    | dsimp only
    | split
    | refine hc.lit (by dsimp only) ?_

theorem exec_wakeLine_kept {P : Die → Prop} (hc : Closed P [.regions]) region level (s t : State) (hd : P s.die) (h : exec (.wakeLine region level) s = .next t) : t.pending = s.pending ∧ P t.die := by
  obtain ⟨-, rfl⟩ := run_next (show execWakeLine region level s = .next t from h)
  refine ⟨rfl, ?_⟩
  have k0 := @modRegion_kept P _ hc (by decide)
  dsimp only
  with_reducible repeat' first
    | assumption
    | apply k0
    | dsimp only
    | split
    | refine hc.lit (by dsimp only) ?_

theorem exec_regionResetEnd_kept {P : Die → Prop} (hc : Closed P [.ledger, .islands, .regions, .ends, .contexts, .commitReqs]) region (s t : State) (hd : P s.die) (h : exec (.regionResetEnd region) s = .next t) : t.pending = s.pending ∧ P t.die := by
  obtain ⟨-, rfl⟩ := run_next (show execRegionResetEnd region s = .next t from h)
  refine ⟨rfl, ?_⟩
  have k0 := @regionResetEnd_kept P (hc.mono (by decide))
  dsimp only
  with_reducible repeat' first
    | assumption
    | apply k0
    | dsimp only
    | split
    | refine hc.lit (by dsimp only) ?_

theorem exec_islandResetEnd_kept {P : Die → Prop} (hc : Closed P [.ledger, .islands, .regions, .ends, .contexts]) island (s t : State) (hd : P s.die) (h : exec (.islandResetEnd island) s = .next t) : t.pending = s.pending ∧ P t.die := by
  obtain ⟨-, rfl⟩ := run_next (show execIslandResetEnd island s = .next t from h)
  refine ⟨rfl, ?_⟩
  have k0 := @islandResetEnd_kept P (hc.mono (by decide))
  dsimp only
  with_reducible repeat' first
    | assumption
    | apply k0
    | dsimp only
    | split
    | refine hc.lit (by dsimp only) ?_

theorem exec_planLoad_kept {P : Die → Prop} (hc : Closed P [.ledger, .regions, .contexts, .queues, .sram]) queue (s t : State) (hd : P s.die) (h : exec (.planLoad queue) s = .next t) : t.pending = s.pending ∧ P t.die := by
  obtain ⟨-, rfl⟩ := run_next (show execPlanLoad queue s = .next t from h)
  refine ⟨rfl, ?_⟩
  have k0 := @planLoadBody_kept P (hc.mono (by decide))
  dsimp only
  with_reducible repeat' first
    | assumption
    | (refine command_kept (hc.mono (by decide)) (fun _ _ _ _ => ?_) ?_)
    | apply k0
    | dsimp only
    | split
    | refine hc.lit (by dsimp only) ?_

theorem exec_planStart_kept {P : Die → Prop} (hc : Closed P [.ledger, .islands, .contexts, .queues, .sram]) queue (s t : State) (hd : P s.die) (h : exec (.planStart queue) s = .next t) : t.pending = s.pending ∧ P t.die := by
  obtain ⟨-, rfl⟩ := run_next (show execPlanStart queue s = .next t from h)
  refine ⟨rfl, ?_⟩
  have k0 := @planStartBody_kept P (hc.mono (by decide))
  dsimp only
  with_reducible repeat' first
    | assumption
    | (refine command_kept (hc.mono (by decide)) (fun _ _ _ _ => ?_) ?_)
    | apply k0
    | dsimp only
    | split
    | refine hc.lit (by dsimp only) ?_

theorem exec_planRelease_kept {P : Die → Prop} (hc : Closed P [.ledger, .islands, .regions, .ends, .lanes, .links, .contexts]) context (s t : State) (hd : P s.die) (h : exec (.planRelease context) s = .next t) : t.pending = s.pending ∧ P t.die := by
  obtain ⟨-, rfl⟩ := run_next (show execPlanRelease context s = .next t from h)
  refine ⟨rfl, ?_⟩
  have k0 := @planRelease_kept P (hc.mono (by decide))
  dsimp only
  with_reducible repeat' first
    | assumption
    | apply k0
    | dsimp only
    | split
    | refine hc.lit (by dsimp only) ?_

theorem exec_planArm_kept {P : Die → Prop} (hc : Closed P [.ledger, .contexts, .queues, .sram]) queue (s t : State) (hd : P s.die) (h : exec (.planArm queue) s = .next t) : t.pending = s.pending ∧ P t.die := by
  obtain ⟨-, rfl⟩ := run_next (show execPlanArm queue s = .next t from h)
  refine ⟨rfl, ?_⟩
  have k0 := @planArmBody_kept P (hc.mono (by decide))
  dsimp only
  with_reducible repeat' first
    | assumption
    | (refine command_kept (hc.mono (by decide)) (fun _ _ _ _ => ?_) ?_)
    | apply k0
    | dsimp only
    | split
    | refine hc.lit (by dsimp only) ?_

theorem exec_planUnload_kept {P : Die → Prop} (hc : Closed P [.ledger, .islands, .regions, .ends, .lanes, .links, .contexts, .commitReqs, .queues, .sram]) queue (s t : State) (hd : P s.die) (h : exec (.planUnload queue) s = .next t) : t.pending = s.pending ∧ P t.die := by
  obtain ⟨-, rfl⟩ := run_next (show execPlanUnload queue s = .next t from h)
  refine ⟨rfl, ?_⟩
  have k0 := @planUnloadBody_kept P (hc.mono (by decide))
  dsimp only
  with_reducible repeat' first
    | assumption
    | (refine command_kept (hc.mono (by decide)) (fun _ _ _ _ => ?_) ?_)
    | apply k0
    | dsimp only
    | split
    | refine hc.lit (by dsimp only) ?_

theorem exec_planCouple_kept {P : Die → Prop} (hc : Closed P [.ledger, .ends, .lanes, .links, .queues, .sram]) queue (s t : State) (hd : P s.die) (h : exec (.planCouple queue) s = .next t) : t.pending = s.pending ∧ P t.die := by
  obtain ⟨-, rfl⟩ := run_next (show execPlanCouple queue s = .next t from h)
  refine ⟨rfl, ?_⟩
  have k0 := @planCoupleBody_kept P (hc.mono (by decide))
  dsimp only
  with_reducible repeat' first
    | assumption
    | (refine command_kept (hc.mono (by decide)) (fun _ _ _ _ => ?_) ?_)
    | apply k0
    | dsimp only
    | split
    | refine hc.lit (by dsimp only) ?_

theorem exec_planRead_kept {P : Die → Prop} (hc : Closed P [.ledger, .queues, .sram]) queue (s t : State) (hd : P s.die) (h : exec (.planRead queue) s = .next t) : t.pending = s.pending ∧ P t.die := by
  obtain ⟨-, rfl⟩ := run_next (show execPlanRead queue s = .next t from h)
  refine ⟨rfl, ?_⟩
  have k0 := @planReadBody_kept P (hc.mono (by decide))
  dsimp only
  with_reducible repeat' first
    | assumption
    | (refine command_kept (hc.mono (by decide)) (fun _ _ _ _ => ?_) ?_)
    | apply k0
    | dsimp only
    | split
    | refine hc.lit (by dsimp only) ?_

theorem exec_oppCommit_kept {P : Die → Prop} (hc : Closed P [.ledger, .regions, .synths, .commits, .nextCommit, .queues, .sram]) queue (s t : State) (hd : P s.die) (h : exec (.oppCommit queue) s = .next t) : t.pending = s.pending ∧ P t.die := by
  obtain ⟨-, rfl⟩ := run_next (show execOppCommit queue s = .next t from h)
  refine ⟨rfl, ?_⟩
  have k0 := @oppCommitBody_kept P (hc.mono (by decide))
  dsimp only
  with_reducible repeat' first
    | assumption
    | (refine command_kept (hc.mono (by decide)) (fun _ _ _ _ => ?_) ?_)
    | apply k0
    | dsimp only
    | split
    | refine hc.lit (by dsimp only) ?_

theorem exec_oppCancel_kept {P : Die → Prop} (hc : Closed P [.ledger, .regions, .synths, .commits, .commitReqs, .queues, .sram]) queue (s t : State) (hd : P s.die) (h : exec (.oppCancel queue) s = .next t) : t.pending = s.pending ∧ P t.die := by
  obtain ⟨-, rfl⟩ := run_next (show execOppCancel queue s = .next t from h)
  refine ⟨rfl, ?_⟩
  have k0 := @oppCancelBody_kept P (hc.mono (by decide))
  dsimp only
  with_reducible repeat' first
    | assumption
    | (refine command_kept (hc.mono (by decide)) (fun _ _ _ _ => ?_) ?_)
    | apply k0
    | dsimp only
    | split
    | refine hc.lit (by dsimp only) ?_

theorem exec_oppRead_kept {P : Die → Prop} (hc : Closed P [.ledger, .queues, .sram, .fresh]) queue (s t : State) (hd : P s.die) (h : exec (.oppRead queue) s = .next t) : t.pending = s.pending ∧ P t.die := by
  obtain ⟨-, rfl⟩ := run_next (show execOppRead queue s = .next t from h)
  refine ⟨rfl, ?_⟩
  have k0 := @oppReadBody_kept P (hc.mono (by decide))
  dsimp only
  with_reducible repeat' first
    | assumption
    | (refine command_kept (hc.mono (by decide)) (fun _ _ _ _ => ?_) ?_)
    | apply k0
    | dsimp only
    | split
    | refine hc.lit (by dsimp only) ?_

theorem exec_capSet_kept {P : Die → Prop} (hc : Closed P [.ledger, .limits, .regions, .rails, .queues, .sram]) queue (s t : State) (hd : P s.die) (h : exec (.capSet queue) s = .next t) : t.pending = s.pending ∧ P t.die := by
  obtain ⟨-, rfl⟩ := run_next (show execCapSet queue s = .next t from h)
  refine ⟨rfl, ?_⟩
  have k0 := @capSetBody_kept P (hc.mono (by decide))
  dsimp only
  with_reducible repeat' first
    | assumption
    | (refine command_kept (hc.mono (by decide)) (fun _ _ _ _ => ?_) ?_)
    | apply k0
    | dsimp only
    | split
    | refine hc.lit (by dsimp only) ?_

theorem exec_capCeiling_kept {P : Die → Prop} (hc : Closed P [.ledger, .regions, .commitReqs, .queues, .sram]) queue (s t : State) (hd : P s.die) (h : exec (.capCeiling queue) s = .next t) : t.pending = s.pending ∧ P t.die := by
  obtain ⟨-, rfl⟩ := run_next (show execCapCeiling queue s = .next t from h)
  refine ⟨rfl, ?_⟩
  have k0 := @capCeilingBody_kept P (hc.mono (by decide))
  dsimp only
  with_reducible repeat' first
    | assumption
    | (refine command_kept (hc.mono (by decide)) (fun _ _ _ _ => ?_) ?_)
    | apply k0
    | dsimp only
    | split
    | refine hc.lit (by dsimp only) ?_

theorem exec_capRead_kept {P : Die → Prop} (hc : Closed P [.ledger, .queues, .sram]) queue (s t : State) (hd : P s.die) (h : exec (.capRead queue) s = .next t) : t.pending = s.pending ∧ P t.die := by
  obtain ⟨-, rfl⟩ := run_next (show execCapRead queue s = .next t from h)
  refine ⟨rfl, ?_⟩
  have k0 := @capReadBody_kept P (hc.mono (by decide))
  dsimp only
  with_reducible repeat' first
    | assumption
    | (refine command_kept (hc.mono (by decide)) (fun _ _ _ _ => ?_) ?_)
    | apply k0
    | dsimp only
    | split
    | refine hc.lit (by dsimp only) ?_

theorem exec_poolSet_kept {P : Die → Prop} (hc : Closed P [.ledger, .limits, .regions, .links, .queues, .sram]) queue (s t : State) (hd : P s.die) (h : exec (.poolSet queue) s = .next t) : t.pending = s.pending ∧ P t.die := by
  obtain ⟨-, rfl⟩ := run_next (show execPoolSet queue s = .next t from h)
  refine ⟨rfl, ?_⟩
  have k0 := @poolSetBody_kept P (hc.mono (by decide))
  dsimp only
  with_reducible repeat' first
    | assumption
    | (refine command_kept (hc.mono (by decide)) (fun _ _ _ _ => ?_) ?_)
    | apply k0
    | dsimp only
    | split
    | refine hc.lit (by dsimp only) ?_

theorem exec_poolRead_kept {P : Die → Prop} (hc : Closed P [.ledger, .queues, .sram]) queue (s t : State) (hd : P s.die) (h : exec (.poolRead queue) s = .next t) : t.pending = s.pending ∧ P t.die := by
  obtain ⟨-, rfl⟩ := run_next (show execPoolRead queue s = .next t from h)
  refine ⟨rfl, ?_⟩
  have k0 := @poolReadBody_kept P (hc.mono (by decide))
  dsimp only
  with_reducible repeat' first
    | assumption
    | (refine command_kept (hc.mono (by decide)) (fun _ _ _ _ => ?_) ?_)
    | apply k0
    | dsimp only
    | split
    | refine hc.lit (by dsimp only) ?_

theorem exec_tenantCreate_kept {P : Die → Prop} (hc : Closed P [.ledger, .tenants, .queues, .sram]) queue (s t : State) (hd : P s.die) (h : exec (.tenantCreate queue) s = .next t) : t.pending = s.pending ∧ P t.die := by
  obtain ⟨-, rfl⟩ := run_next (show execTenantCreate queue s = .next t from h)
  refine ⟨rfl, ?_⟩
  have k0 := @tenantCreateBody_kept P (hc.mono (by decide))
  dsimp only
  with_reducible repeat' first
    | assumption
    | (refine command_kept (hc.mono (by decide)) (fun _ _ _ _ => ?_) ?_)
    | apply k0
    | dsimp only
    | split
    | refine hc.lit (by dsimp only) ?_

theorem exec_tenantDestroy_kept {P : Die → Prop} (hc : Closed P [.ledger, .regions, .watches, .commitReqs, .tenants, .queues, .sram]) queue (s t : State) (hd : P s.die) (h : exec (.tenantDestroy queue) s = .next t) : t.pending = s.pending ∧ P t.die := by
  obtain ⟨-, rfl⟩ := run_next (show execTenantDestroy queue s = .next t from h)
  refine ⟨rfl, ?_⟩
  have k0 := @tenantDestroyBody_kept P (hc.mono (by decide))
  dsimp only
  with_reducible repeat' first
    | assumption
    | (refine command_kept (hc.mono (by decide)) (fun _ _ _ _ => ?_) ?_)
    | apply k0
    | dsimp only
    | split
    | refine hc.lit (by dsimp only) ?_

theorem exec_tenantMove_kept {P : Die → Prop} (hc : Closed P [.ledger, .regions, .queues, .sram]) queue (s t : State) (hd : P s.die) (h : exec (.tenantMove queue) s = .next t) : t.pending = s.pending ∧ P t.die := by
  obtain ⟨-, rfl⟩ := run_next (show execTenantMove queue s = .next t from h)
  refine ⟨rfl, ?_⟩
  have k0 := @tenantMoveBody_kept P (hc.mono (by decide))
  dsimp only
  with_reducible repeat' first
    | assumption
    | (refine command_kept (hc.mono (by decide)) (fun _ _ _ _ => ?_) ?_)
    | apply k0
    | dsimp only
    | split
    | refine hc.lit (by dsimp only) ?_

theorem exec_tenantFence_kept {P : Die → Prop} (hc : Closed P [.ledger, .regions, .tenants, .queues, .sram]) queue (s t : State) (hd : P s.die) (h : exec (.tenantFence queue) s = .next t) : t.pending = s.pending ∧ P t.die := by
  obtain ⟨-, rfl⟩ := run_next (show execTenantFence queue s = .next t from h)
  refine ⟨rfl, ?_⟩
  have k0 := @tenantFenceBody_kept P (hc.mono (by decide))
  dsimp only
  with_reducible repeat' first
    | assumption
    | (refine command_kept (hc.mono (by decide)) (fun _ _ _ _ => ?_) ?_)
    | apply k0
    | dsimp only
    | split
    | refine hc.lit (by dsimp only) ?_

theorem exec_tenantRead_kept {P : Die → Prop} (hc : Closed P [.ledger, .queues, .sram, .fresh]) queue (s t : State) (hd : P s.die) (h : exec (.tenantRead queue) s = .next t) : t.pending = s.pending ∧ P t.die := by
  obtain ⟨-, rfl⟩ := run_next (show execTenantRead queue s = .next t from h)
  refine ⟨rfl, ?_⟩
  have k0 := @tenantReadBody_kept P (hc.mono (by decide))
  dsimp only
  with_reducible repeat' first
    | assumption
    | (refine command_kept (hc.mono (by decide)) (fun _ _ _ _ => ?_) ?_)
    | apply k0
    | dsimp only
    | split
    | refine hc.lit (by dsimp only) ?_

theorem exec_watchSet_kept {P : Die → Prop} (hc : Closed P [.ledger, .watches, .queues, .sram]) queue (s t : State) (hd : P s.die) (h : exec (.watchSet queue) s = .next t) : t.pending = s.pending ∧ P t.die := by
  obtain ⟨-, rfl⟩ := run_next (show execWatchSet queue s = .next t from h)
  refine ⟨rfl, ?_⟩
  have k0 := @watchSetBody_kept P (hc.mono (by decide))
  dsimp only
  with_reducible repeat' first
    | assumption
    | (refine command_kept (hc.mono (by decide)) (fun _ _ _ _ => ?_) ?_)
    | apply k0
    | dsimp only
    | split
    | refine hc.lit (by dsimp only) ?_

theorem exec_watchClear_kept {P : Die → Prop} (hc : Closed P [.ledger, .watches, .queues, .sram]) queue (s t : State) (hd : P s.die) (h : exec (.watchClear queue) s = .next t) : t.pending = s.pending ∧ P t.die := by
  obtain ⟨-, rfl⟩ := run_next (show execWatchClear queue s = .next t from h)
  refine ⟨rfl, ?_⟩
  have k0 := @watchClearBody_kept P (hc.mono (by decide))
  dsimp only
  with_reducible repeat' first
    | assumption
    | (refine command_kept (hc.mono (by decide)) (fun _ _ _ _ => ?_) ?_)
    | apply k0
    | dsimp only
    | split
    | refine hc.lit (by dsimp only) ?_

theorem exec_watchRead_kept {P : Die → Prop} (hc : Closed P [.ledger, .queues, .sram]) queue (s t : State) (hd : P s.die) (h : exec (.watchRead queue) s = .next t) : t.pending = s.pending ∧ P t.die := by
  obtain ⟨-, rfl⟩ := run_next (show execWatchRead queue s = .next t from h)
  refine ⟨rfl, ?_⟩
  have k0 := @watchReadBody_kept P (hc.mono (by decide))
  dsimp only
  with_reducible repeat' first
    | assumption
    | (refine command_kept (hc.mono (by decide)) (fun _ _ _ _ => ?_) ?_)
    | apply k0
    | dsimp only
    | split
    | refine hc.lit (by dsimp only) ?_

theorem exec_ledgerControl_kept {P : Die → Prop} (hc : Closed P [.regs, .ledger, .contexts, .queues, .sram]) queue (s t : State) (hd : P s.die) (h : exec (.ledgerControl queue) s = .next t) : t.pending = s.pending ∧ P t.die := by
  obtain ⟨-, rfl⟩ := run_next (show execLedgerControl queue s = .next t from h)
  refine ⟨rfl, ?_⟩
  have k0 := @ledgerControlBody_kept P (hc.mono (by decide))
  dsimp only
  with_reducible repeat' first
    | assumption
    | (refine command_kept (hc.mono (by decide)) (fun _ _ _ _ => ?_) ?_)
    | apply k0
    | dsimp only
    | split
    | refine hc.lit (by dsimp only) ?_

theorem exec_ledgerDrain_kept {P : Die → Prop} (hc : Closed P [.regs, .ledger, .queues, .sram, .streams]) queue (s t : State) (hd : P s.die) (h : exec (.ledgerDrain queue) s = .next t) : t.pending = s.pending ∧ P t.die := by
  obtain ⟨-, rfl⟩ := run_next (show execLedgerDrain queue s = .next t from h)
  refine ⟨rfl, ?_⟩
  have k0 := @ledgerDrainBody_kept P (hc.mono (by decide))
  dsimp only
  with_reducible repeat' first
    | assumption
    | (refine command_kept (hc.mono (by decide)) (fun _ _ _ _ => ?_) ?_)
    | apply k0
    | dsimp only
    | split
    | refine hc.lit (by dsimp only) ?_

theorem exec_ledgerRead_kept {P : Die → Prop} (hc : Closed P [.ledger, .queues, .sram, .streams]) queue (s t : State) (hd : P s.die) (h : exec (.ledgerRead queue) s = .next t) : t.pending = s.pending ∧ P t.die := by
  obtain ⟨-, rfl⟩ := run_next (show execLedgerRead queue s = .next t from h)
  refine ⟨rfl, ?_⟩
  have k0 := @ledgerReadBody_kept P (hc.mono (by decide))
  dsimp only
  with_reducible repeat' first
    | assumption
    | (refine command_kept (hc.mono (by decide)) (fun _ _ _ _ => ?_) ?_)
    | apply k0
    | dsimp only
    | split
    | refine hc.lit (by dsimp only) ?_

theorem exec_certRead_kept {P : Die → Prop} (hc : Closed P [.ledger, .queues, .sram, .streams]) queue (s t : State) (hd : P s.die) (h : exec (.certRead queue) s = .next t) : t.pending = s.pending ∧ P t.die := by
  obtain ⟨-, rfl⟩ := run_next (show execCertRead queue s = .next t from h)
  refine ⟨rfl, ?_⟩
  have k0 := @certReadBody_kept P (hc.mono (by decide))
  dsimp only
  with_reducible repeat' first
    | assumption
    | (refine command_kept (hc.mono (by decide)) (fun _ _ _ _ => ?_) ?_)
    | apply k0
    | dsimp only
    | split
    | refine hc.lit (by dsimp only) ?_

theorem exec_calWrite_kept {P : Die → Prop} (hc : Closed P [.ledger, .store, .queues, .sram]) queue image (s t : State) (hd : P s.die) (h : exec (.calWrite queue image) s = .next t) : t.pending = s.pending ∧ P t.die := by
  obtain ⟨-, rfl⟩ := run_next (show execCalWrite queue image s = .next t from h)
  refine ⟨rfl, ?_⟩
  have k0 := @calWriteBody_kept P (hc.mono (by decide))
  dsimp only
  with_reducible repeat' first
    | assumption
    | (refine command_kept (hc.mono (by decide)) (fun _ _ _ _ => ?_) ?_)
    | apply k0
    | dsimp only
    | split
    | refine hc.lit (by dsimp only) ?_

theorem exec_calExport_kept {P : Die → Prop} (hc : Closed P [.ledger, .queues, .sram, .streams]) queue (s t : State) (hd : P s.die) (h : exec (.calExport queue) s = .next t) : t.pending = s.pending ∧ P t.die := by
  obtain ⟨-, rfl⟩ := run_next (show execCalExport queue s = .next t from h)
  refine ⟨rfl, ?_⟩
  have k0 := @calExportBody_kept P (hc.mono (by decide))
  dsimp only
  with_reducible repeat' first
    | assumption
    | (refine command_kept (hc.mono (by decide)) (fun _ _ _ _ => ?_) ?_)
    | apply k0
    | dsimp only
    | split
    | refine hc.lit (by dsimp only) ?_

theorem exec_calRead_kept {P : Die → Prop} (hc : Closed P [.ledger, .queues, .sram, .fresh]) queue (s t : State) (hd : P s.die) (h : exec (.calRead queue) s = .next t) : t.pending = s.pending ∧ P t.die := by
  obtain ⟨-, rfl⟩ := run_next (show execCalRead queue s = .next t from h)
  refine ⟨rfl, ?_⟩
  have k0 := @calReadBody_kept P (hc.mono (by decide))
  dsimp only
  with_reducible repeat' first
    | assumption
    | (refine command_kept (hc.mono (by decide)) (fun _ _ _ _ => ?_) ?_)
    | apply k0
    | dsimp only
    | split
    | refine hc.lit (by dsimp only) ?_

theorem exec_calSet_kept {P : Die → Prop} (hc : Closed P [.ledger, .store, .regions, .rails, .queues, .sram]) queue (s t : State) (hd : P s.die) (h : exec (.calSet queue) s = .next t) : t.pending = s.pending ∧ P t.die := by
  obtain ⟨-, rfl⟩ := run_next (show execCalSet queue s = .next t from h)
  refine ⟨rfl, ?_⟩
  have k0 := @calSetBody_kept P (hc.mono (by decide))
  dsimp only
  with_reducible repeat' first
    | assumption
    | (refine command_kept (hc.mono (by decide)) (fun _ _ _ _ => ?_) ?_)
    | apply k0
    | dsimp only
    | split
    | refine hc.lit (by dsimp only) ?_

theorem exec_calUnretire_kept {P : Die → Prop} (hc : Closed P [.clocks, .ledger, .store, .sensors, .queues, .sram]) queue (s t : State) (hd : P s.die) (h : exec (.calUnretire queue) s = .next t) : t.pending = s.pending ∧ P t.die := by
  obtain ⟨-, rfl⟩ := run_next (show execCalUnretire queue s = .next t from h)
  refine ⟨rfl, ?_⟩
  have k0 := @calUnretireBody_kept P (hc.mono (by decide))
  dsimp only
  with_reducible repeat' first
    | assumption
    | (refine command_kept (hc.mono (by decide)) (fun _ _ _ _ => ?_) ?_)
    | apply k0
    | dsimp only
    | split
    | refine hc.lit (by dsimp only) ?_

theorem exec_assayRegion_kept {P : Die → Prop} (hc : Closed P [.ledger, .store, .islands, .ends, .rails, .contexts, .queues, .sram]) queue (s t : State) (hd : P s.die) (h : exec (.assayRegion queue) s = .next t) : t.pending = s.pending ∧ P t.die := by
  obtain ⟨-, rfl⟩ := run_next (show execAssayRegion queue s = .next t from h)
  refine ⟨rfl, ?_⟩
  have k0 := @assayRegionBody_kept P (hc.mono (by decide))
  dsimp only
  with_reducible repeat' first
    | assumption
    | (refine command_kept (hc.mono (by decide)) (fun _ _ _ _ => ?_) ?_)
    | apply k0
    | dsimp only
    | split
    | refine hc.lit (by dsimp only) ?_

theorem exec_islandRead_kept {P : Die → Prop} (hc : Closed P [.ledger, .queues, .sram]) queue (s t : State) (hd : P s.die) (h : exec (.islandRead queue) s = .next t) : t.pending = s.pending ∧ P t.die := by
  obtain ⟨-, rfl⟩ := run_next (show execIslandRead queue s = .next t from h)
  refine ⟨rfl, ?_⟩
  have k0 := @islandReadBody_kept P (hc.mono (by decide))
  dsimp only
  with_reducible repeat' first
    | assumption
    | (refine command_kept (hc.mono (by decide)) (fun _ _ _ _ => ?_) ?_)
    | apply k0
    | dsimp only
    | split
    | refine hc.lit (by dsimp only) ?_

theorem exec_islandPhase_kept {P : Die → Prop} (hc : Closed P [.ledger, .islands, .queues, .sram]) queue (s t : State) (hd : P s.die) (h : exec (.islandPhase queue) s = .next t) : t.pending = s.pending ∧ P t.die := by
  obtain ⟨-, rfl⟩ := run_next (show execIslandPhase queue s = .next t from h)
  refine ⟨rfl, ?_⟩
  have k0 := @islandPhaseBody_kept P (hc.mono (by decide))
  dsimp only
  with_reducible repeat' first
    | assumption
    | (refine command_kept (hc.mono (by decide)) (fun _ _ _ _ => ?_) ?_)
    | apply k0
    | dsimp only
    | split
    | refine hc.lit (by dsimp only) ?_

theorem exec_islandResetCmd_kept {P : Die → Prop} (hc : Closed P [.ledger, .islands, .ends, .queues, .sram]) queue (s t : State) (hd : P s.die) (h : exec (.islandResetCmd queue) s = .next t) : t.pending = s.pending ∧ P t.die := by
  obtain ⟨-, rfl⟩ := run_next (show execIslandResetCmd queue s = .next t from h)
  refine ⟨rfl, ?_⟩
  have k0 := @islandResetBody_kept P (hc.mono (by decide))
  dsimp only
  with_reducible repeat' first
    | assumption
    | (refine command_kept (hc.mono (by decide)) (fun _ _ _ _ => ?_) ?_)
    | apply k0
    | dsimp only
    | split
    | refine hc.lit (by dsimp only) ?_

theorem exec_regionRead_kept {P : Die → Prop} (hc : Closed P [.ledger, .queues, .sram]) queue (s t : State) (hd : P s.die) (h : exec (.regionRead queue) s = .next t) : t.pending = s.pending ∧ P t.die := by
  obtain ⟨-, rfl⟩ := run_next (show execRegionRead queue s = .next t from h)
  refine ⟨rfl, ?_⟩
  have k0 := @regionReadBody_kept P (hc.mono (by decide))
  dsimp only
  with_reducible repeat' first
    | assumption
    | (refine command_kept (hc.mono (by decide)) (fun _ _ _ _ => ?_) ?_)
    | apply k0
    | dsimp only
    | split
    | refine hc.lit (by dsimp only) ?_

theorem exec_regionResetCmd_kept {P : Die → Prop} (hc : Closed P [.ledger, .store, .islands, .regions, .synths, .ends, .commits, .commitReqs, .queues, .sram]) queue (s t : State) (hd : P s.die) (h : exec (.regionResetCmd queue) s = .next t) : t.pending = s.pending ∧ P t.die := by
  obtain ⟨-, rfl⟩ := run_next (show execRegionResetCmd queue s = .next t from h)
  refine ⟨rfl, ?_⟩
  have k0 := @regionResetBody_kept P (hc.mono (by decide))
  dsimp only
  with_reducible repeat' first
    | assumption
    | (refine command_kept (hc.mono (by decide)) (fun _ _ _ _ => ?_) ?_)
    | apply k0
    | dsimp only
    | split
    | refine hc.lit (by dsimp only) ?_

theorem exec_regionConfig_kept {P : Die → Prop} (hc : Closed P [.ledger, .islands, .regions, .queues, .sram]) queue (s t : State) (hd : P s.die) (h : exec (.regionConfig queue) s = .next t) : t.pending = s.pending ∧ P t.die := by
  obtain ⟨-, rfl⟩ := run_next (show execRegionConfig queue s = .next t from h)
  refine ⟨rfl, ?_⟩
  have k0 := @regionConfigBody_kept P (hc.mono (by decide))
  dsimp only
  with_reducible repeat' first
    | assumption
    | (refine command_kept (hc.mono (by decide)) (fun _ _ _ _ => ?_) ?_)
    | apply k0
    | dsimp only
    | split
    | refine hc.lit (by dsimp only) ?_

theorem exec_regionTest_kept {P : Die → Prop} (hc : Closed P [.ledger, .synths, .queues, .sram]) queue (s t : State) (hd : P s.die) (h : exec (.regionTest queue) s = .next t) : t.pending = s.pending ∧ P t.die := by
  obtain ⟨-, rfl⟩ := run_next (show execRegionTest queue s = .next t from h)
  refine ⟨rfl, ?_⟩
  have k0 := @regionTestBody_kept P (hc.mono (by decide))
  dsimp only
  with_reducible repeat' first
    | assumption
    | (refine command_kept (hc.mono (by decide)) (fun _ _ _ _ => ?_) ?_)
    | apply k0
    | dsimp only
    | split
    | refine hc.lit (by dsimp only) ?_

theorem exec_tallyPriority_kept {P : Die → Prop} (hc : Closed P [.tally, .ledger, .queues, .sram]) queue (s t : State) (hd : P s.die) (h : exec (.tallyPriority queue) s = .next t) : t.pending = s.pending ∧ P t.die := by
  obtain ⟨-, rfl⟩ := run_next (show execTallyPriority queue s = .next t from h)
  refine ⟨rfl, ?_⟩
  have k0 := @tallyPriorityBody_kept P (hc.mono (by decide))
  dsimp only
  with_reducible repeat' first
    | assumption
    | (refine command_kept (hc.mono (by decide)) (fun _ _ _ _ => ?_) ?_)
    | apply k0
    | dsimp only
    | split
    | refine hc.lit (by dsimp only) ?_

theorem exec_tallyAuthority_kept {P : Die → Prop} (hc : Closed P [.tally, .ledger, .queues, .sram]) queue (s t : State) (hd : P s.die) (h : exec (.tallyAuthority queue) s = .next t) : t.pending = s.pending ∧ P t.die := by
  obtain ⟨-, rfl⟩ := run_next (show execTallyAuthority queue s = .next t from h)
  refine ⟨rfl, ?_⟩
  have k0 := @tallyAuthorityBody_kept P (hc.mono (by decide))
  dsimp only
  with_reducible repeat' first
    | assumption
    | (refine command_kept (hc.mono (by decide)) (fun _ _ _ _ => ?_) ?_)
    | apply k0
    | dsimp only
    | split
    | refine hc.lit (by dsimp only) ?_

theorem exec_tallyRead_kept {P : Die → Prop} (hc : Closed P [.ledger, .queues, .sram]) queue (s t : State) (hd : P s.die) (h : exec (.tallyRead queue) s = .next t) : t.pending = s.pending ∧ P t.die := by
  obtain ⟨-, rfl⟩ := run_next (show execTallyRead queue s = .next t from h)
  refine ⟨rfl, ?_⟩
  have k0 := @tallyReadBody_kept P (hc.mono (by decide))
  dsimp only
  with_reducible repeat' first
    | assumption
    | (refine command_kept (hc.mono (by decide)) (fun _ _ _ _ => ?_) ?_)
    | apply k0
    | dsimp only
    | split
    | refine hc.lit (by dsimp only) ?_

theorem exec_fabricRead_kept {P : Die → Prop} (hc : Closed P [.ledger, .queues, .sram]) queue (s t : State) (hd : P s.die) (h : exec (.fabricRead queue) s = .next t) : t.pending = s.pending ∧ P t.die := by
  obtain ⟨-, rfl⟩ := run_next (show execFabricRead queue s = .next t from h)
  refine ⟨rfl, ?_⟩
  have k0 := @fabricReadBody_kept P (hc.mono (by decide))
  dsimp only
  with_reducible repeat' first
    | assumption
    | (refine command_kept (hc.mono (by decide)) (fun _ _ _ _ => ?_) ?_)
    | apply k0
    | dsimp only
    | split
    | refine hc.lit (by dsimp only) ?_

theorem exec_fabricRef_kept {P : Die → Prop} (hc : Closed P [.clocks, .ledger, .queues, .sram]) queue (s t : State) (hd : P s.die) (h : exec (.fabricRef queue) s = .next t) : t.pending = s.pending ∧ P t.die := by
  obtain ⟨-, rfl⟩ := run_next (show execFabricRef queue s = .next t from h)
  refine ⟨rfl, ?_⟩
  have k0 := @fabricRefBody_kept P (hc.mono (by decide))
  dsimp only
  with_reducible repeat' first
    | assumption
    | (refine command_kept (hc.mono (by decide)) (fun _ _ _ _ => ?_) ?_)
    | apply k0
    | dsimp only
    | split
    | refine hc.lit (by dsimp only) ?_

theorem exec_fabricResume_kept {P : Die → Prop} (hc : Closed P [.stop, .ledger, .regions, .synths, .rails, .queues, .sram]) queue (s t : State) (hd : P s.die) (h : exec (.fabricResume queue) s = .next t) : t.pending = s.pending ∧ P t.die := by
  obtain ⟨-, rfl⟩ := run_next (show execFabricResume queue s = .next t from h)
  refine ⟨rfl, ?_⟩
  have k0 := @fabricResumeBody_kept P (hc.mono (by decide))
  dsimp only
  with_reducible repeat' first
    | assumption
    | (refine command_kept (hc.mono (by decide)) (fun _ _ _ _ => ?_) ?_)
    | apply k0
    | dsimp only
    | split
    | refine hc.lit (by dsimp only) ?_

theorem exec_fabricTopology_kept {P : Die → Prop} (hc : Closed P [.tally, .startup, .regs, .ledger, .queues, .sram]) queue hbmTrained (s t : State) (hd : P s.die) (h : exec (.fabricTopology queue hbmTrained) s = .next t) : t.pending = s.pending ∧ P t.die := by
  obtain ⟨-, rfl⟩ := run_next (show execFabricTopology queue hbmTrained s = .next t from h)
  refine ⟨rfl, ?_⟩
  have k0 := @fabricTopologyBody_kept P (hc.mono (by decide))
  dsimp only
  with_reducible repeat' first
    | assumption
    | (refine command_kept (hc.mono (by decide)) (fun _ _ _ _ => ?_) ?_)
    | apply k0
    | dsimp only
    | split
    | refine hc.lit (by dsimp only) ?_

theorem exec_fabricPower_kept {P : Die → Prop} (hc : Closed P [.ledger, .regions, .queues, .sram]) queue (s t : State) (hd : P s.die) (h : exec (.fabricPower queue) s = .next t) : t.pending = s.pending ∧ P t.die := by
  obtain ⟨-, rfl⟩ := run_next (show execFabricPower queue s = .next t from h)
  refine ⟨rfl, ?_⟩
  have k0 := @fabricPowerBody_kept P (hc.mono (by decide))
  dsimp only
  with_reducible repeat' first
    | assumption
    | (refine command_kept (hc.mono (by decide)) (fun _ _ _ _ => ?_) ?_)
    | apply k0
    | dsimp only
    | split
    | refine hc.lit (by dsimp only) ?_

theorem exec_queueDoorbellWrite_kept {P : Die → Prop} (hc : Closed P [.ledger, .queues, .sram]) queue tail sram (s t : State) (hd : P s.die) (h : exec (.queueDoorbellWrite queue tail sram) s = .next t) : t.pending = s.pending ∧ P t.die := by
  obtain ⟨-, rfl⟩ := run_next (show execQueueDoorbellWrite queue tail sram s = .next t from h)
  refine ⟨rfl, ?_⟩
  have k0 := @doorbell_kept P (hc.mono (by decide))
  dsimp only
  with_reducible repeat' first
    | assumption
    | apply k0
    | dsimp only
    | split
    | refine hc.lit (by dsimp only) ?_

theorem exec_queueCqHeadWrite_kept {P : Die → Prop} (hc : Closed P [.queues]) queue head (s t : State) (hd : P s.die) (h : exec (.queueCqHeadWrite queue head) s = .next t) : t.pending = s.pending ∧ P t.die := by
  obtain ⟨-, rfl⟩ := run_next (show execQueueCqHeadWrite queue head s = .next t from h)
  refine ⟨rfl, ?_⟩
  have k0 := @cqHead_kept P (hc.mono (by decide))
  dsimp only
  with_reducible repeat' first
    | assumption
    | apply k0
    | dsimp only
    | split
    | refine hc.lit (by dsimp only) ?_

theorem exec_queueResetWrite_kept {P : Die → Prop} (hc : Closed P [.ledger, .queues, .sram]) queue (s t : State) (hd : P s.die) (h : exec (.queueResetWrite queue) s = .next t) : t.pending = s.pending ∧ P t.die := by
  obtain ⟨-, rfl⟩ := run_next (show execQueueResetWrite queue s = .next t from h)
  refine ⟨rfl, ?_⟩
  have k0 := @resetWrite_kept P (hc.mono (by decide))
  dsimp only
  with_reducible repeat' first
    | assumption
    | apply k0
    | dsimp only
    | split
    | refine hc.lit (by dsimp only) ?_

theorem exec_queueIntStatusClear_kept {P : Die → Prop} (hc : Closed P [.queues]) queue bits sameClock (s t : State) (hd : P s.die) (h : exec (.queueIntStatusClear queue bits sameClock) s = .next t) : t.pending = s.pending ∧ P t.die := by
  obtain ⟨-, rfl⟩ := run_next (show execQueueIntStatusClear queue bits sameClock s = .next t from h)
  refine ⟨rfl, ?_⟩
  have k0 := @modQueue_kept P _ hc (by decide)
  dsimp only
  with_reducible repeat' first
    | assumption
    | apply k0
    | dsimp only
    | split
    | refine hc.lit (by dsimp only) ?_

theorem exec_fabricIntStatusClear_kept {P : Die → Prop} (hc : Closed P [.regs]) bits sameClock (s t : State) (hd : P s.die) (h : exec (.fabricIntStatusClear bits sameClock) s = .next t) : t.pending = s.pending ∧ P t.die := by
  obtain ⟨-, rfl⟩ := run_next (show execFabricIntStatusClear bits sameClock s = .next t from h)
  refine ⟨rfl, ?_⟩
  dsimp only
  with_reducible repeat' first
    | assumption
    | dsimp only
    | split
    | refine hc.lit (by dsimp only) ?_

theorem exec_estopRegisterSet_kept {P : Die → Prop} (hc : Closed P [.startup, .stop, .regs, .ledger, .store, .limits, .islands, .regions, .synths, .ends, .links, .rails, .contexts, .commits, .commitReqs])  (s t : State) (hd : P s.die) (h : exec (.estopRegisterSet ) s = .next t) : t.pending = s.pending ∧ P t.die := by
  obtain ⟨-, rfl⟩ := run_next (show execEstopRegisterSet  s = .next t from h)
  refine ⟨rfl, ?_⟩
  have k0 := @registerSet_kept P (hc.mono (by decide))
  dsimp only
  with_reducible repeat' first
    | assumption
    | apply k0
    | dsimp only
    | split
    | refine hc.lit (by dsimp only) ?_

theorem exec_estopRegisterClear_kept {P : Die → Prop} (hc : Closed P [.startup, .stop, .ledger, .store, .regions, .synths, .rails, .commitReqs])  (s t : State) (hd : P s.die) (h : exec (.estopRegisterClear ) s = .next t) : t.pending = s.pending ∧ P t.die := by
  obtain ⟨-, rfl⟩ := run_next (show execEstopRegisterClear  s = .next t from h)
  refine ⟨rfl, ?_⟩
  have k0 := @registerClear_kept P (hc.mono (by decide))
  dsimp only
  with_reducible repeat' first
    | assumption
    | apply k0
    | dsimp only
    | split
    | refine hc.lit (by dsimp only) ?_

theorem exec_fabricResetWrite_kept {P : Die → Prop} (hc : Closed P [.tally, .clocks, .startup, .stop, .regs, .ledger, .chandler, .store, .limits, .islands, .regions, .synths, .ends, .lanes, .links, .rails, .sensors, .watches, .contexts, .commits, .commitReqs, .nextCommit, .tenants, .queues, .sram, .dormant, .fresh]) value (s t : State) (hd : P s.die) (h : exec (.fabricResetWrite value) s = .next t) : t.pending = s.pending ∧ P t.die := by
  obtain ⟨-, rfl⟩ := run_next (show execFabricResetWrite value s = .next t from h)
  refine ⟨rfl, ?_⟩
  have k0 := @fabricResetWrite_kept P (hc.mono (by decide))
  dsimp only
  with_reducible repeat' first
    | assumption
    | apply k0
    | dsimp only
    | split
    | refine hc.lit (by dsimp only) ?_

theorem exec_tallySnapshotRead_kept {P : Die → Prop} (hc : Closed P [.regs])  (s t : State) (hd : P s.die) (h : exec (.tallySnapshotRead ) s = .next t) : t.pending = s.pending ∧ P t.die := by
  obtain ⟨-, rfl⟩ := run_next (show execTallySnapshotRead  s = .next t from h)
  refine ⟨rfl, ?_⟩
  have k0 := @snapshotRead_kept P (hc.mono (by decide))
  dsimp only
  with_reducible repeat' first
    | assumption
    | apply k0
    | dsimp only
    | split
    | refine hc.lit (by dsimp only) ?_

theorem exec_loRegisterRead_kept {P : Die → Prop} (hc : Closed P [.regs]) offset (s t : State) (hd : P s.die) (h : exec (.loRegisterRead offset) s = .next t) : t.pending = s.pending ∧ P t.die := by
  obtain ⟨-, rfl⟩ := run_next (show execLoRegisterRead offset s = .next t from h)
  refine ⟨rfl, ?_⟩
  have k0 := @loRead_kept P (hc.mono (by decide))
  dsimp only
  with_reducible repeat' first
    | assumption
    | apply k0
    | dsimp only
    | split
    | refine hc.lit (by dsimp only) ?_

theorem exec_ledgerFreezeWrite_kept {P : Die → Prop} (hc : Closed P [.regs, .ledger, .contexts]) value (s t : State) (hd : P s.die) (h : exec (.ledgerFreezeWrite value) s = .next t) : t.pending = s.pending ∧ P t.die := by
  obtain ⟨-, rfl⟩ := run_next (show execLedgerFreezeWrite value s = .next t from h)
  refine ⟨rfl, ?_⟩
  have k0 := @freezeWrite_kept P (hc.mono (by decide))
  dsimp only
  with_reducible repeat' first
    | assumption
    | apply k0
    | dsimp only
    | split
    | refine hc.lit (by dsimp only) ?_

theorem exec_drainHeadWrite_kept {P : Die → Prop} (hc : Closed P [.regs, .ledger, .streams]) head (s t : State) (hd : P s.die) (h : exec (.drainHeadWrite head) s = .next t) : t.pending = s.pending ∧ P t.die := by
  obtain ⟨-, rfl⟩ := run_next (show execDrainHeadWrite head s = .next t from h)
  refine ⟨rfl, ?_⟩
  have k0 := @drainHeadWrite_kept P (hc.mono (by decide))
  dsimp only
  with_reducible repeat' first
    | assumption
    | apply k0
    | dsimp only
    | split
    | refine hc.lit (by dsimp only) ?_

theorem exec_registerWriteGeneric_kept {P : Die → Prop} (hc : Closed P [.regs, .queues]) offset bytes value (s t : State) (hd : P s.die) (h : exec (.registerWriteGeneric offset bytes value) s = .next t) : t.pending = s.pending ∧ P t.die := by
  obtain ⟨-, rfl⟩ := run_next (show execRegisterWriteGeneric offset bytes value s = .next t from h)
  refine ⟨rfl, ?_⟩
  have k0 := @genericWrite_kept P (hc.mono (by decide))
  dsimp only
  with_reducible repeat' first
    | assumption
    | apply k0
    | dsimp only
    | split
    | refine hc.lit (by dsimp only) ?_

theorem exec_fabricWordUpdate_kept {P : Die → Prop} (hc : Closed P [.tally, .clocks, .startup, .stop, .regs, .ledger, .chandler, .store, .limits, .islands, .regions, .synths, .ends, .lanes, .links, .rails, .sensors, .watches, .contexts, .commits, .commitReqs, .nextCommit, .tenants, .queues, .sram, .streams, .dormant, .fresh]) word (s t : State) (hd : P s.die) (h : exec (.fabricWordUpdate word) s = .next t) : t.pending = s.pending ∧ P t.die := by
  obtain ⟨-, rfl⟩ := run_next (show execFabricWordUpdate word s = .next t from h)
  refine ⟨rfl, ?_⟩
  have k0 := @fabricWord_kept P (hc.mono (by decide))
  dsimp only
  with_reducible repeat' first
    | assumption
    | apply k0
    | dsimp only
    | split
    | refine hc.lit (by dsimp only) ?_

theorem exec_ledgerRecordUpdate_kept {P : Die → Prop} (hc : Closed P [.regs]) index (s t : State) (hd : P s.die) (h : exec (.ledgerRecordUpdate index) s = .next t) : t.pending = s.pending ∧ P t.die := by
  obtain ⟨-, rfl⟩ := run_next (show execLedgerRecordUpdate index s = .next t from h)
  refine ⟨rfl, ?_⟩
  have k0 := @ledgerSelect_kept P (hc.mono (by decide))
  dsimp only
  with_reducible repeat' first
    | assumption
    | apply k0
    | dsimp only
    | split
    | refine hc.lit (by dsimp only) ?_

theorem exec_rootReacquire_kept {P : Die → Prop} (hc : Closed P [.clocks]) root (s t : State) (hd : P s.die) (h : exec (.rootReacquire root) s = .next t) : t.pending = s.pending ∧ P t.die := by
  obtain ⟨-, rfl⟩ := run_next (show execRootReacquire root s = .next t from h)
  refine ⟨rfl, ?_⟩
  have k0 := @rootReacquire_kept P (hc.mono (by decide))
  dsimp only
  with_reducible repeat' first
    | assumption
    | apply k0
    | dsimp only
    | split
    | refine hc.lit (by dsimp only) ?_

theorem exec_rootLockDeclared_kept {P : Die → Prop} (hc : Closed P [.tally, .clocks]) root (s t : State) (hd : P s.die) (h : exec (.rootLockDeclared root) s = .next t) : t.pending = s.pending ∧ P t.die := by
  obtain ⟨-, rfl⟩ := run_next (show execRootLockDeclared root s = .next t from h)
  refine ⟨rfl, ?_⟩
  have k0 := @rootLocked_kept P (hc.mono (by decide))
  dsimp only
  with_reducible repeat' first
    | assumption
    | apply k0
    | dsimp only
    | split
    | refine hc.lit (by dsimp only) ?_

theorem exec_railConfirmationRead_kept {P : Die → Prop} (hc : Closed P [.rails]) rail (s t : State) (hd : P s.die) (h : exec (.railConfirmationRead rail) s = .next t) : t.pending = s.pending ∧ P t.die := by
  obtain ⟨-, rfl⟩ := run_next (show execRailConfirmationRead rail s = .next t from h)
  refine ⟨rfl, ?_⟩
  have k0 := @confirmationRead_kept P (hc.mono (by decide))
  dsimp only
  with_reducible repeat' first
    | assumption
    | apply k0
    | dsimp only
    | split
    | refine hc.lit (by dsimp only) ?_

theorem exec_pmbusReadTimeout_kept {P : Die → Prop} (hc : Closed P [.rails]) rail (s t : State) (hd : P s.die) (h : exec (.pmbusReadTimeout rail) s = .next t) : t.pending = s.pending ∧ P t.die := by
  obtain ⟨-, rfl⟩ := run_next (show execPmbusReadTimeout rail s = .next t from h)
  refine ⟨rfl, ?_⟩
  have k0 := @pmbusTimeout_kept P (hc.mono (by decide))
  dsimp only
  with_reducible repeat' first
    | assumption
    | apply k0
    | dsimp only
    | split
    | refine hc.lit (by dsimp only) ?_

theorem exec_testInstructionUpdate_kept {P : Die → Prop} (hc : Closed P [.stop]) inForce (s t : State) (hd : P s.die) (h : exec (.testInstructionUpdate inForce) s = .next t) : t.pending = s.pending ∧ P t.die := by
  obtain ⟨-, rfl⟩ := run_next (show execTestInstructionUpdate inForce s = .next t from h)
  refine ⟨rfl, ?_⟩
  have k0 := @testForce_kept P (hc.mono (by decide))
  dsimp only
  with_reducible repeat' first
    | assumption
    | apply k0
    | dsimp only
    | split
    | refine hc.lit (by dsimp only) ?_

end Sys2Proof.Machine
end

