-- ==== Sys2Proof/Laws/TallyRange.lean ====
section
/-! SUPPORT. The operations keep Tally within its widths and the rate word within its limit (R40). -/

namespace Sys2Proof.Machine
open Sys2Proof
set_option Elab.async false
set_option linter.all false

/-- Tally fits its counter and the rate word its limit. -/
def InTallyRange (d : Die) : Prop := d.tally.InRange

theorem inTallyRange_lit {d d' : Die} (h1 : d'.tally.now = d.tally.now) (h2 : d'.tally.frac = d.tally.frac) (h3 : d'.tally.rate = d.tally.rate) (hd : InTallyRange d) : InTallyRange d' :=
  ⟨by rw [h1]; exact hd.now, by rw [h2]; exact hd.frac, by rw [h3]; exact hd.low, by rw [h3]; exact hd.high⟩

theorem inTallyRange_same {d d' : Die} (h : d'.tally = d.tally) (hd : InTallyRange d) : InTallyRange d' := inTallyRange_lit (by rw [h]) (by rw [h]) (by rw [h]) hd

theorem inTallyRange_closed (l : List Part) (hl : .tally ∉ l) : Closed InTallyRange l where
  lits _ _ _ h hd := inTallyRange_same (h .tally hl) hd
  islands _ _ _ _ hd := inTallyRange_same rfl hd
  regions _ _ _ _ hd := inTallyRange_same rfl hd
  synths _ _ _ _ _ hd := inTallyRange_same rfl hd
  ends _ _ _ _ hd := inTallyRange_same rfl hd
  lanes _ _ _ _ hd := inTallyRange_same rfl hd
  links _ _ _ _ hd := inTallyRange_same rfl hd
  rails _ _ _ _ hd := inTallyRange_same rfl hd
  sensors _ _ _ _ hd := inTallyRange_same rfl hd
  watches _ _ _ _ hd := inTallyRange_same rfl hd
  contexts _ _ _ _ hd := inTallyRange_same rfl hd
  tenants _ _ _ _ hd := inTallyRange_same rfl hd
  queues _ _ _ _ hd := inTallyRange_same rfl hd
  sram _ _ _ _ hd := inTallyRange_same rfl hd
  host _ _ _ hd := inTallyRange_same rfl hd
  hbm _ _ _ _ hd := inTallyRange_same rfl hd
  records _ _ _ _ hd := inTallyRange_same rfl hd
  reset _ _ hd := inTallyRange_same rfl hd

theorem modTally_inTallyRange {f : Tally → Tally} {d : Die} (h : ∀ t, (f t).now = t.now ∧ (f t).frac = t.frac ∧ (f t).rate = t.rate) (hd : InTallyRange d) : InTallyRange (modTally f d) :=
  inTallyRange_lit (h _).1 (h _).2.1 (h _).2.2 hd

theorem steer_inTallyRange (avg : Int) (d : Die) (hd : InTallyRange d) : InTallyRange (steer avg d) := by
  refine ⟨hd.now, hd.frac, ?_, ?_⟩ <;> simp only [steer, modTally, clamp, rateLimit] <;> omega

theorem tallyStep_inTallyRange (by_ : Int) (epoch cause : Nat) (d : Die) (hd : InTallyRange d) : InTallyRange (tallyStep by_ epoch cause d) := by
  have hc := inTallyRange_closed [.ledger] (by decide)
  unfold tallyStep
  dsimp only
  refine emit_kept (hc.mono (by decide)) _ _ _ _ ?_
  refine modTally_inTallyRange (fun _ => ⟨rfl, rfl, rfl⟩) (modTally_inTallyRange (fun _ => ⟨rfl, rfl, rfl⟩) ?_)
  refine ⟨?_, hd.frac, hd.low, hd.high⟩
  simp only [modTally]
  omega

theorem command_inTallyRange {q opcode : Nat} {body : Exec → Bytes → Die → Die × Reply} {d : Die} (hb : ∀ e p d, InTallyRange d → InTallyRange (body e p d).1) (hd : InTallyRange d) : InTallyRange (command q opcode body d) := by
  unfold command
  split
  · split
    · exact finish_kept ((inTallyRange_closed [.ledger, .queues, .sram] (by decide)).mono (by decide)) _ _ _ (hb _ _ _ hd)
    · exact hd
  · exact hd

theorem bothRootsLost_inTallyRange (d : Die) (hd : InTallyRange d) : InTallyRange (bothRootsLost d) := by
  have hc := inTallyRange_closed [.startup, .stop, .regs, .ledger, .store, .limits, .islands, .regions, .synths, .ends, .links, .rails, .contexts, .commits, .commitReqs] (by decide)
  have k0 := @fabricFault_kept _ (hc.mono (by decide))
  unfold bothRootsLost
  try dsimp only
  with_reducible repeat' first
    | assumption
    | exact hd
    | apply k0
    | dsimp only
    | split
    | refine inTallyRange_lit (by dsimp only) (by rfl) (by rfl) ?_

theorem unsettle_inTallyRange (d : Die) (hd : InTallyRange d) : InTallyRange (unsettle d) := by
  have hc := inTallyRange_closed [] (by decide)
  unfold unsettle
  try dsimp only
  with_reducible repeat' first
    | assumption
    | exact hd
    | refine modTally_inTallyRange (fun _ => ⟨rfl, rfl, rfl⟩) ?_
    | dsimp only
    | split
    | refine inTallyRange_lit (by dsimp only) (by rfl) (by rfl) ?_

theorem chooseParent_inTallyRange (d : Die) (hd : InTallyRange d) : InTallyRange (chooseParent d) := by
  have hc := inTallyRange_closed [] (by decide)
  unfold chooseParent
  try dsimp only
  with_reducible repeat' first
    | assumption
    | exact hd
    | refine modTally_inTallyRange (fun _ => ⟨rfl, rfl, rfl⟩) ?_
    | apply unsettle_inTallyRange
    | dsimp only
    | split
    | refine inTallyRange_lit (by dsimp only) (by rfl) (by rfl) ?_

theorem nameBackup_inTallyRange (d : Die) (hd : InTallyRange d) : InTallyRange (nameBackup d) := by
  have hc := inTallyRange_closed [] (by decide)
  unfold nameBackup
  try dsimp only
  with_reducible repeat' first
    | assumption
    | exact hd
    | refine modTally_inTallyRange (fun _ => ⟨rfl, rfl, rfl⟩) ?_
    | dsimp only
    | split
    | refine inTallyRange_lit (by dsimp only) (by rfl) (by rfl) ?_

theorem takeMastership_inTallyRange (cause : Nat) (d : Die) (hd : InTallyRange d) : InTallyRange (takeMastership cause d) := by
  have hc := inTallyRange_closed [.ledger] (by decide)
  have k0 := @emit_kept _ (hc.mono (by decide))
  have k1 := @masterRecord_kept _ (hc.mono (by decide))
  unfold takeMastership
  try dsimp only
  with_reducible repeat' first
    | assumption
    | exact hd
    | apply k0
    | apply k1
    | refine modTally_inTallyRange (fun _ => ⟨rfl, rfl, rfl⟩) ?_
    | apply nameBackup_inTallyRange
    | apply unsettle_inTallyRange
    | dsimp only
    | split
    | refine inTallyRange_lit (by dsimp only) (by rfl) (by rfl) ?_

theorem ownMaster_inTallyRange (d : Die) (hd : InTallyRange d) : InTallyRange (ownMaster d) := by
  have hc := inTallyRange_closed [] (by decide)
  unfold ownMaster
  try dsimp only
  with_reducible repeat' first
    | assumption
    | exact hd
    | refine modTally_inTallyRange (fun _ => ⟨rfl, rfl, rfl⟩) ?_
    | apply unsettle_inTallyRange
    | dsimp only
    | split
    | refine inTallyRange_lit (by dsimp only) (by rfl) (by rfl) ?_

theorem followPartner_inTallyRange (l : Nat) (d : Die) (hd : InTallyRange d) : InTallyRange (followPartner l d) := by
  have hc := inTallyRange_closed [] (by decide)
  unfold followPartner
  try dsimp only
  with_reducible repeat' first
    | assumption
    | exact hd
    | refine modTally_inTallyRange (fun _ => ⟨rfl, rfl, rfl⟩) ?_
    | apply unsettle_inTallyRange
    | dsimp only
    | split
    | refine inTallyRange_lit (by dsimp only) (by rfl) (by rfl) ?_

theorem considerPartner_inTallyRange (l : Nat) (d : Die) (hd : InTallyRange d) : InTallyRange (considerPartner l d) := by
  have hc := inTallyRange_closed [.ledger] (by decide)
  have k0 := @masterRecord_kept _ (hc.mono (by decide))
  unfold considerPartner
  try dsimp only
  with_reducible repeat' first
    | assumption
    | exact hd
    | apply chooseParent_inTallyRange
    | apply followPartner_inTallyRange
    | apply k0
    | refine modTally_inTallyRange (fun _ => ⟨rfl, rfl, rfl⟩) ?_
    | apply nameBackup_inTallyRange
    | dsimp only
    | split
    | refine inTallyRange_lit (by dsimp only) (by rfl) (by rfl) ?_

theorem discardFrame_inTallyRange (l : Nat) (d : Die) (hd : InTallyRange d) : InTallyRange (discardFrame l d) := by
  have hc := inTallyRange_closed [.ledger, .links] (by decide)
  have k0 := @emit_kept _ (hc.mono (by decide))
  have k1 := @modLink_kept _ _ hc (by decide)
  unfold discardFrame
  try dsimp only
  with_reducible repeat' first
    | assumption
    | exact hd
    | apply chooseParent_inTallyRange
    | apply k0
    | apply k1
    | dsimp only
    | split
    | refine inTallyRange_lit (by dsimp only) (by rfl) (by rfl) ?_

theorem tallySyncReceived_inTallyRange (l : Nat) (f : Bytes) (d : Die) (hd : InTallyRange d) : InTallyRange (tallySyncReceived l f d) := by
  have hc := inTallyRange_closed [.ledger, .links] (by decide)
  have k0 := @modLink_kept _ _ hc (by decide)
  have k1 := @validFrame_kept _ (hc.mono (by decide))
  unfold tallySyncReceived
  try dsimp only
  with_reducible repeat' first
    | assumption
    | exact hd
    | apply considerPartner_inTallyRange
    | apply discardFrame_inTallyRange
    | apply k0
    | apply k1
    | dsimp only
    | split
    | refine inTallyRange_lit (by dsimp only) (by rfl) (by rfl) ?_

theorem tallyReplyReceived_inTallyRange (l : Nat) (f : Bytes) (d : Die) (hd : InTallyRange d) : InTallyRange (tallyReplyReceived l f d) := by
  have hc := inTallyRange_closed [.ledger, .links] (by decide)
  have k0 := @modLink_kept _ _ hc (by decide)
  have k1 := @validFrame_kept _ (hc.mono (by decide))
  unfold tallyReplyReceived
  try dsimp only
  with_reducible repeat' first
    | assumption
    | exact hd
    | apply considerPartner_inTallyRange
    | apply discardFrame_inTallyRange
    | apply k0
    | refine modTally_inTallyRange (fun _ => ⟨rfl, rfl, rfl⟩) ?_
    | apply tallyStep_inTallyRange
    | apply k1
    | dsimp only
    | split
    | refine inTallyRange_lit (by dsimp only) (by rfl) (by rfl) ?_

theorem tallyForeign_inTallyRange (avg : Int) (d : Die) (hd : InTallyRange d) : InTallyRange (tallyForeign avg d) := by
  have hc := inTallyRange_closed [.ledger] (by decide)
  have k0 := @emit_kept _ (hc.mono (by decide))
  unfold tallyForeign
  try dsimp only
  with_reducible repeat' first
    | assumption
    | exact hd
    | apply k0
    | refine modTally_inTallyRange (fun _ => ⟨rfl, rfl, rfl⟩) ?_
    | apply unsettle_inTallyRange
    | dsimp only
    | split
    | refine inTallyRange_lit (by dsimp only) (by rfl) (by rfl) ?_

theorem tallyRejoin_inTallyRange (avg : Int) (e : Nat) (d : Die) (hd : InTallyRange d) : InTallyRange (tallyRejoin avg e d) := by
  have hc := inTallyRange_closed [.ledger] (by decide)
  have k0 := @emit_kept _ (hc.mono (by decide))
  unfold tallyRejoin
  try dsimp only
  with_reducible repeat' first
    | assumption
    | exact hd
    | apply k0
    | refine modTally_inTallyRange (fun _ => ⟨rfl, rfl, rfl⟩) ?_
    | apply unsettle_inTallyRange
    | dsimp only
    | split
    | refine inTallyRange_lit (by dsimp only) (by rfl) (by rfl) ?_

theorem tallyOffsetAverage_inTallyRange (d : Die) (hd : InTallyRange d) : InTallyRange (tallyOffsetAverage d) := by
  have hc := inTallyRange_closed [.ledger] (by decide)
  unfold tallyOffsetAverage
  try dsimp only
  with_reducible repeat' first
    | assumption
    | exact hd
    | apply steer_inTallyRange
    | apply tallyForeign_inTallyRange
    | apply tallyRejoin_inTallyRange
    | dsimp only
    | split
    | refine inTallyRange_lit (by dsimp only) (by rfl) (by rfl) ?_

theorem tallySettled_inTallyRange (d : Die) (hd : InTallyRange d) : InTallyRange (tallySettled d) := by
  have hc := inTallyRange_closed [] (by decide)
  unfold tallySettled
  try dsimp only
  with_reducible repeat' first
    | assumption
    | exact hd
    | refine modTally_inTallyRange (fun _ => ⟨rfl, rfl, rfl⟩) ?_
    | dsimp only
    | split
    | refine inTallyRange_lit (by dsimp only) (by rfl) (by rfl) ?_

theorem tallyBeacon_inTallyRange (d : Die) (hd : InTallyRange d) : InTallyRange (tallyBeacon d) := by
  have hc := inTallyRange_closed [] (by decide)
  unfold tallyBeacon
  try dsimp only
  with_reducible repeat' first
    | assumption
    | exact hd
    | refine modTally_inTallyRange (fun _ => ⟨rfl, rfl, rfl⟩) ?_
    | dsimp only
    | split
    | refine inTallyRange_lit (by dsimp only) (by rfl) (by rfl) ?_

theorem tallyMasterLost_inTallyRange (d : Die) (hd : InTallyRange d) : InTallyRange (tallyMasterLost d) := by
  have hc := inTallyRange_closed [.ledger] (by decide)
  unfold tallyMasterLost
  try dsimp only
  with_reducible repeat' first
    | assumption
    | exact hd
    | refine modTally_inTallyRange (fun _ => ⟨rfl, rfl, rfl⟩) ?_
    | apply takeMastership_inTallyRange
    | dsimp only
    | split
    | refine inTallyRange_lit (by dsimp only) (by rfl) (by rfl) ?_

theorem tallyWaitExpiry_inTallyRange (d : Die) (hd : InTallyRange d) : InTallyRange (tallyWaitExpiry d) := by
  have hc := inTallyRange_closed [.ledger] (by decide)
  unfold tallyWaitExpiry
  try dsimp only
  with_reducible repeat' first
    | assumption
    | exact hd
    | refine modTally_inTallyRange (fun _ => ⟨rfl, rfl, rfl⟩) ?_
    | apply takeMastership_inTallyRange
    | dsimp only
    | split
    | refine inTallyRange_lit (by dsimp only) (by rfl) (by rfl) ?_

theorem receiverDown_inTallyRange (l : Nat) (d : Die) (hd : InTallyRange d) : InTallyRange (receiverDown l d) := by
  have hc := inTallyRange_closed [.links] (by decide)
  have k0 := @modLink_kept _ _ hc (by decide)
  unfold receiverDown
  try dsimp only
  with_reducible repeat' first
    | assumption
    | exact hd
    | apply chooseParent_inTallyRange
    | apply k0
    | dsimp only
    | split
    | refine inTallyRange_lit (by dsimp only) (by rfl) (by rfl) ?_

theorem hoopReceived_inTallyRange (l : Nat) (f : Bytes) (d : Die) (hd : InTallyRange d) : InTallyRange (hoopReceived l f d) := by
  have hc := inTallyRange_closed [.ledger, .limits, .links] (by decide)
  have k0 := @emit_kept _ (hc.mono (by decide))
  have k1 := @linkStaleEnd_kept _ (hc.mono (by decide))
  have k2 := @modLink_kept _ _ hc (by decide)
  have k3 := @validFrame_kept _ (hc.mono (by decide))
  unfold hoopReceived
  try dsimp only
  with_reducible repeat' first
    | assumption
    | exact hd
    | apply discardFrame_inTallyRange
    | apply k0
    | apply k1
    | apply k2
    | apply k3
    | dsimp only
    | split
    | refine inTallyRange_lit (by dsimp only) (by rfl) (by rfl) ?_

theorem linkDownOp_inTallyRange (l : Nat) (d : Die) (hd : InTallyRange d) : InTallyRange (linkDownOp l d) := by
  have hc := inTallyRange_closed [.ledger, .limits, .lanes, .links] (by decide)
  have k0 := @modLink_kept _ _ hc (by decide)
  have k1 := @poolLost_kept _ (hc.mono (by decide))
  have k2 := @releaseLink_kept _ (hc.mono (by decide))
  unfold linkDownOp
  try dsimp only
  with_reducible repeat' first
    | assumption
    | exact hd
    | apply chooseParent_inTallyRange
    | apply k0
    | apply k1
    | apply k2
    | dsimp only
    | split
    | refine inTallyRange_lit (by dsimp only) (by rfl) (by rfl) ?_

theorem noReference_inTallyRange (d : Die) (hd : InTallyRange d) : InTallyRange (noReference d) := by
  have hc := inTallyRange_closed [.clocks, .startup, .stop, .regs, .ledger, .store, .limits, .islands, .regions, .synths, .ends, .links, .rails, .contexts, .commits, .commitReqs] (by decide)
  have k0 := @fabricFault_kept _ (hc.mono (by decide))
  unfold noReference
  try dsimp only
  with_reducible repeat' first
    | assumption
    | exact hd
    | apply k0
    | refine modTally_inTallyRange (fun _ => ⟨rfl, rfl, rfl⟩) ?_
    | dsimp only
    | split
    | refine inTallyRange_lit (by dsimp only) (by rfl) (by rfl) ?_

theorem refLost_inTallyRange (n cause : Nat) (d : Die) (hd : InTallyRange d) : InTallyRange (refLost n cause d) := by
  have hc := inTallyRange_closed [.clocks, .startup, .stop, .regs, .ledger, .store, .limits, .islands, .regions, .synths, .ends, .links, .rails, .contexts, .commits, .commitReqs] (by decide)
  have k0 := @emit_kept _ (hc.mono (by decide))
  have k1 := @emitRetire_kept _ (hc.mono (by decide))
  have k2 := @modRef_kept _ (hc.mono (by decide))
  have k3 := @refSwitch_kept _ (hc.mono (by decide))
  unfold refLost
  try dsimp only
  with_reducible repeat' first
    | assumption
    | exact hd
    | apply k0
    | apply k1
    | apply k2
    | apply noReference_inTallyRange
    | apply k3
    | dsimp only
    | split
    | refine inTallyRange_lit (by dsimp only) (by rfl) (by rfl) ?_

theorem refActivityLoss_inTallyRange (n : Nat) (d : Die) (hd : InTallyRange d) : InTallyRange (refActivityLoss n d) := by
  have hc := inTallyRange_closed [.clocks, .startup, .stop, .regs, .ledger, .store, .limits, .islands, .regions, .synths, .ends, .links, .rails, .contexts, .commits, .commitReqs] (by decide)
  have k0 := @modRef_kept _ (hc.mono (by decide))
  unfold refActivityLoss
  try dsimp only
  with_reducible repeat' first
    | assumption
    | exact hd
    | apply k0
    | apply refLost_inTallyRange
    | dsimp only
    | split
    | refine inTallyRange_lit (by dsimp only) (by rfl) (by rfl) ?_

theorem refWindow_inTallyRange (n count : Nat) (d : Die) (hd : InTallyRange d) : InTallyRange (refWindow n count d) := by
  have hc := inTallyRange_closed [.clocks, .startup, .stop, .regs, .ledger, .store, .limits, .islands, .regions, .synths, .ends, .links, .rails, .contexts, .commits, .commitReqs] (by decide)
  have k0 := @emit_kept _ (hc.mono (by decide))
  have k1 := @modRef_kept _ (hc.mono (by decide))
  have k2 := @refSelect_kept _ (hc.mono (by decide))
  unfold refWindow
  try dsimp only
  with_reducible repeat' first
    | assumption
    | exact hd
    | apply k0
    | apply k1
    | apply refLost_inTallyRange
    | apply k2
    | dsimp only
    | split
    | refine inTallyRange_lit (by dsimp only) (by rfl) (by rfl) ?_

theorem noReferenceTimeout_inTallyRange (d : Die) (hd : InTallyRange d) : InTallyRange (noReferenceTimeout d) := by
  have hc := inTallyRange_closed [.clocks, .startup, .stop, .regs, .ledger, .store, .limits, .islands, .regions, .synths, .ends, .links, .rails, .contexts, .commits, .commitReqs] (by decide)
  unfold noReferenceTimeout
  try dsimp only
  with_reducible repeat' first
    | assumption
    | exact hd
    | apply noReference_inTallyRange
    | dsimp only
    | split
    | refine inTallyRange_lit (by dsimp only) (by rfl) (by rfl) ?_

theorem rootLockLoss_inTallyRange (errorNs : Int) (d : Die) (hd : InTallyRange d) : InTallyRange (rootLockLoss errorNs d) := by
  have hc := inTallyRange_closed [.clocks, .startup, .stop, .regs, .ledger, .store, .limits, .islands, .regions, .synths, .ends, .links, .rails, .contexts, .commits, .commitReqs] (by decide)
  have k0 := @modRoot_kept _ (hc.mono (by decide))
  have k1 := @rootFail_kept _ (hc.mono (by decide))
  have k2 := @rootSwitch_kept _ (hc.mono (by decide))
  unfold rootLockLoss
  try dsimp only
  with_reducible repeat' first
    | assumption
    | exact hd
    | apply bothRootsLost_inTallyRange
    | apply k0
    | apply k1
    | apply k2
    | dsimp only
    | split
    | refine inTallyRange_lit (by dsimp only) (by rfl) (by rfl) ?_

theorem rootConfirm_inTallyRange (fail0 fail1 : Bool) (d : Die) (hd : InTallyRange d) : InTallyRange (rootConfirm fail0 fail1 d) := by
  have hc := inTallyRange_closed [.clocks, .startup, .stop, .regs, .ledger, .store, .limits, .islands, .regions, .synths, .ends, .links, .rails, .contexts, .commits, .commitReqs, .fresh] (by decide)
  have k0 := @drawFree_kept _ (hc.mono (by decide))
  have k1 := @rootFail_kept _ (hc.mono (by decide))
  unfold rootConfirm
  try dsimp only
  with_reducible repeat' first
    | assumption
    | exact hd
    | apply k0
    | apply k1
    | apply rootLockLoss_inTallyRange
    | dsimp only
    | split
    | refine inTallyRange_lit (by dsimp only) (by rfl) (by rfl) ?_

theorem rootLocked_inTallyRange (n : Nat) (d : Die) (hd : InTallyRange d) : InTallyRange (rootLocked n d) := by
  have hc := inTallyRange_closed [.clocks] (by decide)
  have k0 := @modRoot_kept _ (hc.mono (by decide))
  unfold rootLocked
  try dsimp only
  with_reducible repeat' first
    | assumption
    | exact hd
    | apply k0
    | dsimp only
    | split
    | refine inTallyRange_lit (by dsimp only) (by rfl) (by rfl) ?_

theorem rootsDone_inTallyRange (d : Die) (hd : InTallyRange d) : InTallyRange (rootsDone d) := by
  unfold rootsDone
  dsimp only
  repeat' first
    | assumption
    | split
    | (refine (setStep_kept (P := InTallyRange) (M := _) ((inTallyRange_closed [.startup] (by decide)).mono (by decide)) _ _ ?_))
    | exact ⟨(by show (0:Nat) < 2 ^ 64; omega), (by show (0:Nat) < 2 ^ 40; omega), hd.low, hd.high⟩

theorem startupStep_inTallyRange (seen : StartupInput) (d : Die) (hd : InTallyRange d) : InTallyRange (startupStep seen d) := by
  have hc := inTallyRange_closed [.clocks, .startup, .regs, .ledger, .store, .islands, .regions, .synths, .rails, .sensors] (by decide)
  have k0 := @bellowsStep_kept _ (hc.mono (by decide))
  have k1 := @bootDone_kept _ (hc.mono (by decide))
  have k2 := @loadStore_kept _ (hc.mono (by decide))
  have k3 := @setBegun_kept _ (hc.mono (by decide))
  have k4 := @setStep_kept _ (hc.mono (by decide))
  have k5 := @startCheck_kept _ (hc.mono (by decide))
  have k6 := @startupGo_kept _ (hc.mono (by decide))
  unfold startupStep
  try dsimp only
  with_reducible repeat' first
    | assumption
    | exact hd
    | apply k0
    | apply k1
    | apply k2
    | apply rootsDone_inTallyRange
    | apply k3
    | apply k4
    | apply k5
    | apply k6
    | dsimp only
    | split
    | refine inTallyRange_lit (by dsimp only) (by rfl) (by rfl) ?_

theorem joinByReady_inTallyRange (d : Die) (hd : InTallyRange d) : InTallyRange (joinByReady d) := by
  have hc := inTallyRange_closed [] (by decide)
  unfold joinByReady
  try dsimp only
  with_reducible repeat' first
    | assumption
    | exact hd
    | apply ownMaster_inTallyRange
    | dsimp only
    | split
    | refine inTallyRange_lit (by dsimp only) (by rfl) (by rfl) ?_

theorem readyState_inTallyRange (n : Nat) (d : Die) (hd : InTallyRange d) : InTallyRange (readyState n d) := by
  have hc := inTallyRange_closed [.startup, .regs, .ledger] (by decide)
  have k0 := @emit_kept _ (hc.mono (by decide))
  have k1 := @emitReset_kept _ (hc.mono (by decide))
  have k2 := @fabricInt_kept _ (hc.mono (by decide))
  unfold readyState
  try dsimp only
  with_reducible repeat' first
    | assumption
    | exact hd
    | apply k0
    | apply k1
    | apply k2
    | apply joinByReady_inTallyRange
    | dsimp only
    | split
    | refine inTallyRange_lit (by dsimp only) (by rfl) (by rfl) ?_

theorem compareTopology_inTallyRange (hbm : Nat) (d : Die) (hd : InTallyRange d) : InTallyRange (compareTopology hbm d) := by
  have hc := inTallyRange_closed [.startup, .regs, .ledger, .queues, .sram] (by decide)
  have k0 := @diffRecord_kept _ (hc.mono (by decide))
  have k1 := @finish_kept _ (hc.mono (by decide))
  unfold compareTopology
  try dsimp only
  with_reducible repeat' first
    | assumption
    | exact hd
    | apply k0
    | (refine each_kept (fun _ _ _ => ?_) ?_)
    | apply k1
    | apply readyState_inTallyRange
    | dsimp only
    | split
    | refine inTallyRange_lit (by dsimp only) (by rfl) (by rfl) ?_

theorem topologyTimeout_inTallyRange (hbm : Nat) (d : Die) (hd : InTallyRange d) : InTallyRange (topologyTimeout hbm d) := by
  have hc := inTallyRange_closed [.startup, .regs, .ledger, .queues, .sram] (by decide)
  unfold topologyTimeout
  try dsimp only
  with_reducible repeat' first
    | assumption
    | exact hd
    | apply compareTopology_inTallyRange
    | dsimp only
    | split
    | refine inTallyRange_lit (by dsimp only) (by rfl) (by rfl) ?_

theorem topologyComplete_inTallyRange (hbm : Nat) (d : Die) (hd : InTallyRange d) : InTallyRange (topologyComplete hbm d) := by
  have hc := inTallyRange_closed [.startup, .regs, .ledger, .queues, .sram] (by decide)
  unfold topologyComplete
  try dsimp only
  with_reducible repeat' first
    | assumption
    | exact hd
    | apply compareTopology_inTallyRange
    | dsimp only
    | split
    | refine inTallyRange_lit (by dsimp only) (by rfl) (by rfl) ?_

theorem resetRegs_inTallyRange (d : Die) (hd : InTallyRange d) : InTallyRange (resetRegs d) := by
  have hc := inTallyRange_closed [.regs, .ledger] (by decide)
  unfold resetRegs
  try dsimp only
  with_reducible repeat' first
    | assumption
    | exact hd
    | dsimp only
    | split
    | refine inTallyRange_lit (by dsimp only) (by rfl) (by rfl) ?_

theorem dieReset_inTallyRange (kind : Nat) (d : Die) (hd : InTallyRange d) : InTallyRange (dieReset kind d) := by
  have hc := inTallyRange_closed [.clocks, .startup, .stop, .regs, .ledger, .chandler, .store, .limits, .islands, .regions, .synths, .ends, .lanes, .links, .rails, .sensors, .watches, .contexts, .commits, .commitReqs, .nextCommit, .tenants, .queues, .sram, .dormant, .fresh] (by decide)
  have k0 := @abandonWrite_kept _ (hc.mono (by decide))
  have k1 := @abortWhere_kept _ (hc.mono (by decide))
  have k2 := @allRetention_kept _ (hc.mono (by decide))
  have k3 := @assayAbort_kept _ (hc.mono (by decide))
  have k4 := @emitReset_kept _ (hc.mono (by decide))
  have k5 := @endDrains_kept _ (hc.mono (by decide))
  have k6 := @resetCores_kept _ (hc.mono (by decide))
  have k7 := hc.reset (by decide)
  have k8 := @resetLimits_kept _ (hc.mono (by decide))
  have k9 := @resetQueue_kept _ (hc.mono (by decide))
  have k10 := @resetRefs_kept _ (hc.mono (by decide))
  have k11 := @resetStop_kept _ (hc.mono (by decide))
  have k12 := @settingsDefaulted_kept _ (hc.mono (by decide))
  have k13 := @stopBellows_kept _ (hc.mono (by decide))
  have k14 := @trayRecord_kept _ (hc.mono (by decide))
  unfold dieReset
  try dsimp only
  with_reducible repeat' first
    | assumption
    | exact hd
    | apply k0
    | apply k1
    | apply k2
    | apply k3
    | (refine each_kept (fun _ _ _ => ?_) ?_)
    | apply k4
    | apply k5
    | apply k6
    | apply k7
    | apply k8
    | apply k9
    | apply k10
    | apply resetRegs_inTallyRange
    | apply k11
    | apply k12
    | apply k13
    | apply k14
    | dsimp only
    | split
    | refine inTallyRange_lit (by dsimp only) (by rfl) (by rfl) ?_

theorem packageWarmReset_inTallyRange (d : Die) (hd : InTallyRange d) : InTallyRange (packageWarmReset d) := by
  have hc := inTallyRange_closed [.clocks, .startup, .stop, .regs, .ledger, .chandler, .store, .limits, .islands, .regions, .synths, .ends, .lanes, .links, .rails, .sensors, .watches, .contexts, .commits, .commitReqs, .nextCommit, .tenants, .queues, .sram, .dormant, .fresh] (by decide)
  unfold packageWarmReset
  try dsimp only
  with_reducible repeat' first
    | assumption
    | exact hd
    | apply dieReset_inTallyRange
    | dsimp only
    | split
    | refine inTallyRange_lit (by dsimp only) (by rfl) (by rfl) ?_

theorem fabricResetWrite_inTallyRange (value : Nat) (d : Die) (hd : InTallyRange d) : InTallyRange (fabricResetWrite value d) := by
  have hc := inTallyRange_closed [.clocks, .startup, .stop, .regs, .ledger, .chandler, .store, .limits, .islands, .regions, .synths, .ends, .lanes, .links, .rails, .sensors, .watches, .contexts, .commits, .commitReqs, .nextCommit, .tenants, .queues, .sram, .dormant, .fresh] (by decide)
  unfold fabricResetWrite
  try dsimp only
  with_reducible repeat' first
    | assumption
    | exact hd
    | apply dieReset_inTallyRange
    | dsimp only
    | split
    | refine inTallyRange_lit (by dsimp only) (by rfl) (by rfl) ?_

theorem poolFrame_inTallyRange {kind l : Nat} {f : Bytes} {effect : Die → Die} {d : Die} (he : ∀ d, InTallyRange d → InTallyRange (effect d)) (hd : InTallyRange d) : InTallyRange (poolFrame kind l f effect d) := by
  have hc := inTallyRange_closed [.ledger, .links] (by decide)
  have k0 := @modPool_kept _ (hc.mono (by decide))
  have k1 := @validFrame_kept _ (hc.mono (by decide))
  unfold poolFrame
  dsimp only
  with_reducible repeat' first
    | assumption
    | apply k0
    | apply k1
    | apply discardFrame_inTallyRange
    | apply he
    | split

theorem statusReceived_inTallyRange (l : Nat) (f : Bytes) (d : Die) (hd : InTallyRange d) : InTallyRange (statusReceived l f d) := by
  have hc := inTallyRange_closed [.ledger, .limits, .links] (by decide)
  have k0 := @checkLoan_kept _ (hc.mono (by decide))
  have k1 := @lend_kept _ (hc.mono (by decide))
  unfold statusReceived
  try dsimp only
  with_reducible repeat' first
    | assumption
    | exact hd
    | apply k0
    | apply k1
    | (refine poolFrame_inTallyRange (fun _ _ => ?_) ?_)
    | dsimp only
    | split
    | refine inTallyRange_lit (by dsimp only) (by rfl) (by rfl) ?_

theorem grantReceived_inTallyRange (l : Nat) (f : Bytes) (d : Die) (hd : InTallyRange d) : InTallyRange (grantReceived l f d) := by
  have hc := inTallyRange_closed [.ledger, .limits, .links] (by decide)
  have k0 := @poolRecord_kept _ (hc.mono (by decide))
  have k1 := @sendPool_kept _ (hc.mono (by decide))
  have k2 := @setLoan_kept _ (hc.mono (by decide))
  unfold grantReceived
  try dsimp only
  with_reducible repeat' first
    | assumption
    | exact hd
    | (refine poolFrame_inTallyRange (fun _ _ => ?_) ?_)
    | apply k0
    | apply k1
    | apply k2
    | dsimp only
    | split
    | refine inTallyRange_lit (by dsimp only) (by rfl) (by rfl) ?_

theorem returnReceived_inTallyRange (l : Nat) (f : Bytes) (d : Die) (hd : InTallyRange d) : InTallyRange (returnReceived l f d) := by
  have hc := inTallyRange_closed [.ledger, .limits, .links] (by decide)
  have k0 := @modPool_kept _ (hc.mono (by decide))
  have k1 := @poolRecord_kept _ (hc.mono (by decide))
  have k2 := @setLoan_kept _ (hc.mono (by decide))
  unfold returnReceived
  try dsimp only
  with_reducible repeat' first
    | assumption
    | exact hd
    | apply k0
    | (refine poolFrame_inTallyRange (fun _ _ => ?_) ?_)
    | apply k1
    | apply k2
    | dsimp only
    | split
    | refine inTallyRange_lit (by dsimp only) (by rfl) (by rfl) ?_

theorem recallReceived_inTallyRange (l : Nat) (f : Bytes) (d : Die) (hd : InTallyRange d) : InTallyRange (recallReceived l f d) := by
  have hc := inTallyRange_closed [.ledger, .limits, .links] (by decide)
  have k0 := @poolRecord_kept _ (hc.mono (by decide))
  have k1 := @returnLoan_kept _ (hc.mono (by decide))
  unfold recallReceived
  try dsimp only
  with_reducible repeat' first
    | assumption
    | exact hd
    | (refine poolFrame_inTallyRange (fun _ _ => ?_) ?_)
    | apply k0
    | apply k1
    | dsimp only
    | split
    | refine inTallyRange_lit (by dsimp only) (by rfl) (by rfl) ?_

theorem mmioWrite_inTallyRange (off value : Nat) (d : Die) (hd : InTallyRange d) : InTallyRange (mmioWrite off value d) := by
  have hc := inTallyRange_closed [.clocks, .startup, .stop, .regs, .ledger, .chandler, .store, .limits, .islands, .regions, .synths, .ends, .lanes, .links, .rails, .sensors, .watches, .contexts, .commits, .commitReqs, .nextCommit, .tenants, .queues, .sram, .streams, .dormant, .fresh] (by decide)
  have k0 := @drainHeadWrite_kept _ (hc.mono (by decide))
  have k1 := @enableWrite_kept _ (hc.mono (by decide))
  have k2 := @freezeWrite_kept _ (hc.mono (by decide))
  have k3 := @queueWrite_kept _ (hc.mono (by decide))
  have k4 := @registerClear_kept _ (hc.mono (by decide))
  have k5 := @registerSet_kept _ (hc.mono (by decide))
  unfold mmioWrite
  try dsimp only
  with_reducible repeat' first
    | assumption
    | exact hd
    | apply k0
    | apply k1
    | apply fabricResetWrite_inTallyRange
    | apply k2
    | apply k3
    | apply k4
    | apply k5
    | dsimp only
    | split
    | refine inTallyRange_lit (by dsimp only) (by rfl) (by rfl) ?_

theorem fabricWord_inTallyRange (w : Nat) (d : Die) (hd : InTallyRange d) : InTallyRange (fabricWord w d) := by
  have hc := inTallyRange_closed [.clocks, .startup, .stop, .regs, .ledger, .chandler, .store, .limits, .islands, .regions, .synths, .ends, .lanes, .links, .rails, .sensors, .watches, .contexts, .commits, .commitReqs, .nextCommit, .tenants, .queues, .sram, .streams, .dormant, .fresh] (by decide)
  unfold fabricWord
  try dsimp only
  with_reducible repeat' first
    | assumption
    | exact hd
    | apply mmioWrite_inTallyRange
    | dsimp only
    | split
    | refine inTallyRange_lit (by dsimp only) (by rfl) (by rfl) ?_

theorem setPriority_inTallyRange (v : Nat) (d : Die) (hd : InTallyRange d) : InTallyRange (setPriority v d) := by
  have hc := inTallyRange_closed [] (by decide)
  unfold setPriority
  try dsimp only
  with_reducible repeat' first
    | assumption
    | exact hd
    | refine modTally_inTallyRange (fun _ => ⟨rfl, rfl, rfl⟩) ?_
    | apply nameBackup_inTallyRange
    | dsimp only
    | split
    | refine inTallyRange_lit (by dsimp only) (by rfl) (by rfl) ?_

theorem tallyPriorityBody_inTallyRange (q : Nat) (_e : Exec) (p : Bytes) (d : Die) (hd : InTallyRange d) : InTallyRange (tallyPriorityBody q _e p d).1 := by
  have hc := inTallyRange_closed [] (by decide)
  unfold tallyPriorityBody
  try dsimp only
  with_reducible repeat' first
    | assumption
    | exact hd
    | (refine checked_kept (fun _ _ => ?_) ?_)
    | apply setPriority_inTallyRange
    | dsimp only
    | split
    | refine inTallyRange_lit (by dsimp only) (by rfl) (by rfl) ?_

theorem authoritative_inTallyRange (d : Die) (hd : InTallyRange d) : InTallyRange (authoritative d) := by
  have hc := inTallyRange_closed [.ledger] (by decide)
  have k0 := @emit_kept _ (hc.mono (by decide))
  unfold authoritative
  try dsimp only
  with_reducible repeat' first
    | assumption
    | exact hd
    | apply k0
    | refine modTally_inTallyRange (fun _ => ⟨rfl, rfl, rfl⟩) ?_
    | dsimp only
    | split
    | refine inTallyRange_lit (by dsimp only) (by rfl) (by rfl) ?_

theorem realign_inTallyRange (d : Die) (hd : InTallyRange d) : InTallyRange (realign d) := by
  have hc := inTallyRange_closed [.ledger] (by decide)
  unfold realign
  try dsimp only
  with_reducible repeat' first
    | assumption
    | exact hd
    | apply followPartner_inTallyRange
    | refine modTally_inTallyRange (fun _ => ⟨rfl, rfl, rfl⟩) ?_
    | apply tallyStep_inTallyRange
    | dsimp only
    | split
    | refine inTallyRange_lit (by dsimp only) (by rfl) (by rfl) ?_

theorem tallyAuthorityBody_inTallyRange (q : Nat) (_e : Exec) (p : Bytes) (d : Die) (hd : InTallyRange d) : InTallyRange (tallyAuthorityBody q _e p d).1 := by
  have hc := inTallyRange_closed [.ledger] (by decide)
  unfold tallyAuthorityBody
  try dsimp only
  with_reducible repeat' first
    | assumption
    | exact hd
    | apply authoritative_inTallyRange
    | (refine checked_kept (fun _ _ => ?_) ?_)
    | apply realign_inTallyRange
    | dsimp only
    | split
    | refine inTallyRange_lit (by dsimp only) (by rfl) (by rfl) ?_

theorem acceptDescriptor_inTallyRange (b : Bytes) (d : Die) (hd : InTallyRange d) : InTallyRange (acceptDescriptor b d) := by
  have hc := inTallyRange_closed [.startup] (by decide)
  unfold acceptDescriptor
  try dsimp only
  with_reducible repeat' first
    | assumption
    | exact hd
    | refine modTally_inTallyRange (fun _ => ⟨rfl, rfl, rfl⟩) ?_
    | dsimp only
    | split
    | refine inTallyRange_lit (by dsimp only) (by rfl) (by rfl) ?_

theorem beginCheck_inTallyRange (hbm : Nat) (b : Bytes) (d : Die) (hd : InTallyRange d) : InTallyRange (beginCheck hbm b d) := by
  have hc := inTallyRange_closed [.startup, .regs, .ledger, .queues, .sram] (by decide)
  unfold beginCheck
  try dsimp only
  with_reducible repeat' first
    | assumption
    | exact hd
    | apply acceptDescriptor_inTallyRange
    | apply compareTopology_inTallyRange
    | dsimp only
    | split
    | refine inTallyRange_lit (by dsimp only) (by rfl) (by rfl) ?_

theorem fabricTopologyBody_inTallyRange (q hbm : Nat) (e : Exec) (p : Bytes) (d : Die) (hd : InTallyRange d) : InTallyRange (fabricTopologyBody q hbm e p d).1 := by
  have hc := inTallyRange_closed [.startup, .regs, .ledger, .queues, .sram] (by decide)
  unfold fabricTopologyBody
  try dsimp only
  with_reducible repeat' first
    | assumption
    | exact hd
    | apply beginCheck_inTallyRange
    | (refine checked_kept (fun _ _ => ?_) ?_)
    | dsimp only
    | split
    | refine inTallyRange_lit (by dsimp only) (by rfl) (by rfl) ?_

end Sys2Proof.Machine
end

