-- ==== Sys2Proof/Laws/UntouchedMore.lean ====
section
/-! SUPPORT. More parts of the die that operations leave alone, as rewriting rules. -/

namespace Sys2Proof.Machine
open Sys2Proof
set_option Elab.async false
set_option linter.all false

theorem each_regs {α : Type} {l : List α} {f : α → Die → Die} {d : Die} (h : ∀ a d, (f a d).regs = d.regs) : (each l f d).regs = d.regs :=
  each_kept (P := fun e => e.regs = d.regs) (fun a e he => (h a e).trans he) rfl

theorem each_chandler {α : Type} {l : List α} {f : α → Die → Die} {d : Die} (h : ∀ a d, (f a d).chandler = d.chandler) : (each l f d).chandler = d.chandler :=
  each_kept (P := fun e => e.chandler = d.chandler) (fun a e he => (h a e).trans he) rfl

theorem each_islands {α : Type} {l : List α} {f : α → Die → Die} {d : Die} (h : ∀ a d, (f a d).islands = d.islands) : (each l f d).islands = d.islands :=
  each_kept (P := fun e => e.islands = d.islands) (fun a e he => (h a e).trans he) rfl

theorem each_regions {α : Type} {l : List α} {f : α → Die → Die} {d : Die} (h : ∀ a d, (f a d).regions = d.regions) : (each l f d).regions = d.regions :=
  each_kept (P := fun e => e.regions = d.regions) (fun a e he => (h a e).trans he) rfl

theorem each_synths {α : Type} {l : List α} {f : α → Die → Die} {d : Die} (h : ∀ a d, (f a d).synths = d.synths) : (each l f d).synths = d.synths :=
  each_kept (P := fun e => e.synths = d.synths) (fun a e he => (h a e).trans he) rfl

theorem each_ends {α : Type} {l : List α} {f : α → Die → Die} {d : Die} (h : ∀ a d, (f a d).ends = d.ends) : (each l f d).ends = d.ends :=
  each_kept (P := fun e => e.ends = d.ends) (fun a e he => (h a e).trans he) rfl

theorem each_links {α : Type} {l : List α} {f : α → Die → Die} {d : Die} (h : ∀ a d, (f a d).links = d.links) : (each l f d).links = d.links :=
  each_kept (P := fun e => e.links = d.links) (fun a e he => (h a e).trans he) rfl

theorem each_rails {α : Type} {l : List α} {f : α → Die → Die} {d : Die} (h : ∀ a d, (f a d).rails = d.rails) : (each l f d).rails = d.rails :=
  each_kept (P := fun e => e.rails = d.rails) (fun a e he => (h a e).trans he) rfl

theorem each_sensors {α : Type} {l : List α} {f : α → Die → Die} {d : Die} (h : ∀ a d, (f a d).sensors = d.sensors) : (each l f d).sensors = d.sensors :=
  each_kept (P := fun e => e.sensors = d.sensors) (fun a e he => (h a e).trans he) rfl

theorem each_contexts {α : Type} {l : List α} {f : α → Die → Die} {d : Die} (h : ∀ a d, (f a d).contexts = d.contexts) : (each l f d).contexts = d.contexts :=
  each_kept (P := fun e => e.contexts = d.contexts) (fun a e he => (h a e).trans he) rfl

theorem each_commits {α : Type} {l : List α} {f : α → Die → Die} {d : Die} (h : ∀ a d, (f a d).commits = d.commits) : (each l f d).commits = d.commits :=
  each_kept (P := fun e => e.commits = d.commits) (fun a e he => (h a e).trans he) rfl

theorem each_nextCommit {α : Type} {l : List α} {f : α → Die → Die} {d : Die} (h : ∀ a d, (f a d).nextCommit = d.nextCommit) : (each l f d).nextCommit = d.nextCommit :=
  each_kept (P := fun e => e.nextCommit = d.nextCommit) (fun a e he => (h a e).trans he) rfl

theorem each_tenants {α : Type} {l : List α} {f : α → Die → Die} {d : Die} (h : ∀ a d, (f a d).tenants = d.tenants) : (each l f d).tenants = d.tenants :=
  each_kept (P := fun e => e.tenants = d.tenants) (fun a e he => (h a e).trans he) rfl

theorem each_dormant {α : Type} {l : List α} {f : α → Die → Die} {d : Die} (h : ∀ a d, (f a d).dormant = d.dormant) : (each l f d).dormant = d.dormant :=
  each_kept (P := fun e => e.dormant = d.dormant) (fun a e he => (h a e).trans he) rfl

@[simp] theorem emitRetire_islands (kind sub count : Nat) (l : Loc) (id : Nat) (d : Die) : (emitRetire kind sub count l id d).islands = d.islands :=
  (emitRetire_kept (sameBut_closed _ d) kind sub count l id d (sameBut_refl _ d)) .islands (by decide)

@[simp] theorem emitRetire_synths (kind sub count : Nat) (l : Loc) (id : Nat) (d : Die) : (emitRetire kind sub count l id d).synths = d.synths :=
  (emitRetire_kept (sameBut_closed _ d) kind sub count l id d (sameBut_refl _ d)) .synths (by decide)

@[simp] theorem emitRetire_sensors (kind sub count : Nat) (l : Loc) (id : Nat) (d : Die) : (emitRetire kind sub count l id d).sensors = d.sensors :=
  (emitRetire_kept (sameBut_closed _ d) kind sub count l id d (sameBut_refl _ d)) .sensors (by decide)

@[simp] theorem modRef_tally (n : Nat) (f : Ref → Ref) (d : Die) : (modRef n f d).tally = d.tally :=
  (modRef_kept (sameBut_closed _ d) n f d (sameBut_refl _ d)) .tally (by decide)

@[simp] theorem modRoot_tally (n : Nat) (f : Root → Root) (d : Die) : (modRoot n f d).tally = d.tally :=
  (modRoot_kept (sameBut_closed _ d) n f d (sameBut_refl _ d)) .tally (by decide)

@[simp] theorem freeze_chandler (cause : Nat) (d : Die) : (freeze cause d).chandler = d.chandler :=
  (freeze_kept (sameBut_closed _ d) cause d (sameBut_refl _ d)) .chandler (by decide)

@[simp] theorem freeze_regions (cause : Nat) (d : Die) : (freeze cause d).regions = d.regions :=
  (freeze_kept (sameBut_closed _ d) cause d (sameBut_refl _ d)) .regions (by decide)

@[simp] theorem retarget_tally (k : Nat) (d : Die) : (retarget k d).tally = d.tally :=
  (retarget_kept (sameBut_closed _ d) k d (sameBut_refl _ d)) .tally (by decide)

@[simp] theorem retarget_startup (k : Nat) (d : Die) : (retarget k d).startup = d.startup :=
  (retarget_kept (sameBut_closed _ d) k d (sameBut_refl _ d)) .startup (by decide)

@[simp] theorem retarget_regions (k : Nat) (d : Die) : (retarget k d).regions = d.regions :=
  (retarget_kept (sameBut_closed _ d) k d (sameBut_refl _ d)) .regions (by decide)

@[simp] theorem retarget_commits (k : Nat) (d : Die) : (retarget k d).commits = d.commits :=
  (retarget_kept (sameBut_closed _ d) k d (sameBut_refl _ d)) .commits (by decide)

@[simp] theorem retarget_dormant (k : Nat) (d : Die) : (retarget k d).dormant = d.dormant :=
  (retarget_kept (sameBut_closed _ d) k d (sameBut_refl _ d)) .dormant (by decide)

@[simp] theorem railOn_startup (k : Nat) (d : Die) : (railOn k d).startup = d.startup :=
  (railOn_kept (sameBut_closed _ d) k d (sameBut_refl _ d)) .startup (by decide)

@[simp] theorem railOn_dormant (k : Nat) (d : Die) : (railOn k d).dormant = d.dormant :=
  (railOn_kept (sameBut_closed _ d) k d (sameBut_refl _ d)) .dormant (by decide)

@[simp] theorem allRetention_regs (d : Die) : (allRetention d).regs = d.regs :=
  (allRetention_kept (sameBut_closed _ d) d (sameBut_refl _ d)) .regs (by decide)

@[simp] theorem allRetention_chandler (d : Die) : (allRetention d).chandler = d.chandler :=
  (allRetention_kept (sameBut_closed _ d) d (sameBut_refl _ d)) .chandler (by decide)

@[simp] theorem allRetention_islands (d : Die) : (allRetention d).islands = d.islands :=
  (allRetention_kept (sameBut_closed _ d) d (sameBut_refl _ d)) .islands (by decide)

@[simp] theorem allRetention_regions (d : Die) : (allRetention d).regions = d.regions :=
  (allRetention_kept (sameBut_closed _ d) d (sameBut_refl _ d)) .regions (by decide)

@[simp] theorem allRetention_synths (d : Die) : (allRetention d).synths = d.synths :=
  (allRetention_kept (sameBut_closed _ d) d (sameBut_refl _ d)) .synths (by decide)

@[simp] theorem allRetention_ends (d : Die) : (allRetention d).ends = d.ends :=
  (allRetention_kept (sameBut_closed _ d) d (sameBut_refl _ d)) .ends (by decide)

@[simp] theorem allRetention_lanes (d : Die) : (allRetention d).lanes = d.lanes :=
  (allRetention_kept (sameBut_closed _ d) d (sameBut_refl _ d)) .lanes (by decide)

@[simp] theorem allRetention_links (d : Die) : (allRetention d).links = d.links :=
  (allRetention_kept (sameBut_closed _ d) d (sameBut_refl _ d)) .links (by decide)

@[simp] theorem allRetention_sensors (d : Die) : (allRetention d).sensors = d.sensors :=
  (allRetention_kept (sameBut_closed _ d) d (sameBut_refl _ d)) .sensors (by decide)

@[simp] theorem allRetention_watches (d : Die) : (allRetention d).watches = d.watches :=
  (allRetention_kept (sameBut_closed _ d) d (sameBut_refl _ d)) .watches (by decide)

@[simp] theorem allRetention_messages (d : Die) : (allRetention d).messages = d.messages :=
  (allRetention_kept (sameBut_closed _ d) d (sameBut_refl _ d)) .messages (by decide)

@[simp] theorem allRetention_delivered (d : Die) : (allRetention d).delivered = d.delivered :=
  (allRetention_kept (sameBut_closed _ d) d (sameBut_refl _ d)) .delivered (by decide)

@[simp] theorem allRetention_contexts (d : Die) : (allRetention d).contexts = d.contexts :=
  (allRetention_kept (sameBut_closed _ d) d (sameBut_refl _ d)) .contexts (by decide)

@[simp] theorem allRetention_commits (d : Die) : (allRetention d).commits = d.commits :=
  (allRetention_kept (sameBut_closed _ d) d (sameBut_refl _ d)) .commits (by decide)

@[simp] theorem allRetention_commitReqs (d : Die) : (allRetention d).commitReqs = d.commitReqs :=
  (allRetention_kept (sameBut_closed _ d) d (sameBut_refl _ d)) .commitReqs (by decide)

@[simp] theorem allRetention_nextCommit (d : Die) : (allRetention d).nextCommit = d.nextCommit :=
  (allRetention_kept (sameBut_closed _ d) d (sameBut_refl _ d)) .nextCommit (by decide)

@[simp] theorem allRetention_tenants (d : Die) : (allRetention d).tenants = d.tenants :=
  (allRetention_kept (sameBut_closed _ d) d (sameBut_refl _ d)) .tenants (by decide)

@[simp] theorem allRetention_queues (d : Die) : (allRetention d).queues = d.queues :=
  (allRetention_kept (sameBut_closed _ d) d (sameBut_refl _ d)) .queues (by decide)

@[simp] theorem allRetention_sram (d : Die) : (allRetention d).sram = d.sram :=
  (allRetention_kept (sameBut_closed _ d) d (sameBut_refl _ d)) .sram (by decide)

@[simp] theorem allRetention_streams (d : Die) : (allRetention d).streams = d.streams :=
  (allRetention_kept (sameBut_closed _ d) d (sameBut_refl _ d)) .streams (by decide)

@[simp] theorem allRetention_dormant (d : Die) : (allRetention d).dormant = d.dormant :=
  (allRetention_kept (sameBut_closed _ d) d (sameBut_refl _ d)) .dormant (by decide)

@[simp] theorem allRetention_hbm (d : Die) : (allRetention d).hbm = d.hbm :=
  (allRetention_kept (sameBut_closed _ d) d (sameBut_refl _ d)) .hbm (by decide)

@[simp] theorem allRetention_fresh (d : Die) : (allRetention d).fresh = d.fresh :=
  (allRetention_kept (sameBut_closed _ d) d (sameBut_refl _ d)) .fresh (by decide)

@[simp] theorem attribTo_islands (code r named share : Nat) (isl : Nat) (d : Die) : (attribTo code r named share isl d).islands = d.islands :=
  (attribTo_kept (sameBut_closed _ d) code r named share isl d (sameBut_refl _ d)) .islands (by decide)

@[simp] theorem attribThrottle_regions (r reason : Nat) (d : Die) : (attribThrottle r reason d).regions = d.regions :=
  (attribThrottle_kept (sameBut_closed _ d) r reason d (sameBut_refl _ d)) .regions (by decide)

@[simp] theorem throttleUpdate_startup (r : Nat) (d : Die) : (throttleUpdate r d).startup = d.startup :=
  (throttleUpdate_kept (sameBut_closed _ d) r d (sameBut_refl _ d)) .startup (by decide)

@[simp] theorem throttleUpdate_store (r : Nat) (d : Die) : (throttleUpdate r d).store = d.store :=
  (throttleUpdate_kept (sameBut_closed _ d) r d (sameBut_refl _ d)) .store (by decide)

@[simp] theorem throttleUpdate_contexts (r : Nat) (d : Die) : (throttleUpdate r d).contexts = d.contexts :=
  (throttleUpdate_kept (sameBut_closed _ d) r d (sameBut_refl _ d)) .contexts (by decide)

@[simp] theorem throttleUpdate_commits (r : Nat) (d : Die) : (throttleUpdate r d).commits = d.commits :=
  (throttleUpdate_kept (sameBut_closed _ d) r d (sameBut_refl _ d)) .commits (by decide)

@[simp] theorem throttleUpdate_nextCommit (r : Nat) (d : Die) : (throttleUpdate r d).nextCommit = d.nextCommit :=
  (throttleUpdate_kept (sameBut_closed _ d) r d (sameBut_refl _ d)) .nextCommit (by decide)

@[simp] theorem throttleUpdate_dormant (r : Nat) (d : Die) : (throttleUpdate r d).dormant = d.dormant :=
  (throttleUpdate_kept (sameBut_closed _ d) r d (sameBut_refl _ d)) .dormant (by decide)

@[simp] theorem throttleAll_islands (d : Die) : (throttleAll d).islands = d.islands :=
  (throttleAll_kept (sameBut_closed _ d) d (sameBut_refl _ d)) .islands (by decide)

@[simp] theorem joinRequest_regions (src : CommitSource) (target ctx r : Nat) (d : Die) : (joinRequest src target ctx r d).regions = d.regions :=
  (joinRequest_kept (sameBut_closed _ d) src target ctx r d (sameBut_refl _ d)) .regions (by decide)

@[simp] theorem regrant_stop (r : Nat) (d : Die) : (regrant r d).stop = d.stop :=
  (regrant_kept (sameBut_closed _ d) r d (sameBut_refl _ d)) .stop (by decide)

@[simp] theorem regrant_islands (r : Nat) (d : Die) : (regrant r d).islands = d.islands :=
  (regrant_kept (sameBut_closed _ d) r d (sameBut_refl _ d)) .islands (by decide)

@[simp] theorem regrant_regions (r : Nat) (d : Die) : (regrant r d).regions = d.regions :=
  (regrant_kept (sameBut_closed _ d) r d (sameBut_refl _ d)) .regions (by decide)

@[simp] theorem regrant_synths (r : Nat) (d : Die) : (regrant r d).synths = d.synths :=
  (regrant_kept (sameBut_closed _ d) r d (sameBut_refl _ d)) .synths (by decide)

@[simp] theorem restore_stop (r : Nat) (d : Die) : (restore r d).stop = d.stop :=
  (restore_kept (sameBut_closed _ d) r d (sameBut_refl _ d)) .stop (by decide)

@[simp] theorem restore_islands (r : Nat) (d : Die) : (restore r d).islands = d.islands :=
  (restore_kept (sameBut_closed _ d) r d (sameBut_refl _ d)) .islands (by decide)

@[simp] theorem restore_synths (r : Nat) (d : Die) : (restore r d).synths = d.synths :=
  (restore_kept (sameBut_closed _ d) r d (sameBut_refl _ d)) .synths (by decide)

@[simp] theorem changeCeilings_watches (r : Nat) (f : Region → Region) (d : Die) : (changeCeilings r f d).watches = d.watches :=
  (changeCeilings_kept (sameBut_closed _ d) r f d (sameBut_refl _ d)) .watches (by decide)

@[simp] theorem setCeiling_islands (j r : Nat) (v : Option Nat) (d : Die) : (setCeiling j r v d).islands = d.islands :=
  (setCeiling_kept (sameBut_closed _ d) j r v d (sameBut_refl _ d)) .islands (by decide)

@[simp] theorem fastStep_stop (r : Nat) (d : Die) : (fastStep r d).stop = d.stop :=
  (fastStep_kept (sameBut_closed _ d) r d (sameBut_refl _ d)) .stop (by decide)

@[simp] theorem fastStep_islands (r : Nat) (d : Die) : (fastStep r d).islands = d.islands :=
  (fastStep_kept (sameBut_closed _ d) r d (sameBut_refl _ d)) .islands (by decide)

@[simp] theorem fastStep_synths (r : Nat) (d : Die) : (fastStep r d).synths = d.synths :=
  (fastStep_kept (sameBut_closed _ d) r d (sameBut_refl _ d)) .synths (by decide)

@[simp] theorem writeSynth_regions (r sy : Nat) (s : Setting) (use : SynthUse) (must : Bool) (d : Die) : (writeSynth r sy s use must d).regions = d.regions :=
  (writeSynth_kept (sameBut_closed _ d) r sy s use must d (sameBut_refl _ d)) .regions (by decide)

@[simp] theorem writeSynth_commits (r sy : Nat) (s : Setting) (use : SynthUse) (must : Bool) (d : Die) : (writeSynth r sy s use must d).commits = d.commits :=
  (writeSynth_kept (sameBut_closed _ d) r sy s use must d (sameBut_refl _ d)) .commits (by decide)

@[simp] theorem writeSynth_queues (r sy : Nat) (s : Setting) (use : SynthUse) (must : Bool) (d : Die) : (writeSynth r sy s use must d).queues = d.queues :=
  (writeSynth_kept (sameBut_closed _ d) r sy s use must d (sameBut_refl _ d)) .queues (by decide)

@[simp] theorem powerSynth_islands (r sy : Nat) (d : Die) : (powerSynth r sy d).islands = d.islands :=
  (powerSynth_kept (sameBut_closed _ d) r sy d (sameBut_refl _ d)) .islands (by decide)

@[simp] theorem powerSynth_regions (r sy : Nat) (d : Die) : (powerSynth r sy d).regions = d.regions :=
  (powerSynth_kept (sameBut_closed _ d) r sy d (sameBut_refl _ d)) .regions (by decide)

@[simp] theorem retuneStandby_stop (r : Nat) (d : Die) : (retuneStandby r d).stop = d.stop :=
  (retuneStandby_kept (sameBut_closed _ d) r d (sameBut_refl _ d)) .stop (by decide)

@[simp] theorem retuneStandby_regions (r : Nat) (d : Die) : (retuneStandby r d).regions = d.regions :=
  (retuneStandby_kept (sameBut_closed _ d) r d (sameBut_refl _ d)) .regions (by decide)

@[simp] theorem retuneStandby_commits (r : Nat) (d : Die) : (retuneStandby r d).commits = d.commits :=
  (retuneStandby_kept (sameBut_closed _ d) r d (sameBut_refl _ d)) .commits (by decide)

@[simp] theorem lendTo_synths (r q cause : Nat) (d : Die) : (lendTo r q cause d).synths = d.synths :=
  (lendTo_kept (sameBut_closed _ d) r q cause d (sameBut_refl _ d)) .synths (by decide)

@[simp] theorem lendTo_commits (r q cause : Nat) (d : Die) : (lendTo r q cause d).commits = d.commits :=
  (lendTo_kept (sameBut_closed _ d) r q cause d (sameBut_refl _ d)) .commits (by decide)

@[simp] theorem droverStop_synths (r : Nat) (d : Die) : (droverStop r d).synths = d.synths :=
  (droverStop_kept (sameBut_closed _ d) r d (sameBut_refl _ d)) .synths (by decide)

@[simp] theorem moveBorrower_synths (r : Nat) (d : Die) : (moveBorrower r d).synths = d.synths :=
  (moveBorrower_kept (sameBut_closed _ d) r d (sameBut_refl _ d)) .synths (by decide)

@[simp] theorem moveBorrower_commits (r : Nat) (d : Die) : (moveBorrower r d).commits = d.commits :=
  (moveBorrower_kept (sameBut_closed _ d) r d (sameBut_refl _ d)) .commits (by decide)

@[simp] theorem modCommit_tally (id : Nat) (f : Commit → Commit) (d : Die) : (modCommit id f d).tally = d.tally :=
  (modCommit_kept (sameBut_closed _ d) id f d (sameBut_refl _ d)) .tally (by decide)

@[simp] theorem modCommit_clocks (id : Nat) (f : Commit → Commit) (d : Die) : (modCommit id f d).clocks = d.clocks :=
  (modCommit_kept (sameBut_closed _ d) id f d (sameBut_refl _ d)) .clocks (by decide)

@[simp] theorem modCommit_startup (id : Nat) (f : Commit → Commit) (d : Die) : (modCommit id f d).startup = d.startup :=
  (modCommit_kept (sameBut_closed _ d) id f d (sameBut_refl _ d)) .startup (by decide)

@[simp] theorem modCommit_stop (id : Nat) (f : Commit → Commit) (d : Die) : (modCommit id f d).stop = d.stop :=
  (modCommit_kept (sameBut_closed _ d) id f d (sameBut_refl _ d)) .stop (by decide)

@[simp] theorem modCommit_regs (id : Nat) (f : Commit → Commit) (d : Die) : (modCommit id f d).regs = d.regs :=
  (modCommit_kept (sameBut_closed _ d) id f d (sameBut_refl _ d)) .regs (by decide)

@[simp] theorem modCommit_chandler (id : Nat) (f : Commit → Commit) (d : Die) : (modCommit id f d).chandler = d.chandler :=
  (modCommit_kept (sameBut_closed _ d) id f d (sameBut_refl _ d)) .chandler (by decide)

@[simp] theorem modCommit_store (id : Nat) (f : Commit → Commit) (d : Die) : (modCommit id f d).store = d.store :=
  (modCommit_kept (sameBut_closed _ d) id f d (sameBut_refl _ d)) .store (by decide)

@[simp] theorem modCommit_limits (id : Nat) (f : Commit → Commit) (d : Die) : (modCommit id f d).limits = d.limits :=
  (modCommit_kept (sameBut_closed _ d) id f d (sameBut_refl _ d)) .limits (by decide)

@[simp] theorem modCommit_islands (id : Nat) (f : Commit → Commit) (d : Die) : (modCommit id f d).islands = d.islands :=
  (modCommit_kept (sameBut_closed _ d) id f d (sameBut_refl _ d)) .islands (by decide)

@[simp] theorem modCommit_regions (id : Nat) (f : Commit → Commit) (d : Die) : (modCommit id f d).regions = d.regions :=
  (modCommit_kept (sameBut_closed _ d) id f d (sameBut_refl _ d)) .regions (by decide)

@[simp] theorem modCommit_synths (id : Nat) (f : Commit → Commit) (d : Die) : (modCommit id f d).synths = d.synths :=
  (modCommit_kept (sameBut_closed _ d) id f d (sameBut_refl _ d)) .synths (by decide)

@[simp] theorem modCommit_ends (id : Nat) (f : Commit → Commit) (d : Die) : (modCommit id f d).ends = d.ends :=
  (modCommit_kept (sameBut_closed _ d) id f d (sameBut_refl _ d)) .ends (by decide)

@[simp] theorem modCommit_lanes (id : Nat) (f : Commit → Commit) (d : Die) : (modCommit id f d).lanes = d.lanes :=
  (modCommit_kept (sameBut_closed _ d) id f d (sameBut_refl _ d)) .lanes (by decide)

@[simp] theorem modCommit_links (id : Nat) (f : Commit → Commit) (d : Die) : (modCommit id f d).links = d.links :=
  (modCommit_kept (sameBut_closed _ d) id f d (sameBut_refl _ d)) .links (by decide)

@[simp] theorem modCommit_rails (id : Nat) (f : Commit → Commit) (d : Die) : (modCommit id f d).rails = d.rails :=
  (modCommit_kept (sameBut_closed _ d) id f d (sameBut_refl _ d)) .rails (by decide)

@[simp] theorem modCommit_sensors (id : Nat) (f : Commit → Commit) (d : Die) : (modCommit id f d).sensors = d.sensors :=
  (modCommit_kept (sameBut_closed _ d) id f d (sameBut_refl _ d)) .sensors (by decide)

@[simp] theorem modCommit_watches (id : Nat) (f : Commit → Commit) (d : Die) : (modCommit id f d).watches = d.watches :=
  (modCommit_kept (sameBut_closed _ d) id f d (sameBut_refl _ d)) .watches (by decide)

@[simp] theorem modCommit_messages (id : Nat) (f : Commit → Commit) (d : Die) : (modCommit id f d).messages = d.messages :=
  (modCommit_kept (sameBut_closed _ d) id f d (sameBut_refl _ d)) .messages (by decide)

@[simp] theorem modCommit_delivered (id : Nat) (f : Commit → Commit) (d : Die) : (modCommit id f d).delivered = d.delivered :=
  (modCommit_kept (sameBut_closed _ d) id f d (sameBut_refl _ d)) .delivered (by decide)

@[simp] theorem modCommit_contexts (id : Nat) (f : Commit → Commit) (d : Die) : (modCommit id f d).contexts = d.contexts :=
  (modCommit_kept (sameBut_closed _ d) id f d (sameBut_refl _ d)) .contexts (by decide)

@[simp] theorem modCommit_commitReqs (id : Nat) (f : Commit → Commit) (d : Die) : (modCommit id f d).commitReqs = d.commitReqs :=
  (modCommit_kept (sameBut_closed _ d) id f d (sameBut_refl _ d)) .commitReqs (by decide)

@[simp] theorem modCommit_nextCommit (id : Nat) (f : Commit → Commit) (d : Die) : (modCommit id f d).nextCommit = d.nextCommit :=
  (modCommit_kept (sameBut_closed _ d) id f d (sameBut_refl _ d)) .nextCommit (by decide)

@[simp] theorem modCommit_tenants (id : Nat) (f : Commit → Commit) (d : Die) : (modCommit id f d).tenants = d.tenants :=
  (modCommit_kept (sameBut_closed _ d) id f d (sameBut_refl _ d)) .tenants (by decide)

@[simp] theorem modCommit_queues (id : Nat) (f : Commit → Commit) (d : Die) : (modCommit id f d).queues = d.queues :=
  (modCommit_kept (sameBut_closed _ d) id f d (sameBut_refl _ d)) .queues (by decide)

@[simp] theorem modCommit_sram (id : Nat) (f : Commit → Commit) (d : Die) : (modCommit id f d).sram = d.sram :=
  (modCommit_kept (sameBut_closed _ d) id f d (sameBut_refl _ d)) .sram (by decide)

@[simp] theorem modCommit_streams (id : Nat) (f : Commit → Commit) (d : Die) : (modCommit id f d).streams = d.streams :=
  (modCommit_kept (sameBut_closed _ d) id f d (sameBut_refl _ d)) .streams (by decide)

@[simp] theorem modCommit_dormant (id : Nat) (f : Commit → Commit) (d : Die) : (modCommit id f d).dormant = d.dormant :=
  (modCommit_kept (sameBut_closed _ d) id f d (sameBut_refl _ d)) .dormant (by decide)

@[simp] theorem modCommit_hbm (id : Nat) (f : Commit → Commit) (d : Die) : (modCommit id f d).hbm = d.hbm :=
  (modCommit_kept (sameBut_closed _ d) id f d (sameBut_refl _ d)) .hbm (by decide)

@[simp] theorem modCommit_fresh (id : Nat) (f : Commit → Commit) (d : Die) : (modCommit id f d).fresh = d.fresh :=
  (modCommit_kept (sameBut_closed _ d) id f d (sameBut_refl _ d)) .fresh (by decide)

@[simp] theorem retuneMember_nextCommit (id g r : Nat) (d : Die) : (retuneMember id g r d).nextCommit = d.nextCommit :=
  (retuneMember_kept (sameBut_closed _ d) id g r d (sameBut_refl _ d)) .nextCommit (by decide)

@[simp] theorem acceptCommit_rails (src : CommitSource) (target : Nat) (members : RegionSet) (count ctx aborts : Nat) (key : Option (Nat × Nat)) (d : Die) : (acceptCommit src target members count ctx aborts key d).rails = d.rails :=
  (acceptCommit_kept (sameBut_closed _ d) src target members count ctx aborts key d (sameBut_refl _ d)) .rails (by decide)

@[simp] theorem acceptCommit_commitReqs (src : CommitSource) (target : Nat) (members : RegionSet) (count ctx aborts : Nat) (key : Option (Nat × Nat)) (d : Die) : (acceptCommit src target members count ctx aborts key d).commitReqs = d.commitReqs :=
  (acceptCommit_kept (sameBut_closed _ d) src target members count ctx aborts key d (sameBut_refl _ d)) .commitReqs (by decide)

@[simp] theorem clearTarget_contexts (r : Nat) (d : Die) : (clearTarget r d).contexts = d.contexts :=
  (clearTarget_kept (sameBut_closed _ d) r d (sameBut_refl _ d)) .contexts (by decide)

@[simp] theorem afterAbort_synths (c : Commit) (reason rgn : Nat) (d : Die) : (afterAbort c reason rgn d).synths = d.synths :=
  (afterAbort_kept (sameBut_closed _ d) c reason rgn d (sameBut_refl _ d)) .synths (by decide)

@[simp] theorem afterAbort_commits (c : Commit) (reason rgn : Nat) (d : Die) : (afterAbort c reason rgn d).commits = d.commits :=
  (afterAbort_kept (sameBut_closed _ d) c reason rgn d (sameBut_refl _ d)) .commits (by decide)

@[simp] theorem abortCommit_rails (id reason rgn fault : Nat) (d : Die) : (abortCommit id reason rgn fault d).rails = d.rails :=
  (abortCommit_kept (sameBut_closed _ d) id reason rgn fault d (sameBut_refl _ d)) .rails (by decide)

@[simp] theorem memberDone_commits (r : Nat) (d : Die) : (memberDone r d).commits = d.commits :=
  (memberDone_kept (sameBut_closed _ d) r d (sameBut_refl _ d)) .commits (by decide)

@[simp] theorem queueReset_tenants (q cause : Nat) (d : Die) : (queueReset q cause d).tenants = d.tenants :=
  (queueReset_kept (sameBut_closed _ d) q cause d (sameBut_refl _ d)) .tenants (by decide)

@[simp] theorem finish_startup (q : Nat) (reply : Reply) (d : Die) : (finish q reply d).startup = d.startup :=
  (finish_kept (sameBut_closed _ d) q reply d (sameBut_refl _ d)) .startup (by decide)

@[simp] theorem uncoupleEnd_regions (src k : Nat) (d : Die) : (uncoupleEnd src k d).regions = d.regions :=
  (uncoupleEnd_kept (sameBut_closed _ d) src k d (sameBut_refl _ d)) .regions (by decide)

@[simp] theorem uncoupleEnd_contexts (src k : Nat) (d : Die) : (uncoupleEnd src k d).contexts = d.contexts :=
  (uncoupleEnd_kept (sameBut_closed _ d) src k d (sameBut_refl _ d)) .contexts (by decide)

@[simp] theorem refreshIsland_store (i : Nat) (d : Die) : (refreshIsland i d).store = d.store :=
  (refreshIsland_kept (sameBut_closed _ d) i d (sameBut_refl _ d)) .store (by decide)

@[simp] theorem refreshIsland_islands (i : Nat) (d : Die) : (refreshIsland i d).islands = d.islands :=
  (refreshIsland_kept (sameBut_closed _ d) i d (sameBut_refl _ d)) .islands (by decide)

@[simp] theorem refreshIsland_regions (i : Nat) (d : Die) : (refreshIsland i d).regions = d.regions :=
  (refreshIsland_kept (sameBut_closed _ d) i d (sameBut_refl _ d)) .regions (by decide)

@[simp] theorem refreshIsland_synths (i : Nat) (d : Die) : (refreshIsland i d).synths = d.synths :=
  (refreshIsland_kept (sameBut_closed _ d) i d (sameBut_refl _ d)) .synths (by decide)

@[simp] theorem uncoupleRegion_synths (r : Nat) (d : Die) : (uncoupleRegion r d).synths = d.synths :=
  (uncoupleRegion_kept (sameBut_closed _ d) r d (sameBut_refl _ d)) .synths (by decide)

@[simp] theorem clearLinkLanes_links (l : Nat) (d : Die) : (clearLinkLanes l d).links = d.links :=
  (clearLinkLanes_kept (sameBut_closed _ d) l d (sameBut_refl _ d)) .links (by decide)

@[simp] theorem coupleLink_contexts (l tag : Nat) (d : Die) : (coupleLink l tag d).contexts = d.contexts :=
  (coupleLink_kept (sameBut_closed _ d) l tag d (sameBut_refl _ d)) .contexts (by decide)

@[simp] theorem uncoupleLink_regions (l : Nat) (d : Die) : (uncoupleLink l d).regions = d.regions :=
  (uncoupleLink_kept (sameBut_closed _ d) l d (sameBut_refl _ d)) .regions (by decide)

@[simp] theorem uncoupleLink_ends (l : Nat) (d : Die) : (uncoupleLink l d).ends = d.ends :=
  (uncoupleLink_kept (sameBut_closed _ d) l d (sameBut_refl _ d)) .ends (by decide)

@[simp] theorem uncoupleLink_contexts (l : Nat) (d : Die) : (uncoupleLink l d).contexts = d.contexts :=
  (uncoupleLink_kept (sameBut_closed _ d) l d (sameBut_refl _ d)) .contexts (by decide)

@[simp] theorem cancelRegionWatches_synths (r : Nat) (d : Die) : (cancelRegionWatches r d).synths = d.synths :=
  (cancelRegionWatches_kept (sameBut_closed _ d) r d (sameBut_refl _ d)) .synths (by decide)

@[simp] theorem closeGate_regions (i : Nat) (d : Die) : (closeGate i d).regions = d.regions :=
  (closeGate_kept (sameBut_closed _ d) i d (sameBut_refl _ d)) .regions (by decide)

@[simp] theorem stopBellows_regions (i : Nat) (d : Die) : (stopBellows i d).regions = d.regions :=
  (stopBellows_kept (sameBut_closed _ d) i d (sameBut_refl _ d)) .regions (by decide)

@[simp] theorem stopBellows_synths (i : Nat) (d : Die) : (stopBellows i d).synths = d.synths :=
  (stopBellows_kept (sameBut_closed _ d) i d (sameBut_refl _ d)) .synths (by decide)

@[simp] theorem yokeEnter_store (i cause : Nat) (d : Die) : (yokeEnter i cause d).store = d.store :=
  (yokeEnter_kept (sameBut_closed _ d) i cause d (sameBut_refl _ d)) .store (by decide)

@[simp] theorem startBellows_startup (i : Nat) (d : Die) : (startBellows i d).startup = d.startup :=
  (startBellows_kept (sameBut_closed _ d) i d (sameBut_refl _ d)) .startup (by decide)

@[simp] theorem startBellows_regions (i : Nat) (d : Die) : (startBellows i d).regions = d.regions :=
  (startBellows_kept (sameBut_closed _ d) i d (sameBut_refl _ d)) .regions (by decide)

@[simp] theorem startBellows_synths (i : Nat) (d : Die) : (startBellows i d).synths = d.synths :=
  (startBellows_kept (sameBut_closed _ d) i d (sameBut_refl _ d)) .synths (by decide)

@[simp] theorem regionClockLost_tally (r : Nat) (d : Die) : (regionClockLost r d).tally = d.tally :=
  (regionClockLost_kept (sameBut_closed _ d) r d (sameBut_refl _ d)) .tally (by decide)

@[simp] theorem regionClockLost_clocks (r : Nat) (d : Die) : (regionClockLost r d).clocks = d.clocks :=
  (regionClockLost_kept (sameBut_closed _ d) r d (sameBut_refl _ d)) .clocks (by decide)

@[simp] theorem regionClockLost_startup (r : Nat) (d : Die) : (regionClockLost r d).startup = d.startup :=
  (regionClockLost_kept (sameBut_closed _ d) r d (sameBut_refl _ d)) .startup (by decide)

@[simp] theorem regionClockLost_stop (r : Nat) (d : Die) : (regionClockLost r d).stop = d.stop :=
  (regionClockLost_kept (sameBut_closed _ d) r d (sameBut_refl _ d)) .stop (by decide)

@[simp] theorem regionClockLost_regs (r : Nat) (d : Die) : (regionClockLost r d).regs = d.regs :=
  (regionClockLost_kept (sameBut_closed _ d) r d (sameBut_refl _ d)) .regs (by decide)

@[simp] theorem regionClockLost_chandler (r : Nat) (d : Die) : (regionClockLost r d).chandler = d.chandler :=
  (regionClockLost_kept (sameBut_closed _ d) r d (sameBut_refl _ d)) .chandler (by decide)

@[simp] theorem regionClockLost_store (r : Nat) (d : Die) : (regionClockLost r d).store = d.store :=
  (regionClockLost_kept (sameBut_closed _ d) r d (sameBut_refl _ d)) .store (by decide)

@[simp] theorem regionClockLost_limits (r : Nat) (d : Die) : (regionClockLost r d).limits = d.limits :=
  (regionClockLost_kept (sameBut_closed _ d) r d (sameBut_refl _ d)) .limits (by decide)

@[simp] theorem regionClockLost_regions (r : Nat) (d : Die) : (regionClockLost r d).regions = d.regions :=
  (regionClockLost_kept (sameBut_closed _ d) r d (sameBut_refl _ d)) .regions (by decide)

@[simp] theorem regionClockLost_synths (r : Nat) (d : Die) : (regionClockLost r d).synths = d.synths :=
  (regionClockLost_kept (sameBut_closed _ d) r d (sameBut_refl _ d)) .synths (by decide)

@[simp] theorem regionClockLost_ends (r : Nat) (d : Die) : (regionClockLost r d).ends = d.ends :=
  (regionClockLost_kept (sameBut_closed _ d) r d (sameBut_refl _ d)) .ends (by decide)

@[simp] theorem regionClockLost_lanes (r : Nat) (d : Die) : (regionClockLost r d).lanes = d.lanes :=
  (regionClockLost_kept (sameBut_closed _ d) r d (sameBut_refl _ d)) .lanes (by decide)

@[simp] theorem regionClockLost_links (r : Nat) (d : Die) : (regionClockLost r d).links = d.links :=
  (regionClockLost_kept (sameBut_closed _ d) r d (sameBut_refl _ d)) .links (by decide)

@[simp] theorem regionClockLost_rails (r : Nat) (d : Die) : (regionClockLost r d).rails = d.rails :=
  (regionClockLost_kept (sameBut_closed _ d) r d (sameBut_refl _ d)) .rails (by decide)

@[simp] theorem regionClockLost_sensors (r : Nat) (d : Die) : (regionClockLost r d).sensors = d.sensors :=
  (regionClockLost_kept (sameBut_closed _ d) r d (sameBut_refl _ d)) .sensors (by decide)

@[simp] theorem regionClockLost_watches (r : Nat) (d : Die) : (regionClockLost r d).watches = d.watches :=
  (regionClockLost_kept (sameBut_closed _ d) r d (sameBut_refl _ d)) .watches (by decide)

@[simp] theorem regionClockLost_messages (r : Nat) (d : Die) : (regionClockLost r d).messages = d.messages :=
  (regionClockLost_kept (sameBut_closed _ d) r d (sameBut_refl _ d)) .messages (by decide)

@[simp] theorem regionClockLost_delivered (r : Nat) (d : Die) : (regionClockLost r d).delivered = d.delivered :=
  (regionClockLost_kept (sameBut_closed _ d) r d (sameBut_refl _ d)) .delivered (by decide)

@[simp] theorem regionClockLost_contexts (r : Nat) (d : Die) : (regionClockLost r d).contexts = d.contexts :=
  (regionClockLost_kept (sameBut_closed _ d) r d (sameBut_refl _ d)) .contexts (by decide)

@[simp] theorem regionClockLost_commits (r : Nat) (d : Die) : (regionClockLost r d).commits = d.commits :=
  (regionClockLost_kept (sameBut_closed _ d) r d (sameBut_refl _ d)) .commits (by decide)

@[simp] theorem regionClockLost_commitReqs (r : Nat) (d : Die) : (regionClockLost r d).commitReqs = d.commitReqs :=
  (regionClockLost_kept (sameBut_closed _ d) r d (sameBut_refl _ d)) .commitReqs (by decide)

@[simp] theorem regionClockLost_nextCommit (r : Nat) (d : Die) : (regionClockLost r d).nextCommit = d.nextCommit :=
  (regionClockLost_kept (sameBut_closed _ d) r d (sameBut_refl _ d)) .nextCommit (by decide)

@[simp] theorem regionClockLost_tenants (r : Nat) (d : Die) : (regionClockLost r d).tenants = d.tenants :=
  (regionClockLost_kept (sameBut_closed _ d) r d (sameBut_refl _ d)) .tenants (by decide)

@[simp] theorem regionClockLost_queues (r : Nat) (d : Die) : (regionClockLost r d).queues = d.queues :=
  (regionClockLost_kept (sameBut_closed _ d) r d (sameBut_refl _ d)) .queues (by decide)

@[simp] theorem regionClockLost_sram (r : Nat) (d : Die) : (regionClockLost r d).sram = d.sram :=
  (regionClockLost_kept (sameBut_closed _ d) r d (sameBut_refl _ d)) .sram (by decide)

@[simp] theorem regionClockLost_streams (r : Nat) (d : Die) : (regionClockLost r d).streams = d.streams :=
  (regionClockLost_kept (sameBut_closed _ d) r d (sameBut_refl _ d)) .streams (by decide)

@[simp] theorem regionClockLost_dormant (r : Nat) (d : Die) : (regionClockLost r d).dormant = d.dormant :=
  (regionClockLost_kept (sameBut_closed _ d) r d (sameBut_refl _ d)) .dormant (by decide)

@[simp] theorem regionClockLost_hbm (r : Nat) (d : Die) : (regionClockLost r d).hbm = d.hbm :=
  (regionClockLost_kept (sameBut_closed _ d) r d (sameBut_refl _ d)) .hbm (by decide)

@[simp] theorem regionClockLost_fresh (r : Nat) (d : Die) : (regionClockLost r d).fresh = d.fresh :=
  (regionClockLost_kept (sameBut_closed _ d) r d (sameBut_refl _ d)) .fresh (by decide)

@[simp] theorem regionClockBack_regions (r : Nat) (d : Die) : (regionClockBack r d).regions = d.regions :=
  (regionClockBack_kept (sameBut_closed _ d) r d (sameBut_refl _ d)) .regions (by decide)

@[simp] theorem selectSynth_stop (r sy : Nat) (d : Die) : (selectSynth r sy d).stop = d.stop :=
  (selectSynth_kept (sameBut_closed _ d) r sy d (sameBut_refl _ d)) .stop (by decide)

@[simp] theorem selectSynth_synths (r sy : Nat) (d : Die) : (selectSynth r sy d).synths = d.synths :=
  (selectSynth_kept (sameBut_closed _ d) r sy d (sameBut_refl _ d)) .synths (by decide)

@[simp] theorem deselect_synths (r : Nat) (d : Die) : (deselect r d).synths = d.synths :=
  (deselect_kept (sameBut_closed _ d) r d (sameBut_refl _ d)) .synths (by decide)

@[simp] theorem deselect_commits (r : Nat) (d : Die) : (deselect r d).commits = d.commits :=
  (deselect_kept (sameBut_closed _ d) r d (sameBut_refl _ d)) .commits (by decide)

@[simp] theorem adoptOpp_stop (r k : Nat) (d : Die) : (adoptOpp r k d).stop = d.stop :=
  (adoptOpp_kept (sameBut_closed _ d) r k d (sameBut_refl _ d)) .stop (by decide)

@[simp] theorem adoptOpp_regions (r k : Nat) (d : Die) : (adoptOpp r k d).regions = d.regions :=
  (adoptOpp_kept (sameBut_closed _ d) r k d (sameBut_refl _ d)) .regions (by decide)

@[simp] theorem adoptOpp_synths (r k : Nat) (d : Die) : (adoptOpp r k d).synths = d.synths :=
  (adoptOpp_kept (sameBut_closed _ d) r k d (sameBut_refl _ d)) .synths (by decide)

@[simp] theorem clearRuns_regions (r : Nat) (d : Die) : (clearRuns r d).regions = d.regions :=
  (clearRuns_kept (sameBut_closed _ d) r d (sameBut_refl _ d)) .regions (by decide)

@[simp] theorem certMark_store (r : Nat) (f : CertRegion → CertRegion) (d : Die) : (certMark r f d).store = d.store :=
  (certMark_kept (sameBut_closed _ d) r f d (sameBut_refl _ d)) .store (by decide)

@[simp] theorem certMark_islands (r : Nat) (f : CertRegion → CertRegion) (d : Die) : (certMark r f d).islands = d.islands :=
  (certMark_kept (sameBut_closed _ d) r f d (sameBut_refl _ d)) .islands (by decide)

@[simp] theorem certMark_synths (r : Nat) (f : CertRegion → CertRegion) (d : Die) : (certMark r f d).synths = d.synths :=
  (certMark_kept (sameBut_closed _ d) r f d (sameBut_refl _ d)) .synths (by decide)

@[simp] theorem noteOutside_islands (r : Nat) (d : Die) : (noteOutside r d).islands = d.islands :=
  (noteOutside_kept (sameBut_closed _ d) r d (sameBut_refl _ d)) .islands (by decide)

@[simp] theorem assayRestart_store (r : Nat) (d : Die) : (assayRestart r d).store = d.store :=
  (assayRestart_kept (sameBut_closed _ d) r d (sameBut_refl _ d)) .store (by decide)

@[simp] theorem missedRecord_synths (r : Nat) (d : Die) : (missedRecord r d).synths = d.synths :=
  (missedRecord_kept (sameBut_closed _ d) r d (sameBut_refl _ d)) .synths (by decide)

@[simp] theorem dropFromMasks_synths (r : Nat) (d : Die) : (dropFromMasks r d).synths = d.synths :=
  (dropFromMasks_kept (sameBut_closed _ d) r d (sameBut_refl _ d)) .synths (by decide)

@[simp] theorem testDone_synths (ok : Bool) (d : Die) : (testDone ok d).synths = d.synths :=
  (testDone_kept (sameBut_closed _ d) ok d (sameBut_refl _ d)) .synths (by decide)

@[simp] theorem clockStart_regions (r : Nat) (d : Die) : (clockStart r d).regions = d.regions :=
  (clockStart_kept (sameBut_closed _ d) r d (sameBut_refl _ d)) .regions (by decide)

@[simp] theorem clockStart_synths (r : Nat) (d : Die) : (clockStart r d).synths = d.synths :=
  (clockStart_kept (sameBut_closed _ d) r d (sameBut_refl _ d)) .synths (by decide)

@[simp] theorem setLoan_lanes (l : Nat) (v : Int) (d : Die) : (setLoan l v d).lanes = d.lanes :=
  (setLoan_kept (sameBut_closed _ d) l v d (sameBut_refl _ d)) .lanes (by decide)

@[simp] theorem sendPool_limits (l kind ack amount : Nat) (d : Die) : (sendPool l kind ack amount d).limits = d.limits :=
  (sendPool_kept (sameBut_closed _ d) l kind ack amount d (sameBut_refl _ d)) .limits (by decide)

@[simp] theorem poolRecord_limits (code l amount role : Nat) (d : Die) : (poolRecord code l amount role d).limits = d.limits :=
  (poolRecord_kept (sameBut_closed _ d) code l amount role d (sameBut_refl _ d)) .limits (by decide)

@[simp] theorem poolRecord_links (code l amount role : Nat) (d : Die) : (poolRecord code l amount role d).links = d.links :=
  (poolRecord_kept (sameBut_closed _ d) code l amount role d (sameBut_refl _ d)) .links (by decide)

@[simp] theorem returnLoan_islands (l ack : Nat) (d : Die) : (returnLoan l ack d).islands = d.islands :=
  (returnLoan_kept (sameBut_closed _ d) l ack d (sameBut_refl _ d)) .islands (by decide)

@[simp] theorem returnLoan_regions (l ack : Nat) (d : Die) : (returnLoan l ack d).regions = d.regions :=
  (returnLoan_kept (sameBut_closed _ d) l ack d (sameBut_refl _ d)) .regions (by decide)

@[simp] theorem drainEnd_limits (x : LimitDrain) (d : Die) : (drainEnd x d).limits = d.limits :=
  (drainEnd_kept (sameBut_closed _ d) x d (sameBut_refl _ d)) .limits (by decide)

@[simp] theorem endDrains_islands (d : Die) : (endDrains d).islands = d.islands :=
  (endDrains_kept (sameBut_closed _ d) d (sameBut_refl _ d)) .islands (by decide)

@[simp] theorem endDrains_regions (d : Die) : (endDrains d).regions = d.regions :=
  (endDrains_kept (sameBut_closed _ d) d (sameBut_refl _ d)) .regions (by decide)

@[simp] theorem raiseDie_tally (d : Die) : (raiseDie d).tally = d.tally :=
  (raiseDie_kept (sameBut_closed _ d) d (sameBut_refl _ d)) .tally (by decide)

@[simp] theorem raiseDie_stop (d : Die) : (raiseDie d).stop = d.stop :=
  (raiseDie_kept (sameBut_closed _ d) d (sameBut_refl _ d)) .stop (by decide)

@[simp] theorem railsUp_tally (d : Die) : (railsUp d).tally = d.tally :=
  (railsUp_kept (sameBut_closed _ d) d (sameBut_refl _ d)) .tally (by decide)

@[simp] theorem railsUp_stop (d : Die) : (railsUp d).stop = d.stop :=
  (railsUp_kept (sameBut_closed _ d) d (sameBut_refl _ d)) .stop (by decide)

@[simp] theorem railsUp_regions (d : Die) : (railsUp d).regions = d.regions :=
  (railsUp_kept (sameBut_closed _ d) d (sameBut_refl _ d)) .regions (by decide)

@[simp] theorem railsUp_rails (d : Die) : (railsUp d).rails = d.rails :=
  (railsUp_kept (sameBut_closed _ d) d (sameBut_refl _ d)) .rails (by decide)

@[simp] theorem emitReset_tally (kind phase origin : Nat) (l : Loc) (d : Die) : (emitReset kind phase origin l d).tally = d.tally :=
  (emitReset_kept (sameBut_closed _ d) kind phase origin l d (sameBut_refl _ d)) .tally (by decide)

@[simp] theorem emitReset_clocks (kind phase origin : Nat) (l : Loc) (d : Die) : (emitReset kind phase origin l d).clocks = d.clocks :=
  (emitReset_kept (sameBut_closed _ d) kind phase origin l d (sameBut_refl _ d)) .clocks (by decide)

@[simp] theorem emitReset_startup (kind phase origin : Nat) (l : Loc) (d : Die) : (emitReset kind phase origin l d).startup = d.startup :=
  (emitReset_kept (sameBut_closed _ d) kind phase origin l d (sameBut_refl _ d)) .startup (by decide)

@[simp] theorem emitReset_stop (kind phase origin : Nat) (l : Loc) (d : Die) : (emitReset kind phase origin l d).stop = d.stop :=
  (emitReset_kept (sameBut_closed _ d) kind phase origin l d (sameBut_refl _ d)) .stop (by decide)

@[simp] theorem emitReset_chandler (kind phase origin : Nat) (l : Loc) (d : Die) : (emitReset kind phase origin l d).chandler = d.chandler :=
  (emitReset_kept (sameBut_closed _ d) kind phase origin l d (sameBut_refl _ d)) .chandler (by decide)

@[simp] theorem emitReset_store (kind phase origin : Nat) (l : Loc) (d : Die) : (emitReset kind phase origin l d).store = d.store :=
  (emitReset_kept (sameBut_closed _ d) kind phase origin l d (sameBut_refl _ d)) .store (by decide)

@[simp] theorem emitReset_limits (kind phase origin : Nat) (l : Loc) (d : Die) : (emitReset kind phase origin l d).limits = d.limits :=
  (emitReset_kept (sameBut_closed _ d) kind phase origin l d (sameBut_refl _ d)) .limits (by decide)

@[simp] theorem emitReset_islands (kind phase origin : Nat) (l : Loc) (d : Die) : (emitReset kind phase origin l d).islands = d.islands :=
  (emitReset_kept (sameBut_closed _ d) kind phase origin l d (sameBut_refl _ d)) .islands (by decide)

@[simp] theorem emitReset_regions (kind phase origin : Nat) (l : Loc) (d : Die) : (emitReset kind phase origin l d).regions = d.regions :=
  (emitReset_kept (sameBut_closed _ d) kind phase origin l d (sameBut_refl _ d)) .regions (by decide)

@[simp] theorem emitReset_synths (kind phase origin : Nat) (l : Loc) (d : Die) : (emitReset kind phase origin l d).synths = d.synths :=
  (emitReset_kept (sameBut_closed _ d) kind phase origin l d (sameBut_refl _ d)) .synths (by decide)

@[simp] theorem emitReset_ends (kind phase origin : Nat) (l : Loc) (d : Die) : (emitReset kind phase origin l d).ends = d.ends :=
  (emitReset_kept (sameBut_closed _ d) kind phase origin l d (sameBut_refl _ d)) .ends (by decide)

@[simp] theorem emitReset_lanes (kind phase origin : Nat) (l : Loc) (d : Die) : (emitReset kind phase origin l d).lanes = d.lanes :=
  (emitReset_kept (sameBut_closed _ d) kind phase origin l d (sameBut_refl _ d)) .lanes (by decide)

@[simp] theorem emitReset_links (kind phase origin : Nat) (l : Loc) (d : Die) : (emitReset kind phase origin l d).links = d.links :=
  (emitReset_kept (sameBut_closed _ d) kind phase origin l d (sameBut_refl _ d)) .links (by decide)

@[simp] theorem emitReset_rails (kind phase origin : Nat) (l : Loc) (d : Die) : (emitReset kind phase origin l d).rails = d.rails :=
  (emitReset_kept (sameBut_closed _ d) kind phase origin l d (sameBut_refl _ d)) .rails (by decide)

@[simp] theorem emitReset_sensors (kind phase origin : Nat) (l : Loc) (d : Die) : (emitReset kind phase origin l d).sensors = d.sensors :=
  (emitReset_kept (sameBut_closed _ d) kind phase origin l d (sameBut_refl _ d)) .sensors (by decide)

@[simp] theorem emitReset_watches (kind phase origin : Nat) (l : Loc) (d : Die) : (emitReset kind phase origin l d).watches = d.watches :=
  (emitReset_kept (sameBut_closed _ d) kind phase origin l d (sameBut_refl _ d)) .watches (by decide)

@[simp] theorem emitReset_messages (kind phase origin : Nat) (l : Loc) (d : Die) : (emitReset kind phase origin l d).messages = d.messages :=
  (emitReset_kept (sameBut_closed _ d) kind phase origin l d (sameBut_refl _ d)) .messages (by decide)

@[simp] theorem emitReset_delivered (kind phase origin : Nat) (l : Loc) (d : Die) : (emitReset kind phase origin l d).delivered = d.delivered :=
  (emitReset_kept (sameBut_closed _ d) kind phase origin l d (sameBut_refl _ d)) .delivered (by decide)

@[simp] theorem emitReset_contexts (kind phase origin : Nat) (l : Loc) (d : Die) : (emitReset kind phase origin l d).contexts = d.contexts :=
  (emitReset_kept (sameBut_closed _ d) kind phase origin l d (sameBut_refl _ d)) .contexts (by decide)

@[simp] theorem emitReset_commits (kind phase origin : Nat) (l : Loc) (d : Die) : (emitReset kind phase origin l d).commits = d.commits :=
  (emitReset_kept (sameBut_closed _ d) kind phase origin l d (sameBut_refl _ d)) .commits (by decide)

@[simp] theorem emitReset_commitReqs (kind phase origin : Nat) (l : Loc) (d : Die) : (emitReset kind phase origin l d).commitReqs = d.commitReqs :=
  (emitReset_kept (sameBut_closed _ d) kind phase origin l d (sameBut_refl _ d)) .commitReqs (by decide)

@[simp] theorem emitReset_nextCommit (kind phase origin : Nat) (l : Loc) (d : Die) : (emitReset kind phase origin l d).nextCommit = d.nextCommit :=
  (emitReset_kept (sameBut_closed _ d) kind phase origin l d (sameBut_refl _ d)) .nextCommit (by decide)

@[simp] theorem emitReset_tenants (kind phase origin : Nat) (l : Loc) (d : Die) : (emitReset kind phase origin l d).tenants = d.tenants :=
  (emitReset_kept (sameBut_closed _ d) kind phase origin l d (sameBut_refl _ d)) .tenants (by decide)

@[simp] theorem emitReset_queues (kind phase origin : Nat) (l : Loc) (d : Die) : (emitReset kind phase origin l d).queues = d.queues :=
  (emitReset_kept (sameBut_closed _ d) kind phase origin l d (sameBut_refl _ d)) .queues (by decide)

@[simp] theorem emitReset_sram (kind phase origin : Nat) (l : Loc) (d : Die) : (emitReset kind phase origin l d).sram = d.sram :=
  (emitReset_kept (sameBut_closed _ d) kind phase origin l d (sameBut_refl _ d)) .sram (by decide)

@[simp] theorem emitReset_streams (kind phase origin : Nat) (l : Loc) (d : Die) : (emitReset kind phase origin l d).streams = d.streams :=
  (emitReset_kept (sameBut_closed _ d) kind phase origin l d (sameBut_refl _ d)) .streams (by decide)

@[simp] theorem emitReset_dormant (kind phase origin : Nat) (l : Loc) (d : Die) : (emitReset kind phase origin l d).dormant = d.dormant :=
  (emitReset_kept (sameBut_closed _ d) kind phase origin l d (sameBut_refl _ d)) .dormant (by decide)

@[simp] theorem emitReset_hbm (kind phase origin : Nat) (l : Loc) (d : Die) : (emitReset kind phase origin l d).hbm = d.hbm :=
  (emitReset_kept (sameBut_closed _ d) kind phase origin l d (sameBut_refl _ d)) .hbm (by decide)

@[simp] theorem emitReset_fresh (kind phase origin : Nat) (l : Loc) (d : Die) : (emitReset kind phase origin l d).fresh = d.fresh :=
  (emitReset_kept (sameBut_closed _ d) kind phase origin l d (sameBut_refl _ d)) .fresh (by decide)

@[simp] theorem settingsDefaulted_tally (kind : Nat) (d : Die) : (settingsDefaulted kind d).tally = d.tally :=
  (settingsDefaulted_kept (sameBut_closed _ d) kind d (sameBut_refl _ d)) .tally (by decide)

@[simp] theorem settingsDefaulted_clocks (kind : Nat) (d : Die) : (settingsDefaulted kind d).clocks = d.clocks :=
  (settingsDefaulted_kept (sameBut_closed _ d) kind d (sameBut_refl _ d)) .clocks (by decide)

@[simp] theorem settingsDefaulted_startup (kind : Nat) (d : Die) : (settingsDefaulted kind d).startup = d.startup :=
  (settingsDefaulted_kept (sameBut_closed _ d) kind d (sameBut_refl _ d)) .startup (by decide)

@[simp] theorem settingsDefaulted_stop (kind : Nat) (d : Die) : (settingsDefaulted kind d).stop = d.stop :=
  (settingsDefaulted_kept (sameBut_closed _ d) kind d (sameBut_refl _ d)) .stop (by decide)

@[simp] theorem settingsDefaulted_chandler (kind : Nat) (d : Die) : (settingsDefaulted kind d).chandler = d.chandler :=
  (settingsDefaulted_kept (sameBut_closed _ d) kind d (sameBut_refl _ d)) .chandler (by decide)

@[simp] theorem settingsDefaulted_store (kind : Nat) (d : Die) : (settingsDefaulted kind d).store = d.store :=
  (settingsDefaulted_kept (sameBut_closed _ d) kind d (sameBut_refl _ d)) .store (by decide)

@[simp] theorem settingsDefaulted_limits (kind : Nat) (d : Die) : (settingsDefaulted kind d).limits = d.limits :=
  (settingsDefaulted_kept (sameBut_closed _ d) kind d (sameBut_refl _ d)) .limits (by decide)

@[simp] theorem settingsDefaulted_islands (kind : Nat) (d : Die) : (settingsDefaulted kind d).islands = d.islands :=
  (settingsDefaulted_kept (sameBut_closed _ d) kind d (sameBut_refl _ d)) .islands (by decide)

@[simp] theorem settingsDefaulted_regions (kind : Nat) (d : Die) : (settingsDefaulted kind d).regions = d.regions :=
  (settingsDefaulted_kept (sameBut_closed _ d) kind d (sameBut_refl _ d)) .regions (by decide)

@[simp] theorem settingsDefaulted_synths (kind : Nat) (d : Die) : (settingsDefaulted kind d).synths = d.synths :=
  (settingsDefaulted_kept (sameBut_closed _ d) kind d (sameBut_refl _ d)) .synths (by decide)

@[simp] theorem settingsDefaulted_ends (kind : Nat) (d : Die) : (settingsDefaulted kind d).ends = d.ends :=
  (settingsDefaulted_kept (sameBut_closed _ d) kind d (sameBut_refl _ d)) .ends (by decide)

@[simp] theorem settingsDefaulted_lanes (kind : Nat) (d : Die) : (settingsDefaulted kind d).lanes = d.lanes :=
  (settingsDefaulted_kept (sameBut_closed _ d) kind d (sameBut_refl _ d)) .lanes (by decide)

@[simp] theorem settingsDefaulted_links (kind : Nat) (d : Die) : (settingsDefaulted kind d).links = d.links :=
  (settingsDefaulted_kept (sameBut_closed _ d) kind d (sameBut_refl _ d)) .links (by decide)

@[simp] theorem settingsDefaulted_rails (kind : Nat) (d : Die) : (settingsDefaulted kind d).rails = d.rails :=
  (settingsDefaulted_kept (sameBut_closed _ d) kind d (sameBut_refl _ d)) .rails (by decide)

@[simp] theorem settingsDefaulted_sensors (kind : Nat) (d : Die) : (settingsDefaulted kind d).sensors = d.sensors :=
  (settingsDefaulted_kept (sameBut_closed _ d) kind d (sameBut_refl _ d)) .sensors (by decide)

@[simp] theorem settingsDefaulted_watches (kind : Nat) (d : Die) : (settingsDefaulted kind d).watches = d.watches :=
  (settingsDefaulted_kept (sameBut_closed _ d) kind d (sameBut_refl _ d)) .watches (by decide)

@[simp] theorem settingsDefaulted_messages (kind : Nat) (d : Die) : (settingsDefaulted kind d).messages = d.messages :=
  (settingsDefaulted_kept (sameBut_closed _ d) kind d (sameBut_refl _ d)) .messages (by decide)

@[simp] theorem settingsDefaulted_delivered (kind : Nat) (d : Die) : (settingsDefaulted kind d).delivered = d.delivered :=
  (settingsDefaulted_kept (sameBut_closed _ d) kind d (sameBut_refl _ d)) .delivered (by decide)

@[simp] theorem settingsDefaulted_contexts (kind : Nat) (d : Die) : (settingsDefaulted kind d).contexts = d.contexts :=
  (settingsDefaulted_kept (sameBut_closed _ d) kind d (sameBut_refl _ d)) .contexts (by decide)

@[simp] theorem settingsDefaulted_commits (kind : Nat) (d : Die) : (settingsDefaulted kind d).commits = d.commits :=
  (settingsDefaulted_kept (sameBut_closed _ d) kind d (sameBut_refl _ d)) .commits (by decide)

@[simp] theorem settingsDefaulted_commitReqs (kind : Nat) (d : Die) : (settingsDefaulted kind d).commitReqs = d.commitReqs :=
  (settingsDefaulted_kept (sameBut_closed _ d) kind d (sameBut_refl _ d)) .commitReqs (by decide)

@[simp] theorem settingsDefaulted_nextCommit (kind : Nat) (d : Die) : (settingsDefaulted kind d).nextCommit = d.nextCommit :=
  (settingsDefaulted_kept (sameBut_closed _ d) kind d (sameBut_refl _ d)) .nextCommit (by decide)

@[simp] theorem settingsDefaulted_tenants (kind : Nat) (d : Die) : (settingsDefaulted kind d).tenants = d.tenants :=
  (settingsDefaulted_kept (sameBut_closed _ d) kind d (sameBut_refl _ d)) .tenants (by decide)

@[simp] theorem settingsDefaulted_queues (kind : Nat) (d : Die) : (settingsDefaulted kind d).queues = d.queues :=
  (settingsDefaulted_kept (sameBut_closed _ d) kind d (sameBut_refl _ d)) .queues (by decide)

@[simp] theorem settingsDefaulted_sram (kind : Nat) (d : Die) : (settingsDefaulted kind d).sram = d.sram :=
  (settingsDefaulted_kept (sameBut_closed _ d) kind d (sameBut_refl _ d)) .sram (by decide)

@[simp] theorem settingsDefaulted_streams (kind : Nat) (d : Die) : (settingsDefaulted kind d).streams = d.streams :=
  (settingsDefaulted_kept (sameBut_closed _ d) kind d (sameBut_refl _ d)) .streams (by decide)

@[simp] theorem settingsDefaulted_dormant (kind : Nat) (d : Die) : (settingsDefaulted kind d).dormant = d.dormant :=
  (settingsDefaulted_kept (sameBut_closed _ d) kind d (sameBut_refl _ d)) .dormant (by decide)

@[simp] theorem settingsDefaulted_hbm (kind : Nat) (d : Die) : (settingsDefaulted kind d).hbm = d.hbm :=
  (settingsDefaulted_kept (sameBut_closed _ d) kind d (sameBut_refl _ d)) .hbm (by decide)

@[simp] theorem settingsDefaulted_fresh (kind : Nat) (d : Die) : (settingsDefaulted kind d).fresh = d.fresh :=
  (settingsDefaulted_kept (sameBut_closed _ d) kind d (sameBut_refl _ d)) .fresh (by decide)

@[simp] theorem chooseParent_lanes (d : Die) : (chooseParent d).lanes = d.lanes :=
  (chooseParent_kept (sameBut_closed _ d) d (sameBut_refl _ d)) .lanes (by decide)

@[simp] theorem chooseParent_links (d : Die) : (chooseParent d).links = d.links :=
  (chooseParent_kept (sameBut_closed _ d) d (sameBut_refl _ d)) .links (by decide)

@[simp] theorem considerPartner_startup (l : Nat) (d : Die) : (considerPartner l d).startup = d.startup :=
  (considerPartner_kept (sameBut_closed _ d) l d (sameBut_refl _ d)) .startup (by decide)

@[simp] theorem considerPartner_links (l : Nat) (d : Die) : (considerPartner l d).links = d.links :=
  (considerPartner_kept (sameBut_closed _ d) l d (sameBut_refl _ d)) .links (by decide)

@[simp] theorem validFrame_tally (l : Nat) (d : Die) : (validFrame l d).tally = d.tally :=
  (validFrame_kept (sameBut_closed _ d) l d (sameBut_refl _ d)) .tally (by decide)

@[simp] theorem validFrame_startup (l : Nat) (d : Die) : (validFrame l d).startup = d.startup :=
  (validFrame_kept (sameBut_closed _ d) l d (sameBut_refl _ d)) .startup (by decide)

@[simp] theorem validFrame_chandler (l : Nat) (d : Die) : (validFrame l d).chandler = d.chandler :=
  (validFrame_kept (sameBut_closed _ d) l d (sameBut_refl _ d)) .chandler (by decide)

@[simp] theorem validFrame_limits (l : Nat) (d : Die) : (validFrame l d).limits = d.limits :=
  (validFrame_kept (sameBut_closed _ d) l d (sameBut_refl _ d)) .limits (by decide)

@[simp] theorem tallyStep_links (by_ : Int) (epoch cause : Nat) (d : Die) : (tallyStep by_ epoch cause d).links = d.links :=
  (tallyStep_kept (sameBut_closed _ d) by_ epoch cause d (sameBut_refl _ d)) .links (by decide)

@[simp] theorem recheckAll_regions (i : Nat) (obs : RingObs) (d : Die) : (recheckAll i obs d).regions = d.regions :=
  (recheckAll_kept (sameBut_closed _ d) i obs d (sameBut_refl _ d)) .regions (by decide)

@[simp] theorem recheckAll_ends (i : Nat) (obs : RingObs) (d : Die) : (recheckAll i obs d).ends = d.ends :=
  (recheckAll_kept (sameBut_closed _ d) i obs d (sameBut_refl _ d)) .ends (by decide)

@[simp] theorem compare_regions (i : Nat) (obs : RingObs) (d : Die) : (compare i obs d).regions = d.regions :=
  (compare_kept (sameBut_closed _ d) i obs d (sameBut_refl _ d)) .regions (by decide)

@[simp] theorem compare_ends (i : Nat) (obs : RingObs) (d : Die) : (compare i obs d).ends = d.ends :=
  (compare_kept (sameBut_closed _ d) i obs d (sameBut_refl _ d)) .ends (by decide)

@[simp] theorem sampleToken_islands (dOwn : Nat) (k : Nat) (tok : Option Nat) (d : Die) : (sampleToken dOwn k tok d).islands = d.islands :=
  (sampleToken_kept (sameBut_closed _ d) dOwn k tok d (sameBut_refl _ d)) .islands (by decide)

@[simp] theorem sampleTokens_regions (i : Nat) (toks : List (Option Nat)) (d : Die) : (sampleTokens i toks d).regions = d.regions :=
  (sampleTokens_kept (sameBut_closed _ d) i toks d (sameBut_refl _ d)) .regions (by decide)

@[simp] theorem crossingRecord_islands (code i kind : Nat) (u : LaneUse) (d : Die) : (crossingRecord code i kind u d).islands = d.islands :=
  (crossingRecord_kept (sameBut_closed _ d) code i kind u d (sameBut_refl _ d)) .islands (by decide)

@[simp] theorem ageLanes_islands (i : Nat) (d : Die) : (ageLanes i d).islands = d.islands :=
  (ageLanes_kept (sameBut_closed _ d) i d (sameBut_refl _ d)) .islands (by decide)

@[simp] theorem ageLanes_regions (i : Nat) (d : Die) : (ageLanes i d).regions = d.regions :=
  (ageLanes_kept (sameBut_closed _ d) i d (sameBut_refl _ d)) .regions (by decide)

@[simp] theorem ageLanes_ends (i : Nat) (d : Die) : (ageLanes i d).ends = d.ends :=
  (ageLanes_kept (sameBut_closed _ d) i d (sameBut_refl _ d)) .ends (by decide)

@[simp] theorem starvedSlot_islands (i : Nat) (d : Die) : (starvedSlot i d).islands = d.islands :=
  (starvedSlot_kept (sameBut_closed _ d) i d (sameBut_refl _ d)) .islands (by decide)

@[simp] theorem periodAccounts_regions (i len : Nat) (d : Die) : (periodAccounts i len d).regions = d.regions :=
  (periodAccounts_kept (sameBut_closed _ d) i len d (sameBut_refl _ d)) .regions (by decide)

@[simp] theorem periodAccounts_ends (i len : Nat) (d : Die) : (periodAccounts i len d).ends = d.ends :=
  (periodAccounts_kept (sameBut_closed _ d) i len d (sameBut_refl _ d)) .ends (by decide)

@[simp] theorem linkStaleEnd_tally (l : Nat) (d : Die) : (linkStaleEnd l d).tally = d.tally :=
  (linkStaleEnd_kept (sameBut_closed _ d) l d (sameBut_refl _ d)) .tally (by decide)

@[simp] theorem linkStaleEnd_limits (l : Nat) (d : Die) : (linkStaleEnd l d).limits = d.limits :=
  (linkStaleEnd_kept (sameBut_closed _ d) l d (sameBut_refl _ d)) .limits (by decide)

@[simp] theorem staleRecord_ends (i e : Nat) (d : Die) : (staleRecord i e d).ends = d.ends :=
  (staleRecord_kept (sameBut_closed _ d) i e d (sameBut_refl _ d)) .ends (by decide)

@[simp] theorem staleRecord_links (i e : Nat) (d : Die) : (staleRecord i e d).links = d.links :=
  (staleRecord_kept (sameBut_closed _ d) i e d (sameBut_refl _ d)) .links (by decide)

@[simp] theorem poolLost_tally (l cause : Nat) (d : Die) : (poolLost l cause d).tally = d.tally :=
  (poolLost_kept (sameBut_closed _ d) l cause d (sameBut_refl _ d)) .tally (by decide)

@[simp] theorem retrainRecord_islands (l : Loc) (phase us : Nat) (d : Die) : (retrainRecord l phase us d).islands = d.islands :=
  (retrainRecord_kept (sameBut_closed _ d) l phase us d (sameBut_refl _ d)) .islands (by decide)

@[simp] theorem retrainRecord_lanes (l : Loc) (phase us : Nat) (d : Die) : (retrainRecord l phase us d).lanes = d.lanes :=
  (retrainRecord_kept (sameBut_closed _ d) l phase us d (sameBut_refl _ d)) .lanes (by decide)

@[simp] theorem retrainRecord_links (l : Loc) (phase us : Nat) (d : Die) : (retrainRecord l phase us d).links = d.links :=
  (retrainRecord_kept (sameBut_closed _ d) l phase us d (sameBut_refl _ d)) .links (by decide)

@[simp] theorem retrainRecord_hbm (l : Loc) (phase us : Nat) (d : Die) : (retrainRecord l phase us d).hbm = d.hbm :=
  (retrainRecord_kept (sameBut_closed _ d) l phase us d (sameBut_refl _ d)) .hbm (by decide)

@[simp] theorem pauseEnd_stop (r : Nat) (d : Die) : (pauseEnd r d).stop = d.stop :=
  (pauseEnd_kept (sameBut_closed _ d) r d (sameBut_refl _ d)) .stop (by decide)

@[simp] theorem pauseEnd_islands (r : Nat) (d : Die) : (pauseEnd r d).islands = d.islands :=
  (pauseEnd_kept (sameBut_closed _ d) r d (sameBut_refl _ d)) .islands (by decide)

@[simp] theorem marginRequest_islands (r i : Nat) (d : Die) : (marginRequest r i d).islands = d.islands :=
  (marginRequest_kept (sameBut_closed _ d) r i d (sameBut_refl _ d)) .islands (by decide)

@[simp] theorem clearStep_regions (i : Nat) (d : Die) : (clearStep i d).regions = d.regions :=
  (clearStep_kept (sameBut_closed _ d) i d (sameBut_refl _ d)) .regions (by decide)

@[simp] theorem patternGrant_commits (c : Commit) (late regrant : Bool) (deferred : RegionSet) (d : Die) : (patternGrant c late regrant deferred d).commits = d.commits :=
  (patternGrant_kept (sameBut_closed _ d) c late regrant deferred d (sameBut_refl _ d)) .commits (by decide)

@[simp] theorem pauseIslands_stop (r k t : Nat) (d : Die) : (pauseIslands r k t d).stop = d.stop :=
  (pauseIslands_kept (sameBut_closed _ d) r k t d (sameBut_refl _ d)) .stop (by decide)

@[simp] theorem pauseIslands_regions (r k t : Nat) (d : Die) : (pauseIslands r k t d).regions = d.regions :=
  (pauseIslands_kept (sameBut_closed _ d) r k t d (sameBut_refl _ d)) .regions (by decide)

@[simp] theorem pauseIslands_synths (r k t : Nat) (d : Die) : (pauseIslands r k t d).synths = d.synths :=
  (pauseIslands_kept (sameBut_closed _ d) r k t d (sameBut_refl _ d)) .synths (by decide)

@[simp] theorem memberSwitched_stop (c : Commit) (r : Nat) (offset : Int) (d : Die) : (memberSwitched c r offset d).stop = d.stop :=
  (memberSwitched_kept (sameBut_closed _ d) c r offset d (sameBut_refl _ d)) .stop (by decide)

@[simp] theorem retirePass_islands (c : Nat) (d : Die) : (retirePass c d).islands = d.islands :=
  (retirePass_kept (sameBut_closed _ d) c d (sameBut_refl _ d)) .islands (by decide)

@[simp] theorem missedEnd_store (r : Nat) (d : Die) : (missedEnd r d).store = d.store :=
  (missedEnd_kept (sameBut_closed _ d) r d (sameBut_refl _ d)) .store (by decide)

@[simp] theorem uncoupleBorders_regions (r : Nat) (d : Die) : (uncoupleBorders r d).regions = d.regions :=
  (uncoupleBorders_kept (sameBut_closed _ d) r d (sameBut_refl _ d)) .regions (by decide)

@[simp] theorem moveRegion_limits (r : Nat) (d : Die) : (moveRegion r d).limits = d.limits :=
  (moveRegion_kept (sameBut_closed _ d) r d (sameBut_refl _ d)) .limits (by decide)

@[simp] theorem chargeRail_startup (k dyn leak cal : Nat) (d : Die) : (chargeRail k dyn leak cal d).startup = d.startup :=
  (chargeRail_kept (sameBut_closed _ d) k dyn leak cal d (sameBut_refl _ d)) .startup (by decide)

@[simp] theorem chargeRail_store (k dyn leak cal : Nat) (d : Die) : (chargeRail k dyn leak cal d).store = d.store :=
  (chargeRail_kept (sameBut_closed _ d) k dyn leak cal d (sameBut_refl _ d)) .store (by decide)

@[simp] theorem chargeRail_limits (k dyn leak cal : Nat) (d : Die) : (chargeRail k dyn leak cal d).limits = d.limits :=
  (chargeRail_kept (sameBut_closed _ d) k dyn leak cal d (sameBut_refl _ d)) .limits (by decide)

@[simp] theorem chargeRail_regions (k dyn leak cal : Nat) (d : Die) : (chargeRail k dyn leak cal d).regions = d.regions :=
  (chargeRail_kept (sameBut_closed _ d) k dyn leak cal d (sameBut_refl _ d)) .regions (by decide)

@[simp] theorem creditOwners_startup (r : Nat) (f : Figures) (hops : List Nat) (d : Die) : (creditOwners r f hops d).startup = d.startup :=
  (creditOwners_kept (sameBut_closed _ d) r f hops d (sameBut_refl _ d)) .startup (by decide)

@[simp] theorem creditOwners_store (r : Nat) (f : Figures) (hops : List Nat) (d : Die) : (creditOwners r f hops d).store = d.store :=
  (creditOwners_kept (sameBut_closed _ d) r f hops d (sameBut_refl _ d)) .store (by decide)

@[simp] theorem creditOwners_limits (r : Nat) (f : Figures) (hops : List Nat) (d : Die) : (creditOwners r f hops d).limits = d.limits :=
  (creditOwners_kept (sameBut_closed _ d) r f hops d (sameBut_refl _ d)) .limits (by decide)

@[simp] theorem creditOwners_regions (r : Nat) (f : Figures) (hops : List Nat) (d : Die) : (creditOwners r f hops d).regions = d.regions :=
  (creditOwners_kept (sameBut_closed _ d) r f hops d (sameBut_refl _ d)) .regions (by decide)

@[simp] theorem creditOwners_rails (r : Nat) (f : Figures) (hops : List Nat) (d : Die) : (creditOwners r f hops d).rails = d.rails :=
  (creditOwners_kept (sameBut_closed _ d) r f hops d (sameBut_refl _ d)) .rails (by decide)

@[simp] theorem creditUpdate_regions (e : Nat) (d : Die) : (creditUpdate e d).regions = d.regions :=
  (creditUpdate_kept (sameBut_closed _ d) e d (sameBut_refl _ d)) .regions (by decide)

@[simp] theorem railWindowEnd_tally (k : Nat) (d : Die) : (railWindowEnd k d).tally = d.tally :=
  (railWindowEnd_kept (sameBut_closed _ d) k d (sameBut_refl _ d)) .tally (by decide)

@[simp] theorem railWindowEnd_startup (k : Nat) (d : Die) : (railWindowEnd k d).startup = d.startup :=
  (railWindowEnd_kept (sameBut_closed _ d) k d (sameBut_refl _ d)) .startup (by decide)

@[simp] theorem railWindowEnd_chandler (k : Nat) (d : Die) : (railWindowEnd k d).chandler = d.chandler :=
  (railWindowEnd_kept (sameBut_closed _ d) k d (sameBut_refl _ d)) .chandler (by decide)

@[simp] theorem railWindowEnd_store (k : Nat) (d : Die) : (railWindowEnd k d).store = d.store :=
  (railWindowEnd_kept (sameBut_closed _ d) k d (sameBut_refl _ d)) .store (by decide)

@[simp] theorem updateApply_tally (k : Nat) (d : Die) : (updateApply k d).tally = d.tally :=
  (updateApply_kept (sameBut_closed _ d) k d (sameBut_refl _ d)) .tally (by decide)

@[simp] theorem lowerCeiling_limits (j v r : Nat) (d : Die) : (lowerCeiling j v r d).limits = d.limits :=
  (lowerCeiling_kept (sameBut_closed _ d) j v r d (sameBut_refl _ d)) .limits (by decide)

@[simp] theorem closeDrain_regions (x : LimitDrain) (d : Die) : (closeDrain x d).regions = d.regions :=
  (closeDrain_kept (sameBut_closed _ d) x d (sameBut_refl _ d)) .regions (by decide)

@[simp] theorem raiseCeiling_limits (quiet acted : Bool) (j r : Nat) (d : Die) : (raiseCeiling quiet acted j r d).limits = d.limits :=
  (raiseCeiling_kept (sameBut_closed _ d) quiet acted j r d (sameBut_refl _ d)) .limits (by decide)

@[simp] theorem alertEvent_startup (k phase kind word : Nat) (d : Die) : (alertEvent k phase kind word d).startup = d.startup :=
  (alertEvent_kept (sameBut_closed _ d) k phase kind word d (sameBut_refl _ d)) .startup (by decide)

@[simp] theorem alertEvent_regions (k phase kind word : Nat) (d : Die) : (alertEvent k phase kind word d).regions = d.regions :=
  (alertEvent_kept (sameBut_closed _ d) k phase kind word d (sameBut_refl _ d)) .regions (by decide)

@[simp] theorem alertEvent_rails (k phase kind word : Nat) (d : Die) : (alertEvent k phase kind word d).rails = d.rails :=
  (alertEvent_kept (sameBut_closed _ d) k phase kind word d (sameBut_refl _ d)) .rails (by decide)

@[simp] theorem setVrm_rails (slot r : Nat) (v : Option Nat) (d : Die) : (setVrm slot r v d).rails = d.rails :=
  (setVrm_kept (sameBut_closed _ d) slot r v d (sameBut_refl _ d)) .rails (by decide)

@[simp] theorem phaseRails_store (d : Die) : (phaseRails d).store = d.store :=
  (phaseRails_kept (sameBut_closed _ d) d (sameBut_refl _ d)) .store (by decide)

@[simp] theorem commandTurn_store (before after : Assay) (d : Die) : (commandTurn before after d).store = d.store :=
  (commandTurn_kept (sameBut_closed _ d) before after d (sameBut_refl _ d)) .store (by decide)

@[simp] theorem powerUpAssay_startup (d : Die) : (powerUpAssay d).startup = d.startup :=
  (powerUpAssay_kept (sameBut_closed _ d) d (sameBut_refl _ d)) .startup (by decide)

@[simp] theorem sensorFlags_store (c : Calib) (n : Nat) (d : Die) : (sensorFlags c n d).store = d.store :=
  (sensorFlags_kept (sameBut_closed _ d) c n d (sameBut_refl _ d)) .store (by decide)

@[simp] theorem loadStore_tally (seen : StartupInput) (d : Die) : (loadStore seen d).tally = d.tally :=
  (loadStore_kept (sameBut_closed _ d) seen d (sameBut_refl _ d)) .tally (by decide)

@[simp] theorem loadStore_startup (seen : StartupInput) (d : Die) : (loadStore seen d).startup = d.startup :=
  (loadStore_kept (sameBut_closed _ d) seen d (sameBut_refl _ d)) .startup (by decide)

@[simp] theorem loadStore_stop (seen : StartupInput) (d : Die) : (loadStore seen d).stop = d.stop :=
  (loadStore_kept (sameBut_closed _ d) seen d (sameBut_refl _ d)) .stop (by decide)

@[simp] theorem loadStore_regs (seen : StartupInput) (d : Die) : (loadStore seen d).regs = d.regs :=
  (loadStore_kept (sameBut_closed _ d) seen d (sameBut_refl _ d)) .regs (by decide)

@[simp] theorem loadStore_chandler (seen : StartupInput) (d : Die) : (loadStore seen d).chandler = d.chandler :=
  (loadStore_kept (sameBut_closed _ d) seen d (sameBut_refl _ d)) .chandler (by decide)

@[simp] theorem loadStore_limits (seen : StartupInput) (d : Die) : (loadStore seen d).limits = d.limits :=
  (loadStore_kept (sameBut_closed _ d) seen d (sameBut_refl _ d)) .limits (by decide)

@[simp] theorem loadStore_ends (seen : StartupInput) (d : Die) : (loadStore seen d).ends = d.ends :=
  (loadStore_kept (sameBut_closed _ d) seen d (sameBut_refl _ d)) .ends (by decide)

@[simp] theorem loadStore_lanes (seen : StartupInput) (d : Die) : (loadStore seen d).lanes = d.lanes :=
  (loadStore_kept (sameBut_closed _ d) seen d (sameBut_refl _ d)) .lanes (by decide)

@[simp] theorem loadStore_links (seen : StartupInput) (d : Die) : (loadStore seen d).links = d.links :=
  (loadStore_kept (sameBut_closed _ d) seen d (sameBut_refl _ d)) .links (by decide)

@[simp] theorem loadStore_watches (seen : StartupInput) (d : Die) : (loadStore seen d).watches = d.watches :=
  (loadStore_kept (sameBut_closed _ d) seen d (sameBut_refl _ d)) .watches (by decide)

@[simp] theorem loadStore_messages (seen : StartupInput) (d : Die) : (loadStore seen d).messages = d.messages :=
  (loadStore_kept (sameBut_closed _ d) seen d (sameBut_refl _ d)) .messages (by decide)

@[simp] theorem loadStore_delivered (seen : StartupInput) (d : Die) : (loadStore seen d).delivered = d.delivered :=
  (loadStore_kept (sameBut_closed _ d) seen d (sameBut_refl _ d)) .delivered (by decide)

@[simp] theorem loadStore_contexts (seen : StartupInput) (d : Die) : (loadStore seen d).contexts = d.contexts :=
  (loadStore_kept (sameBut_closed _ d) seen d (sameBut_refl _ d)) .contexts (by decide)

@[simp] theorem loadStore_commits (seen : StartupInput) (d : Die) : (loadStore seen d).commits = d.commits :=
  (loadStore_kept (sameBut_closed _ d) seen d (sameBut_refl _ d)) .commits (by decide)

@[simp] theorem loadStore_commitReqs (seen : StartupInput) (d : Die) : (loadStore seen d).commitReqs = d.commitReqs :=
  (loadStore_kept (sameBut_closed _ d) seen d (sameBut_refl _ d)) .commitReqs (by decide)

@[simp] theorem loadStore_nextCommit (seen : StartupInput) (d : Die) : (loadStore seen d).nextCommit = d.nextCommit :=
  (loadStore_kept (sameBut_closed _ d) seen d (sameBut_refl _ d)) .nextCommit (by decide)

@[simp] theorem loadStore_tenants (seen : StartupInput) (d : Die) : (loadStore seen d).tenants = d.tenants :=
  (loadStore_kept (sameBut_closed _ d) seen d (sameBut_refl _ d)) .tenants (by decide)

@[simp] theorem loadStore_queues (seen : StartupInput) (d : Die) : (loadStore seen d).queues = d.queues :=
  (loadStore_kept (sameBut_closed _ d) seen d (sameBut_refl _ d)) .queues (by decide)

@[simp] theorem loadStore_sram (seen : StartupInput) (d : Die) : (loadStore seen d).sram = d.sram :=
  (loadStore_kept (sameBut_closed _ d) seen d (sameBut_refl _ d)) .sram (by decide)

@[simp] theorem loadStore_streams (seen : StartupInput) (d : Die) : (loadStore seen d).streams = d.streams :=
  (loadStore_kept (sameBut_closed _ d) seen d (sameBut_refl _ d)) .streams (by decide)

@[simp] theorem loadStore_dormant (seen : StartupInput) (d : Die) : (loadStore seen d).dormant = d.dormant :=
  (loadStore_kept (sameBut_closed _ d) seen d (sameBut_refl _ d)) .dormant (by decide)

@[simp] theorem loadStore_hbm (seen : StartupInput) (d : Die) : (loadStore seen d).hbm = d.hbm :=
  (loadStore_kept (sameBut_closed _ d) seen d (sameBut_refl _ d)) .hbm (by decide)

@[simp] theorem loadStore_fresh (seen : StartupInput) (d : Die) : (loadStore seen d).fresh = d.fresh :=
  (loadStore_kept (sameBut_closed _ d) seen d (sameBut_refl _ d)) .fresh (by decide)

@[simp] theorem abandonWrite_tally (d : Die) : (abandonWrite d).tally = d.tally :=
  (abandonWrite_kept (sameBut_closed _ d) d (sameBut_refl _ d)) .tally (by decide)

@[simp] theorem chandlerInt_tally (d : Die) : (chandlerInt d).tally = d.tally :=
  (chandlerInt_kept (sameBut_closed _ d) d (sameBut_refl _ d)) .tally (by decide)

@[simp] theorem takeoverAssay_chandler (d : Die) : (takeoverAssay d).chandler = d.chandler :=
  (takeoverAssay_kept (sameBut_closed _ d) d (sameBut_refl _ d)) .chandler (by decide)

@[simp] theorem takeoverAssay_queues (d : Die) : (takeoverAssay d).queues = d.queues :=
  (takeoverAssay_kept (sameBut_closed _ d) d (sameBut_refl _ d)) .queues (by decide)

@[simp] theorem trayRecord_tally (code : Nat) (d : Die) : (trayRecord code d).tally = d.tally :=
  (trayRecord_kept (sameBut_closed _ d) code d (sameBut_refl _ d)) .tally (by decide)

@[simp] theorem trayRecord_clocks (code : Nat) (d : Die) : (trayRecord code d).clocks = d.clocks :=
  (trayRecord_kept (sameBut_closed _ d) code d (sameBut_refl _ d)) .clocks (by decide)

@[simp] theorem trayRecord_startup (code : Nat) (d : Die) : (trayRecord code d).startup = d.startup :=
  (trayRecord_kept (sameBut_closed _ d) code d (sameBut_refl _ d)) .startup (by decide)

@[simp] theorem trayRecord_stop (code : Nat) (d : Die) : (trayRecord code d).stop = d.stop :=
  (trayRecord_kept (sameBut_closed _ d) code d (sameBut_refl _ d)) .stop (by decide)

@[simp] theorem trayRecord_chandler (code : Nat) (d : Die) : (trayRecord code d).chandler = d.chandler :=
  (trayRecord_kept (sameBut_closed _ d) code d (sameBut_refl _ d)) .chandler (by decide)

@[simp] theorem trayRecord_store (code : Nat) (d : Die) : (trayRecord code d).store = d.store :=
  (trayRecord_kept (sameBut_closed _ d) code d (sameBut_refl _ d)) .store (by decide)

@[simp] theorem trayRecord_limits (code : Nat) (d : Die) : (trayRecord code d).limits = d.limits :=
  (trayRecord_kept (sameBut_closed _ d) code d (sameBut_refl _ d)) .limits (by decide)

@[simp] theorem trayRecord_islands (code : Nat) (d : Die) : (trayRecord code d).islands = d.islands :=
  (trayRecord_kept (sameBut_closed _ d) code d (sameBut_refl _ d)) .islands (by decide)

@[simp] theorem trayRecord_regions (code : Nat) (d : Die) : (trayRecord code d).regions = d.regions :=
  (trayRecord_kept (sameBut_closed _ d) code d (sameBut_refl _ d)) .regions (by decide)

@[simp] theorem trayRecord_synths (code : Nat) (d : Die) : (trayRecord code d).synths = d.synths :=
  (trayRecord_kept (sameBut_closed _ d) code d (sameBut_refl _ d)) .synths (by decide)

@[simp] theorem trayRecord_ends (code : Nat) (d : Die) : (trayRecord code d).ends = d.ends :=
  (trayRecord_kept (sameBut_closed _ d) code d (sameBut_refl _ d)) .ends (by decide)

@[simp] theorem trayRecord_lanes (code : Nat) (d : Die) : (trayRecord code d).lanes = d.lanes :=
  (trayRecord_kept (sameBut_closed _ d) code d (sameBut_refl _ d)) .lanes (by decide)

@[simp] theorem trayRecord_links (code : Nat) (d : Die) : (trayRecord code d).links = d.links :=
  (trayRecord_kept (sameBut_closed _ d) code d (sameBut_refl _ d)) .links (by decide)

@[simp] theorem trayRecord_rails (code : Nat) (d : Die) : (trayRecord code d).rails = d.rails :=
  (trayRecord_kept (sameBut_closed _ d) code d (sameBut_refl _ d)) .rails (by decide)

@[simp] theorem trayRecord_sensors (code : Nat) (d : Die) : (trayRecord code d).sensors = d.sensors :=
  (trayRecord_kept (sameBut_closed _ d) code d (sameBut_refl _ d)) .sensors (by decide)

@[simp] theorem trayRecord_watches (code : Nat) (d : Die) : (trayRecord code d).watches = d.watches :=
  (trayRecord_kept (sameBut_closed _ d) code d (sameBut_refl _ d)) .watches (by decide)

@[simp] theorem trayRecord_messages (code : Nat) (d : Die) : (trayRecord code d).messages = d.messages :=
  (trayRecord_kept (sameBut_closed _ d) code d (sameBut_refl _ d)) .messages (by decide)

@[simp] theorem trayRecord_delivered (code : Nat) (d : Die) : (trayRecord code d).delivered = d.delivered :=
  (trayRecord_kept (sameBut_closed _ d) code d (sameBut_refl _ d)) .delivered (by decide)

@[simp] theorem trayRecord_contexts (code : Nat) (d : Die) : (trayRecord code d).contexts = d.contexts :=
  (trayRecord_kept (sameBut_closed _ d) code d (sameBut_refl _ d)) .contexts (by decide)

@[simp] theorem trayRecord_commits (code : Nat) (d : Die) : (trayRecord code d).commits = d.commits :=
  (trayRecord_kept (sameBut_closed _ d) code d (sameBut_refl _ d)) .commits (by decide)

@[simp] theorem trayRecord_commitReqs (code : Nat) (d : Die) : (trayRecord code d).commitReqs = d.commitReqs :=
  (trayRecord_kept (sameBut_closed _ d) code d (sameBut_refl _ d)) .commitReqs (by decide)

@[simp] theorem trayRecord_nextCommit (code : Nat) (d : Die) : (trayRecord code d).nextCommit = d.nextCommit :=
  (trayRecord_kept (sameBut_closed _ d) code d (sameBut_refl _ d)) .nextCommit (by decide)

@[simp] theorem trayRecord_tenants (code : Nat) (d : Die) : (trayRecord code d).tenants = d.tenants :=
  (trayRecord_kept (sameBut_closed _ d) code d (sameBut_refl _ d)) .tenants (by decide)

@[simp] theorem trayRecord_queues (code : Nat) (d : Die) : (trayRecord code d).queues = d.queues :=
  (trayRecord_kept (sameBut_closed _ d) code d (sameBut_refl _ d)) .queues (by decide)

@[simp] theorem trayRecord_sram (code : Nat) (d : Die) : (trayRecord code d).sram = d.sram :=
  (trayRecord_kept (sameBut_closed _ d) code d (sameBut_refl _ d)) .sram (by decide)

@[simp] theorem trayRecord_streams (code : Nat) (d : Die) : (trayRecord code d).streams = d.streams :=
  (trayRecord_kept (sameBut_closed _ d) code d (sameBut_refl _ d)) .streams (by decide)

@[simp] theorem trayRecord_dormant (code : Nat) (d : Die) : (trayRecord code d).dormant = d.dormant :=
  (trayRecord_kept (sameBut_closed _ d) code d (sameBut_refl _ d)) .dormant (by decide)

@[simp] theorem trayRecord_hbm (code : Nat) (d : Die) : (trayRecord code d).hbm = d.hbm :=
  (trayRecord_kept (sameBut_closed _ d) code d (sameBut_refl _ d)) .hbm (by decide)

@[simp] theorem trayRecord_fresh (code : Nat) (d : Die) : (trayRecord code d).fresh = d.fresh :=
  (trayRecord_kept (sameBut_closed _ d) code d (sameBut_refl _ d)) .fresh (by decide)

@[simp] theorem startupGo_stop (d : Die) : (startupGo d).stop = d.stop :=
  (startupGo_kept (sameBut_closed _ d) d (sameBut_refl _ d)) .stop (by decide)

@[simp] theorem diffRecord_tally (x : Nat × Nat × Nat × Nat) (d : Die) : (diffRecord x d).tally = d.tally :=
  (diffRecord_kept (sameBut_closed _ d) x d (sameBut_refl _ d)) .tally (by decide)

@[simp] theorem diffRecord_startup (x : Nat × Nat × Nat × Nat) (d : Die) : (diffRecord x d).startup = d.startup :=
  (diffRecord_kept (sameBut_closed _ d) x d (sameBut_refl _ d)) .startup (by decide)

@[simp] theorem diffRecord_chandler (x : Nat × Nat × Nat × Nat) (d : Die) : (diffRecord x d).chandler = d.chandler :=
  (diffRecord_kept (sameBut_closed _ d) x d (sameBut_refl _ d)) .chandler (by decide)

@[simp] theorem diffRecord_queues (x : Nat × Nat × Nat × Nat) (d : Die) : (diffRecord x d).queues = d.queues :=
  (diffRecord_kept (sameBut_closed _ d) x d (sameBut_refl _ d)) .queues (by decide)

@[simp] theorem joinByReady_startup (d : Die) : (joinByReady d).startup = d.startup :=
  (joinByReady_kept (sameBut_closed _ d) d (sameBut_refl _ d)) .startup (by decide)

@[simp] theorem readyState_chandler (n : Nat) (d : Die) : (readyState n d).chandler = d.chandler :=
  (readyState_kept (sameBut_closed _ d) n d (sameBut_refl _ d)) .chandler (by decide)

@[simp] theorem readyState_queues (n : Nat) (d : Die) : (readyState n d).queues = d.queues :=
  (readyState_kept (sameBut_closed _ d) n d (sameBut_refl _ d)) .queues (by decide)

@[simp] theorem resetQueue_tally (cause q : Nat) (d : Die) : (resetQueue cause q d).tally = d.tally :=
  (resetQueue_kept (sameBut_closed _ d) cause q d (sameBut_refl _ d)) .tally (by decide)

@[simp] theorem resetCores_tally (kind : Nat) (d : Die) : (resetCores kind d).tally = d.tally :=
  (resetCores_kept (sameBut_closed _ d) kind d (sameBut_refl _ d)) .tally (by decide)

@[simp] theorem resetCores_startup (kind : Nat) (d : Die) : (resetCores kind d).startup = d.startup :=
  (resetCores_kept (sameBut_closed _ d) kind d (sameBut_refl _ d)) .startup (by decide)

@[simp] theorem resetCores_stop (kind : Nat) (d : Die) : (resetCores kind d).stop = d.stop :=
  (resetCores_kept (sameBut_closed _ d) kind d (sameBut_refl _ d)) .stop (by decide)

@[simp] theorem resetCores_regs (kind : Nat) (d : Die) : (resetCores kind d).regs = d.regs :=
  (resetCores_kept (sameBut_closed _ d) kind d (sameBut_refl _ d)) .regs (by decide)

@[simp] theorem resetCores_limits (kind : Nat) (d : Die) : (resetCores kind d).limits = d.limits :=
  (resetCores_kept (sameBut_closed _ d) kind d (sameBut_refl _ d)) .limits (by decide)

@[simp] theorem resetCores_ends (kind : Nat) (d : Die) : (resetCores kind d).ends = d.ends :=
  (resetCores_kept (sameBut_closed _ d) kind d (sameBut_refl _ d)) .ends (by decide)

@[simp] theorem resetCores_lanes (kind : Nat) (d : Die) : (resetCores kind d).lanes = d.lanes :=
  (resetCores_kept (sameBut_closed _ d) kind d (sameBut_refl _ d)) .lanes (by decide)

@[simp] theorem resetCores_watches (kind : Nat) (d : Die) : (resetCores kind d).watches = d.watches :=
  (resetCores_kept (sameBut_closed _ d) kind d (sameBut_refl _ d)) .watches (by decide)

@[simp] theorem resetCores_contexts (kind : Nat) (d : Die) : (resetCores kind d).contexts = d.contexts :=
  (resetCores_kept (sameBut_closed _ d) kind d (sameBut_refl _ d)) .contexts (by decide)

@[simp] theorem resetCores_commits (kind : Nat) (d : Die) : (resetCores kind d).commits = d.commits :=
  (resetCores_kept (sameBut_closed _ d) kind d (sameBut_refl _ d)) .commits (by decide)

@[simp] theorem resetCores_nextCommit (kind : Nat) (d : Die) : (resetCores kind d).nextCommit = d.nextCommit :=
  (resetCores_kept (sameBut_closed _ d) kind d (sameBut_refl _ d)) .nextCommit (by decide)

@[simp] theorem resetCores_tenants (kind : Nat) (d : Die) : (resetCores kind d).tenants = d.tenants :=
  (resetCores_kept (sameBut_closed _ d) kind d (sameBut_refl _ d)) .tenants (by decide)

@[simp] theorem returnRegion_tally (r : Nat) (d : Die) : (returnRegion r d).tally = d.tally :=
  (returnRegion_kept (sameBut_closed _ d) r d (sameBut_refl _ d)) .tally (by decide)

@[simp] theorem setPower_tally (r n : Nat) (d : Die) : (setPower r n d).tally = d.tally :=
  (setPower_kept (sameBut_closed _ d) r n d (sameBut_refl _ d)) .tally (by decide)

@[simp] theorem reopen_startup (i : Nat) (d : Die) : (reopen i d).startup = d.startup :=
  (reopen_kept (sameBut_closed _ d) i d (sameBut_refl _ d)) .startup (by decide)

@[simp] theorem reopen_stop (i : Nat) (d : Die) : (reopen i d).stop = d.stop :=
  (reopen_kept (sameBut_closed _ d) i d (sameBut_refl _ d)) .stop (by decide)

@[simp] theorem reopen_regions (i : Nat) (d : Die) : (reopen i d).regions = d.regions :=
  (reopen_kept (sameBut_closed _ d) i d (sameBut_refl _ d)) .regions (by decide)

@[simp] theorem reopen_ends (i : Nat) (d : Die) : (reopen i d).ends = d.ends :=
  (reopen_kept (sameBut_closed _ d) i d (sameBut_refl _ d)) .ends (by decide)

@[simp] theorem reopen_links (i : Nat) (d : Die) : (reopen i d).links = d.links :=
  (reopen_kept (sameBut_closed _ d) i d (sameBut_refl _ d)) .links (by decide)

@[simp] theorem reopen_contexts (i : Nat) (d : Die) : (reopen i d).contexts = d.contexts :=
  (reopen_kept (sameBut_closed _ d) i d (sameBut_refl _ d)) .contexts (by decide)

@[simp] theorem endDormant_stop (d : Die) : (endDormant d).stop = d.stop :=
  (endDormant_kept (sameBut_closed _ d) d (sameBut_refl _ d)) .stop (by decide)

@[simp] theorem endDormant_sensors (d : Die) : (endDormant d).sensors = d.sensors :=
  (endDormant_kept (sameBut_closed _ d) d (sameBut_refl _ d)) .sensors (by decide)

@[simp] theorem joinPlan_regions (i : Nat) (d : Die) : (joinPlan i d).regions = d.regions :=
  (joinPlan_kept (sameBut_closed _ d) i d (sameBut_refl _ d)) .regions (by decide)

@[simp] theorem convert_tally (x : SensorReading) (d : Die) : (convert x d).tally = d.tally :=
  (convert_kept (sameBut_closed _ d) x d (sameBut_refl _ d)) .tally (by decide)

@[simp] theorem convert_stop (x : SensorReading) (d : Die) : (convert x d).stop = d.stop :=
  (convert_kept (sameBut_closed _ d) x d (sameBut_refl _ d)) .stop (by decide)

@[simp] theorem convert_dormant (x : SensorReading) (d : Die) : (convert x d).dormant = d.dormant :=
  (convert_kept (sameBut_closed _ d) x d (sameBut_refl _ d)) .dormant (by decide)

@[simp] theorem evaluateHard_tally (r : Nat) (d : Die) : (evaluateHard r d).tally = d.tally :=
  (evaluateHard_kept (sameBut_closed _ d) r d (sameBut_refl _ d)) .tally (by decide)

@[simp] theorem evaluateHard_startup (r : Nat) (d : Die) : (evaluateHard r d).startup = d.startup :=
  (evaluateHard_kept (sameBut_closed _ d) r d (sameBut_refl _ d)) .startup (by decide)

@[simp] theorem evaluateHard_stop (r : Nat) (d : Die) : (evaluateHard r d).stop = d.stop :=
  (evaluateHard_kept (sameBut_closed _ d) r d (sameBut_refl _ d)) .stop (by decide)

@[simp] theorem evaluateHard_limits (r : Nat) (d : Die) : (evaluateHard r d).limits = d.limits :=
  (evaluateHard_kept (sameBut_closed _ d) r d (sameBut_refl _ d)) .limits (by decide)

@[simp] theorem evaluateHard_rails (r : Nat) (d : Die) : (evaluateHard r d).rails = d.rails :=
  (evaluateHard_kept (sameBut_closed _ d) r d (sameBut_refl _ d)) .rails (by decide)

@[simp] theorem evaluateHard_sensors (r : Nat) (d : Die) : (evaluateHard r d).sensors = d.sensors :=
  (evaluateHard_kept (sameBut_closed _ d) r d (sameBut_refl _ d)) .sensors (by decide)

@[simp] theorem evaluateHard_dormant (r : Nat) (d : Die) : (evaluateHard r d).dormant = d.dormant :=
  (evaluateHard_kept (sameBut_closed _ d) r d (sameBut_refl _ d)) .dormant (by decide)

@[simp] theorem evaluateSoft_tally (r : Nat) (d : Die) : (evaluateSoft r d).tally = d.tally :=
  (evaluateSoft_kept (sameBut_closed _ d) r d (sameBut_refl _ d)) .tally (by decide)

@[simp] theorem evaluateSoft_startup (r : Nat) (d : Die) : (evaluateSoft r d).startup = d.startup :=
  (evaluateSoft_kept (sameBut_closed _ d) r d (sameBut_refl _ d)) .startup (by decide)

@[simp] theorem evaluateSoft_stop (r : Nat) (d : Die) : (evaluateSoft r d).stop = d.stop :=
  (evaluateSoft_kept (sameBut_closed _ d) r d (sameBut_refl _ d)) .stop (by decide)

@[simp] theorem evaluateSoft_limits (r : Nat) (d : Die) : (evaluateSoft r d).limits = d.limits :=
  (evaluateSoft_kept (sameBut_closed _ d) r d (sameBut_refl _ d)) .limits (by decide)

@[simp] theorem evaluateSoft_rails (r : Nat) (d : Die) : (evaluateSoft r d).rails = d.rails :=
  (evaluateSoft_kept (sameBut_closed _ d) r d (sameBut_refl _ d)) .rails (by decide)

@[simp] theorem evaluateSoft_sensors (r : Nat) (d : Die) : (evaluateSoft r d).sensors = d.sensors :=
  (evaluateSoft_kept (sameBut_closed _ d) r d (sameBut_refl _ d)) .sensors (by decide)

@[simp] theorem evaluateSoft_dormant (r : Nat) (d : Die) : (evaluateSoft r d).dormant = d.dormant :=
  (evaluateSoft_kept (sameBut_closed _ d) r d (sameBut_refl _ d)) .dormant (by decide)

@[simp] theorem evaluateTrip_sensors (d : Die) : (evaluateTrip d).sensors = d.sensors :=
  (evaluateTrip_kept (sameBut_closed _ d) d (sameBut_refl _ d)) .sensors (by decide)

@[simp] theorem modPool_tally (l : Nat) (f : PoolLink → PoolLink) (d : Die) : (modPool l f d).tally = d.tally :=
  (modPool_kept (sameBut_closed _ d) l f d (sameBut_refl _ d)) .tally (by decide)

@[simp] theorem modPool_chandler (l : Nat) (f : PoolLink → PoolLink) (d : Die) : (modPool l f d).chandler = d.chandler :=
  (modPool_kept (sameBut_closed _ d) l f d (sameBut_refl _ d)) .chandler (by decide)

@[simp] theorem modPool_limits (l : Nat) (f : PoolLink → PoolLink) (d : Die) : (modPool l f d).limits = d.limits :=
  (modPool_kept (sameBut_closed _ d) l f d (sameBut_refl _ d)) .limits (by decide)

@[simp] theorem statusLink_tally (want offer : Nat) (recalling : Bool) (l : Nat) (d : Die) : (statusLink want offer recalling l d).tally = d.tally :=
  (statusLink_kept (sameBut_closed _ d) want offer recalling l d (sameBut_refl _ d)) .tally (by decide)

@[simp] theorem setGuard_tally (v c r : Nat) (d : Die) : (setGuard v c r d).tally = d.tally :=
  (setGuard_kept (sameBut_closed _ d) v c r d (sameBut_refl _ d)) .tally (by decide)

@[simp] theorem setGuard_startup (v c r : Nat) (d : Die) : (setGuard v c r d).startup = d.startup :=
  (setGuard_kept (sameBut_closed _ d) v c r d (sameBut_refl _ d)) .startup (by decide)

@[simp] theorem setGuard_limits (v c r : Nat) (d : Die) : (setGuard v c r d).limits = d.limits :=
  (setGuard_kept (sameBut_closed _ d) v c r d (sameBut_refl _ d)) .limits (by decide)

@[simp] theorem setGuard_tenants (v c r : Nat) (d : Die) : (setGuard v c r d).tenants = d.tenants :=
  (setGuard_kept (sameBut_closed _ d) v c r d (sameBut_refl _ d)) .tenants (by decide)

@[simp] theorem takeCount_regions (count i : Nat) (d : Die) : (takeCount count i d).regions = d.regions :=
  (takeCount_kept (sameBut_closed _ d) count i d (sameBut_refl _ d)) .regions (by decide)

@[simp] theorem takeCount_contexts (count i : Nat) (d : Die) : (takeCount count i d).contexts = d.contexts :=
  (takeCount_kept (sameBut_closed _ d) count i d (sameBut_refl _ d)) .contexts (by decide)

@[simp] theorem releaseEdge_contexts (e : Nat) (d : Die) : (releaseEdge e d).contexts = d.contexts :=
  (releaseEdge_kept (sameBut_closed _ d) e d (sameBut_refl _ d)) .contexts (by decide)

@[simp] theorem rebind_regions (t cause : Nat) (d : Die) : (rebind t cause d).regions = d.regions :=
  (rebind_kept (sameBut_closed _ d) t cause d (sameBut_refl _ d)) .regions (by decide)

@[simp] theorem rebind_watches (t cause : Nat) (d : Die) : (rebind t cause d).watches = d.watches :=
  (rebind_kept (sameBut_closed _ d) t cause d (sameBut_refl _ d)) .watches (by decide)

end Sys2Proof.Machine
end

