-- ==== Sys2Proof/Tests/Slice0.lean ====
section
/-! SUPPORT. Tests: ill-formed commands are refused; small checks of single operations and steps against figures of the manual; and, for each statement with hypotheses, a witness: concrete dies and operands that meet the hypotheses of each of its clauses. Every theorem is closed by evaluation in the kernel. -/

namespace Sys2Proof.Tests
open Sys2Proof Sys2Proof.Machine
set_option Elab.async false
set_option linter.all false

/-! ## The dies of the tests -/

/-- The tables of a die are in canonical form, as a computation. -/
def canon (d : Die) : Bool :=
  tblWf {} d.islands && tblWf {} d.regions && tblWf {} d.synths && tblWf {} d.ends && tblWf {} d.lanes && tblWf {} d.links && tblWf {} d.rails
    && tblWf {} d.sensors && tblWf {} d.watches && tblWf none d.contexts && tblWf {} d.tenants && tblWf {} d.queues && tblWf none d.hbm && tblWf 0#8 d.sram

/-- The premise `Canonical` of the statements, by computation: `canon` in the witnesses stands for it. -/
theorem canonical_of_canon (d : Die) (h : canon d = true) : d.Canonical := by
  simp only [canon, Bool.and_eq_true] at h
  obtain ⟨⟨⟨⟨⟨⟨⟨⟨⟨⟨⟨⟨⟨h1, h2⟩, h3⟩, h4⟩, h5⟩, h6⟩, h7⟩, h8⟩, h9⟩, h10⟩, h11⟩, h12⟩, h13⟩, h14⟩ := h
  exact ⟨h1, h2, h3, h4, h5, h6, h7, h8, h9, h10, h11, h12, h13, h14⟩

/-- A die whose tables are canonical. -/
abbrev Can (d : Die) : Prop := canon d = true

/-- A READY die, master of its system, 5 s after its roots locked, with no plan, tenant or record. -/
def ready : Die :=
  { tally := { now := 5000000000, running := true, dieId := some 3, master := some 3, masterPrio := 128, role := 1, hops := 0, joined := true, settled := true }
    clocks := { refA := { qualified := true, good := 20 }, refB := { qualified := true, good := 20 }, everQualified := true, root0 := { locked := true }, root1 := { locked := true } }
    startup := { step := 10, ready := 1, fusesRead := true }
    stop := { trip := false, estop := false, trayHold := false, thermalHold := false, flow := true, flowOk := true, estopPin := true, thermtrip := false, aonGood := true }
    chandler := { pair := .synced, core0 := { verified := true }, core1 := { verified := true } }
    store := { absent := false, current := some 0 }
    rails := (List.range 5).map (fun k => (k, { target := 700, retention := false, off := false, confirmed := true, sawOff := false })) }

/-- A state with no command waiting. -/
def S (d : Die) : State := { die := d }

/-- The ready die with its Tally at t. -/
def at_ (t : Nat) : Die := { ready with tally := { ready.tally with now := t } }

/-- The ready die with one ring, island, region, synthesizer, link, rail, watch or queue set. -/
def wRing (i : Nat) (x : Ring) : Die := { ready with islands := [(i, { ring := x })] }
def wMargin (i : Nat) (x : Margin) : Die := { ready with islands := [(i, { margin := x })] }
def wRegion (r : Nat) (x : Region) : Die := { ready with regions := [(r, x)] }
def wSynth (r n : Nat) (x : Synth) : Die := { ready with synths := [(2 * r + n, x)] }
def wLink (l : Nat) (x : Link) : Die := { ready with links := [(l, x)] }
def wRail (k : Nat) (x : Rail) : Die := { ready with rails := tset {} ready.rails k x }
def wWatch (w : Nat) (x : Watch) : Die := { ready with watches := [(w, x)] }
def wQueue (q : Nat) (x : Queue) : Die := { ready with queues := [(q, x)] }
def wContext (c : Nat) (x : Context) : Die := { ready with contexts := [(c, some x)] }
def wStore (x : Store) : Die := { ready with store := x }
def wStop (x : Stop) : Die := { ready with stop := x }

/-- Region clock of region r from synthesizer 0, locked. -/
def clocked (r : Nat) (d : Die) : Die := { d with regions := [(r, { select := some 0 })], synths := [(2 * r, { phase := .locked, lock := true })] }

/-- A sideband frame with its CRC. -/
def framed (b : Bytes) (n : Nat) : Bytes := sealFrame (fit (n - 4) b)

/-! ## Ill-formed commands -/

/-- For each check of `Instr.wf`, a command that it refuses: the first number past the range of each kind of element, and a byte string of a wrong length. -/
theorem test_wf_refuses :
    (Instr.refActivityLoss 2).wf = false ∧ (Instr.synthRetryAcquire 80 0).wf = false ∧ (Instr.synthRetryAcquire 0 2).wf = false ∧ (Instr.injectionResume 1248).wf = false ∧ (Instr.plumbDisagreementResolved 0 6).wf = false ∧
    (Instr.marginReleaseTimeout 80).wf = false ∧ (Instr.edgeActivation 2332 0).wf = false ∧ (Instr.edgeActivation 0 2).wf = false ∧ (Instr.hoopStaleRelease (.link 32)).wf = false ∧ (Instr.hoopStaleRelease (.die 2332 0)).wf = false ∧
    (Instr.linkUp 32).wf = false ∧ (Instr.hbmRetrainBegin 1151).wf = false ∧ (Instr.hbmRetrainBegin 1200).wf = false ∧ (Instr.watchArmed 256).wf = false ∧ (Instr.certAssembly 16).wf = false ∧ (Instr.vrmAlertRise 5).wf = false ∧
    (Instr.descriptorFetch 17).wf = false ∧ (Instr.streamAccessFail 18 0).wf = false ∧ (Instr.chandlerFaultSignal 2 0).wf = false ∧
    (Instr.hoopFrameReceived 0 (zeros 15)).wf = false ∧ (Instr.tallySyncReceived 0 (zeros 47)).wf = false ∧ (Instr.poolStatusReceived 0 (zeros 33)).wf = false ∧ (Instr.patternRecordRead 0 (zeros 17)).wf = false := by decide +kernel

/-- The last number of each kind is accepted. -/
theorem test_wf_accepts :
    (Instr.refActivityLoss 1).wf = true ∧ (Instr.synthRetryAcquire 79 1).wf = true ∧ (Instr.plumbDisagreementResolved 1247 5).wf = true ∧ (Instr.edgeActivation 2331 1).wf = true ∧ (Instr.hoopStaleRelease (.link 31)).wf = true ∧
    (Instr.hbmRetrainBegin 1199).wf = true ∧ (Instr.watchArmed 255).wf = true ∧ (Instr.certAssembly 15).wf = true ∧ (Instr.vrmAlertRise 4).wf = true ∧ (Instr.descriptorFetch 16).wf = true ∧ (Instr.hoopFrameReceived 31 (zeros 16)).wf = true := by
  decide +kernel

/-- A command that names nothing of the die stops with the fault of that name, and the table gives no word a command. -/
theorem test_no_such_element : exec (.linkUp 32) (S ready) = .fault .noSuchElement := rfl
theorem test_no_word_spells : decodeTableWord 32 0 = none ∧ (S ready).withFetchWord 32 0 = S ready := by decide +kernel

/-! ## Figures of the manual -/

/-- CRC-32C of the ASCII digits 1 to 9 is the polynomial's published check value (R315). -/
theorem test_crc32c : crc32c ((List.range 9).map (fun k => BitVec.ofNat 8 (0x31 + k))) = 0xE3069283 := by decide +kernel

/-- Chapter 1: island 437 lies in region 29, whose reference island is 404. -/
theorem test_geography : islandRegion 437 = 29 ∧ refIsland 29 = 404 ∧ regionRail 29 = 1 := by decide +kernel

/-- Every edge of the die is found from both its islands (R19, Table 1.1). -/
theorem test_edges_from_both_ends : (List.range 2332).all (fun e => sideEnd (edgeIslands e).1 (edgeSides e).1 == some (2 * e) && sideEnd (edgeIslands e).2 (edgeSides e).2 == some (2 * e + 1)) = true := by decide +kernel

/-- Chapter 3: the setting of 1.605 GHz with D = 3 is n = 0x30, frac = 0x26_6666, div = 0x01. -/
theorem test_setting_word : readSetting [0x30#8, 0x66#8, 0x66#8, 0x26#8, 0x01#8, 0#8, 0#8, 0#8] = some { n := 48, frac := 2516582, div := 1 } ∧ settingBytes { n := 48, frac := 2516582, div := 1 } = [0x30#8, 0x66#8, 0x66#8, 0x26#8, 0x01#8, 0#8, 0#8, 0#8] := by
  decide +kernel

/-- Chapter 3: N = 31 lies under the range of the ratio, and D = 2 at N = 48 above that of the output (R81). -/
theorem test_setting_refused : readSetting [31#8, 0#8, 0#8, 0#8, 3#8, 0#8, 0#8, 0#8] = none ∧ readSetting [48#8, 0#8, 0#8, 0#8, 0#8, 0#8, 0#8, 0#8] = none := by decide +kernel

/-- Chapter 7: a ceiling of OPP 11 on a region at OPP 12 gives r = 62,259 (R192). -/
theorem test_fast_ratio : fastRatio { opp := 12, ceilings := [some 11] } = some 62259 := by decide +kernel

/-- Table 9.3: the leakage of region 29 at 790 mV and 71.5 °C. -/
theorem test_leakage : leakage ((List.range 64).map (fun k => if k = 35 then 1840 else if k = 43 then 2360 else if k = 36 then 2150 else if k = 44 then 2760 else 0)) 790 1144 = 2310 := by decide +kernel

/-- Chapter 9, the interval worked through: the figures of region 29 on Q1 at 790 mV, with the SRAM rail at 795 mV. -/
theorem test_interval :
    let tbl := (List.range 64).map (fun k => if k = 35 then 1840 else if k = 43 then 2360 else if k = 36 then 2150 else if k = 44 then 2760 else 0)
    let d := { ready with
      regions := [(29, { opp := 12, energy := { temp := 1144, leakHeld := some { table := tbl, share := 0x2000 } } })]
      rails := [(1, { startMv := 790, startOff := false, offset := 880 }), (4, { startMv := 795, startOff := false })] }
    let f := figures d 29 [26214400, 0, 0, 0, 512000, 409600, 0, 0, 40960, 0, 0, 31968]
    f.rawQ = 8096449921 ∧ f.rawS = 1309200000 ∧ f.calQ = 8136449921 ∧ f.dynQ = 6074449921 ∧ f.dynS = 1021200000 := by decide +kernel

/-- Table 9.4: the window on Q2 moves g = 0x4148, o = 1,200 mW to 0x414A, 1,224 mW. -/
theorem test_gain_update : updated { gain := 0x4148, offset := 1200, reads := 8, sumMw := 8 * 190000, sumDyn := 160000 * 1000000000, sumLeak := 24000 * 1000000000 } = (0x414A, 1224) := by decide +kernel

/-- R40: at the greatest rate word Tally gains 49,999.9996… ns in 10⁹ periods; one period from just below a nanosecond carries into it. -/
theorem test_tally_tick : (tallyTick { ready with tally := { ready.tally with now := 7, frac := 2 ^ 40 - 1, rate := 1 } }).tally.now = 9 ∧ (tallyTick { ready with tally := { ready.tally with now := 7, rate := -1 } }).tally.now = 7 := by decide +kernel

/-- R40: the 64-bit count wraps. -/
theorem test_tally_wraps : (tallyTick (at_ (2 ^ 64 - 1))).tally.now = 0 := by decide +kernel

/-- R180, Table 7.1: a rail whose regions run at OPP 12 goes to its typical voltage, fuses unprogrammed. -/
theorem test_linear11 : linear11 0x0005 = 5000 ∧ linear11 (0xF800 + 5) = 2500 ∧ linear11 (0x0800 + 5) = 10000 := by decide +kernel

/-! ## Single commands -/

/-- The ready die with the service regions alone present, for steps that touch every region. -/
def small : Die := { ready with startup := { ready.startup with fuses := { present := 0 } } }

/-- The die that a command leaves, where it answers a next state. -/
def after (c : Instr) (d : Die) : Option Die := match exec c (S d) with | .next t => some t.die | _ => none

/-- The events that wait for their records after a command: code and ID. -/
def events (c : Instr) (d : Die) : Option (List (Nat × Nat)) := (after c d).map (fun d => d.ledger.queue.map (fun p => (p.code, p.id)))

/-- Without a reference the selected one is left for the other with REF_LOST and REF_SWITCH, cause 0 (R74). -/
theorem test_refActivityLoss : (after (.refActivityLoss 0) ready).map (fun d => (d.clocks.selected, d.ledger.queue.map (fun p => (p.id, p.payload.take 1)))) = some (1, [(0, [0#8]), (1, [0#8])]) := by decide +kernel

/-- Steps of start-up that are not due change nothing. -/
theorem test_startup_waits : after (.startupStepComplete {}) ready = some ready ∧ after .bootImageTimeout ready = some ready ∧ after (.topologyCheckComplete 0) ready = some ready := by decide +kernel

/-- The lock window of 2,047 to 2,049 periods: 2,046 does not match (R94). -/
theorem test_synthLockWindowEnd : (after (.synthLockWindowEnd 5 1 2046) (wSynth 5 1 { phase := .settling, matching := 1 })).map (fun d => ((synth d 5 1).lock, (synth d 5 1).matching)) = some (false, 0) ∧
    (after (.synthLockWindowEnd 5 1 2047) (wSynth 5 1 { phase := .settling, matching := 1 })).map (fun d => ((synth d 5 1).lock, (synth d 5 1).phase)) = some (true, .locked) := by decide +kernel

/-- An island with nothing to hold it counts; at 2⁵⁶ − 1 the count wraps (R148). -/
theorem test_ringPeriod : (after (.ringPeriod 437 { tFree := Config.period 0 }) (wRing 437 { bellows := .injected, gate := true, count := 2 ^ 56 - 1 })).map (fun d => ((island d 437).ring.count, (island d 437).ring.now)) = some (0, .delivered) := by decide +kernel

/-- An ACTIVE edge six cycles ahead holds the slot, five do not (R158). -/
theorem test_ringPeriod_hold : [6, 5].map (fun lead => (after (.ringPeriod 5 { tFree := Config.period 0 }) { wRing 5 { bellows := .injected, gate := true } with ends := [(10, { state := .active, coupled := true, lead := lead })] }).map (fun d => (island d 5).ring.count)) = [some 0, some 1] := by
  decide +kernel

/-- Injection lock at the second window of 255 to 257 periods (R103). -/
theorem test_injectionWindowEnd : [254, 255, 257, 258].map (fun n => (after (.injectionWindowEnd 0 n) { clocked 0 ready with islands := [(0, { ring := { bellows := .acquiring, matching := 1 } })] }).map (fun d => (island d 0).ring.bellows)) =
    [some .acquiring, some .injected, some .injected, some .acquiring] := by decide +kernel

/-- The third failed acquisition within 10 s retires the Bellows into Yoke mode, with RETIRE (R402, R405). -/
theorem test_injectionAcquisitionTimeout : (after (.injectionAcquisitionTimeout 9) (wRing 9 { bellows := .acquiring, failures := [2, 1] })).map (fun d => ((island d 9).ring.bellows, d.store.work.retire.map (fun e => (e.kind, e.id)))) = some (.yoke, [(2, 9)]) := by decide +kernel

/-- A confirmed disagreement retires the replica and its spare joins the active set (R138, R140). -/
theorem test_plumbDisagreementResolved : (after (.plumbDisagreementResolved 0 4) { ready with islands := [(0, { margin := { replicas := [(4, { remeasure := some (3, 0) })], active := some 0x15 } })] }).map (fun d => activeMask d 0) = some 0x25 := by decide +kernel

/-- A lead of −1 of the upper island of a PENDING edge, from its count three periods back (R158). -/
theorem test_edgeActivation : (after (.edgeActivation 5 1) { ready with ends := [(11, { state := .pending, coupled := true })], islands := [(5, { ring := { count := 8 } }), (6, { ring := { count := 10, own3 := 7 } })] }).map (fun d => ((edgeEnd d 11).state, (edgeEnd d 11).lead)) = some (.active, -1) := by
  decide +kernel

/-- A Hoop frame that was formed comes back whole from its bytes, and one flipped bit discards it (R56, Table 6.3). -/
theorem test_hoopFrameReceived : (after (.hoopFrameReceived 31 (hoopBytes 1 7 (2 ^ 48 - 1) 9)) ready).map (fun d => ((link d 31).remote, (link d 31).remoteTag, d.limits.caused)) = some (2 ^ 48 - 1, 7, 9) ∧
    (after (.hoopFrameReceived 31 (0#8 :: (hoopBytes 1 7 0 0).drop 1)) ready).map (fun d => ((link d 31).remoteTag, (link d 31).discarded)) = some (0, 1) := by decide +kernel

/-- Offset and delay from the four stamps 77, 90, 100 and 5,000,000,000 − … as R54 computes them: t1 = 4,999,999,900, t2 = t3 = 4,999,999,970, t4 = 5,000,000,000 give offset 20 and delay 50. -/
theorem test_tallyReplyReceived :
    (after (.tallyReplyReceived 31 (replyBytes { ready with tally := { ready.tally with dieId := some 1, master := some 1, masterPrio := 100, hops := 0 } } 9 4999999900 4999999970 4999999970))
      { wLink 31 { syncSeq := 9, syncT1 := some 4999999900, rxUp := true, up := true } with tally := { ready.tally with role := 0, master := some 1, masterPrio := 100, hops := 1, parent := some 31 } }).map (fun d => (d.tally.delay, d.tally.offsets)) = some (50, [20]) := by
  decide +kernel

/-- A one-time watch that fires is free, and its message stands at the end of its slot (R66, R68). -/
theorem test_tallyWatchFire : (after (.tallyWatchFire 255) (wWatch 255 { used := true, armed := true, condition := 5000000000, target := 4 })).map (fun d => (d.watches, d.messages.map (fun m => (m.slot, m.watch, m.target)))) = some ([], [(5000000000, 255, 4)]) := by decide +kernel

/-- A commit accepted from the first request, at the least lead of 120 µs (R182), with its ID (R353). -/
theorem test_commitAccept : (after .commitAccept { ready with regions := [(0, { select := some 0, ceilings := [] })], commitReqs := [{ source := .pattern, target := 3, members := 1, since := 0 }] }).map (fun d => (d.nextCommit, d.commits.map (fun c => (c.id, c.count, tget 0 c.grants 0)))) =
    some (2, [(1, 5000120000, 3)]) := by decide +kernel

/-- The first slot of a fast step is suppressed, since 0 + 62,259 lies below 65,536 (R192). -/
theorem test_fast_step_first_slot : (after (.ringPeriod 0 { tFree := Config.period 12 }) { wRing 0 { bellows := .injected, gate := true, fast := true } with regions := [(0, { opp := 12, fast := some 62259 })] }).map (fun d => ((island d 0).ring.count, (island d 0).ring.acc, (island d 0).holds.pace)) =
    some (0, 62259, 1) := by decide +kernel

/-- END opens the horizon and ends the chain (R210). -/
theorem test_patternRecordRead : (after (.patternRecordRead 3 (le 4 5 ++ le 2 0 ++ le 1 9 ++ zeros 9)) (wContext 3 { state := .started, segments := [{ base := 0, records := 4 }], last := 7, released := true })).map (fun d => (context d 3).map (fun x => (x.state, x.last, x.open_))) = some (some (.ended, 12, true)) := by
  decide +kernel

/-- A reading of 115.0 °C trips the die and drives THERMTRIP_N (R260, R449); 114.9375 °C does not. -/
theorem test_sensorConversion : [1840, 1839].map (fun v => (after (.sensorConversion [{ sensor := 319, ok := true, value := v }]) small).map (fun d => (d.stop.trip, d.stop.stopped, d.stop.thermtrip))) = [some (true, true, true), some (false, false, false)] := by decide +kernel

/-- The soft threshold steps a region down one point each 1 ms (R258). -/
theorem test_thermalSoftStep : (after (.thermalSoftStep 3) (wRegion 3 { opp := 5, ceilings := [none, none, none, none, some 4], thermal := { softStep := 4999000000 } })).map (fun d => (region d 3).ceilings.getD 4 none) = some (some 3) := by decide +kernel

/-- FLOW_SENSE of 599 mV stops the die, 600 mV does not (R262). -/
theorem test_flowLoss : [599, 600].map (fun mv => (after (.flowLoss mv true) small).map (fun d => (d.stop.coolant, d.stop.stopped))) = [some (true, true), some (false, false)] := by decide +kernel

/-- A want of 5.0 W met from an offer of 4.0 W is lent to 4.0 W, and a GRANT waits for its lane (R271). -/
theorem test_poolStatusReceived : (after (.poolStatusReceived 31 (framed (le 1 0x30 ++ le 1 0 ++ le 2 7 ++ le 2 5 ++ le 2 1 ++ le 2 0xFFFF ++ le 2 0 ++ le 2 1150 ++ le 2 50) 32))
      { wLink 31 { up := true, rxUp := true, pool := { member := true, offer := 40 } } with limits := { ready.limits with pool := 7 } }).map (fun d => ((link d 31).pool.loan, (link d 31).pool.offer, (link d 31).waitPool.length)) = some (40, 0, 1) := by decide +kernel

/-- Two results 20 counts apart agree, and the item takes their mean (R290, Table 12.1). -/
theorem test_agreeing : agreeing [some 20] [100] [120] [] = some ([100], [120]) ∧ meanOf ([100], [120]) = [110] ∧ agreeing [some 20] [100] [130] [112] = some ([100], [112]) := by decide +kernel

/-- The last block erased, the slot is programmed (R318). -/
theorem test_flashOperationComplete : (after (.flashOperationComplete true) (wStore { ready.store with write := some { slot := 1, source := 3, generation := 2, stage := 0, blocks := 31, image := {}, since := 0 } })).map (fun d => d.store.write.map (fun w => (w.stage, w.blocks))) = some (some (1, 32)) := by
  decide +kernel

/-- The primary of a SYNCED pair that fails hands over to the shadow (R323, Table 13.1). -/
theorem test_chandlerFaultSignal : (after (.chandlerFaultSignal 0 1) ready).map (fun d => (d.chandler.pair, d.chandler.primary)) = some (.takeover, 1) := by decide +kernel

/-- A doorbell 64 ahead is taken, 65 ahead sets QERR (R328). -/
theorem test_queueDoorbellWrite : [64, 65].map (fun t => (after (.queueDoorbellWrite 0 t []) ready).map (fun d => ((queue d 0).subTail, (queue d 0).intStatus))) = [some (64, 0), some (0, 2)] := by decide +kernel

/-- A good target write waits for the rail, and a third failed frame leaves it dead (R185, R412). -/
theorem test_avsbusFrameEnd : (after (.avsbusFrameEnd 0 {}) (wRail 0 { off := false, target := 700, busy := some (.target 700) })).map (fun d => (rail d 0).writtenAt) = some (some 5000000000) ∧
    (after (.avsbusFrameEnd 0 { crcOk := false }) (wRail 0 { off := false, busy := some .status, failed := 2 })).map (fun d => (rail d 0).dead) = some true := by decide +kernel

/-- The first event that waits becomes the record of the write index, a payload of 13 bytes two (R380, R383). -/
theorem test_ledgerRecordAccept : (after .ledgerRecordAccept (emit 0x0702 .none (zeros 13) ready)).map (fun d => (d.ledger.index, d.ledger.count, d.ledger.ring.map (fun x => x.code))) = some (2, 2, [0x0702, 0x0702]) := by decide +kernel

/-- A tolerance of 1,499 ns allows Gate, one of 1,500 ns Hush (R437). -/
theorem test_regionIdleChange : [39, 40, 1499, 1500].map (fun t => (after (.regionIdleChange 3) (wRegion 3 { tolerance := t })).map (fun d => (region d 3).power)) = [some 0, some 1, some 1, some 2] := by decide +kernel

/-- A snapshot advances SEQ past 65,535 to 0 (R476). -/
theorem test_tallySnapshotRead : (after .tallySnapshotRead { ready with regs := { snap := { seq := 65535 } } }).map (fun d => (d.regs.snap.seq, d.regs.snap.tally)) = some (0, 5000000000) := by decide +kernel

/-- plan.read of a context that is not there completes with NOT_FOUND (Table 13.5). -/
theorem test_planRead : (after (.planRead 0) { ready with queues := [(0, { exec := some { desc := fit 64 (le 2 0x0106 ++ zeros 2 ++ le 4 7), slot := 0, staged := [] } })] }).map (fun d => (queue d 0).stored.map (fun c => (c.seq, c.status))) = some [(7, 0x08)] := by decide +kernel

/-- tenant.create by a tenant's queue completes with NO_PRIVILEGE, with its CMD record and PRIVILEGE_REFUSED (R278, R336). -/
theorem test_tenantCreate : (after (.tenantCreate 1) { ready with queues := [(1, { bound := true, exec := some { desc := fit 64 (le 2 0x0501 ++ zeros 2 ++ le 4 7 ++ zeros 8 ++ le 1 2), slot := 0, staged := [] } })] }).map (fun d => ((queue d 1).stored.map (fun c => c.status), d.ledger.queue.map (fun p => p.code))) =
    some ([0x02], [0x0A01, 0x0707]) := by decide +kernel

/-! ## Witnesses -/

/-- The three clauses of references: window counts at both ends of the good range, qualified and not; loss with and without another reference; 1 ms with neither. -/
theorem witness_ReferencesQualifyFailAndSwitch :
    (let d := { ready with clocks := { ready.clocks with refB := { good := 18 }, everQualified := false } }; GoodWindow d 9980 ∧ (ref d 1).qualified = false ∧ (ref d 1).good < 19) ∧
    (let d := { ready with clocks := { ready.clocks with refB := { good := 19 }, everQualified := false } }; GoodWindow d 10020 ∧ (ref d 1).qualified = false ∧ (ref d 1).good = 19 ∧ (ref d 1).retired = false ∧ d.clocks.everQualified = false) ∧
    (let d := { ready with clocks := { ready.clocks with refB := {} } }; ¬ GoodWindow d 10021 ∧ (ref d 1).qualified = false) ∧
    (¬ GoodWindow ready 9979 ∧ (ref ready 0).qualified = true) ∧
    ((ref ready 0).qualified = true ∧ ready.clocks.selected = 0 ∧ (ref ready 0).retired = false ∧ refUsable ready 1 = true) ∧
    (let d := { ready with clocks := { ready.clocks with refB := {} } }; (ref d 0).qualified = true ∧ d.clocks.selected = 0 ∧ (ref d 0).retired = false ∧ refUsable d 1 = false ∧ permanent (addFailure d.tally.now (ref d 0).failures) = false) ∧
    (let d := { ready with clocks := { ready.clocks with noneSince := some 4999000000 } }; d.clocks.noneSince = some 4999000000 ∧ 4999000000 + 1000000 ≤ d.tally.now) := by
  unfold GoodWindow; decide +kernel

/-- Both roots locked, one locked, a confirmation that fails and one that passes, a retry due and an acquisition in progress. -/
theorem witness_RootPairSwitchesAndReacquires :
    (ready.clocks.liveRoot < 2 ∧ (root ready 0).locked = true ∧ (root ready (1 - 0)).locked = true) ∧
    (let d := { ready with clocks := { ready.clocks with liveRoot := 1, root0 := {} } }; d.clocks.liveRoot < 2 ∧ (root d 1).locked = true ∧ (root d (1 - 1)).locked = false) ∧
    (let d := { ready with clocks := { ready.clocks with confirming := true } }; d.clocks.liveRoot = 0 ∧ d.clocks.confirming = true ∧ (root d 0).locked = true ∧ (root d 1).locked = true) ∧
    (let d := { ready with clocks := { ready.clocks with root1 := { retryAt := some 5000000000 } } }; (root d 1).retryAt = some 5000000000 ∧ 5000000000 ≤ d.tally.now ∧ (root d 1).retired = false) ∧
    (let d := { ready with clocks := { ready.clocks with root1 := { acquiring := some 1 } } }; (root d 1).acquiring.isSome = true ∧ d.tally.running = true) := by decide +kernel

theorem witness_AlwaysOnRailStartsAndStopsTheDie : State.reset.die.stop.aonGood = false ∧ (ready.stop.aonGood = true ∧ 699 < 700 ∧ ready.stop.fault ≠ 4) := by decide +kernel

/-- Start-up at a step, rails confirmed, and for steps 7 and 8 with one present region, whose pair is locked and whose islands run. -/
def starting (n : Nat) : Die :=
  { ready with startup := { step := n, begun := true, fuses := { present := 0 } }
               synths := (List.range 16).map (fun x => (144 + x, { lock := true }))
               islands := (List.range 96).map (fun i => (1152 + i, { ring := { bellows := .injected } })) }

theorem witness_StartupStepsFollowTheTable :
    (∀ n ∈ [1, 2, 3, 4, 5, 7, 8], let d := starting n; Can d ∧ d.stop.stopped = false ∧ d.stop.faultStop = none ∧ d.stop.aonGood = true ∧ d.startup.step = n) ∧
    refUsable (starting 2) 0 = true ∧ chandlerRuns (starting 4) = true ∧ (chandlerRuns (starting 5) = true ∧ (∀ k < 5, (rail (starting 5) k).confirmed = true) ∧ (starting 5).startup.kind = 1) ∧
    ((starting 7).startup.begun = true ∧ (∀ k < 5, railStands (rail (starting 7) k) = true) ∧ (∀ r ∈ presentRegions (starting 7), pairLocked (starting 7) r = true) ∧ 79 ∈ presentRegions (starting 7)) ∧
    ((starting 8).startup.begun = true ∧ (∀ i ∈ presentIslands (starting 8), islandUp (starting 8) i = true) ∧ 1247 ∈ presentIslands (starting 8)) := by decide +kernel

/-- A die whose cores wait for their image, one whose second core did not verify 4 ms ago, and a die at its topology check with its links up, and with one down for 500 ms. -/
theorem witness_FirmwareAndTopologyBringTheDieUp :
    (let d := { ready with startup := { step := 4 }, chandler := {} }; d.chandler.pair = .boot ∧ 4 ≤ d.startup.step ∧ d.startup.fuses.keyOk = true ∧ ∀ n < 2, (Machine.core d n).verified = false ∧ (Machine.core d n).heldOut = false) ∧
    (let d := { ready with chandler := { broadcastAt := some 4996000000, core1 := { verified := true } } }; d.chandler.pair = .boot ∧ d.chandler.broadcastAt = some 4996000000 ∧ 4996000000 + 4000000 ≤ d.tally.now ∧ (Machine.core d 1).verified = true ∧ (Machine.core d (1 - 1)).verified = false) ∧
    (let d := { ready with startup := { step := 9, descriptor := some (zeros 272), checkSince := some 4500000000 } }; d.startup.descriptor = some (zeros 272) ∧ d.startup.checkSince = some 4500000000 ∧ chandlerRuns d = true ∧ d.startup.ready ≠ 1 ∧
      linksUp d = true ∧ 4500000000 + 500000000 ≤ d.tally.now) := by decide +kernel

theorem witness_ResetsReturnTheDieToStepSix : ready.stop.aonGood = true ∧ ready.startup.ready = 1 ∧ (0 : Nat) ≠ 0x4A520001 := by decide +kernel

/-- The searching, settling, locked and failed synthesizer at its last region, and the Drover lane with its own clock, a lender's and none. -/
theorem witness_SynthesizersSearchLockAndLoseLock :
    (let d := wSynth 79 1 { phase := .searching, writtenAt := 4999880000 }; Can d ∧ (synth d 79 1).phase = .searching ∧ (synth d 79 1).writtenAt + 17000 ≤ d.tally.now ∧ (synth d 79 1).writtenAt + 120000 ≤ d.tally.now) ∧
    (let d := wSynth 79 1 { phase := .settling }; Can d ∧ (synth d 79 1).phase = .settling ∧ (synth d 79 1).matching = 0) ∧
    (let d := wSynth 0 0 { phase := .settling, matching := 1 }; Can d ∧ (synth d 0 0).phase = .settling ∧ (synth d 0 0).matching = 1 ∧ (synth d 0 0).use = .standby ∧ (region d 0).select = none ∧ (region d 0).retired = false ∧ inBank d 0 = false) ∧
    (let d := wSynth 3 1 { phase := .failed, retryAt := some 5000000000 }; Can d ∧ (synth d 3 1).retryAt = some 5000000000 ∧ (synth d 3 1).phase = .failed ∧ (synth d 3 1).retired = false) ∧
    (let d := { ready with regions := [(3, { select := some 0 })], synths := [(6, { phase := .locked, lock := true }), (7, { phase := .locked, lock := true })] };
      Can d ∧ (synth d 3 0).lock = true ∧ (region d 3).select = some 0 ∧ (region d 3).retired = false ∧ (region d 3).live = 0 ∧ standbyReady d 3 = true ∧ permanent (addFailure d.tally.now (synth d 3 0).failures) = false ∧
      (synth d 3 0).phase = .locked ∧ (synth d 3 0).missing = 0) ∧
    (let d := wSynth 3 0 { phase := .locked, missing := 1 }; Can d ∧ (synth d 3 0).phase = .locked ∧ (synth d 3 0).missing = 1) ∧
    (let d := { clocked 3 ready with regions := [(3, { select := some 0, drover := .stopped })] }; Can d ∧ (region d 3).drover = .stopped ∧ d.dormant.in_ = false ∧ clockPresent d 3 = true) ∧
    (let d := { ready with regions := [(3, { drover := .stopped }), (4, { select := some 0 })], synths := [(8, { phase := .locked, lock := true })] }; Can d ∧ (region d 3).drover = .stopped ∧ d.dormant.in_ = false ∧ clockPresent d 3 = false ∧ lenderOf d 3 = some 4) ∧
    (let d := wRegion 3 { drover := .stopped }; Can d ∧ (region d 3).drover = .stopped ∧ d.dormant.in_ = false ∧ clockPresent d 3 = false ∧ lenderOf d 3 = none) := by decide +kernel

/-- An injected island with its gate open and nothing to hold it, and one with an ACTIVE edge exactly six cycles ahead. -/
theorem witness_RingPeriodsDeliverOrHold :
    (let d := wRing 5 { bellows := .injected, gate := true }; Can d ∧ (island d 5).ring.bellows ≠ .stopped ∧ (island d 5).ring.settleSince = none ∧ (island d 5).ring.gate = true ∧ (island d 5).ring.stopDue = false ∧
      (region d (islandRegion 5)).plan = none ∧ (region d (islandRegion 5)).fast = none ∧ islandLink 5 = none ∧ ∀ p k, p < 4 → sideEnd 5 p = some k → (edgeEnd d k).state ≠ .active) ∧
    (let d := { wRing 5 { bellows := .injected, gate := true } with ends := [(10, { state := .active, coupled := true, lead := 6 })] }; Can d ∧ sideEnd 5 1 = some 10 ∧ (edgeEnd d 10).state = .active ∧ 6 ≤ (edgeEnd d 10).lead ∧
      (island d 5).ring.own2 = (island d 5).ring.own3 ∧ (island d 5).ring.gate = true ∧ (island d 5).ring.stopDue = false) := by
  refine ⟨⟨by decide +kernel, by decide +kernel, by decide +kernel, by decide +kernel, by decide +kernel, by decide +kernel, by decide +kernel, by decide +kernel, ?_⟩, by decide +kernel⟩
  intro p k _ _
  exact (by decide : EndState.uncoupled ≠ .active)

/-- The Bellows settling, acquiring (first and second good window, and 1,400 ns later), injected (first and second bad window) and released; and phase steps up and down. -/
theorem witness_BellowsAcquireLoseAndResumeInjection :
    (let d := { clocked 0 ready with islands := [(0, { ring := { bellows := .acquiring, settleSince := some 4999999900 } })] }; let x := (island d 0).ring;
      Can d ∧ x.settleSince = some 4999999900 ∧ x.bellows = .acquiring ∧ 4999999900 + 100 ≤ d.tally.now ∧ clockPresent d (islandRegion 0) = true) ∧
    (∀ m ∈ [0, 1], let d := { clocked 0 ready with islands := [(0, { ring := { bellows := .acquiring, matching := m } })] }; let x := (island d 0).ring;
      Can d ∧ x.bellows = .acquiring ∧ x.settleSince = none ∧ clockPresent d (islandRegion 0) = true ∧ x.matching = m ∧ x.released = false ∧ inWindow x x.now x.count = false) ∧
    (∀ m ∈ [0, 1], let d := { clocked 0 ready with islands := [(0, { ring := { bellows := .injected, missing := m } })] }; let x := (island d 0).ring;
      Can d ∧ x.bellows = .injected ∧ x.windowDirty = false ∧ clockPresent d (islandRegion 0) = true ∧ ¬ (255 ≤ 254 ∧ 254 ≤ 257) ∧ x.missing = m) ∧
    (let d := wRing 1247 { bellows := .acquiring, acqSince := 4999998600 }; let x := (island d 1247).ring; Can d ∧ x.bellows = .acquiring ∧ x.settleSince = none ∧ x.acqSince + 1400 ≤ d.tally.now ∧ permanent (addFailure d.tally.now x.failures) = false) ∧
    (let d := wRing 1247 { bellows := .acquiring, failures := [2, 1] }; let x := (island d 1247).ring; Can d ∧ x.bellows = .acquiring ∧ x.settleSince = none ∧ x.acqSince + 1400 ≤ d.tally.now ∧ permanent (addFailure d.tally.now x.failures) = true ∧
      bellowsRetired d 1247 = false) ∧
    (let d := { clocked 0 ready with islands := [(0, { ring := { bellows := .released, goodRun := 16 } })] }; let x := (island d 0).ring;
      Can d ∧ x.bellows = .released ∧ 16 ≤ x.goodRun ∧ clockPresent d (islandRegion 0) = true ∧ inWindow x x.now x.count = false) ∧
    (∀ m ∈ [(1 : Int), -1], let d := wRing 0 { bellows := .injected, gate := true, phaseLeft := m }; let x := (island d 0).ring;
      Can d ∧ x.phaseLeft ≠ 0 ∧ (region d (islandRegion 0)).fenced = false ∧ x.gate = true ∧ x.bellows ≠ .yoke ∧ x.stepDue = 0 ∧ 8 ≤ x.sinceStep ∧ floorPeriod d 0 x.opp + Config.fineStep x.opp ≤ rawPeriod d 0 { tFree := 10 * Config.period 0 }) := by
  decide +kernel

/-- Three re-measures with one and with no agreement, on the active replica of a pair with its spare free; a margin ceiling 1 s after its quiet began, at OPP 14 and at 15. -/
theorem witness_PlumbRetiresReplicasAndCountsAlerts :
    (∀ a ∈ [0, 1], let d := { ready with islands := [(1247, { margin := { replicas := [(4, { remeasure := some (3, a) })], active := some 0x15 } })] };
      Can d ∧ replicaRetired d 1247 4 = false ∧ (tget {} (island d 1247).margin.replicas 4).remeasure = some (3, a) ∧ tblWf {} (island d 1247).margin.replicas = true ∧
      bit (activeMask d 1247) 4 = true ∧ bit (activeMask d 1247) 5 = false ∧ replicaRetired d 1247 5 = false) ∧
    (∀ c ∈ [14, 15], let d := wRegion 79 { ceilings := [none, none, none, none, none, none, none, some c], quietSince := 4000000000 };
      Can d ∧ (region d 79).ceilings.getD 7 none = some c ∧ (region d 79).latched = false ∧ (region d 79).quietSince + 1000000000 ≤ d.tally.now) ∧
    (let d := wMargin 0 { intDelivered := 4, intAlerts := 0 }; Can d ∧ present d (islandRegion 0) = true ∧ alerting (island d 0).margin = false ∧ inPlan d (islandRegion 0) = false) ∧
    (let d := wRegion 0 { plan := some 0 }; Can d ∧ present d (islandRegion 0) = true ∧ inPlan d (islandRegion 0) = true) := by decide +kernel

/-- A PENDING end on the last edge; a link at each of the three reasons to form a frame; a good and a bad frame, the good one coupling; stale edges at their limits. -/
theorem witness_HoopEdgesActivateAndGoStale :
    (let d := { ready with ends := [(4663, { state := .pending, coupled := true })] }; Can d ∧ edgeExists d 2331 = true ∧ (edgeEnd d (2 * 2331 + 1)).coupled = true ∧ (edgeEnd d (2 * 2331 + 1)).state = .pending ∧
      islandExcused d (endIsland (farEnd (2 * 2331 + 1))) = false) ∧
    (let d := wLink 31 { hoopAt := 4999999000, hoopFlags := hoopFlagsOf ready 31 }; Can d ∧ present d (islandRegion (1200 + 31)) = true ∧ (link d 31).waitHoop = none ∧ (link d 31).hoopAt + 1000 ≤ d.tally.now) ∧
    (let d := { wLink 31 { hoopAt := 4999999999 } with islands := [(1231, { ring := { count := 16 } })] }; Can d ∧ (link d 31).waitHoop = none ∧ (link d 31).hoopCount / 16 ≠ (island d (1200 + 31)).ring.count / 16) ∧
    (let d := wLink 31 { hoopAt := 4999999999, hoopFlags := 1 }; Can d ∧ (link d 31).waitHoop = none ∧ hoopFlagsOf d 31 ≠ (link d 31).hoopFlags) ∧
    (let d := wLink 31 { coupled := true, state := .pending, tag := 7 }; let f := hoopBytes 1 7 5 0; let x := link d 31;
      Can d ∧ f.length = 16 ∧ hoopFrameOk f = true ∧ x.coupled = true ∧ x.state = .pending ∧ bit (fld f 1 1) 0 = true ∧ bit (fld f 1 1) 1 = false ∧ x.tag ≠ 0 ∧ fld f 2 2 = x.tag) ∧
    ((zeros 16).length = 16 ∧ hoopFrameOk (zeros 16) = false) ∧
    (let d := wLink 31 { up := true, state := .active, hoopHeard := some 4999998000 }; let x := link d 31; Can d ∧ x.up = true ∧ x.state = .active ∧ x.stale = none ∧ x.hoopHeard = some 4999998000 ∧ 4999998000 + 2000 ≤ d.tally.now) ∧
    (let d := wLink 31 { stale := some 4999900000 }; Can d ∧ (link d 31).stale = some 4999900000 ∧ 4999900000 + 100000 ≤ d.tally.now) ∧
    (let d := { ready with ends := [(4663, { stale := some 4999900000 })] }; Can d ∧ (edgeEnd d (2 * 2331 + 1)).stale = some 4999900000 ∧ 4999900000 + 100000 ≤ d.tally.now) := by decide +kernel

/-- A link that is down, and one retraining, coupled and with a borrowed loan; an HBM interface at rest and retraining; the last interval not yet latched, with and without holds. -/
theorem witness_LinksRetrainAndCriticalPathIsLatched :
    (let d := wLink 31 { coupled := true, pool := { loan := -5 } }; Can d ∧ (link d 31).up = false ∧ (link d 31).retrain = none ∧ (link d 31).pool.loan < 0) ∧
    (let d := wLink 0 { retrain := some 4 }; Can d ∧ (link d 0).retrain = some 4) ∧
    (let d := { ready with hbm := [(1152, some 4)] }; Can d ∧ tget none d.hbm 1199 = none ∧ tget none d.hbm 1152 = some 4) ∧
    (ready.limits.shareEnd < ready.tally.now / 10000000 * 10000000 ∧ ready.limits.caused + ready.limits.suffered = 0) ∧
    (let d := { ready with limits := { ready.limits with caused := 3, suffered := 1 } }; Can d ∧ d.limits.shareEnd < d.tally.now / 10000000 * 10000000 ∧ 0 < d.limits.caused + d.limits.suffered) := by decide +kernel

/-- Frames of each kind waiting after and not after a Hoop frame; the sixteenth discarded frame; a SYNC due, one that arrives, and the REPLY to the one outstanding, on the parent's link. -/
theorem witness_SidebandLanesCarryFramesAndOffsets :
    (let d := wLink 31 { waitHoop := some (.hoop 0 0 0 0) }; Can d ∧ d.tally.running = true ∧ d.tally.dieId.isSome = true ∧ (link d 31).lastHoop = false ∧ (link d 31).waitHoop = some (.hoop 0 0 0 0)) ∧
    (let d := wLink 31 { lastHoop := true, waitReply := [.reply 1 2 3] }; Can d ∧ (link d 31).lastHoop = true ∧ (link d 31).waitReply = [.reply 1 2 3]) ∧
    (let d := wLink 31 { waitSync := [.sync 1] }; Can d ∧ (link d 31).waitHoop = none ∧ (link d 31).waitReply = [] ∧ (link d 31).waitSync = [.sync 1]) ∧
    State.reset.die.tally.running = false ∧
    (let d := wLink 31 { discarded := 15 }; Can d ∧ (link d 31).discarded = 15) ∧ (let d := wLink 31 { discarded := 14 }; Can d ∧ (link d 31).discarded + 1 ≠ 16) ∧
    (let d := { wLink 31 {} with links := [], tally := { ready.tally with role := 0, parent := some 31 } }; Can d ∧ some 31 = d.tally.parent ∧ d.tally.role ≠ 1 ∧ d.tally.foreign = false) ∧
    (let d := wLink 31 { rxUp := true, syncAt := some 4999900000 }; Can d ∧ (link d 31).rxUp = true ∧ d.tally.running = true ∧ d.tally.dieId.isSome = true ∧ (link d 31).syncAt = some 4999900000 ∧ 4999900000 + 100000 ≤ d.tally.now) ∧
    (let f := syncBytes ready 9 77; f.length = 48 ∧ tallyFrameOk 0x10 f = true ∧ ready.tally.dieId.isSome = true) ∧
    (let d := { wLink 31 { syncSeq := 9, syncT1 := some 77, rxUp := true, up := true } with tally := { ready.tally with role := 0, parent := some 31, master := some 3 } }; let f := replyBytes ready 9 77 80 90; let x := link d 31;
      let d1 := considerPartner 31 (modLink 31 (fun x => { x with tallyHeard := true, partner := partnerOf f x.partner false, syncT1 := none }) (validFrame 31 d));
      Can d ∧ f.length = 48 ∧ tallyFrameOk 0x11 f = true ∧ fld f 2 2 = x.syncSeq ∧ x.syncT1 = some (fld f 16 8) ∧ d1.tally.parent = some 31 ∧ d1.tally.role ≠ 1 ∧ d1.tally.joined = true) := by decide +kernel

/-- Sixteen offsets with a parent, without and with a lineage to rejoin, near and far; SETTLED due; the beacon due; the master silent for 1 ms as member and as backup; and the election after 2 ms more. -/
theorem witness_TallyTreeSteersAndElects :
    (∀ e ∈ [none, some 4], let t : Tally := { ready.tally with role := 0, parent := some 31, offsets := List.replicate 16 2, rejoinEpoch := e }; 16 ≤ t.offsets.length ∧ t.parent = some 31 ∧ t.waitingSince = none ∧ t.rejoinEpoch = e ∧
      (t.offsets.foldl (· + ·) 0).tdiv 16 = 2) ∧
    (let t : Tally := { ready.tally with role := 0, parent := some 31, offsets := List.replicate 16 10000001, rejoinEpoch := some 4 }; 16 ≤ t.offsets.length ∧ t.waitingSince = none ∧ t.slewSince = none ∧ 10000000 < (t.offsets.foldl (· + ·) 0).tdiv 16) ∧
    (let t := ready.tally; t.running = true ∧ t.changedAt + 2000000000 ≤ t.now ∧ t.master.isSome = true ∧ ready.stop.fault ≠ 1 ∧ t.role = 1) ∧
    (let t := ready.tally; t.running = true ∧ t.role = 1 ∧ t.beaconSent + 100000 ≤ t.now) ∧
    (∀ n ∈ [0, 2], let t := { ready.tally with role := n, beaconAt := 4999000000 }; t.running = true ∧ t.master.isSome = true ∧ t.waitingSince = none ∧ t.beaconAt + 1000000 ≤ t.now ∧ t.role = n) ∧
    (∀ n ∈ [128, 255], let d := { ready with tally := { ready.tally with role := 0, waitingSince := some 4998000000, priority := n } }; d.tally.waitingSince = some 4998000000 ∧ 4998000000 + 2000000 ≤ d.tally.now ∧ d.tally.priority = n ∧
      rank 128 (d.tally.dieId.getD 0) ≤ rank (bestHeard d).1 (bestHeard d).2) := by decide +kernel

/-- A one-time and a periodic Tally watch in the slot of their condition, a cycle watch of an island that has reached it, watches to arm before and after it, and a message whose slot ends now. -/
theorem witness_WatchesFireIntoTheDeliveryPort :
    (∀ k ∈ [0, 1], let d := wWatch 255 { used := true, armed := true, kind := k, condition := 5000000000, period := 40 }; let x := watch d 255;
      Can d ∧ (∀ m ∈ d.messages, m.watch ≠ 255) ∧ watchStands x (d.tally.now / 10 * 10) = true ∧ x.armed = true ∧ x.condition ≤ d.tally.now / 10 * 10 ∧ x.kind = k ∧ 0 < x.period) ∧
    (let d := { wWatch 255 { used := true, armed := true, kind := 2, island := 1247, condition := 9 } with islands := [(1247, { ring := { count := 9 } })] }; let x := watch d 255;
      Can d ∧ watchStands x (slotOf 5000000000) = true ∧ x.armed = true ∧ x.kind = 2 ∧ x.condition ≤ (island d x.island).ring.count) ∧
    (∀ n ∈ [9, 8], let d := { wWatch 255 { used := true, kind := 2, island := 1247, condition := 9 } with islands := [(1247, { ring := { count := n } })] }; let x := watch d 255;
      Can d ∧ watchStands x (slotOf d.tally.now) = true ∧ x.armed = false ∧ x.kind = 2 ∧ (x.condition ≤ (island d x.island).ring.count ↔ n = 9)) ∧
    (let m : WatchMsg := { slot := 5000000000, watch := 0, kindFlags := 0, target := 0, epoch := 0, merged := 0, island := 0, tally := 0, cycle := 0, condition := 0 }; let d := { ready with messages := [m] }; d.messages = m :: [] ∧ m.slot ≤ d.tally.now) := by
  decide +kernel

/-- A commit accepted, decided, strobed and done, on region 0 with its idle synthesizer locked for it. -/
def wCommit (c : Commit) : Die :=
  { ready with commits := [c], regions := [(0, { select := some 0, ceilings := [] })], synths := [(0, { phase := .locked, lock := true }), (1, { phase := .locked, lock := true, use := .commit 1 })] }

/-- Commit 1 of region 0 to OPP 3 at T, as accepted. -/
def commit1 (t : Nat) : Commit := { id := 1, source := .host, target := 3, members := 1, grants := [(0, 3)], count := t, acceptedAt := 0, retuned := 1 }

/-- A request with a member free and one retired, at the last commit ID; a rise and a decision at their last instants, a decision that fails for want of lock, the strobe, and the fall of a commit that is done. -/
theorem witness_CommitsRunFromAcceptanceToTheFall :
    (let d := { ready with nextCommit := 2 ^ 32 - 1, regions := [(1, { retired := true })], commitReqs := [{ source := .settlement, target := 3, members := 3, since := 0 }] };
      Can d ∧ chandlerRuns d = true ∧ d.stop.stopped = false ∧ regionSet ((setRegions 3).filter (fun r => !commitBlocked d r)) ≠ 0 ∧ d.commitReqs ≠ []) ∧
    (let c := commit1 5000025000; let d := wCommit c; Can d ∧ commitOf d 1 = some c ∧ c.decided = false ∧ c.riseWritten = false ∧ c.count ≤ d.tally.now + 25000 ∧ (∀ r ∈ setRegions (c.retuned ||| c.pausing), memberLocked d c r = true) ∧ chandlerRuns d = true) ∧
    (let c := { commit1 5000000010 with riseWritten := true }; let d := wCommit c; Can d ∧ commitOf d 1 = some c ∧ c.decided = false ∧ c.count ≤ d.tally.now + 10 ∧ decisionFailure d c = none) ∧
    (let c := commit1 5000000010; let d := { wCommit c with synths := [] }; Can d ∧ commitOf d 1 = some c ∧ c.decided = false ∧ c.count ≤ d.tally.now + 10 ∧ decisionFailure d c = some (1, 0, 1)) ∧
    (let c := { commit1 5000000000 with decided := true }; let d := wCommit c; Can d ∧ commitOf d 1 = some c ∧ c.decided = true ∧ c.strobed = false ∧ c.count ≤ d.tally.now) ∧
    (let c := { commit1 4999998000 with decided := true, strobed := true, switched := 1, done := true }; let d := wCommit c; Can d ∧ d.commits.find? (fun c => decide (c.id = 1) && c.done) = some c ∧ c.count + 2000 ≤ d.tally.now ∧ chandlerRuns d = true ∧
      d.stop.stopped = false) := by decide +kernel

/-- A switch to the idle synthesizer, a pause-switch back, one without lock; the lane lent with a lender and without; gates due 1,500 ns after T. -/
theorem witness_RegionsSwitchOrKeepTheirPoint :
    (let c := { commit1 5000000000 with decided := true, strobed := true }; let d := wCommit c; Can d ∧ pendingCommit d 0 = some c ∧ c.strobed = true ∧ bit (c.switched ||| c.refused) 0 = false ∧ bit c.pausing 0 = false ∧
      (synth d 0 (idleOf (region d 0))).lock = true ∧ d.stop.stopped = false) ∧
    (let c := { commit1 5000000000 with decided := true, strobed := true, retuned := 0, pausing := 1, lent := 1 }; let d := wCommit c; Can d ∧ pendingCommit d 0 = some c ∧ c.strobed = true ∧ bit (c.switched ||| c.refused) 0 = false ∧
      bit c.pausing 0 = true ∧ (synth d 0 (region d 0).live).lock = true) ∧
    (let c := { commit1 5000000000 with decided := true, strobed := true }; let d := { wCommit c with synths := [] }; Can d ∧ pendingCommit d 0 = some c ∧ (synth d 0 (if bit c.pausing 0 then (region d 0).live else idleOf (region d 0))).lock = false) ∧
    (let c := { commit1 5000120000 with retuned := 0, pausing := 1 }; let d := wCommit c; Can d ∧ pendingCommit d 0 = some c ∧ commitOf d c.id = some c ∧ bit c.pausing 0 = true ∧ bit c.lent 0 = false ∧ c.decided = false ∧
      c.count ≤ d.tally.now + 120000 ∧ droverLend 0 5 d = none) ∧
    (let c := { commit1 5000120000 with retuned := 0, pausing := 1 }; let d := { wCommit c with regions := [(0, { select := some 0 }), (1, { select := some 0 })], synths := [(0, { phase := .locked, lock := true }), (2, { phase := .locked, lock := true })] };
      Can d ∧ pendingCommit d 0 = some c ∧ commitOf d c.id = some c ∧ (droverLend 0 5 d).isSome = true ∧ (synth d 0 (region d 0).live).retired = false) ∧
    (let d := wRing 1247 { pauseFrom := some 4999998500 }; Can d ∧ (island d 1247).ring.pauseFrom = some 4999998500 ∧ 4999998500 + 1500 ≤ d.tally.now) := by decide +kernel

/-- A settlement due above the ceiling, a restoring commit due below demand and ceiling, and actions accepted with and without a fence. -/
theorem witness_LimitUnitRequestsAndRegionActions :
    (let d := wRegion 79 { opp := 5, settleDue := some 5000000000 }; let x := region d 79; Can d ∧ x.settleDue = some 5000000000 ∧ commitBlocked d 79 = false ∧ regionCeiling x < x.opp) ∧
    (let d := wRegion 79 { restoreDue := some 5000000000, hostTarget := some 4, ceilings := [] }; let x := region d 79; Can d ∧ x.settleDue = none ∧ x.restoreDue = some 5000000000 ∧ commitBlocked d 79 = false ∧ x.patternTarget = none ∧
      x.opp < min (demand x) (regionCeiling x)) ∧
    (let d := wRegion 79 { actionDue := true }; Can d ∧ (region d 79).fenceDue = none ∧ (region d 79).actionDue = true) ∧
    (let d := wRegion 79 { fenceDue := some (true, 1) }; Can d ∧ (region d 79).fenceDue = some (true, 1)) := by decide +kernel

/-- A context of regions 0 and 1 with a mask entry that names region 0. -/
def ctx : Context := { state := .started, tag := 9, regions := 3, masks := [(1, 1)], segments := [{ base := 4096, records := 2 }], released := true, last := 7 }

/-- A record whose delta carries past the last cycle, one that just fits, and END; a prestretch in the window of an island that has reached its cycle; a request at its issue cycle with a region free. -/
theorem witness_PatternRecordsAreReadAppliedAndIssued :
    (let x := { ctx with last := 2 ^ 56 - 1 }; let d := wContext 15 x; let b := le 4 1 ++ zeros 12; Can d ∧ context d 15 = some x ∧ b.length = 16 ∧ (∀ w ∈ x.window, retirable d x w = false) ∧ x.segments = { base := 4096, records := 2 } :: [] ∧
      x.state = .started ∧ chandlerRuns d = true ∧ x.window.length < 256 ∧ 2 ^ 56 - 1 < x.last + fld b 0 4) ∧
    (let x := { ctx with last := 2 ^ 56 - 2 }; let d := wContext 15 x; let b := le 4 1 ++ zeros 12; Can d ∧ context d 15 = some x ∧ b.length = 16 ∧ x.last + fld b 0 4 ≤ 2 ^ 56 - 1 ∧ 0 + 1 < 2 ∧ fld b 6 1 ≠ 9) ∧
    (let d := wContext 15 ctx; let b := le 4 0 ++ le 2 0 ++ le 1 9 ++ zeros 9; Can d ∧ context d 15 = some ctx ∧ b.length = 16 ∧ ctx.last + fld b 0 4 ≤ 2 ^ 56 - 1 ∧ fld b 6 1 = 9 ∧ (parseRecord b).isSome = true) ∧
    (let w : WinRecord := { cycle := 8, mask := 1, action := .prestretch 1 1 }; let x := { ctx with window := [w] };
      let d := { wContext 0 x with islands := [(0, { ring := { bellows := .injected, count := 8 } })], regions := [(0, { plan := some 0 })] };
      Can d ∧ (region d (islandRegion 0)).plan = some 0 ∧ x.released = true ∧ islandExcused d 0 = false ∧ x.window = [w] ∧ (askedIslands d x w).contains 0 = true ∧ w.applied.contains 0 = false ∧ w.action = .prestretch 1 1 ∧
      w.cycle ≤ (island d 0).ring.count ∧ (island d 0).ring.bellows ≠ .yoke) ∧
    (let w : WinRecord := { cycle := 8, mask := 1, action := .oppRequest 3 8 }; let x := { ctx with window := [w] }; let d := wContext 0 x;
      Can d ∧ x.released = true ∧ x.window = w :: [] ∧ w.action = .oppRequest 3 8 ∧ issuer d x w = some 0 ∧ issueCycle x w ≤ (island d 0).ring.count ∧ (addressed d x w).filter (fun r => !commitBlocked d r) ≠ []) := by decide +kernel

theorem witness_CertificatesAreAssembledAndKept :
    let g : CertWork := { step := 4, regions := [(0, { start := some 10, stop := some 40 }), (1, { start := some 20, stop := some 50 })] }; let x := { ctx with ready := [g] }; let d := wContext 15 x;
    Can d ∧ context d 15 = some x ∧ x.ready = g :: [] ∧ leastOf ((certRegions d x g).filterMap (fun y => y.2.start)) = some 10 ∧ greatestOf ((certRegions d x g).filterMap (fun y => y.2.stop)) = some 50 := by decide +kernel

/-- An interval computed already and one that is due; a window that is used; updates due now and 1 ns later. -/
theorem witness_EnergyIsPricedAndCalibrated :
    (let d := { ready with limits := { ready.limits with intervalEnd := 5000000000 } }; Can d ∧ d.tally.now / 1000 * 1000 = d.limits.intervalEnd) ∧
    (Can ready ∧ ready.tally.now / 1000 * 1000 ≠ ready.limits.intervalEnd ∧ present ready 79 = true) ∧
    (let x : Rail := { target := 700, retention := false, off := false, sawOff := false, reads := 8, sumMw := 8000, sumDyn := 900000000000, sumLeak := 100000000000, sumCal := 1000000000000 }; let d := wRail 4 x; Can d ∧ rail d 4 = x ∧ skipReason d x = 0 ∧ x.hostWrite = none) ∧
    skipReason ready (rail ready 0) = 1 ∧
    (let x : Rail := { update := some (0x4000, 0, 5000000000) }; let d := wRail 4 x; Can d ∧ (rail d 4).update = some (0x4000, 0, 5000000000) ∧ 5000000000 ≤ d.tally.now) ∧
    (let x : Rail := { update := some (0x4000, 0, 5000000001) }; let d := wRail 4 x; Can d ∧ (rail d 4).update = some (0x4000, 0, 5000000001) ∧ d.tally.now < 5000000001) := by decide +kernel

/-- A package loop over its budget; a rail on, one 1 ms after its alert, one whose fall is due, and one whose fall failed. -/
theorem witness_LimitLoopsAndRegulatorAlerts :
    (let d := { ready with limits := { ready.limits with windowEnd := some 4999998000, windowDone := 2 ^ 60, budgetDone := 1150000 } }; Can d ∧ d.limits.windowEnd = some 4999998000 ∧ 4999998000 + 2000 ≤ d.tally.now ∧ (packageLoop d).exceeds = true ∧
      drainOf d (packageLoop d) = none) ∧
    (Can ready ∧ (rail ready 4).off = false) ∧
    (let d := wRail 4 { clearSince := some 4999000000, alertRise := 4999900000 }; let x := rail d 4; Can d ∧ x.fallClear = none ∧ x.clearSince = some 4999000000 ∧ 4999000000 + 1000000 ≤ d.tally.now ∧ x.alertRise + 100000 ≤ d.tally.now ∧ railAlerting x = false) ∧
    (let d := wRail 4 { writtenAt := some 4998000000, falling := true, allowance := 2000000 }; let x := rail d 4; Can d ∧ x.writtenAt = some 4998000000 ∧ x.falling = true ∧ x.confirmed = false ∧ x.fallFailed = false ∧ 4998000000 + x.allowance ≤ d.tally.now) ∧
    (let d := wRail 4 { off := false, fallFailed := true, rewriteAt := 5000000000 }; let x := rail d 4; Can d ∧ x.fallFailed = true ∧ x.rewriteAt ≤ d.tally.now ∧ chandlerRuns d = true ∧ x.off = false) := by decide +kernel

/-- Conversions good at the edge of the range and failed; a region at its hard threshold, one at its soft threshold, and a trip; each thermal deadline at its instant. -/
theorem witness_ThermalThresholdsActOnTheirRegions :
    (∀ ok ∈ [true, false], let x : SensorReading := { sensor := 319, ok := ok, value := 2400 }; Can ready ∧ present ready (x.sensor / 4) = true ∧ (sensor ready x.sensor).retired = false ∧ (rail ready (regionRail (x.sensor / 4))).off = false ∧
      inRange x.value = true ∧ (sensor ready x.sensor).flagged = false) ∧
    (let e := each [{ sensor := 0, ok := true, value := 1680 }] convert ready; (∀ n ∈ validSensors e, (sensor e n).reading < Config.trip) ∧ ready.dormant.leaving = false ∧ 0 ∈ thermalRegions e ∧ regionHottest e 0 = some 1680 ∧ e.limits.hard ≤ 1680) ∧
    (let d := wRegion 0 { thermal := { soft := false } }; let e := each [{ sensor := 0, ok := true, value := 1520 }] convert d; Can d ∧ (∀ n ∈ validSensors e, (sensor e n).reading < Config.trip) ∧ regionHottest e 0 = some 1520 ∧ 1520 < e.limits.hard ∧
      e.limits.soft ≤ 1520 ∧ (region e 0).thermal.soft = false) ∧
    (let e := each [{ sensor := 319, ok := true, value := 1840 }] convert ready; 319 ∈ validSensors e ∧ Config.trip ≤ (sensor e 319).reading ∧ ready.stop.trip = false) ∧
    (let d := wRegion 79 { thermal := { soft := true, softStep := 4999000000, softBelow := some 4999000000, hard := true, hardBelow := some 4999000000, fromReset := false } }; let x := (region d 79).thermal;
      Can d ∧ x.soft = true ∧ x.softStep + 1000000 ≤ d.tally.now ∧ x.softBelow = some 4999000000 ∧ 4999000000 + 1000000 ≤ d.tally.now ∧ x.hard = true ∧ x.hardBelow = some 4999000000 ∧ x.fromReset = false) ∧
    (let d := wRegion 79 { thermal := { hardBelow := some 4999000000 } }; let x := (region d 79).thermal; Can d ∧ x.hard = true ∧ x.hardBelow = some 4999000000 ∧ 4999000000 + 1000000 ≤ d.tally.now ∧ x.fromReset = true) ∧
    (let d := wRegion 79 { thermal := { soft := false, riseFrom := some 4990000000 } }; let x := (region d 79).thermal; Can d ∧ x.soft = false ∧ x.riseFrom = some 4990000000 ∧ 4990000000 + 10000000 ≤ d.tally.now) := by decide +kernel

/-- Flow lost by voltage and by the pin, with flow released and not; each cause off, so that it asserts, and on, so that it releases; a resume 1 ns past. -/
theorem witness_StopsAssertAndRelease :
    (Can ready ∧ (599 < 600 ∨ true = false) ∧ ready.stop.flow = true) ∧ (let d := wStop {}; Can d ∧ (600 < 600 ∨ false = false) ∧ d.stop.flow = false) ∧
    (ready.stop.estop = false ∧ ready.stop.register = false ∧ ready.stop.stopped = false ∧ present ready (islandRegion 0) = true) ∧
    (let d := wStop { ready.stop with flow := false }; Can d ∧ 660 ≤ 660 ∧ d.stop.aonGood = true ∧ d.stop.flow = false ∧ d.startup.ready = 1) ∧
    (let d := wStop { ready.stop with trip := true, tripBelow := some 4990000000 }; Can d ∧ d.stop.trip = true ∧ d.stop.tripBelow = some 4990000000 ∧ 4990000000 + 10000000 ≤ d.tally.now) ∧
    (let d := wStop { ready.stop with estop := true, register := true }; Can d ∧ d.stop.estop = true ∧ d.stop.register = true) ∧
    (let d := wStop { ready.stop with stopped := true, resumeAt := some 4999999999 }; Can d ∧ d.stop.stopped = true ∧ d.stop.resumeAt = some 4999999999 ∧ 4999999999 < d.tally.now) := by decide +kernel

/-- A die that pools in pool 7, with one pool link. -/
def pooling (x : Link) : Die := { wLink 31 x with limits := { ready.limits with pool := 7 } }

/-- A POOL frame of pool 7 from another die with the given kind, want, loan and amount. -/
def poolFrame (kind want amount : Nat) (loan : Int) : Bytes :=
  sealFrame (le 1 0x30 ++ le 1 kind ++ le 2 7 ++ le 2 5 ++ le 2 1 ++ le 2 0xFFFF ++ le 2 0 ++ le 2 1150 ++ le 2 want ++ le 2 0 ++ leI 2 loan ++ le 2 amount ++ zeros 6)

/-- A STATUS round due; a want met by an offer, a loan that does not match twice; GRANT, RETURN and RECALL; loans silent for 20 ms and for 30 ms; a fence breached by another owner; guard caps that rise. -/
theorem witness_PoolMovesBudgetAndFenceGuardCaps :
    (let d := pooling { rxUp := true }; Can d ∧ d.limits.pool ≠ 0 ∧ chandlerRuns d = true ∧ d.limits.roundStart < d.tally.now / 10000000 * 10000000 ∧ (link d 31).rxUp = true) ∧
    (let d := pooling { up := true, rxUp := true, pool := { member := true, offer := 40 } }; let f := poolFrame 0 50 0 0; let p := (link d 31).pool; Can d ∧ f.length = 32 ∧ fld f 2 2 = d.limits.pool ∧ poolFrameOk 0 f = true ∧ p.outstanding = false ∧ fldI f 18 2 = -p.loan ∧
      0 < min (min (fld f 14 2) p.offer) (fifth d - lentTotal d) ∧ d.stop.stopped = false ∧ borrowedTotal d = 0 ∧ (link d 31).up = true) ∧
    (let d := pooling { rxUp := true, pool := { member := true, loan := 3, mismatches := 1 } }; let f := poolFrame 0 0 0 0; let p := (link d 31).pool; Can d ∧ poolFrameOk 0 f = true ∧ p.outstanding = false ∧ fldI f 18 2 ≠ -p.loan ∧ p.mismatches ≠ 0 ∧ fld f 14 2 = 0) ∧
    (let d := pooling { rxUp := true }; let f := poolFrame 1 0 10 10; Can d ∧ f.length = 32 ∧ (link d 31).rxUp = true ∧ poolFrameOk 1 f = true ∧ fld f 2 2 = d.limits.pool) ∧
    (let d := pooling { rxUp := true, pool := { loan := 10 } }; let f := poolFrame 2 0 10 0; Can d ∧ poolFrameOk 2 f = true ∧ 0 < min (fld f 20 2) (link d 31).pool.loan.toNat) ∧
    (let d := pooling { rxUp := true, pool := { loan := -10 } }; let f := poolFrame 3 0 10 (-10); Can d ∧ poolFrameOk 3 f = true ∧ (link d 31).pool.loan < 0) ∧
    (let d := pooling { pool := { loan := -10, lastValid := some 4980000000 } }; Can d ∧ (link d 31).pool.loan < 0 ∧ (link d 31).pool.lastValid = some 4980000000 ∧ 4980000000 + 20000000 ≤ d.tally.now) ∧
    (let d := pooling { pool := { loan := 10, restoreAt := some 5000000000 } }; Can d ∧ 0 < (link d 31).pool.loan ∧ (link d 31).pool.restoreAt = some 5000000000) ∧
    (let d := pooling { pool := { loan := 10, lastValid := some 4970000000 } }; Can d ∧ 0 < (link d 31).pool.loan ∧ (link d 31).pool.restoreAt = none ∧ (link d 31).pool.lastValid = some 4970000000 ∧ 4970000000 + 30000000 ≤ d.tally.now) ∧
    (let d := { ready with
        limits := { ready.limits with intervalEnd := 4999990000, variation := [(2, [5])] }
        tenants := [(1, { made := true, fence := true })]
        regions := [(0, { owner := 1, fenced := true, energy := { disturb := [1001 * Config.ring20] } }), (1, { owner := 2 })] };
      let e := d.limits.intervalEnd / 10000 * 10000; Can d ∧ d.limits.guardEnd < e ∧ e + 2000 ≤ d.tally.now ∧ fencedRegions d 1 ≠ [] ∧ breaches 0 (worst d 100 1) = true ∧ 0 ∈ fencedRegions d 1 ∧ breaches 0 (disturbOver d 100 0) = true ∧
      variation d (regionRail 0) 1 < variation d (regionRail 0) (largestOther d (regionRail 0) 1) ∧ regionRail 0 < 4 ∧ 1 ∈ railRegions d (regionRail 0) ∧ (region d 1).owner = largestOther d (regionRail 0) 1 ∧ fencedRegions d 2 = []) ∧
    (ready.limits.intervalEnd / 10000 * 10000 ≤ ready.limits.guardEnd) ∧
    (∀ c ∈ [14, 15], let d := { ready with tenants := [(1, { made := true, calmSince := some 4990000000 })], regions := [(79, { guards := [(1, c)] })] }; let t := d.tally.now / 10000000 * 10000000;
      Can d ∧ (tenant d 1).calmSince = some 4990000000 ∧ 4990000000 + 10000000 ≤ t ∧ (tenant d 1).riseAt < t ∧ present d 79 = true ∧ (region d 79).guards = [(1, c)] ∧ (tenant d 2).calmSince = none) := by
  refine ⟨?_, ?_, ?_, ?_, ?_, ?_, ?_, ?_, ?_, ?_, ?_, ?_⟩ <;> decide +kernel

/-- An Assay of region 3 in its SPINE phase, since Tally t. -/
def assaying (t : Nat) : Assay := { region := some 3, phase := 1, sub := 0, since := t, covered := [0], values := {} }
def wAssay (a : Assay) : Die := wStore { ready.store with assay := some a }

/-- A waiting Assay whose commit has ended; a phase at its end, with items that agree at the limit of 20 and do not; one 1 ns before; the close of an Assay of one operating point. -/
theorem witness_AssayPhasesMeasureAndClose :
    (let a := { assaying 0 with waiting := true }; let d := wAssay a; Can d ∧ d.store.assay = some a ∧ a.waiting = true ∧ a.region = some 3 ∧ pendingCommit d 3 = none) ∧
    (let a := assaying 4998000000; let d := wAssay a; let m : AssayItem := { item := 1, id := 3, m1 := [100], m2 := [120] };
      Can d ∧ d.store.assay = some a ∧ a.waiting = false ∧ a.phase ≠ 5 ∧ a.since + phaseEndNs a ≤ d.tally.now ∧ m.item = 1 ∧ phaseMeasures d a m = true ∧ agreeing [some 20] m.m1 m.m2 m.m3 = some ([100], [120]) ∧
      agreeing [some 20] [100] [121] [200] = none) ∧
    (let a := assaying 4998000001; let d := wAssay a; Can d ∧ d.store.assay = some a ∧ a.waiting = false ∧ d.tally.now < a.since + phaseEndNs a) ∧
    (let a := { assaying 4982000000 with phase := 5, values := { regions := [(3, { spine := 7 })] } }; let d := wAssay a; Can d ∧ d.store.assay = some a ∧ a.waiting = false ∧ a.phase = 5 ∧ a.since + assayLength a ≤ d.tally.now ∧ a.region.isSome = true ∧
      3 ∈ assayRegions d a ∧ 4 ∉ assayRegions d a ∧ tget {} a.values.regions 3 ≠ {}) := by decide +kernel

/-- A store write into slot 1 at a stage. -/
def writing (stage blocks : Nat) : StoreWrite := { slot := 1, source := 3, generation := 2, stage := stage, blocks := blocks, image := {}, since := 0 }

/-- The 31st and the last block, programming and verifying; a retirement due after a failure, and nothing in progress. -/
theorem witness_StoreWritesEraseProgramVerify :
    (∀ w ∈ [writing 0 30, writing 0 31, writing 1 32, writing 2 32], (wStore { ready.store with write := some w }).store.write = some w) ∧
    ((writing 0 30).stage = 0 ∧ (writing 0 30).blocks < 31 ∧ (writing 0 31).blocks = 31 ∧ (writing 1 32).stage = 1 ∧ (writing 1 32).stage < 2 ∧ (writing 2 32).stage = 2 ∧ 2 ≤ (writing 2 32).stage ∧ (writing 2 32).slot < 2 ∧ 0 ≠ (writing 2 32).slot) ∧
    (let d := wStore { ready.store with retireDue := some 5000000000, lastFailed := true }; d.store.write = none ∧ d.store.retireDue = some 5000000000 ∧ 5000000000 ≤ d.tally.now ∧ d.store.absent = false ∧ chandlerRuns d = true ∧ d.store.lastFailed = true) ∧
    (ready.store.write = none ∧ ready.store.lastFailed = false) := by decide +kernel

/-- The pair in a state, with the last heartbeat at t and, in core 1, the given failures. -/
def pairIn (p : Pair) (t : Nat) (l : List Nat) : Die := { ready with chandler := { pair := p, lastBeat := t, core1 := { failures := l, restart := some 4980000000 } } }

/-- The pair in each state of Table 13.1 in which a clause acts, at its deadline, and with a first and a third failure. -/
theorem witness_ChandlerPairFailsOverAndRestarts :
    (let d := { ready with tally := { ready.tally with now := 5000050000 } }; primaryRuns d = true ∧ d.tally.now % 100000 = 50000) ∧
    (∀ p ∈ [Pair.synced, .single, .syncing, .restarting], let d := pairIn p 4999850000 []; d.chandler.pair = p ∧ d.chandler.lastBeat + 150000 ≤ d.tally.now ∧ d.chandler.primary < 2) ∧
    (let d := pairIn .takeover 0 []; d.chandler.pair = .takeover ∧ d.chandler.primary < 2 ∧ Can d ∧ permanent (Machine.core d (1 - d.chandler.primary)).failures = false) ∧
    (let d := pairIn .takeover 0 [3, 2, 1]; d.chandler.pair = .takeover ∧ Can d ∧ permanent (Machine.core d (1 - d.chandler.primary)).failures = true) ∧
    (∀ l ∈ [[], [4999999999, 4999999998]], let d := pairIn .synced 0 l; 1 < 2 ∧ 1 ≠ d.chandler.primary ∧ d.chandler.pair = .synced ∧ permanent (addFailure d.tally.now (Machine.core d 1).failures) = (l != [])) ∧
    (let d := pairIn .synced 4999850001 []; d.tally.now < d.chandler.lastBeat + 150000) ∧
    (∀ p ∈ [Pair.restarting, .syncing], let d := pairIn p 0 []; d.chandler.pair = p ∧ d.chandler.primary < 2 ∧ (Machine.core d (1 - d.chandler.primary)).restart = some 4980000000 ∧ 4980000000 + 20000000 ≤ d.tally.now) := by decide +kernel

/-- A command in execution: a descriptor with the opcode, queue, sequence number 7 and payload, its slot and its staged input. -/
def descOf (op q : Nat) (p : Bytes) : Bytes := fit 64 (le 2 op ++ zeros 1 ++ le 1 q ++ le 4 7 ++ zeros 8 ++ p)
def execOf (op q : Nat) (p staged : Bytes) (again : Bool) : Exec := { desc := descOf op q p, slot := 0, staged := staged, reexecuted := again }

/-- A full queue at the turn of its counts: tails 64 and 65 ahead, heads up to and past the tail; resets with and without a command in execution. -/
theorem witness_QueueRegistersMoveTheirCounts :
    (let x : Queue := { subHead := 65535, subTail := 65535, cplTail := 3 }; let d := wQueue 16 x; Can d ∧ queue d 16 = x ∧ ahead x.subHead (63 % 65536) ≤ 64 ∧ ahead x.subTail (63 % 65536) ≤ 64 ∧ 64 < ahead x.subHead (64 % 65536) ∧
      ahead x.cplHead (3 % 65536) ≤ ahead x.cplHead x.cplTail ∧ ahead x.cplHead x.cplTail < ahead x.cplHead (4 % 65536) ∧ x.resetting = none ∧ x.exec = none) ∧
    (let x : Queue := { exec := some (execOf 0x0106 0 [] [] false) }; let d := wQueue 0 x; Can d ∧ (queue d 0).resetting = none ∧ (queue d 0).exec = some (execOf 0x0106 0 [] [] false)) ∧
    (let d := wQueue 0 { resetting := some 0 }; Can d ∧ (queue d 0).resetting.isSome = true) := by decide +kernel

/-- A plan.read descriptor for queue q of sequence number n, of the given payload length, with its CRC. -/
def readDesc (q n len : Nat) : Bytes :=
  let h := le 2 0x0106 ++ le 1 0 ++ le 1 q ++ le 4 n ++ le 2 len ++ zeros 2
  h ++ le 4 (crc32c (h ++ zeros 48)) ++ zeros 48

/-- Queue q with one descriptor to fetch, the sequence number it expects, and a completion stored. -/
def fetching (q : Nat) (b : Bytes) (expect : Option Nat) : Die :=
  { wQueue q { bound := true, subHead := 63, subTail := 64, expect := expect, stored := [{ seq := 5, status := 0, flags := 0, result := 1, detail := 0xFFFF }] } with sram := sramPut [] (queueBase q + 64 * 63) b }

/-- The descriptor in the last slot that fails its CRC, that names another queue, that is out of sequence, a duplicate, good, and of a wrong length; and a queue with nothing to fetch. -/
theorem witness_DescriptorsAreFetchedAndChecked :
    (let d := fetching 1 (readDesc 1 8 4) (some 8); let b := sramRead d (queueBase 1 + 64 * 63) 64; Can d ∧ chandlerRuns d = true ∧ (queue d 1).subHead ≠ (queue d 1).subTail ∧ ahead (queue d 1).cplHead (queue d 1).cplTail < 64 ∧ (queue d 1).exec = none ∧
      (queue d 1).resetting = none ∧ fld b 12 4 = crc32c (b.take 12 ++ b.drop 16) ∧ (queue d 1).bound = true ∧ fld b 3 1 = 1 ∧ (queue d 1).expect = some (fld b 4 4) ∧ headerRefusal b = none) ∧
    (let d := fetching 1 (1#8 :: zeros 63) (some 8); let b := sramRead d (queueBase 1 + 64 * 63) 64; Can d ∧ ¬ fld b 12 4 = crc32c (b.take 12 ++ b.drop 16)) ∧
    (let d := fetching 1 (readDesc 2 8 4) (some 8); let b := sramRead d (queueBase 1 + 64 * 63) 64; Can d ∧ fld b 12 4 = crc32c (b.take 12 ++ b.drop 16) ∧ ¬ fld b 3 1 = 1) ∧
    (let d := fetching 1 (readDesc 1 9 4) (some 8); let b := sramRead d (queueBase 1 + 64 * 63) 64; Can d ∧ fld b 12 4 = crc32c (b.take 12 ++ b.drop 16) ∧ fld b 4 4 ≠ 8 ∧ (queue d 1).stored.find? (fun k => decide (k.seq = fld b 4 4)) = none) ∧
    (let d := fetching 1 (readDesc 1 5 4) (some 8); let b := sramRead d (queueBase 1 + 64 * 63) 64; Can d ∧ fld b 12 4 = crc32c (b.take 12 ++ b.drop 16) ∧ fld b 4 4 ≠ 8 ∧
      (queue d 1).stored.find? (fun k => decide (k.seq = fld b 4 4)) = some { seq := 5, status := 0, flags := 0, result := 1, detail := 0xFFFF }) ∧
    (let d := fetching 1 (readDesc 1 8 5) none; let b := sramRead d (queueBase 1 + 64 * 63) 64; Can d ∧ fld b 12 4 = crc32c (b.take 12 ++ b.drop 16) ∧ (queue d 1).expect = none ∧ headerRefusal b = some (5, 0xFFFF)) ∧
    (Can ready ∧ (queue ready 16).subHead = (queue ready 16).subTail) := by decide +kernel

theorem witness_CompletionsAreStoredAndPosted :
    (let e := execOf 0x0106 16 [] [] false; let d := wQueue 16 { exec := some e }; Can d ∧ (queue d 16).exec = some e ∧ (queue d 16).resetting = none) ∧
    (let e := execOf 0x0106 16 [] [] false; let d := wQueue 16 { exec := some e, resetting := some 0 }; Can d ∧ (queue d 16).exec = some e ∧ (queue d 16).resetting = some 0 ∧ (Reply.done 0 none) ≠ .wait) := by decide +kernel

/-- The second and the third failed frame; a good write, a read 10 mV off the target, a confirmation 2 µs after its write; telemetry in progress, valid, invalid and late. -/
theorem witness_RailTransactionsCompleteOrFail :
    (∀ n ∈ [1, 2], let d := wRail 4 { busy := some .status, failed := n }; Can d ∧ (rail d 4).busy = some .status ∧ avsFailed { crcOk := false } = true ∧ (rail d 4).failed = n) ∧
    (let d := wRail 4 { off := false, target := 700, busy := some (.target 700) }; let x := rail d 4; Can d ∧ x.busy = some (.target x.target) ∧ avsFailed {} = false ∧ d.stop.testForce = false ∧ x.dead = false ∧ x.alert = false ∧ railAlerting x = false) ∧
    (let d := wRail 4 { off := false, target := 700, busy := some .confirm, writtenAt := some 1 }; let x := rail d 4; Can d ∧ x.busy = some .confirm ∧ avsFailed { data := 710 } = false ∧ x.writtenAt = some 1 ∧ 710 ≤ x.target + 10 ∧ x.target ≤ 710 + 10 ∧
      x.dead = false ∧ x.alert = false ∧ railAlerting x = false ∧ d.stop.testForce = false) ∧
    (let d := wRail 4 { off := false, writtenAt := some 4999998000 }; let x := rail d 4; Can d ∧ x.writtenAt = some 4999998000 ∧ x.confirmed = false ∧ x.off = false ∧ 4999998000 + 2000 ≤ d.tally.now) ∧
    (let d := wRail 4 { pmbus := some true, pmbusAt := 4999980000 }; let x := rail d 4; Can d ∧ x.pmbus = some true ∧ x.pmbusAt + 20000 ≤ d.tally.now ∧ (20000 ≤ 20000 ∧ d.stop.testForce = false) ∧ 20000 < 20001) ∧
    (let d := wRail 4 { pmbus := some false }; Can d ∧ (rail d 4).pmbus = some false) := by decide +kernel

/-- A stream access of a started context, of a running drain, and of a ledger.read in execution on the first queue that executes. -/
theorem witness_StreamAccessFailuresEndTheirReaders :
    (let d := wContext 15 ctx; Can d ∧ context d 15 = some ctx ∧ ctx.state = .started ∧ ctx.segments ≠ []) ∧
    (let d := { ready with ledger := { drain := { running := true } } }; Can d ∧ d.ledger.drain.running = true ∧ d.ledger.drain.stopping = false) ∧
    (let e := execOf 0x0703 16 [] [] false; let d := wQueue 16 { exec := some e }; Can d ∧ chandlerRuns d = true ∧ (queue d 16).exec = some e ∧ streamOpcodes.contains (fld e.desc 0 2) = true ∧ (queue d 16).resetting = none ∧ ∀ p < 16, (queue d p).exec = none) := by
  decide +kernel

/-- An event that waits; a freeze of a Ledger that runs; a 10 µs window over the threshold, and ones under it with and without an open span. -/
theorem witness_EventsBecomeRecordsAndSpans :
    (let p : Machine.Pending := { tally := 0, cycle := 0, code := 2, id := 0, tag := 0, payload := [] }; let g : Ledger := { queue := [p] }; g.queue = p :: [] ∧ g.ring.length + 1 ≤ 65536 ∧ g.overflow = 0 ∧ g.drain.running = false) ∧
    ((List.replicate 65536 ({ tally := 0, cycle := 0, code := 2, id := 0, tag := 0, payload := [] } : Record)).length = 65536) ∧
    (bit 1 0 = true ∧ bit 2 0 = false ∧ ready.ledger.frozen = false ∧ ready.ledger.queue = []) ∧
    (let d := wMargin 1247 { winDelivered := 100, winStretched := 26 }; Can d ∧ spanWindow d.ledger.share (island d 1247).margin = true) ∧
    (let d := wMargin 1247 { winDelivered := 100, winStretched := 25 }; Can d ∧ spanWindow d.ledger.share (island d 1247).margin = false ∧ (island d 1247).margin.span = none) ∧
    (let d := wMargin 1247 { winDelivered := 100, span := some (0, 1, 80, 9, 0) }; Can d ∧ spanWindow d.ledger.share (island d 1247).margin = false ∧ (island d 1247).margin.span.isSome = true) := by
  refine ⟨by decide +kernel, List.length_replicate, ?_⟩
  decide +kernel

/-- A record 100 µs old in a ring of 16 pages; the oldest page complete, and the second before the first; heads up to and past the tail. -/
theorem witness_DrainPagesGoOutInOrder :
    (let y : Record := { tally := 4999900000, cycle := 0, code := 2, id := 0, tag := 0, payload := [] }; let x : Drain := { running := true, pages := 16 }; let g : Ledger := { ring := [y], index := 1, count := 1, drain := x };
      recordNumber g (max x.next (oldestRecord g)) = some y ∧ y.tally + 100000 ≤ ready.tally.now ∧ x.stopping = false ∧ drainRoom x = true ∧ x.lost = 0 ∧ x.next < g.count) ∧
    (let x : Drain := { running := true, pages := 16, outstanding := [(0, 128, false)] }; x.running = true ∧ x.stopping = false ∧ x.outstanding = [(0, 128, false)] ∧ (x.tail + 1) % 2 ^ 32 ≠ x.tail) ∧
    (let x : Drain := { running := true, pages := 16, outstanding := [(0, 128, false), (1, 256, false)] }; x.outstanding = (0, 128, false) :: [(1, 256, false)] ∧ 0 ≠ 1 ∧ 1 ∈ [(1, 256, false)].map (fun t : Nat × Nat × Bool => t.1)) ∧
    (pagesAhead 3 (5 % 2 ^ 32) ≤ pagesAhead 3 5 ∧ pagesAhead 3 5 < pagesAhead 3 (6 % 2 ^ 32)) := by decide +kernel

/-- A die with one present region, 0, in a plan or idle, with the tolerance given. -/
def idling (x : Region) : Die := { ready with startup := { ready.startup with fuses := { present := 1 } }, regions := [(0, x)] }

/-- A region absent; running and wanting to; idle with the tolerance of Gate, and of Bank with and without a lender; every region idle enough for Dormant; and in Dormant with one that is not. -/
theorem witness_IdleRegionsMoveBetweenPowerStates :
    (let d := idling { tolerance := 1 }; Can d ∧ present d 71 = false) ∧
    (let d := idling { plan := some 0 }; Can d ∧ present d 0 = true ∧ d.dormant.in_ = false ∧ dormantWanted d = false ∧ powerWanted d 0 = (region d 0).power ∧ powerWanted d 0 < 3) ∧
    (let d := idling { tolerance := 120000 }; Can d ∧ present d 0 = true ∧ d.dormant.in_ = false ∧ dormantWanted d = false ∧ powerWanted d 0 = 3 ∧ (region d 0).power < 3 ∧ droverLend 0 2 d = none) ∧
    (let d := { ready with regions := [(0, { tolerance := 120000 }), (1, { select := some 0 })], synths := [(2, { phase := .locked, lock := true })] }; Can d ∧ present d 0 = true ∧ powerWanted d 0 = 3 ∧ (droverLend 0 2 d).isSome = true ∧ dormantWanted d = false) ∧
    (let d := { ready with regions := (List.range 80).map (fun r => (r, { tolerance := 4000000 })) }; Can d ∧ present d 79 = true ∧ d.dormant.in_ = false ∧ dormantWanted d = true ∧ chandlerRuns d = true ∧ d.stop.stopped = false) ∧
    (let d := { ready with dormant := { in_ := true } }; Can d ∧ present d 79 = true ∧ d.dormant.in_ = true ∧ d.dormant.leaving = false ∧ dormantWanted d = false ∧ chandlerRuns d = true) := by decide +kernel

/-- Region resets 1 µs old, without SYNTH and with it, and one 1 ns younger; an island's; a plan whose start Tally has come and one still waiting. -/
theorem witness_ResetsEndAndPlansAreReleased :
    (let x : RegionReset := { since := 4999999000, synth := true, relocked := true }; let d := wRegion 79 { reset := some x }; Can d ∧ (region d 79).reset = some x ∧ x.since + 1000 ≤ d.tally.now ∧ x.relocked = true ∧ (region d 79).drover = .own) ∧
    (let x : RegionReset := { since := 4999999001, synth := false }; let d := wRegion 79 { reset := some x }; Can d ∧ (region d 79).reset = some x ∧ d.tally.now < x.since + 1000) ∧
    (let d := wRing 1247 { resetSince := some 4999999000 }; Can d ∧ (island d 1247).ring.resetSince = some 4999999000 ∧ 4999999000 + 1000 ≤ d.tally.now) ∧
    (let d := wRing 1247 { resetSince := some 4999999001 }; Can d ∧ (island d 1247).ring.resetSince = some 4999999001 ∧ d.tally.now < 4999999001 + 1000) ∧
    (let x := { ctx with released := false, startTally := 5000000000 }; let d := wContext 15 x; Can d ∧ context d 15 = some x ∧ x.released = false ∧ x.state ≠ .loaded ∧ x.startTally ≤ d.tally.now) ∧
    (let x := { ctx with released := false, state := .loaded }; let d := wContext 15 x; Can d ∧ context d 15 = some x ∧ x.released = false ∧ x.state = .loaded) := by decide +kernel

/-- Words of the test port with the debug fuse 1 and 0. -/
theorem witness_RegistersLatchAndTakeAlignedWrites :
    Can ready ∧ ready.stop.aonGood = true ∧ bit 0x41 14 = false ∧ bit (0x41 + 2 ^ 14) 14 = true ∧ ready.startup.fusesRead = true ∧ (0x41 + 2 ^ 14) % 2 ^ 14 = 0x41 ∧ ready.startup.fuses.debug = false ∧
      (let d := { ready with startup := { ready.startup with fuses := { debug := true } } }; d.startup.fuses.debug = true ∧ d.startup.fusesRead = true) := by decide +kernel

/-! ### Commands of the mailboxes -/

/-- The die with the command e in execution on queue q. -/
def doing (d : Die) (q : Nat) (e : Exec) : Die := { d with queues := [(q, { bound := true, exec := some e })] }

/-- A loaded context of regions 0 and 1. -/
def loaded : Context := { ctx with state := .loaded, segments := [], released := false }

/-- plan.load over regions 0 and 1 into context 0; re-executed, and answered by its key; plan.start at its least lead; plan.arm of a new segment and in resumption; plan.read. -/
theorem witness_PlansAreLoadedStartedAndArmed :
    (let e := execOf 0x0101 0 (le 10 3 ++ le 2 9 ++ le 2 5408) (zeros 5408) false; let p := e.desc.drop 16; let d := doing ready 0 e;
      Can d ∧ Executing (S d) 0 0x0101 e ∧ e.reexecuted = false ∧ fld p 10 2 ≠ 0 ∧ ZeroBytes p 14 16 ∧ fld p 12 2 = 5408 ∧ d.startup.ready = 1 ∧ fld p 0 10 ≠ 0 ∧
      (∀ r ∈ setRegions (fld p 0 10), present d r = true ∧ (region d r).owner = 0 ∧ (region d r).retired = false ∧ inPlan d r = false) ∧ context d 0 = none ∧ (∀ k < 0, (context d k).isSome = true)) ∧
    (let e := execOf 0x0101 0 [] [] true; let d := doing (wContext 15 { ctx with key := some (0, 7) }) 0 e; Can d ∧ Executing (S d) 0 0x0101 e ∧ e.reexecuted = true ∧ keyedContext d (0, fld e.desc 4 4) = some 15) ∧
    (let e := execOf 0x0102 0 (le 1 15 ++ zeros 7 ++ le 8 40 ++ le 8 5000200000) [] false; let p := e.desc.drop 16; let d := doing (wContext 15 loaded) 0 e;
      Can d ∧ NamesContext d 0 (fld p 0 1) 15 loaded ∧ Executing (S d) 0 0x0102 e ∧ ZeroBytes p 1 8 ∧ ZeroBytes p 15 16 ∧ d.startup.ready = 1 ∧ loaded.state = .loaded ∧ (∀ r ∈ setRegions loaded.regions, underAssay d r = false ∧ inBank d r = false) ∧
      d.stop.stopped = false ∧ fld p 16 8 % 10 = 0 ∧ d.tally.now + 200000 ≤ fld p 16 8 ∧ fld p 16 8 ≤ d.tally.now + 10000000000) ∧
    (let e := execOf 0x0103 0 (le 1 15 ++ le 1 0 ++ zeros 2 ++ le 4 (2 ^ 24) ++ le 8 16) [] false; let p := e.desc.drop 16; let d := doing (wContext 15 ctx) 0 e;
      Can d ∧ NamesContext d 0 (fld p 0 1) 15 ctx ∧ Executing (S d) 0 0x0103 e ∧ ZeroBytes p 2 4 ∧ ZeroBytes p 20 24 ∧ 0 < fld p 4 4 ∧ fld p 4 4 ≤ 2 ^ 24 ∧ fld p 8 8 % 16 = 0 ∧ fld p 1 1 = 0 ∧ fld p 16 4 = 0 ∧ ctx.state = .started ∧ ctx.segments.length < 4) ∧
    (let x := { ctx with state := .fault 2 }; let e := execOf 0x0103 0 (le 1 15 ++ le 1 1 ++ zeros 2 ++ le 4 2 ++ le 8 16 ++ le 4 1) [] false; let p := e.desc.drop 16; let d := doing (wContext 15 x) 0 e;
      Can d ∧ NamesContext d 0 (fld p 0 1) 15 x ∧ Executing (S d) 0 0x0103 e ∧ ZeroBytes p 2 4 ∧ ZeroBytes p 20 24 ∧ 0 < fld p 4 4 ∧ fld p 8 8 % 16 = 0 ∧ fld p 1 1 = 1 ∧ fld p 16 4 < fld p 4 4 ∧ x.state = .fault 2) ∧
    (let e := execOf 0x0106 0 (le 1 15) [] false; let p := e.desc.drop 16; let d := doing (wContext 15 ctx) 0 e; Can d ∧ NamesContext d 0 (fld p 0 1) 15 ctx ∧ Executing (S d) 0 0x0106 e ∧ ZeroBytes p 1 4) := by
  unfold Executing NamesContext ZeroBytes
  refine ⟨⟨by decide +kernel, ⟨by decide +kernel, rfl, by decide +kernel, by decide +kernel⟩, ?_⟩, ?_, ?_, ?_, ?_, ?_⟩ <;> decide +kernel

/-- A field of zeros is zero. -/
theorem fld_zeros (n o k : Nat) : fld (zeros n) o k = 0 := by
  have h : ∀ m, unle (List.replicate m 0#8) = 0 := fun m => by
    induction m with
    | zero => rfl
    | succ m ih => simp [List.replicate_succ, unle, ih]
  simp [fld, zeros, h]

/-- The staging of the plan.load above is legal, and no context of its queue stands in the way. -/
theorem witness_PlanStaged : PlanStaged ready (zeros 5408) 3 ∧ ∀ k x, k < 16 → context ready k = some x → x.owner ≠ 0 := by
  refine ⟨?_, fun k x _ h => nomatch h⟩
  simp [PlanStaged, fld_zeros, bit]

/-- plan.unload, and plan.couple of one edge and of one link inside the plan, on and off, free and refused by a fence. -/
theorem witness_PlansAreUnloadedAndCoupled :
    (let e := execOf 0x0104 0 (le 1 15) [] false; let p := e.desc.drop 16; let d := doing (wContext 15 ctx) 0 e; Can d ∧ NamesContext d 0 (fld p 0 1) 15 ctx ∧ Executing (S d) 0 0x0104 e ∧ ZeroBytes p 1 4) ∧
    (∀ on ∈ [0, 1], let e := execOf 0x0105 0 (le 1 15 ++ le 1 on ++ zeros 2 ++ le 2 3 ++ le 14 (2 ^ 112 - 1)) [] false; let p := e.desc.drop 16; let d := doing (wContext 15 ctx) 0 e;
      Can d ∧ NamesContext d 0 (fld p 0 1) 15 ctx ∧ Executing (S d) 0 0x0105 e ∧ ZeroBytes p 2 4 ∧ fld p 1 1 ≤ 1 ∧ d.startup.ready = 1 ∧ coupleEdges p ≠ [] ∧
      (∀ v ∈ coupleEdges p, edgeField v.1 = true ∧ edgeInside ctx v.1 = true ∧ (v.1 < 2332 → edgeExists d v.1 = true)) ∧ (coupleEdges p).map (·.1) = [3] ∧ refusal d (fun _ => true) 3 = none) ∧
    (let d := { wContext 15 ctx with regions := [(0, { retired := true })] }; Can d ∧ refusal d (fun _ => true) 3 ≠ none) ∧
    (let x := { ctx with regions := 2 ^ linkRegion 31 }; let e := execOf 0x0105 0 (le 1 15 ++ le 1 1 ++ zeros 2 ++ le 2 0x801F ++ le 14 (2 ^ 112 - 1)) [] false; let p := e.desc.drop 16; let d := doing (wContext 15 x) 0 e;
      Can d ∧ NamesContext d 0 (fld p 0 1) 15 x ∧ Executing (S d) 0 0x0105 e ∧ (∀ v ∈ coupleEdges p, edgeField v.1 = true ∧ edgeInside x v.1 = true ∧ (v.1 < 2332 → edgeExists d v.1 = true)) ∧ (coupleEdges p).map (·.1) = [0x801F]) := by
  unfold Executing NamesContext ZeroBytes; refine ⟨?_, ?_, ?_, ?_⟩ <;> decide +kernel

/-- opp.commit of region 0 to OPP 15 at its least lead, and re-executed; opp.cancel of an undecided commit; regions absent and present with a readable bin. -/
theorem witness_OppCommandsCommitCancelAndRead :
    (let e := execOf 0x0201 0 (le 10 1 ++ le 1 15 ++ zeros 5 ++ le 8 5000120000) [] false; let p := e.desc.drop 16; let d := doing ready 0 e; let t := fld p 16 8;
      Can d ∧ Executing (S d) 0 0x0201 e ∧ e.reexecuted = false ∧ fld p 10 1 < 16 ∧ ZeroBytes p 11 16 ∧ fld p 0 10 ≠ 0 ∧ d.startup.ready = 1 ∧ d.stop.stopped = false ∧
      (∀ r ∈ setRegions (fld p 0 10), present d r = true ∧ (region d r).owner = 0 ∧ commitBlocked d r = false) ∧ t % 10 = 0 ∧ d.tally.now + Config.commitLead ≤ t ∧ t ≤ d.tally.now + 10000000000) ∧
    (let e := execOf 0x0201 0 [] [] true; let c := { commit1 9 with key := some (0, 7) }; let d := doing (wCommit c) 0 e; Can d ∧ Executing (S d) 0 0x0201 e ∧ e.reexecuted = true ∧ keyedCommit d (0, fld e.desc 4 4) = some c) ∧
    (let e := execOf 0x0202 0 (le 4 1) [] false; let p := e.desc.drop 16; let c := commit1 9; let d := doing (wCommit c) 0 e; Can d ∧ Executing (S d) 0 0x0202 e ∧ d.startup.ready = 1 ∧ commitOf d (fld p 0 4) = some c ∧ c.decided = false ∧ c.source = .host) ∧
    (let e := execOf 0x0203 0 [] [] false; let d := doing ready 0 e; Can d ∧ Executing (S d) 0 0x0203 e ∧ present d 79 = true ∧ d.startup.fuses.bins.getD 79 0 < 4) ∧
    (let d := idling { tolerance := 1 }; Can d ∧ present d 71 = false) := by
  unfold Executing ZeroBytes; refine ⟨?_, ?_, ?_, ?_, ?_⟩ <;> decide +kernel

/-- cap.set of each kind at a bound; cap.ceiling that sets, removes and unlatches; cap.read of each kind; pool.set with a change and without; pool.read. -/
theorem witness_CapAndPoolCommandsSetLimits :
    (let e := execOf 0x0301 0 (zeros 8 ++ le 2 1150 ++ le 2 1600) [] false; let p := e.desc.drop 16; let d := doing ready 0 e;
      Can d ∧ Executing (S d) 0 0x0301 e ∧ ZeroBytes p 1 8 ∧ fld p 0 1 = 0 ∧ ZeroBytes p 12 48 ∧ 100 ≤ fld p 8 2 ∧ fld p 8 2 ≤ fld p 10 2 ∧ fld p 8 2 ≤ 1150 ∧ fld p 10 2 ≤ 1600) ∧
    (let e := execOf 0x0301 0 (le 1 1 ++ zeros 7 ++ le 2 360 ++ le 2 50 ++ le 2 300 ++ le 2 50 ++ le 2 20 ++ le 2 480 ++ le 2 50 ++ le 2 400 ++ le 2 50 ++ le 2 20) [] false; let p := e.desc.drop 16; let d := doing ready 0 e;
      Can d ∧ Executing (S d) 0 0x0301 e ∧ ZeroBytes p 1 8 ∧ fld p 0 1 = 1 ∧ ZeroBytes p 28 48 ∧
      ∀ k < 5, capLeast k ≤ fld p (8 + 2 * k) 2 ∧ fld p (8 + 2 * k) 2 ≤ capTop k ∧ capLeast k ≤ fld p (18 + 2 * k) 2 ∧ fld p (18 + 2 * k) 2 ≤ limitTop k) ∧
    (let e := execOf 0x0301 0 (le 1 2 ++ zeros 7 ++ le 2 1120 ++ le 2 1200) [] false; let p := e.desc.drop 16; let d := doing ready 0 e;
      Can d ∧ Executing (S d) 0 0x0301 e ∧ ZeroBytes p 1 8 ∧ fld p 0 1 = 2 ∧ ZeroBytes p 12 48 ∧ 1120 ≤ fldI p 8 2 ∧ fldI p 8 2 + 80 ≤ fldI p 10 2 ∧ fldI p 8 2 ≤ 1520 ∧ fldI p 10 2 ≤ 1680) ∧
    (let e := execOf 0x0301 0 (le 1 3) (le 2 4096 ++ zeros 168) false; let p := e.desc.drop 16; let d := doing ready 0 e;
      Can d ∧ Executing (S d) 0 0x0301 e ∧ ZeroBytes p 1 8 ∧ fld p 0 1 = 3 ∧ ZeroBytes p 8 48 ∧ (∀ r < 80, fld e.staged (2 * r) 2 ≤ 4096 ∧ (present d r = false → fld e.staged (2 * r) 2 = 0)) ∧
      total ((presentRegions d).map (fun r => fld e.staged (2 * r) 2)) = 4096) ∧
    (∀ b ∈ [15, 16, 32], let e := execOf 0x0302 0 (le 10 (2 ^ 79) ++ le 1 b) [] false; let p := e.desc.drop 16; let d := doing (wRegion 79 { latched := true }) 0 e;
      Can d ∧ Executing (S d) 0 0x0302 e ∧ fld p 10 1 = b ∧ b < 64 ∧ ZeroBytes p 11 16 ∧ fld p 0 10 ≠ 0 ∧ (∀ r ∈ setRegions (fld p 0 10), present d r = true) ∧ (bit b 5 = false ↔ b ≠ 32) ∧ (region d 79).latched = true) ∧
    (∀ v ∈ [(0, 0, 79), (1, 4, 0), (2, 0, 0)], let e := execOf 0x0303 0 (le 1 v.1 ++ le 1 v.2.1 ++ le 2 v.2.2) [] false; let p := e.desc.drop 16; let d := doing ready 0 e;
      Can d ∧ Executing (S d) 0 0x0303 e ∧ (fld p 0 1, fld p 1 1, fld p 2 2) = v ∧ v.2.1 ≤ 4 ∧ v.2.2 < 80 ∧ present d v.2.2 = true) ∧
    (∀ v ∈ [(0, 1150), (7, 100)], let e := execOf 0x0401 0 (le 2 v.1 ++ le 2 v.2) [] false; let p := e.desc.drop 16; let d := doing (wLink 31 { pool := { loan := 5 } }) 0 e;
      Can d ∧ Executing (S d) 0 0x0401 e ∧ (fld p 0 2, fld p 2 2) = v ∧ 100 ≤ fld p 2 2 ∧ fld p 2 2 ≤ 1150 ∧ ((v.1 = d.limits.pool ∧ v.2 = d.limits.base) ↔ v.1 = 0) ∧ 0 < (link d 31).pool.loan) ∧
    (let e := execOf 0x0402 0 [] [] false; let d := doing ready 0 e; Can d ∧ Executing (S d) 0 0x0402 e) := by
  unfold Executing ZeroBytes; refine ⟨?_, ?_, ?_, ?_, ?_, ?_, ?_, ?_⟩ <;> decide +kernel

/-- A die with tenant 16 made, which owns region 79. -/
def hosting : Die := { ready with tenants := [(16, { made := true })], regions := [(79, { owner := 16 })] }

/-- The tenant commands on tenant 16, with a quota that just fits, and the move of a region to a tenant and to owner 0. -/
theorem witness_TenantCommandsMakeMoveAndFence :
    (let e := execOf 0x0501 0 (le 1 16 ++ le 1 255) [] false; let p := e.desc.drop 16; let d := doing ready 0 e; let t := fld p 0 1;
      Can d ∧ Executing (S d) 0 0x0501 e ∧ 1 ≤ t ∧ t ≤ 16 ∧ ZeroBytes p 2 4 ∧ (tenant d t).made = false ∧ e.reexecuted = false ∧ quotas d + fld p 1 1 + heldBy d 0 ≤ 256 ∧ (queue d t).exec = none) ∧
    (let e := execOf 0x0502 0 (le 1 16) [] false; let p := e.desc.drop 16; let d := doing { hosting with watches := [(255, { used := true, owner := 16 })] } 0 e; let t := fld p 0 1;
      Can d ∧ Executing (S d) 0 0x0502 e ∧ 1 ≤ t ∧ t ≤ 16 ∧ ZeroBytes p 1 4 ∧ (tenant d t).made = true ∧ 79 ∈ givenBack d t ∧ (watch d 255).used = true ∧ (watch d 255).owner = t) ∧
    (∀ o ∈ [0, 16], let e := execOf 0x0503 0 (le 9 1 ++ zeros 1 ++ le 1 o) [] false; let p := e.desc.drop 16; let d := doing hosting 0 e;
      Can d ∧ Executing (S d) 0 0x0503 e ∧ fld p 0 10 ≠ 0 ∧ fld p 10 1 = o ∧ ZeroBytes p 9 10 ∧ ZeroBytes p 11 12 ∧ (o ≠ 0 → (tenant d o).made = true) ∧ (∀ r ∈ setRegions (fld p 0 10), present d r = true ∧ moveRefused d r = false)) ∧
    (∀ on ∈ [0, 1], let e := execOf 0x0504 16 (le 1 16 ++ le 1 on) [] false; let p := e.desc.drop 16; let d := doing hosting 16 e;
      Can d ∧ Executing (S d) 16 0x0504 e ∧ fld p 0 1 = 16 ∧ fld p 1 1 ≤ 1 ∧ ZeroBytes p 2 4 ∧ d.startup.ready = 1 ∧ (tenant d (fld p 0 1)).made = true) ∧
    (∀ t ∈ [0, 16], let e := execOf 0x0505 0 (le 1 t) [] false; let p := e.desc.drop 16; let d := doing hosting 0 e; Can d ∧ Executing (S d) 0 0x0505 e ∧ fld p 0 1 = t ∧ ZeroBytes p 1 4 ∧ (t ≠ 0 → (tenant d t).made = true)) := by
  unfold Executing ZeroBytes; refine ⟨?_, ?_, ?_, ?_, ?_⟩ <;> decide +kernel

theorem witness_TenantDestroyNoContext : ∀ c x, c < 16 → context hosting c = some x → x.owner ≠ 16 := fun _ _ _ h => nomatch h

/-- watch.set of the last named ID and of the lowest free one, of a Tally and of a cycle watch, and re-executed; watch.clear and watch.read of a watch that stands and of a free ID. -/
theorem witness_WatchCommandsRegisterAndClear :
    (let e := execOf 0x0601 0 (le 1 0 ++ le 1 255 ++ zeros 2 ++ le 2 0xFFFF ++ le 2 1 ++ le 8 9) [] false; let p := e.desc.drop 16; let d := doing ready 0 e; let kind := fld p 0 1;
      Can d ∧ Executing (S d) 0 0x0601 e ∧ e.reexecuted = false ∧ kind < 2 ∧ fld p 2 1 ≤ 1 ∧ ZeroBytes p 3 4 ∧ fld p 4 2 = 0xFFFF ∧ d.startup.ready = 1 ∧ badPeriod kind (fld p 16 8) = false ∧ watchId d p = some 255 ∧ heldBy d 0 < quotaOf d 0) ∧
    (let e := execOf 0x0601 0 (le 1 2 ++ le 1 0 ++ le 1 1 ++ zeros 1 ++ le 2 1247 ++ le 2 1 ++ le 7 9) [] false; let p := e.desc.drop 16; let d := doing (wWatch 0 { used := true }) 0 e; let kind := fld p 0 1; let i := fld p 4 2;
      Can d ∧ Executing (S d) 0 0x0601 e ∧ kind = 2 ∧ fld p 2 1 = 1 ∧ fld p 1 1 = 0 ∧ ZeroBytes p 3 4 ∧ fld p 15 1 = 0 ∧ i < 1248 ∧ present d (islandRegion i) = true ∧ islandWatches d i < 4 ∧ badPeriod kind (fld p 16 8) = false ∧
      watchId d p = some 1 ∧ heldBy d 0 < quotaOf d 0) ∧
    (let e := execOf 0x0601 0 [] [] true; let d := doing (wWatch 255 { used := true, key := some (0, 7) }) 0 e; Can d ∧ Executing (S d) 0 0x0601 e ∧ e.reexecuted = true ∧ keyedWatch d (0, fld e.desc 4 4) = some 255) ∧
    (let e := execOf 0x0602 0 (le 1 255) [] false; let p := e.desc.drop 16; let d := doing (wWatch 255 { used := true }) 0 e; Can d ∧ Executing (S d) 0 0x0602 e ∧ fld p 0 1 = 255 ∧ ZeroBytes p 1 4 ∧ watchFree d 255 = false) ∧
    (let e := execOf 0x0603 0 (le 1 255) [] false; let p := e.desc.drop 16; let d := doing (wWatch 255 { used := true, kind := 3, island := 1247 }) 0 e; Can d ∧ Executing (S d) 0 0x0603 e ∧ fld p 0 1 = 255 ∧ ZeroBytes p 1 4 ∧ watchFree d 255 = false) ∧
    (let e := execOf 0x0603 0 (le 1 255) [] false; let d := doing ready 0 e; Can d ∧ Executing (S d) 0 0x0603 e ∧ watchFree d 255 = true) := by
  unfold Executing ZeroBytes; refine ⟨?_, ?_, ?_, ?_, ?_, ?_⟩ <;> decide +kernel

/-- ledger.control of each operation on a Ledger that runs and on a frozen one; ledger.drain started at both bounds of its pages, stopped with none running, with nothing outstanding and with a write outstanding; ledger.read; cert.read. -/
theorem witness_LedgerCommandsControlAndRead :
    (∀ op ∈ [0, 1], let e := execOf 0x0701 0 (le 1 op) [] false; let p := e.desc.drop 16; let d := doing ready 0 e; Can d ∧ Executing (S d) 0 0x0701 e ∧ ZeroBytes p 2 8 ∧ fld p 0 1 = op ∧ fld p 1 1 = 0 ∧ d.ledger.frozen = false) ∧
    (let e := execOf 0x0701 0 (le 1 1) [] false; let d := doing { ready with ledger := { frozen := true } } 0 e; Can d ∧ Executing (S d) 0 0x0701 e ∧ d.ledger.frozen = true ∧ thawRefused d = false) ∧
    (let e := execOf 0x0701 0 (le 1 2 ++ le 1 255) [] false; let p := e.desc.drop 16; let d := doing ready 0 e; Can d ∧ Executing (S d) 0 0x0701 e ∧ ZeroBytes p 2 8 ∧ fld p 0 1 = 2 ∧ fld p 1 1 ≠ 0) ∧
    (∀ n ∈ [16, 1048576], let e := execOf 0x0702 0 (le 8 4096 ++ le 4 n ++ le 1 1) [] false; let p := e.desc.drop 16; let d := doing ready 0 e;
      Can d ∧ Executing (S d) 0 0x0702 e ∧ ZeroBytes p 13 24 ∧ fld p 12 1 = 1 ∧ fld p 0 8 % 4096 = 0 ∧ 16 ≤ fld p 8 4 ∧ fld p 8 4 ≤ 1048576 ∧ d.ledger.drain.running = false) ∧
    (∀ l ∈ [[], [(0, 128, false)]], let e := execOf 0x0702 0 [] [] false; let p := e.desc.drop 16; let d := doing { ready with ledger := { drain := { running := true, pages := 16, outstanding := l } } } 0 e; let x := d.ledger.drain;
      Can d ∧ Executing (S d) 0 0x0702 e ∧ ZeroBytes p 13 24 ∧ fld p 12 1 = 0 ∧ x.running = true ∧ x.stopping = false ∧ x.outstanding = l ∧ drainRoom x = true ∧ x.lost = 0 ∧ d.ledger.count ≤ x.next) ∧
    (let e := execOf 0x0703 16 (le 8 32 ++ le 8 0 ++ le 4 65536) [] false; let p := e.desc.drop 16; let d := doing hosting 16 e; Can d ∧ Executing (S d) 16 0x0703 e ∧ ZeroBytes p 20 24 ∧ fld p 0 8 % 32 = 0 ∧ 1 ≤ fld p 16 4 ∧ fld p 16 4 ≤ 65536) ∧
    (let k : Cert := { step := 4, outcome := 1, bytes := [] }; let x := { ctx with certs := [k] }; let e := execOf 0x0801 0 (le 8 64 ++ le 4 4 ++ le 1 15) [] false; let p := e.desc.drop 16; let d := doing (wContext 15 x) 0 e;
      Can d ∧ Executing (S d) 0 0x0801 e ∧ NamesContext d 0 (fld p 12 1) 15 x ∧ ZeroBytes p 13 16 ∧ fld p 0 8 % 64 = 0 ∧ x.certs.find? (fun k => decide (k.step = fld p 8 4)) = some k) := by
  unfold Executing ZeroBytes NamesContext; refine ⟨?_, ?_, ?_, ?_, ?_, ?_, ?_⟩ <;> decide +kernel

/-- The least store image: an intact SLOT_HEADER of this die. -/
def image : Bytes :=
  let b := le 1 1 ++ le 1 1 ++ le 2 32 ++ zeros 4 ++ le 4 0x4A434653 ++ le 2 1 ++ zeros 30
  b ++ le 4 (crc32c b)

/-- cal.write of the working values, of a host image, and re-executed; cal.export of a valid slot; cal.unretire of the one entry; assay.region with a lender and re-executed. -/
theorem witness_CalCommandsWriteStoreAndAssay :
    (let e := execOf 0x0901 0 (le 1 1) [] false; let p := e.desc.drop 16; let d := doing ready 0 e; let t := d.store; Can d ∧ Executing (S d) 0 0x0901 e ∧ ZeroBytes p 1 8 ∧ t.absent = false ∧ t.assay = none ∧ t.write = none ∧ fld p 0 1 = 1 ∧ fld p 8 8 = 0) ∧
    (let e := execOf 0x0901 0 (le 1 2 ++ zeros 7 ++ le 8 8) (le 8 48) false; let p := e.desc.drop 16; let d := doing ready 0 e; let t := d.store;
      Can d ∧ Executing (S d) 0 0x0901 e ∧ ZeroBytes p 1 8 ∧ t.absent = false ∧ t.assay = none ∧ t.write = none ∧ fld p 0 1 = 2 ∧ fld p 8 8 % 8 = 0 ∧ fld e.staged 0 8 ≤ 2097152 ∧ fld e.staged 0 8 % 8 = 0 ∧ imageHeaderOk d (fit (fld e.staged 0 8) image) = true) ∧
    (let w := { writing 0 0 with key := some (0, 7) }; let e := execOf 0x0901 0 (le 1 1) [] true; let d := doing (wStore { ready.store with write := some w }) 0 e; Can d ∧ Executing (S d) 0 0x0901 e ∧ d.store.write = some w ∧ w.key = some (0, fld e.desc 4 4)) ∧
    (let e := execOf 0x0902 0 (le 1 0 ++ zeros 7 ++ le 8 4096) [] false; let p := e.desc.drop 16; let d := doing ready 0 e; Can d ∧ Executing (S d) 0 0x0902 e ∧ fld p 0 1 ≤ 1 ∧ ZeroBytes p 1 8 ∧ fld p 8 8 % 4096 = 0 ∧ d.store.absent = false ∧ (exportSlot d (fld p 0 1)).valid = true) ∧
    (let e := execOf 0x0905 0 (le 1 7 ++ le 1 0 ++ le 2 319) [] false; let p := e.desc.drop 16; let d := doing (wStore { ready.store with work := { retire := [{ kind := 7, sub := 0, id := 319, tally := 0 }] } }) 0 e;
      Can d ∧ Executing (S d) 0 0x0905 e ∧ ZeroBytes p 4 8 ∧ d.store.absent = false ∧ fld p 0 1 ≤ 7 ∧ d.store.work.retire.filter (unretires (fld p 0 1) (fld p 1 1) (fld p 2 2)) ≠ []) ∧
    (let e := execOf 0x0A01 0 (le 2 0) [] false; let p := e.desc.drop 16; let d := doing { ready with regions := [(1, { select := some 0 })], synths := [(2, { phase := .locked, lock := true })] } 0 e;
      Can d ∧ Executing (S d) 0 0x0A01 e ∧ ZeroBytes p 2 4 ∧ d.startup.ready = 1 ∧ fld p 0 2 < 80 ∧ present d (fld p 0 2) = true ∧ assayRefused d 0 = false ∧ noLender d 0 = false ∧ e.reexecuted = false) ∧
    (let e := execOf 0x0A01 0 (le 2 79) [] true; let p := e.desc.drop 16; let d := doing (wStore { ready.store with assayKey := some (0, 7) }) 0 e; Can d ∧ Executing (S d) 0 0x0A01 e ∧ fld p 0 2 < 80 ∧ present d 79 = true ∧ d.store.assayKey = some (0, fld e.desc 4 4)) := by
  unfold Executing ZeroBytes; refine ⟨?_, ?_, ?_, ?_, ?_, ?_, ?_⟩ <;> decide +kernel

/-- cal.read of a region's kind, of an island's and of the die's; cal.set of each kind for region 79 and with an offset at its least. -/
theorem witness_CalCommandsReadAndSetTables :
    (∀ v ∈ [(0, 79), (1, 1247), (6, 0)], let e := execOf 0x0903 0 (le 1 v.1 ++ zeros 1 ++ le 2 v.2) [] false; let p := e.desc.drop 16; let d := doing ready 0 e; let kind := fld p 0 1; let n := fld p 2 2;
      Can d ∧ Executing (S d) 0 0x0903 e ∧ ZeroBytes p 1 2 ∧ ZeroBytes p 4 8 ∧ (kind, n) = v ∧ kind ≤ 6 ∧ (3 < kind → n = 0) ∧ (kind ≤ 3 → present d (if kind = 1 then islandRegion n else n) = true ∧ n < (if kind = 1 then 1248 else 80))) ∧
    (∀ v ∈ [(2, 79), (3, 79), (4, 0)], let e := execOf 0x0904 0 (le 1 v.1 ++ zeros 1 ++ le 2 v.2) (zeros 4 ++ leI 4 (-524288) ++ zeros 128) false; let p := e.desc.drop 16; let d := doing ready 0 e; let n := fld p 2 2;
      Can d ∧ Executing (S d) 0 0x0904 e ∧ ZeroBytes p 1 2 ∧ ZeroBytes p 4 8 ∧ (fld p 0 1, n) = v ∧ n < 80 ∧ present d n = true ∧ (∀ j < 136, 130 ≤ j → fld e.staged j 1 = 0) ∧
      ∀ k < 5, fld e.staged (8 * k + 2) 1 = 0 ∧ fld e.staged (8 * k + 3) 1 = 0 ∧ -524288 ≤ fldI e.staged (8 * k + 4) 4 ∧ fldI e.staged (8 * k + 4) 4 ≤ 524287) := by
  unfold Executing ZeroBytes; refine ⟨?_, ?_⟩ <;> decide +kernel

/-- The island commands on the last island, the region commands on the last region, region.config of the interval by its owner, and region.test of a setting with the idle synthesizer working and retired. -/
theorem witness_IslandAndRegionCommandsActOnTheirOwn :
    (∀ op ∈ [0x0B01, 0x0B02, 0x0B03], let e := execOf op 0 (le 2 1247 ++ le 1 0) [] false; let p := e.desc.drop 16; let d := doing ready 0 e; let i := fld p 0 2;
      Can d ∧ Executing (S d) 0 op e ∧ i < 1248 ∧ present d (islandRegion i) = true ∧ fld p 2 1 ≤ 2 ∧ fld p 2 1 ≠ 0x80 ∧ ZeroBytes p 2 4 ∧ d.startup.ready = 1 ∧ phaseRefused d i = false ∧ islandResetRefused d i = false) ∧
    (let e := execOf 0x0B03 0 (le 2 1247) [] true; let d := doing (wRing 1247 { resetSince := some 4 }) 0 e; Can d ∧ Executing (S d) 0 0x0B03 e ∧ e.reexecuted = true ∧ (island d 1247).ring.resetSince.isSome = true) ∧
    (let e := execOf 0x0C01 16 (le 2 79) [] false; let p := e.desc.drop 16; let d := doing hosting 16 e; Can d ∧ Executing (S d) 16 0x0C01 e ∧ fld p 0 2 < 80 ∧ present d 79 = true ∧ ZeroBytes p 2 4 ∧ (region d (fld p 0 2)).owner = 16) ∧
    (∀ v ∈ [(71, 0), (79, 1)], let e := execOf 0x0C02 0 (le 2 v.1 ++ le 1 v.2) [] false; let p := e.desc.drop 16; let d := doing { ready with regions := [(70, { select := some 0 }), (78, { select := some 0 })], synths := [(140, { lock := true }), (156, { lock := true })] } 0 e; let r := fld p 0 2;
      Can d ∧ Executing (S d) 0 0x0C02 e ∧ (r, fld p 2 1) = v ∧ r < 80 ∧ present d r = true ∧ fld p 3 1 = 0 ∧ d.startup.ready = 1 ∧ (72 ≤ r → fld p 2 1 = 1) ∧ regionResetRefused d r = false ∧ (fld p 2 1 = 1 → noLender d r = false)) ∧
    (let e := execOf 0x0C03 16 (le 2 79 ++ le 1 4 ++ le 1 0 ++ le 1 2) [] false; let p := e.desc.drop 16; let d := doing hosting 16 e; let r := fld p 0 2;
      Can d ∧ Executing (S d) 16 0x0C03 e ∧ r < 80 ∧ present d r = true ∧ fld p 2 1 = 4 ∧ fld p 3 1 ≤ 1 ∧ fld p 4 1 ≤ 2 ∧ ZeroBytes p 5 8 ∧ badBand p = none ∧ ZeroBytes p 40 48 ∧ (region d r).owner = 16 ∧ (region d r).fenced = false) ∧
    (let e := execOf 0x0C04 0 (le 2 79 ++ le 1 0) [] false; let p := e.desc.drop 16; let d := doing ready 0 e; Can d ∧ Executing (S d) 0 0x0C04 e ∧ ZeroBytes p 3 8 ∧ ZeroBytes p 8 16 ∧ fld p 2 1 = 0 ∧ (region d 79).test = none) ∧
    (∀ b ∈ [false, true], let e := execOf 0x0C04 0 (le 2 79 ++ le 1 1 ++ zeros 5 ++ le 1 36 ++ zeros 3 ++ le 1 3) [] false; let p := e.desc.drop 16; let d := doing (wSynth 79 1 { retired := b, band := 1 }) 0 e;
      Can d ∧ Executing (S d) 0 0x0C04 e ∧ ZeroBytes p 3 8 ∧ d.startup.ready = 1 ∧ fld p 2 1 = 1 ∧ readSetting ((p.drop 8).take 8) = some {} ∧ inPlan d 79 = false ∧ pendingCommit d 79 = none ∧ e.reexecuted = false ∧ (synth d 79 (idleOf (region d 79))).retired = b) := by
  unfold Executing ZeroBytes; refine ⟨?_, ?_, ?_, ?_, ?_, ?_, ?_⟩ <;> decide +kernel

/-- A topology descriptor of die 3 with no link to expect. -/
def topology : Bytes := le 4 0x4A435444 ++ le 1 1 ++ le 1 0 ++ le 2 3 ++ zeros 264

/-- The Tally commands on a master in holdover and on a foreign die; the reference preferred, selected and not locked; the resume at its least lead; the descriptor before and after step 9; the tolerance of region 79. -/
theorem witness_TallyAndFabricCommandsAct :
    (let e := execOf 0x0D01 0 (le 1 255) [] false; let p := e.desc.drop 16; let d := doing { ready with tally := { ready.tally with role := 0 } } 0 e; Can d ∧ Executing (S d) 0 0x0D01 e ∧ ZeroBytes p 1 4 ∧ d.tally.role ≠ 1) ∧
    (let e := execOf 0x0D02 0 (le 1 0) [] false; let p := e.desc.drop 16; let d := doing { ready with tally := { ready.tally with holdover := true } } 0 e; Can d ∧ Executing (S d) 0 0x0D02 e ∧ ZeroBytes p 1 4 ∧ d.startup.ready = 1 ∧ fld p 0 1 = 0 ∧ d.tally.role = 1 ∧
      d.tally.holdover = true) ∧
    (let e := execOf 0x0D02 0 (le 1 1) [] false; let p := e.desc.drop 16; let d := doing { ready with tally := { ready.tally with foreign := true, foreignLink := 31 } } 0 e; Can d ∧ Executing (S d) 0 0x0D02 e ∧ fld p 0 1 = 1 ∧ d.tally.foreign = true ∧ anyPlanOrWatch d = false) ∧
    (∀ op ∈ [0x0D03, 0x0E01], let e := execOf op 16 [] [] false; let d := doing hosting 16 e; Can d ∧ Executing (S d) 16 op e) ∧
    (∀ v ∈ [(1, 1), (2, 0), (5, 1)], let e := execOf 0x0E02 0 (le 1 v.1 ++ le 1 v.2) [] false; let p := e.desc.drop 16; let d := doing ready 0 e;
      Can d ∧ Executing (S d) 0 0x0E02 e ∧ (fld p 0 1, fld p 1 1) = v ∧ fld p 0 1 < 8 ∧ fld p 1 1 ≤ 1 ∧ ZeroBytes p 2 4 ∧ (2 ≤ fld p 0 1 → fld p 0 1 < 4 → d.clocks.selected = fld p 0 1 % 2) ∧ refUsable d (fld p 1 1) = true) ∧
    (let d := { ready with clocks := { ready.clocks with refB := {} } }; Can d ∧ refUsable d 1 = false) ∧
    (let e := execOf 0x0E03 0 (le 8 5000500000) [] false; let p := e.desc.drop 16; let d := doing (wStop { ready.stop with stopped := true }) 0 e;
      Can d ∧ Executing (S d) 0 0x0E03 e ∧ ZeroBytes p 8 16 ∧ d.startup.ready = 1 ∧ resumeRefused d = false ∧ fld p 0 8 % 10 = 0 ∧ d.tally.now + 500000 ≤ fld p 0 8 ∧ fld p 0 8 ≤ d.tally.now + 10000000000) ∧
    (∀ n ∈ [8, 9], let e := execOf 0x0E04 0 (le 2 272) topology false; let p := e.desc.drop 16; let d := doing { ready with startup := { step := n } } 0 e; let b := e.staged.take 272;
      Can d ∧ Executing (S d) 0 0x0E04 e ∧ ZeroBytes p 2 8 ∧ fld p 0 2 = 272 ∧ descriptorReserved b = none ∧ descriptorUnknown b = none ∧ e.reexecuted = false ∧ d.startup.step = n ∧ d.startup.checkSince = none ∧ d.startup.ready ≠ 1 ∧
      linksUp { d with startup := { d.startup with descriptor := some b } } = true ∧ (queue d 0).resetting = none) ∧
    (let e := execOf 0x0E05 0 (le 10 (2 ^ 79) ++ zeros 2 ++ le 4 40) [] false; let p := e.desc.drop 16; let d := doing ready 0 e; Can d ∧ Executing (S d) 0 0x0E05 e ∧ fld p 0 10 ≠ 0 ∧ ZeroBytes p 10 12 ∧ d.startup.ready = 1 ∧
      ∀ r ∈ setRegions (fld p 0 10), present d r = true) := by
  unfold Executing ZeroBytes; refine ⟨?_, ?_, ?_, ?_, ?_, ?_, ?_, ?_, ?_⟩ <;> decide +kernel

/-! ### Whole-machine statements -/

theorem witness_TablesAndLedgerStayInForm : Can ready ∧ ready.ledger.ring.length = min ready.ledger.count Config.ledgerRecords ∧ ready.ledger.index = ready.ledger.count % Config.ledgerRecords ∧ ∃ t, step (S ready) = .next t :=
  ⟨by decide +kernel, by decide +kernel, by decide +kernel, _, rfl⟩

/-- Tally at both limits of its rate word, running and not. -/
theorem witness_TallyAddsTheRateWordWithinItsLimit :
    (∀ rate ∈ [-rateLimit, rateLimit], let t : Tally := { ready.tally with now := 2 ^ 64 - 1, frac := 2 ^ 40 - 1, rate := rate }; t.now < 2 ^ 64 ∧ t.frac < 2 ^ 40 ∧ -rateLimit ≤ t.rate ∧ t.rate ≤ rateLimit ∧ t.running = true) ∧
    State.reset.die.tally.running = false := by decide +kernel

theorem witness_NamedCommandsCompleteAndQueuesRunOut : (Instr.linkUp 31).wf = true ∧ (Instr.linkUp 32).wf = false ∧ ∀ c ∈ [Instr.commitAccept, .linkUp 31], c.wf = true := by decide +kernel

/-- A canonical die, for the frames of `OnlyTheNamedElementChanges`, with a command that answers a next state. -/
theorem witness_OnlyTheNamedElementChanges : Can (wRing 9 { bellows := .acquiring }) ∧ ∃ t, exec (.injectionAcquisitionTimeout 9) (S (wRing 9 { bellows := .acquiring })) = .next t := ⟨by decide +kernel, _, rfl⟩

/-- A completion with output, and one after which a queue reset follows. -/
theorem witness_CompletionsStoreNowhereElse : (let d := wQueue 16 { exec := some (execOf 0x0106 16 [] [] false), resetting := some 0 }; Can d ∧ (queue d 16).resetting.isSome = true) ∧ (Reply.done 0 (some [1#8])) = .done 0 (some [1#8]) := by decide +kernel

end Sys2Proof.Tests
end

namespace Sys2Proof.Machine
open Sys2Proof

/-! ## Runs of named commands (R16 to R21, log 3) -/

/-- The name check of a command is the check with which it runs: each meaning is one effect on the die, made where the command's
names exist, whatever waits in the queue. -/
theorem exec_eq_run_wf (c : Instr) : ∃ f : Die → Die, ∀ s, exec c s = run c.wf f s := by
  cases c
  -- R480: this meaning is a record literal, which unification does not find from its run.
  case fabricIntStatusClear bits sameClock =>
    exact ⟨fun d => { d with regs := { d.regs with fintStatus := clearBits d.regs.fintStatus bits sameClock } }, fun _ => rfl⟩
  all_goals exact ⟨_, fun _ => rfl⟩

theorem exec_of_wf {c : Instr} (s : State) (h : c.wf = true) : ∃ t, exec c s = .next t ∧ t.pending = s.pending := by
  obtain ⟨f, hf⟩ := exec_eq_run_wf c
  exact ⟨_, (hf s).trans (run_named h), rfl⟩

theorem run_unnamed {b : Bool} {f : Die → Die} {s : State} (h : b = false) : run b f s = .fault .noSuchElement := by
  subst h; rfl

theorem exec_of_not_wf {c : Instr} (s : State) (h : c.wf = false) : exec c s = .fault .noSuchElement := by
  obtain ⟨f, hf⟩ := exec_eq_run_wf c
  exact (hf s).trans (run_unnamed h)

/-- Every waiting command names what the die has. -/
def AllNamed (s : State) : Prop := ∀ c ∈ s.pending, c.wf = true

/-- A step takes the command at the front of the queue, or passes a period of the Tally clock where none waits. -/
theorem step_of_allNamed {s : State} (h : AllNamed s) : ∃ t, step s = .next t ∧ t.pending = s.pending.tail := by
  unfold step
  split
  next hp => exact ⟨_, rfl, by simp [hp]⟩
  next c rest hp =>
    obtain ⟨t, ht, hq⟩ := exec_of_wf { s with pending := rest } (h c (by simp [hp]))
    exact ⟨t, ht, by simp [hq, hp]⟩

/-- `AllNamed` is an invariant: the step exists, and keeps it. -/
theorem step_keeps_allNamed {s : State} (h : AllNamed s) : ∃ t, step s = .next t ∧ t.pending = s.pending.tail ∧ AllNamed t := by
  obtain ⟨t, ht, hq⟩ := step_of_allNamed h
  exact ⟨t, ht, hq, fun c hc => h c (List.mem_of_mem_tail (hq ▸ hc))⟩

theorem safe_of_allNamed (n : Nat) {s : State} (h : AllNamed s) : Safe n s := by
  induction n generalizing s with
  | zero => trivial
  | succ n ih =>
    obtain ⟨t, ht, -, hn⟩ := step_keeps_allNamed h
    exact ⟨t, ht, ih hn⟩

/-- n steps drop the first n waiting commands. -/
theorem leads_of_allNamed (n : Nat) {s : State} (h : AllNamed s) : ∃ t : State, t.pending = s.pending.drop n ∧ Leads n s t := by
  induction n generalizing s with
  | zero => exact ⟨s, rfl, rfl⟩
  | succ n ih =>
    obtain ⟨u, hu, hq, hn⟩ := step_keeps_allNamed h
    obtain ⟨t, ht, hl⟩ := ih hn
    exact ⟨t, by rw [ht, hq, List.drop_tail], u, hu, hl⟩

/-- Settles O55: the check of its names is all that stops a command, and a step keeps the invariant that every waiting command is
named while it takes one command off the queue. -/
theorem namedCommandsCompleteAndQueuesRunOut : Obligations.NamedCommandsCompleteAndQueuesRunOut := by
  refine ⟨fun c s => ⟨exec_of_wf s, exec_of_not_wf s⟩, fun n s => safe_of_allNamed n, fun cs s h => ?_⟩
  simpa using leads_of_allNamed cs.length (s := { s with pending := cs }) h

end Sys2Proof.Machine

namespace Sys2Proof.Machine
open Sys2Proof

/-! ## Tally keeps its widths (R40, R42) -/

theorem run_inTallyRange {b : Bool} {f : Die → Die} {s t : State} (hf : ∀ d, InTallyRange d → InTallyRange (f d)) (hd : InTallyRange s.die)
    (h : run b f s = .next t) : InTallyRange t.die := by
  obtain ⟨-, rfl⟩ := run_next h
  exact hf _ hd

theorem inTallyRange_default : InTallyRange {} := by constructor <;> decide

/-- The cold power-on puts Tally to 0, and a rail that is up already changes nothing. -/
theorem aonPowerGood_inTallyRange (d : Die) (hd : InTallyRange d) : InTallyRange (aonPowerGood d) := by
  unfold aonPowerGood
  split
  · exact hd
  · exact inTallyRange_same rfl inTallyRange_default

/-- Every command keeps Tally in range: one whose frame leaves Tally alone by that frame, any other by the law of its operation. -/
theorem exec_inTallyRange {s t : State} (hd : InTallyRange s.die) (c : Instr) (h : exec c s = .next t) : InTallyRange t.die := by
  cases c with
  | aonPowerGood => exact run_inTallyRange (b := true) (aonPowerGood_inTallyRange) hd h
  | aonPowerFail => exact (exec_aonPowerFail_kept (inTallyRange_closed _ (by decide)) s t hd h).2
  | aonUndervoltage _ => exact (exec_aonUndervoltage_kept (inTallyRange_closed _ (by decide)) _ s t hd h).2
  | packageWarmReset => exact run_inTallyRange (b := true) (packageWarmReset_inTallyRange) hd h
  | startupStepComplete _ => exact run_inTallyRange (b := true) (startupStep_inTallyRange _) hd h
  | firmwareBroadcast _ _ _ => exact (exec_firmwareBroadcast_kept (inTallyRange_closed _ (by decide)) _ _ _ s t hd h).2
  | bootImageTimeout => exact (exec_bootImageTimeout_kept (inTallyRange_closed _ (by decide)) s t hd h).2
  | topologyCheckTimeout _ => exact run_inTallyRange (b := true) (topologyTimeout_inTallyRange _) hd h
  | topologyCheckComplete _ => exact run_inTallyRange (b := true) (topologyComplete_inTallyRange _) hd h
  | refActivityLoss _ => exact run_inTallyRange (refActivityLoss_inTallyRange _) hd h
  | refFrequencyWindowEnd _ _ => exact run_inTallyRange (refWindow_inTallyRange _ _) hd h
  | noReferenceTimeout => exact run_inTallyRange (b := true) (noReferenceTimeout_inTallyRange) hd h
  | rootLockLoss _ => exact run_inTallyRange (b := true) (rootLockLoss_inTallyRange _) hd h
  | rootDisagreement _ => exact (exec_rootDisagreement_kept (inTallyRange_closed _ (by decide)) _ s t hd h).2
  | rootSwitchConfirm _ _ => exact run_inTallyRange (b := true) (rootConfirm_inTallyRange _ _) hd h
  | synthBandSearchDone _ _ _ => exact (exec_synthBandSearchDone_kept (inTallyRange_closed _ (by decide)) _ _ _ s t hd h).2
  | synthLockWindowEnd _ _ _ => exact (exec_synthLockWindowEnd_kept (inTallyRange_closed _ (by decide)) _ _ _ s t hd h).2
  | synthExcursion _ _ _ => exact (exec_synthExcursion_kept (inTallyRange_closed _ (by decide)) _ _ _ s t hd h).2
  | synthAcquisitionTimeout _ _ => exact (exec_synthAcquisitionTimeout_kept (inTallyRange_closed _ (by decide)) _ _ s t hd h).2
  | synthRetryAcquire _ _ => exact (exec_synthRetryAcquire_kept (inTallyRange_closed _ (by decide)) _ _ s t hd h).2
  | injectionWindowEnd _ _ => exact (exec_injectionWindowEnd_kept (inTallyRange_closed _ (by decide)) _ _ s t hd h).2
  | injectionAcquisitionTimeout _ => exact (exec_injectionAcquisitionTimeout_kept (inTallyRange_closed _ (by decide)) _ s t hd h).2
  | bellowsSettleDone _ => exact (exec_bellowsSettleDone_kept (inTallyRange_closed _ (by decide)) _ s t hd h).2
  | injectionResume _ => exact (exec_injectionResume_kept (inTallyRange_closed _ (by decide)) _ s t hd h).2
  | phaseStep _ _ => exact (exec_phaseStep_kept (inTallyRange_closed _ (by decide)) _ _ s t hd h).2
  | ringPeriod _ _ => exact (exec_ringPeriod_kept (inTallyRange_closed _ (by decide)) _ _ s t hd h).2
  | plumbDisagreementResolved _ _ => exact (exec_plumbDisagreementResolved_kept (inTallyRange_closed _ (by decide)) _ _ s t hd h).2
  | alertIntervalEnd => exact (exec_alertIntervalEnd_kept (inTallyRange_closed _ (by decide)) s t hd h).2
  | marginReleaseTimeout _ => exact (exec_marginReleaseTimeout_kept (inTallyRange_closed _ (by decide)) _ s t hd h).2
  | unplannedStepBoundary => exact (exec_unplannedStepBoundary_kept (inTallyRange_closed _ (by decide)) s t hd h).2
  | droverRestart _ => exact (exec_droverRestart_kept (inTallyRange_closed _ (by decide)) _ s t hd h).2
  | edgeActivation _ _ => exact (exec_edgeActivation_kept (inTallyRange_closed _ (by decide)) _ _ s t hd h).2
  | hoopFrameForm _ => exact (exec_hoopFrameForm_kept (inTallyRange_closed _ (by decide)) _ s t hd h).2
  | hoopFrameReceived _ _ => exact run_inTallyRange (hoopReceived_inTallyRange _ _) hd h
  | hoopLinkFrameTimeout _ => exact (exec_hoopLinkFrameTimeout_kept (inTallyRange_closed _ (by decide)) _ s t hd h).2
  | hoopStaleRelease _ => exact (exec_hoopStaleRelease_kept (inTallyRange_closed _ (by decide)) _ s t hd h).2
  | criticalPathIntervalEnd => exact (exec_criticalPathIntervalEnd_kept (inTallyRange_closed _ (by decide)) s t hd h).2
  | linkDown _ => exact run_inTallyRange (linkDownOp_inTallyRange _) hd h
  | linkUp _ => exact (exec_linkUp_kept (inTallyRange_closed _ (by decide)) _ s t hd h).2
  | linkRetrainBegin _ => exact (exec_linkRetrainBegin_kept (inTallyRange_closed _ (by decide)) _ s t hd h).2
  | linkRetrainEnd _ => exact (exec_linkRetrainEnd_kept (inTallyRange_closed _ (by decide)) _ s t hd h).2
  | hbmRetrainBegin _ => exact (exec_hbmRetrainBegin_kept (inTallyRange_closed _ (by decide)) _ s t hd h).2
  | hbmRetrainEnd _ => exact (exec_hbmRetrainEnd_kept (inTallyRange_closed _ (by decide)) _ s t hd h).2
  | sidebandReceiverUp _ => exact (exec_sidebandReceiverUp_kept (inTallyRange_closed _ (by decide)) _ s t hd h).2
  | sidebandReceiverDown _ => exact run_inTallyRange (receiverDown_inTallyRange _) hd h
  | sidebandFrameBoundary _ => exact (exec_sidebandFrameBoundary_kept (inTallyRange_closed _ (by decide)) _ s t hd h).2
  | sidebandFrameDiscarded _ => exact run_inTallyRange (discardFrame_inTallyRange _) hd h
  | tallySyncSend _ => exact (exec_tallySyncSend_kept (inTallyRange_closed _ (by decide)) _ s t hd h).2
  | tallySyncReceived _ _ => exact run_inTallyRange (tallySyncReceived_inTallyRange _ _) hd h
  | tallyReplyReceived _ _ => exact run_inTallyRange (tallyReplyReceived_inTallyRange _ _) hd h
  | tallyOffsetAverage => exact run_inTallyRange (b := true) (tallyOffsetAverage_inTallyRange) hd h
  | tallySettled => exact run_inTallyRange (b := true) (tallySettled_inTallyRange) hd h
  | tallyBeaconIncrement => exact run_inTallyRange (b := true) (tallyBeacon_inTallyRange) hd h
  | tallyMasterLost => exact run_inTallyRange (b := true) (tallyMasterLost_inTallyRange) hd h
  | tallyMasterWaitExpiry => exact run_inTallyRange (b := true) (tallyWaitExpiry_inTallyRange) hd h
  | tallyWatchFire _ => exact (exec_tallyWatchFire_kept (inTallyRange_closed _ (by decide)) _ s t hd h).2
  | cycleWatchFire _ _ => exact (exec_cycleWatchFire_kept (inTallyRange_closed _ (by decide)) _ _ s t hd h).2
  | watchArmed _ => exact (exec_watchArmed_kept (inTallyRange_closed _ (by decide)) _ s t hd h).2
  | watchMessageDelivery => exact (exec_watchMessageDelivery_kept (inTallyRange_closed _ (by decide)) s t hd h).2
  | commitAccept => exact (exec_commitAccept_kept (inTallyRange_closed _ (by decide)) s t hd h).2
  | commitVoltageRise _ => exact (exec_commitVoltageRise_kept (inTallyRange_closed _ (by decide)) _ s t hd h).2
  | commitDecision _ => exact (exec_commitDecision_kept (inTallyRange_closed _ (by decide)) _ s t hd h).2
  | commitStrobe _ => exact (exec_commitStrobe_kept (inTallyRange_closed _ (by decide)) _ s t hd h).2
  | regionSwitchingInstant _ _ => exact (exec_regionSwitchingInstant_kept (inTallyRange_closed _ (by decide)) _ _ s t hd h).2
  | commitVoltageFall _ => exact (exec_commitVoltageFall_kept (inTallyRange_closed _ (by decide)) _ s t hd h).2
  | settlementCommitRequest _ => exact (exec_settlementCommitRequest_kept (inTallyRange_closed _ (by decide)) _ s t hd h).2
  | restoringCommitRetry _ => exact (exec_restoringCommitRetry_kept (inTallyRange_closed _ (by decide)) _ s t hd h).2
  | pauseSwitchLend _ => exact (exec_pauseSwitchLend_kept (inTallyRange_closed _ (by decide)) _ s t hd h).2
  | pauseSwitchGateTimeout _ => exact (exec_pauseSwitchGateTimeout_kept (inTallyRange_closed _ (by decide)) _ s t hd h).2
  | regionActionApply _ => exact (exec_regionActionApply_kept (inTallyRange_closed _ (by decide)) _ s t hd h).2
  | patternRecordRead _ _ => exact (exec_patternRecordRead_kept (inTallyRange_closed _ (by decide)) _ _ s t hd h).2
  | patternActionApply _ => exact (exec_patternActionApply_kept (inTallyRange_closed _ (by decide)) _ s t hd h).2
  | oppRequestIssue _ => exact (exec_oppRequestIssue_kept (inTallyRange_closed _ (by decide)) _ s t hd h).2
  | certAssembly _ => exact (exec_certAssembly_kept (inTallyRange_closed _ (by decide)) _ s t hd h).2
  | energyIntervalEnd _ => exact (exec_energyIntervalEnd_kept (inTallyRange_closed _ (by decide)) _ s t hd h).2
  | telemetryReadStart => exact (exec_telemetryReadStart_kept (inTallyRange_closed _ (by decide)) s t hd h).2
  | calibrationWindowEnd => exact (exec_calibrationWindowEnd_kept (inTallyRange_closed _ (by decide)) s t hd h).2
  | calibrationUpdateApply => exact (exec_calibrationUpdateApply_kept (inTallyRange_closed _ (by decide)) s t hd h).2
  | limitEvaluation => exact (exec_limitEvaluation_kept (inTallyRange_closed _ (by decide)) s t hd h).2
  | vrmStatusPoll _ _ => exact (exec_vrmStatusPoll_kept (inTallyRange_closed _ (by decide)) _ _ s t hd h).2
  | vrmAlertRise _ => exact (exec_vrmAlertRise_kept (inTallyRange_closed _ (by decide)) _ s t hd h).2
  | voltageFallTimeout _ _ => exact (exec_voltageFallTimeout_kept (inTallyRange_closed _ (by decide)) _ _ s t hd h).2
  | fallTargetRewrite _ => exact (exec_fallTargetRewrite_kept (inTallyRange_closed _ (by decide)) _ s t hd h).2
  | sensorConversion _ => exact (exec_sensorConversion_kept (inTallyRange_closed _ (by decide)) _ s t hd h).2
  | thermalSoftStep _ => exact (exec_thermalSoftStep_kept (inTallyRange_closed _ (by decide)) _ s t hd h).2
  | thermalSoftRelease _ => exact (exec_thermalSoftRelease_kept (inTallyRange_closed _ (by decide)) _ s t hd h).2
  | thermalSoftRise _ => exact (exec_thermalSoftRise_kept (inTallyRange_closed _ (by decide)) _ s t hd h).2
  | thermalHardRelease _ => exact (exec_thermalHardRelease_kept (inTallyRange_closed _ (by decide)) _ s t hd h).2
  | thermalTripRelease => exact (exec_thermalTripRelease_kept (inTallyRange_closed _ (by decide)) s t hd h).2
  | flowLoss _ _ => exact (exec_flowLoss_kept (inTallyRange_closed _ (by decide)) _ _ s t hd h).2
  | flowRelease _ => exact (exec_flowRelease_kept (inTallyRange_closed _ (by decide)) _ s t hd h).2
  | estopAssert => exact (exec_estopAssert_kept (inTallyRange_closed _ (by decide)) s t hd h).2
  | estopRelease => exact (exec_estopRelease_kept (inTallyRange_closed _ (by decide)) s t hd h).2
  | resumeRelease => exact (exec_resumeRelease_kept (inTallyRange_closed _ (by decide)) s t hd h).2
  | poolStatusSend => exact (exec_poolStatusSend_kept (inTallyRange_closed _ (by decide)) s t hd h).2
  | poolStatusReceived _ _ => exact run_inTallyRange (statusReceived_inTallyRange _ _) hd h
  | poolGrantReceived _ _ => exact run_inTallyRange (grantReceived_inTallyRange _ _) hd h
  | poolReturnReceived _ _ => exact run_inTallyRange (returnReceived_inTallyRange _ _) hd h
  | poolRecallReceived _ _ => exact run_inTallyRange (recallReceived_inTallyRange _ _) hd h
  | poolLinkSilent _ => exact (exec_poolLinkSilent_kept (inTallyRange_closed _ (by decide)) _ s t hd h).2
  | poolLenderRestore _ => exact (exec_poolLenderRestore_kept (inTallyRange_closed _ (by decide)) _ s t hd h).2
  | guardEvaluation => exact (exec_guardEvaluation_kept (inTallyRange_closed _ (by decide)) s t hd h).2
  | guardCeilingRise => exact (exec_guardCeilingRise_kept (inTallyRange_closed _ (by decide)) s t hd h).2
  | assayPhaseEnd _ => exact (exec_assayPhaseEnd_kept (inTallyRange_closed _ (by decide)) _ s t hd h).2
  | assayClose => exact (exec_assayClose_kept (inTallyRange_closed _ (by decide)) s t hd h).2
  | flashOperationComplete _ => exact (exec_flashOperationComplete_kept (inTallyRange_closed _ (by decide)) _ s t hd h).2
  | flashOperationTimeout => exact (exec_flashOperationTimeout_kept (inTallyRange_closed _ (by decide)) s t hd h).2
  | storeWriteRetire => exact (exec_storeWriteRetire_kept (inTallyRange_closed _ (by decide)) s t hd h).2
  | storeWriteRetry => exact (exec_storeWriteRetry_kept (inTallyRange_closed _ (by decide)) s t hd h).2
  | chandlerHeartbeat => exact (exec_chandlerHeartbeat_kept (inTallyRange_closed _ (by decide)) s t hd h).2
  | chandlerHeartbeatTimeout => exact (exec_chandlerHeartbeatTimeout_kept (inTallyRange_closed _ (by decide)) s t hd h).2
  | chandlerFaultSignal _ _ => exact (exec_chandlerFaultSignal_kept (inTallyRange_closed _ (by decide)) _ _ s t hd h).2
  | chandlerTakeoverComplete => exact (exec_chandlerTakeoverComplete_kept (inTallyRange_closed _ (by decide)) s t hd h).2
  | chandlerRestartVerified => exact (exec_chandlerRestartVerified_kept (inTallyRange_closed _ (by decide)) s t hd h).2
  | chandlerSynced => exact (exec_chandlerSynced_kept (inTallyRange_closed _ (by decide)) s t hd h).2
  | chandlerSyncTimeout => exact (exec_chandlerSyncTimeout_kept (inTallyRange_closed _ (by decide)) s t hd h).2
  | descriptorFetch _ => exact (exec_descriptorFetch_kept (inTallyRange_closed _ (by decide)) _ s t hd h).2
  | avsbusFrameEnd _ _ => exact (exec_avsbusFrameEnd_kept (inTallyRange_closed _ (by decide)) _ _ s t hd h).2
  | pmbusTransactionComplete _ _ => exact (exec_pmbusTransactionComplete_kept (inTallyRange_closed _ (by decide)) _ _ s t hd h).2
  | streamAccessFail _ _ => exact (exec_streamAccessFail_kept (inTallyRange_closed _ (by decide)) _ _ s t hd h).2
  | ledgerRecordAccept => exact (exec_ledgerRecordAccept_kept (inTallyRange_closed _ (by decide)) s t hd h).2
  | stretchSpanWindowEnd _ => exact (exec_stretchSpanWindowEnd_kept (inTallyRange_closed _ (by decide)) _ s t hd h).2
  | drainPageTimeout => exact (exec_drainPageTimeout_kept (inTallyRange_closed _ (by decide)) s t hd h).2
  | drainPageWriteComplete _ => exact (exec_drainPageWriteComplete_kept (inTallyRange_closed _ (by decide)) _ s t hd h).2
  | regionIdleChange _ => exact (exec_regionIdleChange_kept (inTallyRange_closed _ (by decide)) _ s t hd h).2
  | wakeLine _ _ => exact (exec_wakeLine_kept (inTallyRange_closed _ (by decide)) _ _ s t hd h).2
  | regionResetEnd _ => exact (exec_regionResetEnd_kept (inTallyRange_closed _ (by decide)) _ s t hd h).2
  | islandResetEnd _ => exact (exec_islandResetEnd_kept (inTallyRange_closed _ (by decide)) _ s t hd h).2
  | planLoad _ => exact (exec_planLoad_kept (inTallyRange_closed _ (by decide)) _ s t hd h).2
  | planStart _ => exact (exec_planStart_kept (inTallyRange_closed _ (by decide)) _ s t hd h).2
  | planRelease _ => exact (exec_planRelease_kept (inTallyRange_closed _ (by decide)) _ s t hd h).2
  | planArm _ => exact (exec_planArm_kept (inTallyRange_closed _ (by decide)) _ s t hd h).2
  | planUnload _ => exact (exec_planUnload_kept (inTallyRange_closed _ (by decide)) _ s t hd h).2
  | planCouple _ => exact (exec_planCouple_kept (inTallyRange_closed _ (by decide)) _ s t hd h).2
  | planRead _ => exact (exec_planRead_kept (inTallyRange_closed _ (by decide)) _ s t hd h).2
  | oppCommit _ => exact (exec_oppCommit_kept (inTallyRange_closed _ (by decide)) _ s t hd h).2
  | oppCancel _ => exact (exec_oppCancel_kept (inTallyRange_closed _ (by decide)) _ s t hd h).2
  | oppRead _ => exact (exec_oppRead_kept (inTallyRange_closed _ (by decide)) _ s t hd h).2
  | capSet _ => exact (exec_capSet_kept (inTallyRange_closed _ (by decide)) _ s t hd h).2
  | capCeiling _ => exact (exec_capCeiling_kept (inTallyRange_closed _ (by decide)) _ s t hd h).2
  | capRead _ => exact (exec_capRead_kept (inTallyRange_closed _ (by decide)) _ s t hd h).2
  | poolSet _ => exact (exec_poolSet_kept (inTallyRange_closed _ (by decide)) _ s t hd h).2
  | poolRead _ => exact (exec_poolRead_kept (inTallyRange_closed _ (by decide)) _ s t hd h).2
  | tenantCreate _ => exact (exec_tenantCreate_kept (inTallyRange_closed _ (by decide)) _ s t hd h).2
  | tenantDestroy _ => exact (exec_tenantDestroy_kept (inTallyRange_closed _ (by decide)) _ s t hd h).2
  | tenantMove _ => exact (exec_tenantMove_kept (inTallyRange_closed _ (by decide)) _ s t hd h).2
  | tenantFence _ => exact (exec_tenantFence_kept (inTallyRange_closed _ (by decide)) _ s t hd h).2
  | tenantRead _ => exact (exec_tenantRead_kept (inTallyRange_closed _ (by decide)) _ s t hd h).2
  | watchSet _ => exact (exec_watchSet_kept (inTallyRange_closed _ (by decide)) _ s t hd h).2
  | watchClear _ => exact (exec_watchClear_kept (inTallyRange_closed _ (by decide)) _ s t hd h).2
  | watchRead _ => exact (exec_watchRead_kept (inTallyRange_closed _ (by decide)) _ s t hd h).2
  | ledgerControl _ => exact (exec_ledgerControl_kept (inTallyRange_closed _ (by decide)) _ s t hd h).2
  | ledgerDrain _ => exact (exec_ledgerDrain_kept (inTallyRange_closed _ (by decide)) _ s t hd h).2
  | ledgerRead _ => exact (exec_ledgerRead_kept (inTallyRange_closed _ (by decide)) _ s t hd h).2
  | certRead _ => exact (exec_certRead_kept (inTallyRange_closed _ (by decide)) _ s t hd h).2
  | calWrite _ _ => exact (exec_calWrite_kept (inTallyRange_closed _ (by decide)) _ _ s t hd h).2
  | calExport _ => exact (exec_calExport_kept (inTallyRange_closed _ (by decide)) _ s t hd h).2
  | calRead _ => exact (exec_calRead_kept (inTallyRange_closed _ (by decide)) _ s t hd h).2
  | calSet _ => exact (exec_calSet_kept (inTallyRange_closed _ (by decide)) _ s t hd h).2
  | calUnretire _ => exact (exec_calUnretire_kept (inTallyRange_closed _ (by decide)) _ s t hd h).2
  | assayRegion _ => exact (exec_assayRegion_kept (inTallyRange_closed _ (by decide)) _ s t hd h).2
  | islandRead _ => exact (exec_islandRead_kept (inTallyRange_closed _ (by decide)) _ s t hd h).2
  | islandPhase _ => exact (exec_islandPhase_kept (inTallyRange_closed _ (by decide)) _ s t hd h).2
  | islandResetCmd _ => exact (exec_islandResetCmd_kept (inTallyRange_closed _ (by decide)) _ s t hd h).2
  | regionRead _ => exact (exec_regionRead_kept (inTallyRange_closed _ (by decide)) _ s t hd h).2
  | regionResetCmd _ => exact (exec_regionResetCmd_kept (inTallyRange_closed _ (by decide)) _ s t hd h).2
  | regionConfig _ => exact (exec_regionConfig_kept (inTallyRange_closed _ (by decide)) _ s t hd h).2
  | regionTest _ => exact (exec_regionTest_kept (inTallyRange_closed _ (by decide)) _ s t hd h).2
  | tallyPriority _ => exact run_inTallyRange (fun _ => command_inTallyRange (tallyPriorityBody_inTallyRange _)) hd h
  | tallyAuthority _ => exact run_inTallyRange (fun _ => command_inTallyRange (tallyAuthorityBody_inTallyRange _)) hd h
  | tallyRead _ => exact (exec_tallyRead_kept (inTallyRange_closed _ (by decide)) _ s t hd h).2
  | fabricRead _ => exact (exec_fabricRead_kept (inTallyRange_closed _ (by decide)) _ s t hd h).2
  | fabricRef _ => exact (exec_fabricRef_kept (inTallyRange_closed _ (by decide)) _ s t hd h).2
  | fabricResume _ => exact (exec_fabricResume_kept (inTallyRange_closed _ (by decide)) _ s t hd h).2
  | fabricTopology _ _ => exact run_inTallyRange (fun _ => command_inTallyRange (fabricTopologyBody_inTallyRange _ _)) hd h
  | fabricPower _ => exact (exec_fabricPower_kept (inTallyRange_closed _ (by decide)) _ s t hd h).2
  | queueDoorbellWrite _ _ _ => exact (exec_queueDoorbellWrite_kept (inTallyRange_closed _ (by decide)) _ _ _ s t hd h).2
  | queueCqHeadWrite _ _ => exact (exec_queueCqHeadWrite_kept (inTallyRange_closed _ (by decide)) _ _ s t hd h).2
  | queueResetWrite _ => exact (exec_queueResetWrite_kept (inTallyRange_closed _ (by decide)) _ s t hd h).2
  | queueIntStatusClear _ _ _ => exact (exec_queueIntStatusClear_kept (inTallyRange_closed _ (by decide)) _ _ _ s t hd h).2
  | fabricIntStatusClear _ _ => exact (exec_fabricIntStatusClear_kept (inTallyRange_closed _ (by decide)) _ _ s t hd h).2
  | estopRegisterSet => exact (exec_estopRegisterSet_kept (inTallyRange_closed _ (by decide)) s t hd h).2
  | estopRegisterClear => exact (exec_estopRegisterClear_kept (inTallyRange_closed _ (by decide)) s t hd h).2
  | fabricResetWrite _ => exact run_inTallyRange (b := true) (fabricResetWrite_inTallyRange _) hd h
  | tallySnapshotRead => exact (exec_tallySnapshotRead_kept (inTallyRange_closed _ (by decide)) s t hd h).2
  | loRegisterRead _ => exact (exec_loRegisterRead_kept (inTallyRange_closed _ (by decide)) _ s t hd h).2
  | ledgerFreezeWrite _ => exact (exec_ledgerFreezeWrite_kept (inTallyRange_closed _ (by decide)) _ s t hd h).2
  | drainHeadWrite _ => exact (exec_drainHeadWrite_kept (inTallyRange_closed _ (by decide)) _ s t hd h).2
  | registerWriteGeneric _ _ _ => exact (exec_registerWriteGeneric_kept (inTallyRange_closed _ (by decide)) _ _ _ s t hd h).2
  | fabricWordUpdate _ => exact run_inTallyRange (b := true) (fabricWord_inTallyRange _) hd h
  | ledgerRecordUpdate _ => exact (exec_ledgerRecordUpdate_kept (inTallyRange_closed _ (by decide)) _ s t hd h).2
  | rootReacquire _ => exact (exec_rootReacquire_kept (inTallyRange_closed _ (by decide)) _ s t hd h).2
  | rootLockDeclared _ => exact run_inTallyRange (rootLocked_inTallyRange _) hd h
  | railConfirmationRead _ => exact (exec_railConfirmationRead_kept (inTallyRange_closed _ (by decide)) _ s t hd h).2
  | pmbusReadTimeout _ => exact (exec_pmbusReadTimeout_kept (inTallyRange_closed _ (by decide)) _ s t hd h).2
  | testInstructionUpdate _ => exact (exec_testInstructionUpdate_kept (inTallyRange_closed _ (by decide)) _ s t hd h).2

theorem tallyTick_inTallyRange (d : Die) (hd : InTallyRange d) : InTallyRange (tallyTick d) := by
  unfold tallyTick
  split
  · exact ⟨by dsimp only; omega, Nat.mod_lt _ (by decide), hd.low, hd.high⟩
  · exact hd

theorem step_of_cons {s : State} {c : Instr} {rest : List Instr} (hp : s.pending = c :: rest) : step s = exec c { s with pending := rest } := by
  unfold step
  rw [hp]

theorem step_of_nil {s : State} (hp : s.pending = []) : step s = .next { s with die := tallyTick s.die } := by
  unfold step
  rw [hp]

/-- The widths of Tally and the limit of its rate word are an invariant of the step. -/
theorem step_inTallyRange {s t : State} (hd : InTallyRange s.die) (h : step s = .next t) : InTallyRange t.die := by
  cases hp : s.pending with
  | nil =>
    rw [step_of_nil hp] at h
    cases h
    exact tallyTick_inTallyRange _ hd
  | cons c rest =>
    rw [step_of_cons hp] at h
    exact exec_inTallyRange (s := { s with pending := rest }) hd c h

/-- A period of a running Tally adds 2^40 units and the rate word, modulo the 104 bits of the counter. -/
theorem tallyTick_of_running {d : Die} (hd : d.tally.InRange) (hr : d.tally.running = true) :
    ∃ now frac, tallyTick d = { d with tally := { d.tally with now := now, frac := frac } } ∧ now < 2 ^ 64 ∧ frac < 2 ^ 40 ∧
      (∃ wraps : Nat, ((now * 2 ^ 40 + frac + wraps * 2 ^ 104 : Nat) : Int) = ((d.tally.now * 2 ^ 40 + d.tally.frac + 2 ^ 40 : Nat) : Int) + d.tally.rate) := by
  have hlow := hd.low
  unfold rateLimit at hlow
  obtain ⟨v, hv⟩ : ∃ v : Nat, ((d.tally.now * 2 ^ 40 + d.tally.frac + 2 ^ 40 : Nat) : Int) + d.tally.rate = v :=
    ⟨_, (Int.toNat_of_nonneg (by omega)).symm⟩
  have hn : ((v : Int) % (2 ^ 104 : Nat)).toNat = v % 2 ^ 104 := by omega
  refine ⟨v % 2 ^ 104 / 2 ^ 40, v % 2 ^ 104 % 2 ^ 40, ?_, by omega, by omega, v / 2 ^ 104, by rw [hv]; omega⟩
  simp only [tallyTick, hr, if_true, hv, hn]

/-- R49, R476: a snapshot captures the integer part of Tally, whatever its fraction. -/
theorem snapshotRead_tally (d : Die) : (snapshotRead d).regs.snap.tally = d.tally.now := rfl

/-- Settles O54: the period of the Tally clock by arithmetic on the 104 bits of the counter, the invariant by cases on the step. -/
theorem tallyAddsTheRateWordWithinItsLimit : Obligations.TallyAddsTheRateWordWithinItsLimit :=
  ⟨fun _ hd hr => tallyTick_of_running hd hr, fun d hr => by simp [tallyTick, hr], fun _ _ hd h => step_inTallyRange hd h,
    fun s => gives_run (b := true) rfl rfl (snapshotRead_tally s.die)⟩

/-- Settles O50, by the two equations of the step. -/
theorem stepRunsTheFrontCommand : Obligations.StepRunsTheFrontCommand :=
  ⟨fun _ _ => step_of_cons rfl, fun _ _ _ hp => step_of_cons hp, fun _ hp => step_of_nil hp⟩

/-! ## The state right after reset (R42, R472) -/

/-- Settles O52: after reset every table is empty and every register is at its default. -/
theorem invariantsHoldAtReset : Obligations.InvariantsHoldAtReset :=
  ⟨by constructor <;> decide, ⟨by decide, by decide⟩, inTallyRange_default, rfl⟩

/-- Settles O51: each clause is a closed fact about the state after reset, evaluated in the kernel. -/
theorem resetReadsTheResetColumns : Obligations.ResetReadsTheResetColumns := by
  unfold Obligations.ResetReadsTheResetColumns
  refine ⟨?_, ?_, ?_, ?_, ?_, ?_⟩ <;> decide +kernel

end Sys2Proof.Machine

namespace Sys2Proof.Machine
open Sys2Proof

/-! ## Watches fire into the delivery port (R66 to R70) -/

/-- The message of a fire of watch w that covers n fires beyond the first, in the slot that ends at e (Table 2.4). -/
def fireMessage (d : Die) (w e n tally cycle isl : Nat) (late : Bool) : WatchMsg :=
  let x := watch d w
  { slot := e, watch := w, kindFlags := watchFlags d x.kind late false, target := x.target, epoch := d.tally.epoch, merged := min 255 n, island := isl,
    tally := tally, cycle := cycle, condition := x.condition + n * x.period }

/-- No message of the watch waits at the port. -/
def NoneWaits (d : Die) (w : Nat) : Prop := ∀ m ∈ d.messages, m.watch ≠ w

theorem postMessage_watches (m : WatchMsg) (d : Die) : (postMessage m d).watches = d.watches :=
  (postMessage_kept (sameBut_closed _ d) m d (sameBut_refl _ d)) .watches (by decide)

theorem postMessage_of_noneWaits {m : WatchMsg} {d : Die} (h : NoneWaits d m.watch) : postMessage m d = { d with messages := insertMessage m d.messages } := by
  have hf : d.messages.find? (fun n => decide (n.watch = m.watch)) = none := List.find?_eq_none.2 (by simpa [NoneWaits] using h)
  simp only [postMessage, hf]

section
variable {d : Die} {w at_ e tally cycle isl : Nat} {late : Bool}

theorem fireWatch_messages (hm : NoneWaits d w) :
    (fireWatch w at_ e tally cycle isl late d).messages = insertMessage (fireMessage d w e (fireCount (watch d w) at_) tally cycle isl late) d.messages := by
  unfold fireWatch
  dsimp only
  rw [postMessage_of_noneWaits hm]
  rfl

theorem watch_fireWatch (hc : d.Canonical) : watch (fireWatch w at_ e tally cycle isl late d) w =
    if (watch d w).kind % 2 = 1 then { watch d w with condition := (watch d w).condition + fireCount (watch d w) at_ * (watch d w).period + (watch d w).period } else {} := by
  have hp : ∀ m, watch (postMessage m d) w = watch d w := fun m => by unfold watch; rw [postMessage_watches]
  unfold fireWatch
  rw [watch_modWatch_same (by rw [postMessage_watches]; exact hc.watches), hp]

/-- A one-time watch is free after its fire, which covers no other. -/
theorem fireWatch_oneTime (hc : d.Canonical) (hm : NoneWaits d w) (hk : (watch d w).kind % 2 = 0) :
    watch (fireWatch w at_ e tally cycle isl late d) w = {} ∧
      (fireWatch w at_ e tally cycle isl late d).messages = insertMessage (fireMessage d w e 0 tally cycle isl late) d.messages := by
  have hn : fireCount (watch d w) at_ = 0 := by simp [fireCount, hk]
  rw [watch_fireWatch hc, fireWatch_messages hm, hn]
  simp [hk]

/-- The first C + kP beyond v, for a C that v has reached. -/
theorem next_period_spec {c v p : Nat} (hp : 0 < p) (hv : c ≤ v) :
    v < c + (v - c) / p * p + p ∧ c + (v - c) / p * p + p ≤ v + p ∧ (c + (v - c) / p * p + p - c) % p = 0 := by
  have hdiv := Nat.div_add_mod' (v - c) p
  have hmod := Nat.mod_lt (v - c) hp
  refine ⟨by omega, by omega, ?_⟩
  rw [show c + (v - c) / p * p + p - c = p * ((v - c) / p + 1) by rw [Nat.mul_add, Nat.mul_comm]; omega]
  exact Nat.mul_mod_right _ _

end

theorem tallyWatchFire_of_reached {d : Die} {w v : Nat} (hv : v = d.tally.now / 10 * 10) (hs : watchStands (watch d w) v = true)
    (ha : (watch d w).armed = true) (hk : (watch d w).kind < 2) (hr : (watch d w).condition ≤ v) :
    tallyWatchFire w d = fireWatch w v v v (island d (dieRef d)).ring.count 0xFFFF (decide ((watch d w).condition + 10 < v)) d := by
  subst hv
  simp [tallyWatchFire, hs, ha, hk, hr]

theorem cycleWatchFire_of_reached {d : Die} {w stamp : Nat} (hs : watchStands (watch d w) (slotOf stamp) = true) (ha : (watch d w).armed = true)
    (hk : (watch d w).kind = 2) (hr : (watch d w).condition ≤ (island d (watch d w).island).ring.count) :
    cycleWatchFire w stamp d = fireWatch w (island d (watch d w).island).ring.count (slotOf stamp) stamp (watch d w).condition (watch d w).island false d := by
  simp [cycleWatchFire, hs, ha, hk, hr, fireCount]

/-- Arming a logical watch that has passed fires it LATE. -/
theorem armWatch_of_passed {d : Die} {w : Nat} (hs : watchStands (watch d w) (slotOf d.tally.now) = true) (ha : (watch d w).armed = false)
    (hk : (watch d w).kind = 2) (hr : (watch d w).condition ≤ (island d (watch d w).island).ring.count) :
    armWatch w d = fireWatch w (island d (watch d w).island).ring.count (slotOf d.tally.now) d.tally.now (island d (watch d w).island).ring.count (watch d w).island true
      (modWatch w (fun y => { y with armed := true }) d) := by
  simp [armWatch, hs, ha, hk, hr]

theorem armWatch_of_ahead {d : Die} {w : Nat} (hs : watchStands (watch d w) (slotOf d.tally.now) = true) (ha : (watch d w).armed = false)
    (hk : (watch d w).kind < 2 ∨ (island d (watch d w).island).ring.count < (watch d w).condition) :
    armWatch w d = modWatch w (fun y => { y with armed := true }) d := by
  have hn : ¬(2 ≤ (watch d w).kind ∧ (watch d w).condition ≤ (island d (watch d w).island).ring.count) := by omega
  simp only [armWatch, hs, ha, hn, if_false, Bool.not_false, Bool.and_self, if_true]

theorem deliverWatch_of_ended {d : Die} {m : WatchMsg} {t : List WatchMsg} (hd : d.messages = m :: t) (hm : m.slot ≤ d.tally.now) :
    deliverWatch d = { d with messages := t, delivered := messageBytes m } := by
  simp only [deliverWatch, hd, if_pos hm]

/-- Settles O15: each event comes to a fire, an arming or a delivery, and the fire to its message and what the watch waits for next. -/
theorem watchesFireIntoTheDeliveryPort : Obligations.WatchesFireIntoTheDeliveryPort := by
  intro s w hc hw
  dsimp only
  have named : isWatch w = true := decide_eq_true hw
  refine ⟨fun hm => ⟨fun v hv hs ha hr => ⟨fun hk => ?_, fun hk hp => ?_⟩, fun stamp hs ha hk hr => ?_, fun hs ha hk hr => ?_⟩, fun hs ha hk => ?_, fun m t hd hm => ?_⟩
  · refine gives_run rfl named ?_
    rw [tallyWatchFire_of_reached hv hs ha (by omega) hr]
    exact fireWatch_oneTime hc hm (by omega)
  · refine gives_run rfl named ?_
    rw [tallyWatchFire_of_reached hv hs ha (by omega) hr]
    have hn : fireCount (watch s.die w) v = (v - (watch s.die w).condition) / (watch s.die w).period := by simp [fireCount, hk, hp]
    rw [watch_fireWatch hc, fireWatch_messages hm, hn, if_pos (by omega)]
    obtain ⟨hlt, hle, hmod⟩ := next_period_spec hp hr
    exact ⟨hlt, hle, hmod, rfl, rfl⟩
  · refine gives_run rfl named ?_
    rw [cycleWatchFire_of_reached hs ha hk hr]
    exact fireWatch_oneTime hc hm (by omega)
  · refine gives_run rfl named ?_
    rw [armWatch_of_passed hs ha hk hr]
    have hx : watch (modWatch w (fun y => { y with armed := true }) s.die) w = { watch s.die w with armed := true } := watch_modWatch_same hc.watches
    obtain ⟨hfree, hmsg⟩ := fireWatch_oneTime (modWatch_can w _ _ hc) hm (by rw [hx]; dsimp only; omega)
    refine ⟨hfree, hmsg.trans ?_⟩
    unfold fireMessage
    rw [hx]
    rfl
  · refine gives_run rfl named ?_
    rw [armWatch_of_ahead hs ha hk]
    exact ⟨watch_modWatch_same hc.watches, rfl⟩
  · show run true deliverWatch s = _
    rw [run_true, deliverWatch_of_ended hd hm]

end Sys2Proof.Machine

namespace Sys2Proof.Machine
open Sys2Proof

/-! ## Registers and the test access port (R49, R458, R459, R471, R473, R476) -/

/-- A command that leaves the die as it is leaves the state as it is. -/
theorem run_of_unchanged {f : Die → Die} {s : State} (h : f s.die = s.die) : run true f s = .next s := by
  rw [run_true, h]

/-- The offsets whose _LO register latches its high word (R473). -/
def Latches (off : Nat) : Prop := off = 0x08 ∨ off = 0x18 ∨ off = 0xC8

theorem loRead_of_latches {off : Nat} (h : Latches off) (d : Die) : loRead off d =
    { d with regs := { d.regs with readValue := mmioRead d off, latches := (off, highWord d off) :: d.regs.latches.filter (fun e => e.1 ≠ off) } } :=
  if_pos h

/-- The _HI register beside a latched _LO register reads the word that was latched. -/
theorem mmioRead_high_loRead {off : Nat} (h : Latches off) (d : Die) : mmioRead (loRead off d) (off + 4) = highWord d off := by
  rw [loRead_of_latches h]
  rcases h with rfl | rfl | rfl <;> simp [mmioRead, highRead]

theorem genericWrite_of_misaligned {off bytes : Nat} (h : bytes ≠ 4 ∨ off % 4 ≠ 0) (value : Nat) (d : Die) : genericWrite off bytes value d = d :=
  if_neg (by omega)

theorem genericWrite_fintEnable (value : Nat) (d : Die) : genericWrite 0x104 4 value d = { d with regs := { d.regs with fintEnable := value % 256 } } := rfl

theorem genericWrite_intEnable {q : Nat} (hq : q < 17) (value : Nat) (d : Die) :
    genericWrite (0x1018 + 256 * q) 4 value d = modQueue q (fun x => { x with intEnable := value % 8 }) d := by
  have hoff : (0x1018 + 256 * q - 0x1000) / 256 = q := by omega
  rw [genericWrite, if_pos (by omega), enableWrite, if_neg (by omega), if_pos (by omega), hoff]

theorem fabricWord_read {w : Nat} {d : Die} (hg : d.stop.aonGood = true) (hw : bit w 14 = false) :
    fabricWord w d = { d with regs := { d.regs with testData := mmioRead d (4 * (w % 2 ^ 14)) } } := by
  simp [fabricWord, hg, hw]

theorem fabricWord_write {w : Nat} {d : Die} (hg : d.stop.aonGood = true) (hw : bit w 14 = true) (hf : d.startup.fusesRead = true)
    (hd : d.startup.fuses.debug = true) : fabricWord w d = mmioWrite (4 * (w % 2 ^ 14)) (w / 2 ^ 16 % 2 ^ 32) d := by
  simp [fabricWord, hg, hw, hf, hd]

/-- Without the debug fuse the test port writes nothing. -/
theorem fabricWord_write_of_noDebug {w : Nat} {d : Die} (hw : bit w 14 = true) (hd : d.startup.fuses.debug = false) : fabricWord w d = d := by
  simp [fabricWord, hw, hd]

/-- Settles O38, access by access. -/
theorem registersLatchAndTakeAlignedWrites : Obligations.RegistersLatchAndTakeAlignedWrites := by
  intro s
  dsimp only
  refine ⟨gives_run (b := true) rfl rfl rfl, fun off h => ?_, fun off h => ?_, fun off h1 h2 h3 h4 h5 => ?_, fun value => gives_run (b := true) rfl rfl rfl,
    fun q value hc hq => ?_, fun off bytes value h => run_of_unchanged (genericWrite_of_misaligned h value s.die), fun w hg hw => ?_, fun w hg hw hf hd ho => ?_,
    fun w hw hd => run_of_unchanged (fabricWord_write_of_noDebug hw hd), fun index hg => ?_, fun on => gives_run (b := true) rfl rfl rfl⟩
  · refine gives_run (b := true) rfl rfl ⟨?_, mmioRead_high_loRead h s.die, ?_⟩ <;> rw [loRead_of_latches h]
  · exact gives_run (b := true) rfl rfl (by rcases h with rfl | rfl <;> rfl)
  · exact run_of_unchanged (by simp [loRead, h1, h2, h3, h4, h5])
  · refine gives_run (b := true) rfl rfl ?_
    rw [genericWrite_intEnable hq]
    exact ⟨queue_same hc, fun p hp => queue_other hc hp⟩
  · exact gives_run (b := true) rfl rfl (fabricWord_read hg hw)
  · refine gives_run (b := true) rfl rfl ((fabricWord_write hg hw hf hd).trans ?_)
    rw [ho]
    rfl
  · exact gives_run (b := true) rfl rfl (if_pos hg)

end Sys2Proof.Machine

namespace Sys2Proof.Machine
open Sys2Proof

/-! ## A command in execution and its checks (R333, R341, R342) -/

/-- A command in execution acts by its body, and is finished with the body's reply. -/
theorem exec_command {c : Instr} {s : State} {q op : Nat} {e : Exec} {body : Exec → Bytes → Die → Die × Reply} (hx : Executing s q op e)
    (hc : exec c s = run (isQueue q) (command q op body) s) {f : Die} {r : Reply} (hb : body e (e.desc.drop 16) s.die = (f, r)) :
    exec c s = .next { s with die := finish q r f } := by
  obtain ⟨hq, he, hop, hrun⟩ := hx
  rw [hc, run_named (b := isQueue q) (decide_eq_true hq)]
  simp only [command, he, hop, hrun, and_self, if_true, hb]

theorem completesOk_of_body {c : Instr} {s : State} {q op result : Nat} {e : Exec} {out : Option Bytes} {post : Die → Prop}
    {body : Exec → Bytes → Die → Die × Reply} (hx : Executing s q op e) (hc : exec c s = run (isQueue q) (command q op body) s) {f : Die}
    (hb : body e (e.desc.drop 16) s.die = (f, .done result out)) (hp : post f) : CompletesOk c s q result out post :=
  ⟨f, exec_command hx hc hb, hp⟩

/-- Where no check fails, the effect follows. -/
theorem checked_pass {l : List (Bool × Nat × Nat)} {f : Die → Die × Reply} {d : Die} (h : ∀ c ∈ l, c.1 = false) : checked l f d = f d := by
  have hl : l.find? (fun c => c.1) = none := List.find?_eq_none.2 (by simpa using h)
  simp only [checked, firstRefusal, hl, Option.map_none]

/-- The first check that fails decides the reply. -/
theorem checked_fail {l r : List (Bool × Nat × Nat)} {c : Bool × Nat × Nat} {f : Die → Die × Reply} {d : Die} (h : ∀ c ∈ l, c.1 = false) (hc : c.1 = true) :
    checked (l ++ c :: r) f d = (d, .refuse c.2.1 c.2.2) := by
  have hl : (l ++ c :: r).find? (fun c => c.1) = some c := by
    rw [List.find?_append, List.find?_eq_none.2 (by simpa using h), Option.none_or, List.find?_cons_of_pos hc]
  simp only [checked, firstRefusal, hl, Option.map_some]

/-- A check under a condition is passed where the condition implies so. -/
theorem guard_pass {P : Prop} [Decidable P] {b : Bool} (h : P → b = false) : (decide P && b) = false := by
  by_cases hp : P
  · simp [h hp]
  · simp [hp]

theorem readyCheck_pass {d : Die} (h : d.startup.ready = 1) : (readyCheck d).1 = false := by
  simp [readyCheck, isReady, h]

theorem zeroCheck_pass {p : Bytes} {a b : Nat} (h : ZeroBytes p a b) : (zeroCheck p a b).1 = false := by
  have hn : reservedAt p a b = none := by
    simp only [reservedAt, Option.map_eq_none_iff, List.find?_eq_none, List.mem_range]
    intro j hj
    simpa using h (a + j) (by omega) (by omega)
  rw [zeroCheck, hn]
  rfl

/-- A field below 2^k has no bit of a mask above it. -/
theorem bitsCheck_pass {p : Bytes} {off mask : Nat} (h : fld p off 1 &&& mask = 0) : (bitsCheck p off mask).1 = false := by
  simp [bitsCheck, h]

theorem regionScope_pass {d : Die} {q r : Nat} (h : q = 0 ∨ (region d r).owner = q) : (regionScope d q r).1 = false := by
  simp only [regionScope, decide_eq_false_iff_not]
  omega

theorem islandFound_pass {d : Die} {i : Nat} (hi : i < 1248) (hp : present d (islandRegion i) = true) : (islandFound d i).1 = false := by
  simp [islandFound, hi, hp]

theorem unle_lt (b : Bytes) : unle b < 256 ^ b.length := by
  induction b with
  | nil => decide
  | cons x t ih =>
    have hx := x.isLt
    simp only [unle, List.length_cons, Nat.pow_succ]
    omega

theorem fld_byte_lt (p : Bytes) (off : Nat) : fld p off 1 < 256 := by
  have hlen : ((p.drop off).take 1).length ≤ 1 := List.length_take_le ..
  calc fld p off 1 < 256 ^ ((p.drop off).take 1).length := unle_lt _
    _ ≤ 256 ^ 1 := Nat.pow_le_pow_right (by decide) hlen
    _ = 256 := by decide

/-! ## The watch commands (R66, R69, R344, R363, R364) -/

theorem watchId_of_named {d : Die} {p : Bytes} (h : bit (fld p 2 1) 0 = false) : watchId d p = if watchFree d (fld p 1 1) then some (fld p 1 1) else none := by
  simp only [watchId, h, Bool.false_eq_true, if_false]

theorem watchId_of_lowest {d : Die} {p : Bytes} (h : bit (fld p 2 1) 0 = true) : watchId d p = (List.range 256).find? (watchFree d) := if_pos h

theorem watchId_some {d : Die} {p : Bytes} {w : Nat} (h : watchId d p = some w) :
    w < 256 ∧ watchFree d w = true ∧ (fld p 2 1 = 0 → w = fld p 1 1) ∧ (fld p 2 1 = 1 → ∀ v, v < w → watchFree d v = false) := by
  cases hb : bit (fld p 2 1) 0 with
  | false =>
    rw [watchId_of_named hb] at h
    split at h
    next hf =>
      cases h
      exact ⟨fld_byte_lt p 1, hf, fun _ => rfl, fun h1 => by rw [h1] at hb; exact absurd hb (by decide)⟩
    next => cases h
  | true =>
    rw [watchId_of_lowest hb, List.find?_range_eq_some] at h
    obtain ⟨hf, hw, hlow⟩ := h
    exact ⟨List.mem_range.1 hw, hf, fun h0 => by rw [h0] at hb; exact absurd hb (by decide), fun _ v hv => by simpa using hlow v hv⟩

/-- The fields of a watch.set are legal (R363, Table 2.3): what every watch has to meet, and what a logical one has to. -/
structure LegalWatchSet (d : Die) (q : Nat) (p : Bytes) : Prop where
  kind : fld p 0 1 ≤ 3
  flags : fld p 2 1 ≤ 1
  lowest : fld p 2 1 = 1 → fld p 1 1 = 0
  zero : ZeroBytes p 3 4
  tally : fld p 0 1 < 2 → fld p 4 2 = 0xFFFF
  logical : 2 ≤ fld p 0 1 → fld p 15 1 = 0 ∧ fld p 4 2 < 1248 ∧ present d (islandRegion (fld p 4 2)) = true ∧
    (q = 0 ∨ (region d (islandRegion (fld p 4 2))).owner = q) ∧ islandWatches d (fld p 4 2) < 4
  ready : d.startup.ready = 1
  period : badPeriod (fld p 0 1) (fld p 16 8) = false

theorem and_mask_of_le_one {v : Nat} (h : v ≤ 1) : v &&& 0xFE = 0 := by
  interval_cases v <;> rfl

theorem eq_one_of_bit_zero {v : Nat} (h : v ≤ 1) (hb : bit v 0 = true) : v = 1 := by
  interval_cases v
  · exact absurd hb (by decide)
  · rfl

theorem watchSetBody_registers {d : Die} {q w : Nat} {e : Exec} {p : Bytes} (hk : e.reexecuted = true → keyedWatch d (keyOf q e) = none)
    (hl : LegalWatchSet d q p) (hw : watchId d p = some w) (hh : heldBy d q < quotaOf d q) :
    watchSetBody q e p d = (registerWatch q (keyOf q e) p w d, .done w none) := by
  have hkey : (if e.reexecuted = true then keyedWatch d (keyOf q e) else none) = none := by
    split
    next h => exact hk h
    next => rfl
  have hlow : (bit (fld p 2 1) 0 && decide (fld p 1 1 ≠ 0)) = false := by
    cases hb : bit (fld p 2 1) 0 with
    | false => rfl
    | true => simp [hl.lowest (eq_one_of_bit_zero hl.flags hb)]
  have htally : (!decide (2 ≤ fld p 0 1) && decide (fld p 4 2 ≠ 0xFFFF)) = false := by
    by_cases h : 2 ≤ fld p 0 1
    · simp [h]
    · simp [hl.tally (by omega)]
  simp only [watchSetBody, hkey]
  rw [checked_pass]
  · simp only [hw, Option.getD_some]
  · simp only [List.forall_mem_cons]
    refine ⟨decide_eq_false (Nat.not_lt.2 hl.kind), hlow, bitsCheck_pass (and_mask_of_le_one hl.flags), zeroCheck_pass hl.zero, htally, guard_pass fun h => ?_, guard_pass fun h => ?_,
      readyCheck_pass hl.ready, hl.period, guard_pass fun h => ?_, by rw [hw]; rfl, decide_eq_false (Nat.not_le.2 hh), guard_pass fun h => ?_, nofun⟩
    all_goals obtain ⟨h15, hi, hpres, hown, hfour⟩ := hl.logical h
    · exact decide_eq_false (not_not.2 h15)
    · exact regionScope_pass hown
    · exact islandFound_pass hi hpres
    · exact decide_eq_false (Nat.not_le.2 hfour)

theorem watch_registerWatch {d : Die} (hc : d.Canonical) (q : Nat) (key : Nat × Nat) (p : Bytes) (w : Nat) :
    watch (registerWatch q key p w d) w = { used := true, kind := fld p 0 1, island := fld p 4 2, target := fld p 6 2, condition := fld p 8 8, period := fld p 16 8, owner := q, key := some key } ∧
      ∀ v, v ≠ w → watch (registerWatch q key p w d) v = watch d v :=
  ⟨watch_modWatch_same hc.watches, fun _ hv => watch_modWatch_other hc.watches hv⟩

/-- A re-executed watch.set answers the watch its key has registered (R344). -/
theorem watchSetBody_reexecuted {d : Die} {q w : Nat} {e : Exec} (p : Bytes) (he : e.reexecuted = true) (hk : keyedWatch d (keyOf q e) = some w) :
    watchSetBody q e p d = (d, .done w none) := by
  simp [watchSetBody, he, hk]

theorem watchClearBody_clears {d : Die} {q : Nat} (e : Exec) {p : Bytes} (hz : ZeroBytes p 1 4) (hf : watchFree d (fld p 0 1) = false)
    (ho : q = 0 ∨ (watch d (fld p 0 1)).owner = q) :
    watchClearBody q e p d = (modWatch (fld p 0 1) (fun x => { x with clearedAt := some (slotOf d.tally.now) }) d, .done 0 none) := by
  have hown : (decide (q ≠ 0) && !watchFree d (fld p 0 1) && decide ((watch d (fld p 0 1)).owner ≠ q)) = false := by
    rcases ho with h | h <;> simp [h]
  unfold watchClearBody
  refine checked_pass ?_
  simp only [List.forall_mem_cons]
  exact ⟨zeroCheck_pass hz, hown, hf, nofun⟩

theorem watchReadBody_reads {d : Die} {q : Nat} (e : Exec) {p : Bytes} (hz : ZeroBytes p 1 4)
    (hs : watchFree d (fld p 0 1) = false → 2 ≤ (watch d (fld p 0 1)).kind → q = 0 ∨ (region d (islandRegion (watch d (fld p 0 1)).island)).owner = q) :
    watchReadBody q e p d = (d, .done (watchWord d (fld p 0 1)) none) := by
  have hscope : (!watchFree d (fld p 0 1) && decide (2 ≤ (watch d (fld p 0 1)).kind) && (regionScope d q (islandRegion (watch d (fld p 0 1)).island)).1) = false := by
    cases hf : watchFree d (fld p 0 1) with
    | true => rfl
    | false => simpa using fun hk => regionScope_pass (hs hf hk)
  unfold watchReadBody
  refine checked_pass ?_
  simp only [List.forall_mem_cons]
  exact ⟨zeroCheck_pass hz, hscope, nofun⟩

theorem watchWord_of_free {d : Die} {w : Nat} (h : watchFree d w = true) : watchWord d w = 0xFFFF0000 := if_pos h

theorem watchWord_of_taken {d : Die} {w : Nat} (h : watchFree d w = false) :
    watchWord d w = (if d.messages.any (fun m => decide (m.watch = w)) then 2 else 1) + 256 * (watch d w).kind + 65536 * (watch d w).island :=
  if_neg (by simp [h])

/-- Settles O44: each command passes its checks and completes with the effect of its body. -/
theorem watchCommandsRegisterAndClear : Obligations.WatchCommandsRegisterAndClear := by
  intro s q e hc
  dsimp only
  refine ⟨fun hx => ⟨fun w hk hkind hflags hlow hz ht hlog hr hper hw hh => ?_, fun w he hk => ?_⟩, fun w hw => watchId_some hw, fun hx hz hf ho => ?_, fun hx hz => ⟨fun hf => ?_, fun hf hs => ?_⟩⟩
  · exact completesOk_of_body hx rfl (watchSetBody_registers hk ⟨hkind, hflags, hlow, hz, ht, hlog, hr, hper⟩ hw hh) (watch_registerWatch hc ..)
  · exact completesOk_of_body hx rfl (watchSetBody_reexecuted _ he hk) rfl
  · exact completesOk_of_body hx rfl (watchClearBody_clears e hz hf ho) ⟨watch_modWatch_same hc.watches, fun v hv => watch_modWatch_other hc.watches hv⟩
  · exact watchWord_of_free hf ▸ completesOk_of_body hx rfl (watchReadBody_reads e hz (by simp [hf])) rfl
  · exact watchWord_of_taken hf ▸ completesOk_of_body hx rfl (watchReadBody_reads e hz fun _ => hs) rfl

end Sys2Proof.Machine

namespace Sys2Proof.Machine
open Sys2Proof

/-! ## The Tally commands (R51, R60, R65, R377) -/

theorem nameBackup_eq (d : Die) : ∃ b prio, nameBackup d = { d with tally := { d.tally with backup := b, backupPrio := prio } } := by
  unfold nameBackup
  split
  · exact ⟨_, _, rfl⟩
  · exact ⟨_, _, rfl⟩

theorem nameBackup_of_not_master {d : Die} (h : d.tally.role ≠ 1) : nameBackup d = d := if_neg h

theorem setPriority_tally (v : Nat) (d : Die) : (setPriority v d).tally.priority = v ∧ (setPriority v d).tally.now = d.tally.now := by
  obtain ⟨b, prio, h⟩ := nameBackup_eq (modTally (fun t => { t with priority := v, masterPrio := if t.role = 1 then v else t.masterPrio }) d)
  unfold setPriority
  rw [h]
  exact ⟨rfl, rfl⟩

/-- Only a master sends its new priority with its frames; another die changes nothing else. -/
theorem setPriority_of_not_master (v : Nat) {d : Die} (h : d.tally.role ≠ 1) : setPriority v d = { d with tally := { d.tally with priority := v } } := by
  unfold setPriority
  rw [nameBackup_of_not_master (by exact h)]
  simp only [modTally, h, if_false]

theorem authoritative_tally (d : Die) : (authoritative d).tally = { d.tally with holdover := false } := emit_tally ..

/-- A foreign die that realigns follows the lineage it met, its Tally stepped by the offset it measured (R65). -/
theorem realign_tally (d : Die) : (realign d).tally.foreign = false ∧ (realign d).tally.epoch = (link d d.tally.foreignLink).partner.epoch ∧
    (realign d).tally.parent = some d.tally.foreignLink ∧ (realign d).tally.now = (((d.tally.now : Int) + d.tally.foreignOffset) % (2 ^ 64 : Nat)).toNat := by
  simp only [realign, tallyStep, emit_tally]
  exact ⟨rfl, rfl, rfl, rfl⟩

theorem tallyPriorityBody_sets (e : Exec) {p : Bytes} (d : Die) (hz : ZeroBytes p 1 4) : tallyPriorityBody 0 e p d = (setPriority (fld p 0 1) d, .done 0 none) := by
  unfold tallyPriorityBody
  refine checked_pass ?_
  simp only [List.forall_mem_cons]
  exact ⟨zeroCheck_pass hz, rfl, nofun⟩

theorem tallyAuthorityBody_declares (e : Exec) {p : Bytes} {d : Die} (hz : ZeroBytes p 1 4) (hr : d.startup.ready = 1) (hop : fld p 0 1 = 0) (hm : d.tally.role = 1)
    (hh : d.tally.holdover = true) : tallyAuthorityBody 0 e p d = (authoritative d, .done 0 none) := by
  simp only [tallyAuthorityBody, hop, if_true]
  refine checked_pass ?_
  simp only [List.forall_mem_cons]
  exact ⟨rfl, zeroCheck_pass hz, rfl, readyCheck_pass hr, by simp [busyCheck, hm, hh], rfl, nofun⟩

theorem tallyAuthorityBody_realigns (e : Exec) {p : Bytes} {d : Die} (hz : ZeroBytes p 1 4) (hr : d.startup.ready = 1) (hop : fld p 0 1 = 1) (hf : d.tally.foreign = true)
    (hn : anyPlanOrWatch d = false) : tallyAuthorityBody 0 e p d = (realign d, .done 0 none) := by
  simp only [tallyAuthorityBody, hop, Nat.one_ne_zero, if_false]
  refine checked_pass ?_
  simp only [List.forall_mem_cons]
  exact ⟨rfl, zeroCheck_pass hz, rfl, readyCheck_pass hr, rfl, by simp [busyCheck, hf, hn], nofun⟩

/-! ## fabric.ref (R73, R378) -/

/-- The three flags of fabric.ref, bit by bit. -/
theorem refFlags_bits {v : Nat} (h : v < 8) : v &&& 0xF8 = 0 ∧ b1 (bit v 0) = v % 2 ∧ (bit v 1 = decide (2 ≤ v % 4)) ∧ (bit v 2 = decide (4 ≤ v)) := by
  interval_cases v <;> decide

section
variable {p : Bytes} {d : Die}

theorem fabricRefBody_sets (e : Exec) (hf : fld p 0 1 < 8) (href : fld p 1 1 ≤ 1) (hz : ZeroBytes p 2 4) (hu : 4 ≤ fld p 0 1 → refUsable d (fld p 1 1) = true) :
    fabricRefBody 0 e p d = (setReference (fld p 0 1) (fld p 1 1) d, .done 0 none) := by
  obtain ⟨hmask, -, -, hselect⟩ := refFlags_bits hf
  have hmod : fld p 1 1 % 2 = fld p 1 1 := Nat.mod_eq_of_lt (by omega)
  simp only [fabricRefBody, hmod, hselect]
  refine checked_pass ?_
  simp only [List.forall_mem_cons]
  exact ⟨bitsCheck_pass hmask, bitsCheck_pass (and_mask_of_le_one href), zeroCheck_pass hz, rfl, guard_pass fun h => by rw [hu h]; rfl, nofun⟩

theorem fabricRefBody_notLocked (e : Exec) (hf : fld p 0 1 < 8) (href : fld p 1 1 ≤ 1) (hz : ZeroBytes p 2 4) (hs : 4 ≤ fld p 0 1) (hu : refUsable d (fld p 1 1) = false) :
    fabricRefBody 0 e p d = (d, .refuse stNotLocked (fld p 1 1)) := by
  obtain ⟨hmask, -, -, hselect⟩ := refFlags_bits hf
  have hmod : fld p 1 1 % 2 = fld p 1 1 := Nat.mod_eq_of_lt (by omega)
  simp only [fabricRefBody, hmod, hselect]
  refine checked_fail (l := [bitsCheck p 0 0xF8, bitsCheck p 1 0xFE, zeroCheck p 2 4, rootCheck 0]) (r := []) ?_ (by simp [hs, hu])
  simp only [List.forall_mem_cons]
  exact ⟨bitsCheck_pass hmask, bitsCheck_pass (and_mask_of_le_one href), zeroCheck_pass hz, rfl, nofun⟩

end

theorem refSwitch_clocks (n cause : Nat) (d : Die) :
    (refSwitch n cause d).clocks = { d.clocks with selected := n, held := false, noneSince := none, everQualified := true } := emit_clocks ..

/-- Without a selection the preference alone changes, where the mode is not revertive or the preferred reference is selected. -/
theorem setReference_prefers {flags select : Nat} {d : Die} (hf : flags < 4) (hs : flags < 2 ∨ d.clocks.selected = flags % 2) :
    setReference flags select d = { d with clocks := { d.clocks with preferred := flags % 2, revertive := decide (2 ≤ flags) } } := by
  obtain ⟨-, hprefer, hrevert, hselect⟩ := refFlags_bits (v := flags) (by omega)
  have hmod : flags % 4 = flags := Nat.mod_eq_of_lt hf
  rw [hmod] at hrevert
  have hstay : ¬(2 ≤ flags ∧ d.clocks.everQualified = true ∧ d.clocks.selected ≠ flags % 2 ∧ refUsable { d with clocks := { d.clocks with preferred := flags % 2, revertive := decide (2 ≤ flags) } } (flags % 2) = true) := by
    rintro ⟨h2, -, hne, -⟩
    exact hs.elim (by omega) hne
  simp only [setReference, hprefer, hrevert, hselect, decide_eq_true_eq, if_neg (Nat.not_le.2 hf), if_neg hstay]

/-- With a selection the reference named is selected. -/
theorem setReference_selects {flags select : Nat} {d : Die} (hf : flags < 8) (hs : 4 ≤ flags) :
    (setReference flags select d).clocks.selected = select ∧ (setReference flags select d).clocks.preferred = flags % 2 ∧
      (setReference flags select d).clocks.revertive = decide (6 ≤ flags) := by
  obtain ⟨-, hprefer, hrevert, hselect⟩ := refFlags_bits hf
  have hsix : decide (2 ≤ flags % 4) = decide (6 ≤ flags) := decide_eq_decide.2 (by omega)
  simp only [setReference, hprefer, hrevert, hselect, hsix, hs, decide_true, if_true]
  split
  next hsel => exact ⟨hsel, rfl, rfl⟩
  next => simp only [refSwitch_clocks, and_self]

/-! ## fabric.resume and fabric.power (R266, R378, R379, R437) -/

theorem presentRegions_nodup (d : Die) : (presentRegions d).Nodup := List.Pairwise.filter _ List.nodup_range

theorem raiseDie_region {d : Die} (hc : d.Canonical) {r : Nat} (hr : r ∈ presentRegions d) : (region (raiseDie d) r).opp = 0 ∧ (region (raiseDie d) r).test = none := by
  have hreg : (raiseDie d).regions = _ := each_regions retarget_regions
  have hset := ((each_region (g := fun _ x => { x with opp := 0, test := none, fast := none, settleDue := none, restoreDue := none }) _ (presentRegions_nodup d) hc).2 r).1 hr
  unfold region at hset ⊢
  rw [hreg, hset]
  exact ⟨rfl, rfl⟩

/-- Acceptance of a resume schedules the release and ends a fault stop; the die stays stopped, and Tally as it is (R266). -/
theorem acceptResume_stop (t : Nat) (d : Die) : (acceptResume t d).stop.resumeAt = some t ∧ (acceptResume t d).stop.stopped = d.stop.stopped ∧
    (acceptResume t d).stop.faultStop = none ∧ (acceptResume t d).tally = d.tally := by
  simp only [acceptResume, railsUp_stop, raiseDie_stop, railsUp_tally, raiseDie_tally, and_self]

theorem acceptResume_region (t : Nat) {d : Die} (hc : d.Canonical) {r : Nat} (hr : r ∈ presentRegions d) :
    (region (acceptResume t d) r).opp = 0 ∧ (region (acceptResume t d) r).test = none := by
  unfold acceptResume region
  simp only [railsUp_regions]
  exact raiseDie_region (by exact { hc with }) hr

theorem not_resumeRefused {d : Die} (h : resumeRefused d = false) : d.stop.stopped = true ∧ d.stop.resumeAt = none := by
  simp only [resumeRefused, Bool.or_eq_false_iff, Bool.not_eq_false'] at h
  obtain ⟨⟨⟨hs, -⟩, -⟩, ha⟩ := h
  exact ⟨hs, by simpa using ha⟩

theorem fabricResumeBody_accepts (e : Exec) {p : Bytes} {d : Die} (hz : ZeroBytes p 8 16) (hr : d.startup.ready = 1) (hn : resumeRefused d = false)
    (ht : legalTally d (fld p 0 8) 500000 = true) : fabricResumeBody 0 e p d = (acceptResume (fld p 0 8) d, .done 0 none) := by
  have hagain : (e.reexecuted && decide (d.stop.resumeAt = some (fld p 0 8))) = false := by simp [(not_resumeRefused hn).2]
  simp only [fabricResumeBody, hagain, Bool.false_eq_true, if_false]
  refine checked_pass ?_
  simp only [List.forall_mem_cons]
  exact ⟨zeroCheck_pass hz, rfl, readyCheck_pass hr, by simp [busyCheck, hn], by simp [ht], nofun⟩

theorem mem_setRegions {m r : Nat} : r ∈ setRegions m ↔ r < 80 ∧ bit m r = true := by
  simp [setRegions]

theorem absentCheck_pass {d : Die} {m : RegionSet} (h : ∀ r ∈ setRegions m, present d r = true) : (absentCheck d m).1 = false := by
  have hn : absentRegion d m = none := by
    simp only [absentRegion, List.find?_eq_none, List.mem_range, Bool.and_eq_true, Bool.not_eq_true', not_and, Bool.not_eq_false]
    exact fun r hr hb => h r (mem_setRegions.2 ⟨hr, hb⟩)
  rw [absentCheck, hn]
  rfl

theorem fabricPowerBody_sets (e : Exec) {p : Bytes} {d : Die} (hm : fld p 0 10 ≠ 0) (hz : ZeroBytes p 10 12) (hr : d.startup.ready = 1)
    (hp : ∀ r ∈ setRegions (fld p 0 10), present d r = true) :
    fabricPowerBody 0 e p d = (each (setRegions (fld p 0 10)) (fun r d => modRegion r (fun x => { x with tolerance := fld p 12 4 }) d) d, .done 0 none) := by
  unfold fabricPowerBody
  refine checked_pass ?_
  simp only [List.forall_mem_cons]
  exact ⟨zeroCheck_pass hz, rfl, readyCheck_pass hr, decide_eq_false hm, absentCheck_pass hp, nofun⟩

theorem region_each_tolerance {d : Die} (hc : d.Canonical) (m : RegionSet) (v r : Nat) :
    region (each (setRegions m) (fun r d => modRegion r (fun x => { x with tolerance := v }) d) d) r =
      if r ∈ setRegions m then { region d r with tolerance := v } else region d r := by
  obtain ⟨hin, hout⟩ := (each_region (g := fun _ x => { x with tolerance := v }) (setRegions m) (set_nodup m) hc).2 r
  split
  next h => exact hin h
  next h => exact hout h

end Sys2Proof.Machine

namespace Sys2Proof.Machine
open Sys2Proof

/-! ## Completions and the queue (R333, R334, R338) -/

/-- A completion that is not a refusal of privilege moves the tail and the interrupt status of its queue. -/
theorem modQueue_wf {q : Nat} {f : Queue → Queue} {d : Die} (hc : tblWf {} d.queues = true) : tblWf {} (modQueue q f d).queues = true := tmod_wf hc

theorem queue_postCompletion {q : Nat} {desc : Bytes} {slot status flags result detail : Nat} {d : Die} (hc : tblWf {} d.queues = true) (hs : status ≠ stNoPrivilege) :
    ∃ tail int, queue (postCompletion q desc slot status flags result detail d) q = { queue d q with cplTail := tail, intStatus := int } := by
  unfold postCompletion
  simp only [if_neg hs]
  generalize hw : sramWrite _ _ d = w
  have hwq : w.queues = d.queues := hw ▸ sramWrite_queues ..
  have hwc : tblWf {} w.queues = true := by rw [hwq]; exact hc
  have hsame := queue_of hwq q
  split
  · unfold queueInt
    rw [queue_modQueue_same (by rw [emit_queues]; exact modQueue_wf hwc), queue_emit, queue_modQueue_same hwc, hsame]
    exact ⟨_, _, rfl⟩
  · rw [queue_emit, queue_modQueue_same hwc, hsame]
    exact ⟨_, _, rfl⟩

/-- A command that is done is no longer in execution. -/
theorem queue_finish_done {q result : Nat} {e : Exec} {d : Die} (hc : tblWf {} d.queues = true) (he : (queue d q).exec = some e) (hr : (queue d q).resetting = none) :
    (queue (finish q (.done result none) d) q).exec = none := by
  unfold finish
  simp only [he]
  generalize hm : modQueue q _ d = m
  have hidle : (queue m q).exec = none ∧ (queue m q).resetting = none := by
    rw [← hm, queue_modQueue_same hc]
    exact ⟨rfl, hr⟩
  obtain ⟨tail, int, hpost⟩ := queue_postCompletion (q := q) (desc := e.desc) (slot := e.slot) (status := 0) (flags := b1 e.reexecuted + 4 * b1 (none : Option Bytes).isSome)
    (result := result) (detail := 0xFFFF) (d := m) (hm ▸ modQueue_wf hc) (by decide)
  rw [hpost, hidle.2]
  dsimp only
  rw [hpost, hidle.1]

theorem finish_wait (q : Nat) (d : Die) : finish q .wait d = d := by
  unfold finish
  split <;> rfl

theorem chandlerRuns_congr {a b : Die} (ht : a.tally.running = b.tally.running) (hc : a.chandler = b.chandler) : chandlerRuns a = chandlerRuns b := by
  unfold chandlerRuns
  rw [ht, hc]

/-! ## The topology check (R379, R426 to R428) -/

theorem joinByReady_running (d : Die) : (joinByReady d).tally.running = d.tally.running := by
  unfold joinByReady
  split
  · rfl
  · split <;> rfl

/-- R428: step 10 with READY where nothing differs, and with DEGRADED else. -/
theorem readyState_startup (n : Nat) (d : Die) : (readyState n d).startup = { d.startup with ready := if n = 0 then 1 else 2, step := 10 } := by
  unfold readyState
  split <;> simp [*]

theorem readyCode_eq_one (n : Nat) : (if n = 0 then 1 else 2) = 1 ↔ n = 0 := by
  split <;> simp [*]

theorem readyState_running (n : Nat) (d : Die) : (readyState n d).tally.running = d.tally.running := by
  unfold readyState
  split
  · simp [joinByReady_running]
  · simp

theorem readyState_chandlerRuns (n : Nat) (d : Die) : chandlerRuns (readyState n d) = chandlerRuns d :=
  chandlerRuns_congr (readyState_running n d) (readyState_chandler n d)

/-- The records of the differences leave everything but the Ledger. -/
theorem each_diffRecord_sameBut (l : List (Nat × Nat × Nat × Nat)) (d : Die) : SameBut [.ledger] d (each l diffRecord d) :=
  each_kept (fun x e he => diffRecord_kept (sameBut_closed _ d) x e he) (sameBut_refl _ d)

/-- The check of a die that is not READY ends start-up, and completes the fabric.topology that waits for it. -/
theorem compareTopology_completes {hbm : Nat} {b : Bytes} {e : Exec} {d : Die} (hb : d.startup.descriptor = some b) (hr : d.startup.ready ≠ 1)
    (he : (queue d 0).exec = some e) (hop : fld e.desc 0 2 = 0x0E04) (hch : chandlerRuns d = true) :
    ∃ g n, compareTopology hbm d = finish 0 (.done n none) g ∧ g.queues = d.queues ∧
      g.startup = { d.startup with checkSince := none, differences := n, ready := if n = 0 then 1 else 2, step := 10 } := by
  unfold compareTopology
  rw [hb]
  dsimp only
  generalize differences d b hbm = l
  generalize hx : each l diffRecord _ = x
  have hrec := hx ▸ each_diffRecord_sameBut l _
  have hstartup : x.startup = { d.startup with checkSince := none, differences := l.length } := hrec .startup (by decide)
  have hqueues : (readyState l.length x).queues = d.queues := (readyState_queues ..).trans (hrec .queues (by decide))
  have hruns : chandlerRuns (readyState l.length x) = true := by
    rw [readyState_chandlerRuns, ← hch]
    exact chandlerRuns_congr (congrArg Tally.running (hrec .tally (by decide))) (hrec .chandler (by decide))
  have hready : ¬x.startup.ready = 1 := by rw [hstartup]; exact hr
  have hexec : (queue (readyState l.length x) 0).exec = some e := by rw [queue_of hqueues, he]
  refine ⟨readyState l.length x, l.length, ?_, hqueues, by rw [readyState_startup, hstartup]⟩
  simp only [if_neg hready, hexec, hop, hruns, and_self, if_true]

theorem acceptDescriptor_before {b : Bytes} {d : Die} (hs : d.startup.step < 9) : acceptDescriptor b d =
    { d with tally := { d.tally with dieId := some (d.tally.dieId.getD (fld b 6 2 % 2 ^ 14)) }, startup := { d.startup with descriptor := some b } } := by
  unfold acceptDescriptor
  dsimp only [modTally]
  rw [if_neg (Nat.not_le.2 hs)]

theorem acceptDescriptor_checkSince {b : Bytes} {d : Die} (hs : 9 ≤ d.startup.step) : (acceptDescriptor b d).startup.checkSince = some d.tally.now := if_pos hs

/-- Before step 9 the descriptor waits for its check. -/
theorem beginCheck_before {hbm : Nat} {b : Bytes} {d : Die} (hs : d.startup.step < 9) (hc : d.startup.checkSince = none) : beginCheck hbm b d = acceptDescriptor b d := by
  simp only [beginCheck, acceptDescriptor_before hs, hc, Option.isSome_none, Bool.false_eq_true, false_and, if_false]

/-- Whether the expected links are up is told by the descriptor and the links. -/
theorem linksUp_congr {a b : Die} (hd : a.startup.descriptor = b.startup.descriptor) (hl : a.links = b.links) : linksUp a = linksUp b := by
  unfold linksUp link
  rw [hd, hl]

theorem beginCheck_at_once {hbm : Nat} {b : Bytes} {d : Die} (hs : 9 ≤ d.startup.step) (hl : linksUp { d with startup := { d.startup with descriptor := some b } } = true) :
    beginCheck hbm b d = compareTopology hbm (acceptDescriptor b d) := by
  have hup : linksUp (acceptDescriptor b d) = true := (linksUp_congr rfl rfl).trans hl
  have hdue : (acceptDescriptor b d).startup.checkSince.isSome = true := by rw [acceptDescriptor_checkSince hs]; rfl
  simp only [beginCheck, hup, hdue, and_self, if_true]

theorem fabricTopologyBody_begins {hbm : Nat} {e : Exec} {p : Bytes} {d : Die} (hz : ZeroBytes p 2 8) (hn : fld p 0 2 = 272) (hres : descriptorReserved (e.staged.take 272) = none)
    (hunk : descriptorUnknown (e.staged.take 272) = none) (he : e.reexecuted = false) :
    fabricTopologyBody 0 hbm e p d = (beginCheck hbm (e.staged.take 272) d, .wait) := by
  simp only [fabricTopologyBody, he, Bool.false_and, Bool.false_eq_true, if_false]
  refine checked_pass ?_
  simp only [List.forall_mem_cons]
  exact ⟨zeroCheck_pass hz, by rw [hres]; rfl, rfl, by simp [rangeCheck, hn], by rw [hunk]; rfl, nofun⟩

/-- A command that waits leaves its body's die. -/
theorem gives_of_waiting_body {c : Instr} {s : State} {q op : Nat} {e : Exec} {post : Die → Prop} {body : Exec → Bytes → Die → Die × Reply} (hx : Executing s q op e)
    (hc : exec c s = run (isQueue q) (command q op body) s) {f : Die} (hb : body e (e.desc.drop 16) s.die = (f, .wait)) (hp : post f) : Gives c s post :=
  ⟨{ s with die := f }, by rw [exec_command hx hc hb, finish_wait], rfl, hp⟩

theorem beginCheck_completes {hbm : Nat} {b : Bytes} {e : Exec} {d : Die} (hc : d.Canonical) (hs : 9 ≤ d.startup.step) (hr : d.startup.ready ≠ 1)
    (hl : linksUp { d with startup := { d.startup with descriptor := some b } } = true) (he : (queue d 0).exec = some e) (hop : fld e.desc 0 2 = 0x0E04)
    (hch : chandlerRuns d = true) (hq : (queue d 0).resetting = none) :
    let f := beginCheck hbm b d
    f.startup.step = 10 ∧ f.startup.checkSince = none ∧ (f.startup.ready = 1 ↔ f.startup.differences = 0) ∧ (f.startup.ready = 1 ∨ f.startup.ready = 2) ∧ (queue f 0).exec = none := by
  have hqueues : (acceptDescriptor b d).queues = d.queues := rfl
  obtain ⟨g, n, hg, hgq, hgs⟩ := compareTopology_completes (hbm := hbm) (b := b) (e := e) (d := acceptDescriptor b d) rfl hr (by rw [queue_of hqueues, he]) hop
    (by rw [← hch]; exact chandlerRuns_congr rfl rfl)
  have hsame := queue_of (hgq.trans hqueues) 0
  dsimp only
  rw [beginCheck_at_once hs hl, hg, finish_startup, hgs, queue_finish_done (by rw [hgq]; exact hc.queues) (by rw [hsame, he]) (by rw [hsame, hq])]
  exact ⟨rfl, rfl, readyCode_eq_one _, ite_eq_or_eq .., rfl⟩

/-- Settles O49: each command passes its checks and completes with the effect of its body; fabric.topology waits for its check, which completes it. -/
theorem tallyAndFabricCommandsAct : Obligations.TallyAndFabricCommandsAct := by
  intro s q e hc
  dsimp only
  refine ⟨?_, ?_, ?_, ?_, ?_, ?_, ?_, ?_⟩
  · rintro hx rfl hz
    obtain ⟨hprio, hnow⟩ := setPriority_tally (fld (e.desc.drop 16) 0 1) s.die
    exact completesOk_of_body hx rfl (tallyPriorityBody_sets e s.die hz) ⟨hprio, hnow, setPriority_of_not_master _⟩
  · rintro hx rfl hz hr
    exact ⟨fun hop hm hh => completesOk_of_body hx rfl (tallyAuthorityBody_declares e hz hr hop hm hh) (authoritative_tally s.die),
      fun hop hf hn => completesOk_of_body hx rfl (tallyAuthorityBody_realigns e hz hr hop hf hn) (realign_tally s.die)⟩
  · exact fun hx => completesOk_of_body hx rfl rfl rfl
  · exact fun hx => completesOk_of_body hx rfl rfl rfl
  · rintro hx rfl hf href hz
    refine ⟨fun h4 hs => ?_, fun h4 hu => ?_, fun h4 hu => ?_⟩
    · exact completesOk_of_body hx rfl (fabricRefBody_sets e hf href hz (by omega)) (setReference_prefers h4 hs)
    · exact completesOk_of_body hx rfl (fabricRefBody_sets e hf href hz fun _ => hu) (setReference_selects hf h4)
    · exact exec_command hx rfl (fabricRefBody_notLocked e hf href hz h4 hu)
  · rintro hx rfl hz hr hn h10 hmin hmax
    obtain ⟨hat, hstopped, hfault, htally⟩ := acceptResume_stop (fld (e.desc.drop 16) 0 8) s.die
    refine completesOk_of_body hx rfl (fabricResumeBody_accepts e hz hr hn (decide_eq_true ⟨h10, hmin, hmax⟩)) ⟨hat, ?_, hfault, htally, fun r => acceptResume_region _ hc⟩
    rw [hstopped, (not_resumeRefused hn).1]
  · rintro hbm hx rfl hz hlen hres hunk he
    obtain ⟨-, hexec, hop, hch⟩ := id hx
    have hbody := fabricTopologyBody_begins (hbm := hbm) (d := s.die) hz hlen hres hunk he
    refine ⟨fun hs hcheck => ?_, fun hs hr hl hq => ?_⟩
    · refine gives_of_waiting_body hx rfl hbody ?_
      rw [beginCheck_before hs hcheck, acceptDescriptor_before hs]
      exact ⟨rfl, rfl, hexec⟩
    · exact gives_of_waiting_body hx rfl hbody (beginCheck_completes hc hs hr hl hexec hop hch hq)
  · rintro hx rfl hm hz hr hp
    exact completesOk_of_body hx rfl (fabricPowerBody_sets e hm hz hr hp) (region_each_tolerance hc _ _)

end Sys2Proof.Machine

namespace Sys2Proof.Machine
open Sys2Proof

/-! ## References (R72 to R75) -/

section
variable {n : Nat} {f g : Ref → Ref} {d : Die}

theorem ref_modRef_other {m : Nat} (hn : n < 2) (hm : m < 2) (h : m ≠ n) : ref (modRef n f d) m = ref d m := by
  obtain ⟨rfl, rfl⟩ | ⟨rfl, rfl⟩ : n = 0 ∧ m = 1 ∨ n = 1 ∧ m = 0 := by omega
  all_goals rfl

theorem modRef_modRef : modRef n g (modRef n f d) = modRef n (fun x => g (f x)) d := by
  unfold modRef
  split <;> rfl

theorem modRef_selected : (modRef n f d).clocks.selected = d.clocks.selected := by
  unfold modRef
  split <;> rfl

theorem modRef_everQualified : (modRef n f d).clocks.everQualified = d.clocks.everQualified := by
  unfold modRef
  split <;> rfl

end

@[simp] theorem ref_emitRetire (kind sub count : Nat) (l : Loc) (id n : Nat) (d : Die) : ref (emitRetire kind sub count l id d) n = ref d n := by
  unfold ref
  rw [emitRetire_clocks]

theorem refUsable_of {a b : Die} {n : Nat} (h : ref a n = ref b n) : refUsable a n = refUsable b n := by
  simp only [refUsable, h]

theorem noReference_clocks (d : Die) : (noReference d).clocks = { d.clocks with noneSince := none } := fabricFault_clocks ..

/-- The loops hold, and the count of 1 ms without a reference begins where it does not run (R74, R75). -/
def holdLoops (cause : Nat) (d : Die) : Die :=
  { d with clocks := { d.clocks with held := true, lostCause := cause, noneSince := some (d.clocks.noneSince.getD d.tally.now) } }

/-- The reference is without qualification, and the selection is as before. -/
structure LostRef (n : Nat) (d e : Die) : Prop where
  qualified : (ref e n).qualified = false
  good : (ref e n).good = 0
  selected : e.clocks.selected = d.clocks.selected

/-- What the loss of a reference does beyond its record: nothing where it is not in use, the switch where the other is usable, and else
the hold, with fabric fault 1 where the failure is permanent (R74, R409). -/
theorem refLost_eq {n : Nat} (hn : n < 2) (cause : Nat) (d : Die) : ∃ e, LostRef n d e ∧ refLost n cause d =
    if d.clocks.selected ≠ n ∨ (ref d n).retired = true then e
    else if refUsable d (1 - n) = true then refSwitch (1 - n) cause e
    else if permanent (addFailure d.tally.now (ref d n).failures) = true then noReference (holdLoops cause e) else holdLoops cause e := by
  unfold refLost
  dsimp only
  generalize hl : (if (ref d n).retired = true then (ref d n).failures else addFailure d.tally.now (ref d n).failures) = l
  generalize hd : emit 0x0102 _ _ (modRef n _ d) = d1
  have hlost : LostRef n d d1 := by
    subst hd
    constructor <;> simp [modRef_selected]
  have hspare : refUsable d1 (1 - n) = refUsable d (1 - n) := by
    subst hd
    exact refUsable_of (by rw [ref_emit, ref_modRef_other hn (by omega) (by omega)])
  rw [hspare]
  generalize hd2 : (if ((!(ref d n).retired && permanent l) = true ∧ refUsable d (1 - n) = true) then _ else d1) = e
  have hlost2 : LostRef n d e := by
    subst hd2
    split
    · obtain ⟨hq, hg, hs⟩ := hlost
      constructor <;> simp [modRef_selected, hq, hg, hs]
    · exact hlost
  refine ⟨e, hlost2, ?_⟩
  rw [← hlost2.selected]
  split
  · rfl
  · next hsel =>
    have hret : (ref d n).retired = false := by simpa using fun h => hsel (.inr h)
    simp only [hret, Bool.not_false, Bool.true_and, Bool.false_eq_true, if_false] at hl ⊢
    rw [hl]
    rfl

theorem noReference_ref (n : Nat) (d : Die) : ref (noReference d) n = ref d n := by
  simp only [ref, noReference_clocks]

theorem refSwitch_ref (m cause n : Nat) (d : Die) : ref (refSwitch m cause d) n = ref d n := by
  simp only [ref, refSwitch_clocks]

theorem refLost_ref {n : Nat} (hn : n < 2) (cause : Nat) (d : Die) : (ref (refLost n cause d) n).qualified = false ∧ (ref (refLost n cause d) n).good = 0 := by
  obtain ⟨e, hlost, he⟩ := refLost_eq hn cause d
  have hh : ref (holdLoops cause e) n = ref e n := rfl
  suffices h : ref (refLost n cause d) n = ref e n by rw [h]; exact ⟨hlost.qualified, hlost.good⟩
  rw [he]
  split
  · rfl
  · split
    · exact refSwitch_ref ..
    · split
      · rw [noReference_ref, hh]
      · exact hh

section
variable {n : Nat} {d : Die} (hn : n < 2) (hs : d.clocks.selected = n) (hr : (ref d n).retired = false) (cause : Nat)
include hn hs hr

theorem refLost_switches (hu : refUsable d (1 - n) = true) : (refLost n cause d).clocks.selected = 1 - n ∧ (refLost n cause d).clocks.held = false := by
  obtain ⟨e, -, he⟩ := refLost_eq hn cause d
  rw [he, if_neg (by simp [hs, hr]), if_pos hu, refSwitch_clocks]
  exact ⟨rfl, rfl⟩

theorem refLost_holds (hu : refUsable d (1 - n) = false) (hp : permanent (addFailure d.tally.now (ref d n).failures) = false) :
    (refLost n cause d).clocks.held = true ∧ (refLost n cause d).clocks.noneSince.isSome = true ∧ (refLost n cause d).clocks.selected = n := by
  obtain ⟨e, hlost, he⟩ := refLost_eq hn cause d
  rw [he, if_neg (by simp [hs, hr]), if_neg (by simp [hu]), if_neg (by simp [hp])]
  exact ⟨rfl, rfl, hlost.selected.trans hs⟩

end

/-! ### Windows (R72) -/

section
variable {n count : Nat} {d : Die}

theorem goodWindow_iff : GoodWindow d count ↔ 10000 ≤ count + (if d.tally.running then 20 else 500) ∧ count ≤ 10000 + (if d.tally.running then 20 else 500) := by
  unfold GoodWindow
  cases d.tally.running <;> simp only [if_true, if_false, Bool.false_eq_true] <;> omega

theorem refWindow_good (hg : GoodWindow d count) (hq : (ref d n).qualified = false) : refWindow n count d =
    if (ref d n).good + 1 < 20 then modRef n (fun x => { x with lastCount := count % 2 ^ 32, good := x.good + 1 }) d
    else refSelect n (emit 0x0103 (.other n) [] (modRef n (fun x => { x with lastCount := count % 2 ^ 32, qualified := true, good := 20 }) d)) := by
  simp only [refWindow, goodWindow_iff.1 hg, and_self, if_true, ref_modRef_same, hq, Bool.false_eq_true, if_false, modRef_modRef]

theorem refWindow_bad (hg : ¬GoodWindow d count) : refWindow n count d =
    if (ref d n).qualified = true then refLost n 1 (modRef n (fun x => { x with lastCount := count % 2 ^ 32 }) d)
    else modRef n (fun x => { x with lastCount := count % 2 ^ 32, good := 0 }) d := by
  simp only [refWindow, mt goodWindow_iff.2 hg, if_false, ref_modRef_same, modRef_modRef]

end

/-- A selection changes no input. -/
theorem refSelect_ref (n m : Nat) (d : Die) : ref (refSelect n d) m = ref d m := by
  unfold refSelect
  dsimp only
  split_ifs <;> simp [ref, refSwitch_clocks]

theorem refSelect_first {n : Nat} {d : Die} (hr : (ref d n).retired = false) (he : d.clocks.everQualified = false) : (refSelect n d).clocks.selected = n := by
  simp [refSelect, hr, he]

theorem noReferenceTimeout_of_due {t : Nat} {d : Die} (h : d.clocks.noneSince = some t) (ht : t + 1000000 ≤ d.tally.now) : noReferenceTimeout d = noReference d := by
  simp only [noReferenceTimeout, h, ht, if_true]

theorem noReference_stop (d : Die) : (noReference d).stop.fault = 1 ∧ (noReference d).stop.faultStop = some 1 ∧ (noReference d).stop.stopped = true := by
  unfold noReference
  dsimp only
  rw [fabricFault_stop (by decide)]
  exact ⟨rfl, rfl, rfl⟩

theorem noReference_tally (d : Die) : (noReference d).tally = { d.tally with settled := false } := fabricFault_tally ..

/-- Settles O1: the window's two outcomes, the loss by what stands beside the reference, and the fault after 1 ms. -/
theorem referencesQualifyFailAndSwitch : Obligations.ReferencesQualifyFailAndSwitch := by
  have named {n : Nat} : n < 2 → isPair n = true := decide_eq_true
  refine ⟨fun s n count hn => ⟨fun hg hq h19 => ?_, fun hg hq h19 => ?_, fun hg hq => ?_, fun hg hq => ?_⟩, fun s n hn hq => ?_, fun s t hs ht => ?_⟩
  · refine (run_named (named hn)).trans ?_
    rw [refWindow_good hg hq, if_pos (by omega)]
  · refine gives_run rfl (named hn) ?_
    rw [refWindow_good hg hq, if_neg (by omega)]
    refine ⟨by simp [refSelect_ref], fun hr he => refSelect_first (by simp [hr]) ?_⟩
    rw [emit_clocks, modRef_everQualified, he]
  · refine (run_named (named hn)).trans ?_
    rw [refWindow_bad hg, hq]
    rfl
  · refine gives_run rfl (named hn) ?_
    rw [refWindow_bad hg, if_pos hq]
    exact refLost_ref hn 1 _
  · refine gives_run rfl (named hn) ?_
    rw [refActivityLoss, if_pos hq]
    obtain ⟨hlost, hgood⟩ := refLost_ref hn 0 s.die
    exact ⟨hlost, hgood, fun hs hr hu => refLost_switches hn hs hr 0 hu, fun hs hr hu hp => refLost_holds hn hs hr 0 hu hp⟩
  · refine gives_run (b := true) rfl rfl ?_
    rw [noReferenceTimeout_of_due hs ht, noReference_tally, noReference_clocks]
    obtain ⟨hfault, hcause, hstopped⟩ := noReference_stop s.die
    exact ⟨hfault, hcause, hstopped, rfl, rfl, rfl⟩

end Sys2Proof.Machine

namespace Sys2Proof.Machine
open Sys2Proof

/-! ## The root pair (R78, R79, R408) -/

theorem root_of {a b : Die} (h : a.clocks = b.clocks) (n : Nat) : root a n = root b n := by
  simp only [root, h]

section
variable {n : Nat} {f g : Root → Root} {d : Die}

theorem root_modRoot_other {m : Nat} (hn : n < 2) (hm : m < 2) (h : m ≠ n) : root (modRoot n f d) m = root d m := by
  obtain ⟨rfl, rfl⟩ | ⟨rfl, rfl⟩ : n = 0 ∧ m = 1 ∨ n = 1 ∧ m = 0 := by omega
  all_goals rfl

theorem modRoot_modRoot : modRoot n g (modRoot n f d) = modRoot n (fun x => g (f x)) d := by
  unfold modRoot
  split <;> rfl

theorem modRoot_liveRoot : (modRoot n f d).clocks.liveRoot = d.clocks.liveRoot := by
  unfold modRoot
  split <;> rfl

theorem modRoot_confirming : (modRoot n f d).clocks.confirming = d.clocks.confirming := by
  unfold modRoot
  split <;> rfl

theorem modRoot_const : modRoot n f d = modRoot n (fun _ => f (root d n)) d := by
  unfold modRoot root
  split <;> rfl

end

/-- A failure leaves a root without lock, retired or not, and everything else of the clocks as it is (R408). -/
theorem rootFail_clocks (n : Nat) (d : Die) : ∃ x : Root, x.locked = false ∧ (rootFail n d).clocks = (modRoot n (fun _ => x) d).clocks := by
  unfold rootFail
  dsimp only
  split
  · rw [emitRetire_clocks, modRoot_modRoot, modRoot_const]
    exact ⟨_, rfl, rfl⟩
  · rw [modRoot_const]
    exact ⟨_, rfl, rfl⟩

theorem rootFail_tally (n : Nat) (d : Die) : (rootFail n d).tally = d.tally :=
  (rootFail_kept (sameBut_closed _ d) n d (sameBut_refl _ d)) .tally (by decide)

theorem rootFail_same (n : Nat) (d : Die) : (root (rootFail n d) n).locked = false := by
  obtain ⟨x, hx, he⟩ := rootFail_clocks n d
  rw [root_of he, root_modRoot_same, hx]

theorem rootFail_other {n m : Nat} (d : Die) (hn : n < 2) (hm : m < 2) (h : m ≠ n) : root (rootFail n d) m = root d m := by
  obtain ⟨x, -, he⟩ := rootFail_clocks n d
  rw [root_of he, root_modRoot_other hn hm h]

theorem rootFail_liveRoot (n : Nat) (d : Die) : (rootFail n d).clocks.liveRoot = d.clocks.liveRoot := by
  obtain ⟨x, -, he⟩ := rootFail_clocks n d
  rw [he, modRoot_liveRoot]

theorem rootFail_confirming (n : Nat) (d : Die) : (rootFail n d).clocks.confirming = d.clocks.confirming := by
  obtain ⟨x, -, he⟩ := rootFail_clocks n d
  rw [he, modRoot_confirming]

theorem rootSwitch_clocks (cause : Nat) (err : Int) (d : Die) : (rootSwitch cause err d).clocks = { d.clocks with liveRoot := 1 - d.clocks.liveRoot } := emit_clocks ..

theorem rootSwitch_tally (cause : Nat) (err : Int) (d : Die) : (rootSwitch cause err d).tally = d.tally := emit_tally ..

theorem rootSwitch_root (cause n : Nat) (err : Int) (d : Die) : root (rootSwitch cause err d) n = root d n := by
  simp only [root, rootSwitch_clocks]

/-- Neither root is acquired again (R79). -/
def dropRetries (d : Die) : Die :=
  modRoot 1 (fun x => { x with retryAt := none, acquiring := none }) (modRoot 0 (fun x => { x with retryAt := none, acquiring := none }) d)

theorem dropRetries_locked (n : Nat) (d : Die) : (root (dropRetries d) n).locked = (root d n).locked := by
  unfold root
  split <;> rfl

/-- The warm root is live, and the one that lost lock is not locked. -/
structure WarmRootLive (d e : Die) : Prop where
  live : e.clocks.liveRoot = 1 - d.clocks.liveRoot
  failed : (root e d.clocks.liveRoot).locked = false
  locked : (root e (1 - d.clocks.liveRoot)).locked = true
  tally : e.tally = d.tally
  confirming : e.clocks.confirming = d.clocks.confirming

section
variable {d : Die} {n : Nat} (err : Int) (hn : n < 2) (hl : d.clocks.liveRoot = n) (hf : (root d n).locked = true)
include hn hl hf

theorem rootLockLoss_switches (hw : (root d (1 - n)).locked = true) : WarmRootLive d (rootLockLoss err d) := by
  subst hl
  have h : rootLockLoss err d = rootFail d.clocks.liveRoot (rootSwitch 0 err d) := by simp [rootLockLoss, hf, hw]
  rw [h]
  constructor
  · rw [rootFail_liveRoot, rootSwitch_clocks]
  · exact rootFail_same ..
  · rw [rootFail_other _ hn (by omega) (by omega), rootSwitch_root, hw]
  · rw [rootFail_tally, rootSwitch_tally]
  · rw [rootFail_confirming, rootSwitch_clocks]

/-- Without a warm root the loss is that of both (R79). -/
theorem rootLockLoss_alone (hw : (root d (1 - n)).locked = false) : rootLockLoss err d = bothRootsLost (dropRetries (rootFail n d)) := by
  subst hl
  simp [rootLockLoss, dropRetries, hf, hw]

theorem rootDisagreement_switches (hw : (root d (1 - n)).locked = true) :
    (rootDisagreement err d).clocks = { d.clocks with liveRoot := 1 - n, confirming := true } ∧ (rootDisagreement err d).tally = d.tally := by
  have hboth : (root d 0).locked = true ∧ (root d 1).locked = true := by
    obtain rfl | rfl : n = 0 ∨ n = 1 := by omega
    · exact ⟨hf, hw⟩
    · exact ⟨hw, hf⟩
  subst hl
  simp only [rootDisagreement, hboth, and_self, if_true, rootSwitch_clocks, rootSwitch_tally]

end

theorem bothRootsLost_stop (d : Die) : (bothRootsLost d).stop.fault = 2 ∧ (bothRootsLost d).stop.stopped = true := by
  unfold bothRootsLost
  rw [fabricFault_stop (by decide)]
  exact ⟨rfl, rfl⟩

theorem bothRootsLost_tally (d : Die) : (bothRootsLost d).tally = { d.tally with running := false } := fabricFault_tally ..

theorem bothRootsLost_root (n : Nat) (d : Die) : root (bothRootsLost d) n = root d n := root_of (fabricFault_clocks ..) n

/-- The confirmation that no root fails ends the doubt. -/
theorem rootConfirm_passes {d : Die} (h : d.clocks.confirming = true) : rootConfirm false false d = { d with clocks := { d.clocks with confirming := false } } := by
  simp [rootConfirm, h]

/-- The confirmation that the live root alone fails is its loss of lock. -/
theorem rootConfirm_fails {f0 f1 : Bool} {d : Die} (h : d.clocks.confirming = true) (hl : (if d.clocks.liveRoot = 0 then f0 else f1) = true)
    (hw : (if d.clocks.liveRoot = 0 then f1 else f0) = false) :
    rootConfirm f0 f1 d = rootLockLoss (Config.freeInt d.fresh) (drawFree { d with clocks := { d.clocks with confirming := false } }) := by
  simp only [rootConfirm, h, if_true, hl, hw, Bool.false_eq_true, false_and, if_false]

theorem rootReacquire_of_due {n t : Nat} {d : Die} (h : (root d n).retryAt = some t) (ht : t ≤ d.tally.now) (hr : (root d n).retired = false) :
    rootReacquire n d = modRoot n (fun x => { x with retryAt := none, acquiring := some d.tally.now }) d := by
  simp [rootReacquire, h, ht, hr]

theorem rootLocked_of_running {n : Nat} {d : Die} (ha : (root d n).acquiring.isSome = true) (hr : d.tally.running = true) :
    rootLocked n d = modRoot n (fun x => { x with acquiring := none, locked := true }) d := by
  simp [rootLocked, ha, hr]

/-- Settles O2: the loss of the live root with and without a warm one, the confirmation of a switch by them, and the acquisition of a failed root. -/
theorem rootPairSwitchesAndReacquires : Obligations.RootPairSwitchesAndReacquires := by
  have named {n : Nat} : n < 2 → isPair n = true := decide_eq_true
  refine ⟨fun s hn => ?_, fun s n hn => ⟨fun t ht hle hr => ?_, fun ha hr => ?_⟩⟩
  · generalize hl : s.die.clocks.liveRoot = n at *
    refine ⟨fun err hf hw => ⟨?_, ?_⟩, fun err hf hw => ?_, fun hc => ?_, fun f0 f1 hc hf0 hf hw hf1 => ?_⟩
    · refine gives_run (b := true) rfl rfl ?_
      obtain ⟨hlive, hfailed, hlocked, htally, -⟩ := rootLockLoss_switches err hn hl hf hw
      subst hl
      exact ⟨hlive, hfailed, hlocked, htally⟩
    · refine gives_run (b := true) rfl rfl ?_
      exact rootDisagreement_switches err hn hl hf hw
    · refine gives_run (b := true) rfl rfl ?_
      rw [rootLockLoss_alone err hn hl hf hw, bothRootsLost_tally, bothRootsLost_root, dropRetries_locked]
      obtain ⟨hfault, hstopped⟩ := bothRootsLost_stop (dropRetries (rootFail n s.die))
      exact ⟨rfl, hfault, hstopped, rootFail_same ..⟩
    · exact congrArg (fun d => Host.Outcome.next { s with die := d }) (rootConfirm_passes hc)
    · refine gives_run (b := true) rfl rfl ?_
      subst hl
      rw [rootConfirm_fails hc hf0 hf1]
      obtain ⟨hlive, hfailed, -, -, hconf⟩ := rootLockLoss_switches (d := drawFree { s.die with clocks := { s.die.clocks with confirming := false } })
        (Config.freeInt s.die.fresh) hn rfl hf hw
      exact ⟨hconf, hlive, hfailed⟩
  · exact (run_named (named hn)).trans (by rw [rootReacquire_of_due ht hle hr])
  · exact (run_named (named hn)).trans (by rw [rootLocked_of_running ha hr])

end Sys2Proof.Machine

namespace Sys2Proof.Machine
open Sys2Proof

/-! ## What a region keeps -/

/-- Region r has a property, on a die in canonical form. -/
structure RegionHolds (p : Region → Prop) (r : Nat) (d : Die) : Prop where
  can : d.Canonical
  holds : p (region d r)

namespace RegionHolds

section
variable {p : Region → Prop} {r : Nat} {d : Die}

theorem of_regions {e : Die} (h : RegionHolds p r d) (hr : e.regions = d.regions) (hc : e.Canonical) : RegionHolds p r e := by
  have hsame : region e r = region d r := by unfold region; rw [hr]
  exact ⟨hc, hsame ▸ h.holds⟩

theorem emit (h : RegionHolds p r d) (c : Nat) (loc : Loc) (b : Bytes) : RegionHolds p r (emit c loc b d) :=
  h.of_regions (emit_regions ..) (emit_can _ _ _ _ h.can)

theorem modCommit (h : RegionHolds p r d) (id : Nat) (f : Commit → Commit) : RegionHolds p r (modCommit id f d) :=
  h.of_regions (modCommit_regions ..) (modCommit_can _ _ _ h.can)

theorem commits (h : RegionHolds p r d) (cs : List Commit) : RegionHolds p r { d with commits := cs } :=
  h.of_regions rfl { h.can with }

/-- An update of the region itself. -/
theorem modRegion_same {q : Region → Prop} (h : RegionHolds p r d) {f : Region → Region} (hf : ∀ x, p x → q (f x)) : RegionHolds q r (modRegion r f d) := by
  have hx : region (modRegion r f d) r = f (region d r) := region_same h.can
  exact ⟨modRegion_can _ _ _ h.can, hx ▸ hf _ h.holds⟩

/-- An update of any region that keeps the property. -/
theorem modRegion (h : RegionHolds p r d) (k : Nat) {f : Region → Region} (hf : ∀ x, p x → p (f x) := by exact fun _ hx => hx) :
    RegionHolds p r (modRegion k f d) := by
  by_cases hk : r = k
  · subst hk
    exact h.modRegion_same hf
  · have hx : region (Machine.modRegion k f d) r = region d r := region_other h.can hk
    exact ⟨modRegion_can _ _ _ h.can, hx ▸ h.holds⟩

end

/-! ### The Drover lane (R120 to R123) -/

section
variable {p : Region → Prop} {r : Nat} {d : Die} (hp : ∀ x v t, p x → p { x with drover := v, droverSince := t })
include hp

theorem droverReturn (h : RegionHolds p r d) (k : Nat) : RegionHolds p r (droverReturn k d) := by
  unfold Machine.droverReturn
  dsimp only
  have hback := fun q => (h.modRegion k (f := fun x => { x with drover := .own }) fun x => hp x _ _).emit 0x010C (.region k) (le 2 q ++ zeros 2 ++ le 4 ((d.tally.now - (region d k).droverSince) / 1000))
  split
  · split
    · exact hback _
    · exact hback _
    · exact hback _
    · exact h
  · exact h

theorem lendTo (h : RegionHolds p r d) (k q cause : Nat) : RegionHolds p r (lendTo k q cause d) := (h.modRegion k fun x => hp x _ _).emit ..

theorem droverStop (h : RegionHolds p r d) (k : Nat) : RegionHolds p r (droverStop k d) := h.modRegion k fun x => hp x _ _

theorem moveBorrower (h : RegionHolds p r d) (k : Nat) : RegionHolds p r (moveBorrower k d) := by
  unfold Machine.moveBorrower
  split
  · exact h
  · split
    · exact h.droverReturn hp _
    · split
      · exact h.droverStop hp _
      · split
        · exact h.lendTo hp ..
        · exact h.droverStop hp _

/-- A loan of a lane changes no region but in its lane. -/
theorem droverLend {e : Die} {k cause : Nat} (h : RegionHolds p r d) (he : droverLend k cause d = some e) : RegionHolds p r e := by
  unfold Machine.droverLend at he
  split at he
  · cases he
    exact h.moveBorrower hp _
  · split at he
    · cases he
      exact (h.moveBorrower hp _).lendTo hp ..
    · cases he

end

end RegionHolds

/-! ## The point at which a region stands (R88, R186) -/

/-- The region's operating point, live synthesizer and selection. -/
def StandsAt (opp live : Nat) (sel : Option Nat) (x : Region) : Prop := x.opp = opp ∧ x.live = live ∧ x.select = sel

/-- Region r stands at an operating point, with a live synthesizer and a selection, on a die in canonical form. -/
def Stands (r opp live : Nat) (sel : Option Nat) (d : Die) : Prop := RegionHolds (StandsAt opp live sel) r d

section
variable {r o l : Nat} {sel : Option Nat} {d : Die}

theorem stands_of_canonical (hc : d.Canonical) (r : Nat) : Stands r (region d r).opp (region d r).live (region d r).select d := ⟨hc, rfl, rfl, rfl⟩

/-- A region stands where it does whatever its lane does. -/
theorem standsAt_lane (x : Region) (v : Drover) (t : Nat) (h : StandsAt o l sel x) : StandsAt o l sel { x with drover := v, droverSince := t } := h

theorem Stands.fastStep (h : Stands r o l sel d) (k : Nat) : Stands r o l sel (fastStep k d) := by
  unfold Machine.fastStep
  dsimp only
  generalize hd : ite (fastRatio (region d k) = (region d k).fast) d _ = e
  have he : Stands r o l sel e := by
    subst hd
    split
    · exact h
    · exact (h.modRegion k).emit ..
  split
  · exact he.modRegion k
  · exact he

theorem Stands.memberDone (h : Stands r o l sel d) (k : Nat) : Stands r o l sel (memberDone k d) := by
  unfold Machine.memberDone
  dsimp only
  split
  · exact h.modRegion k
  · have hm := h.modRegion k (f := fun x => { x with settleDue := none })
    exact hm.of_regions (regrant_regions ..) (regrant_can _ _ hm.can)

/-- The end of a commit moves no region (R188). -/
theorem Stands.commitDone (h : Stands r o l sel d) (id : Nat) : Stands r o l sel (commitDone id d) := by
  unfold Machine.commitDone
  split
  · exact h
  · split
    · refine each_kept (fun k e he => Stands.memberDone he k) ?_
      split
      · exact (h.emit ..).modCommit ..
      · exact ((h.emit ..).modCommit ..).commits _
    · exact h

theorem Stands.selectSynth (h : Stands r o l sel d) {sy : Nat} (hl : (synth d r sy).lock = true) : Stands r o sy (some sy) (selectSynth r sy d) := by
  unfold Machine.selectSynth
  dsimp only
  rw [if_pos hl]
  have hs : Stands r o sy (some sy) (modRegion r (fun x => { x with select := some sy, live := sy }) d) := h.modRegion_same fun x hx => ⟨hx.1, rfl, rfl⟩
  refine RegionHolds.droverReturn standsAt_lane ?_ r
  split
  · exact hs
  · exact hs.of_regions (regionClockBack_regions ..) (regionClockBack_can _ _ hs.can)

theorem Stands.deselect (h : Stands r o l sel d) : Stands r o l none (deselect r d) := by
  have hs : Stands r o l none (modRegion r (fun x => { x with select := none }) d) := h.modRegion_same fun x hx => ⟨hx.1, hx.2.1, rfl⟩
  exact hs.of_regions (regionClockLost_regions ..) (regionClockLost_can _ _ hs.can)

/-- The stop of a region's synthesizers may end its selection. -/
theorem Stands.stopSynths (h : Stands r o l sel d) : ∃ sel', Stands r o l sel' (stopSynths r d) := by
  have hd := h.deselect
  have hoff : Stands r o l none (powerSynth r 1 (powerSynth r 0 (Machine.deselect r d))) :=
    hd.of_regions (by rw [powerSynth_regions, powerSynth_regions]) (powerSynth_can _ _ _ (powerSynth_can _ _ _ hd.can))
  unfold Machine.stopSynths
  dsimp only
  split
  · split
    · exact ⟨_, h⟩
    · exact ⟨_, hoff⟩
  · exact ⟨_, hoff⟩

theorem Stands.pauseEnd (h : Stands r o l sel d) (k : Nat) : Stands r o l sel (pauseEnd k d) := by
  unfold Machine.pauseEnd
  split
  · split
    · exact h
    · exact (h.modRegion k).emit ..
  · exact h

theorem Stands.memberSwitched (h : Stands r o l sel d) (c : Commit) (offset : Int) : Stands r (tget 0 c.grants r) l sel (memberSwitched c r offset d) := by
  have hs : Stands r (tget 0 c.grants r) l sel (modRegion r (fun x => { x with opp := tget 0 c.grants r }) d) := h.modRegion_same fun x hx => ⟨rfl, hx.2⟩
  have hr := hs.of_regions (clearRuns_regions r _) (clearRuns_can _ _ hs.can)
  exact Stands.fastStep (hr.modCommit ..) r

/-- A member that has switched stands at its grant; on a stopped die its synthesizers then stop (R501). -/
theorem Stands.afterSwitch {sy : Nat} (h : Stands r o sy (some sy) d) {c : Commit} {offset : Int} {e : Die}
    (he : e = Machine.memberSwitched c r offset d ∨ e = retuneStandby r (Machine.memberSwitched c r offset d)) :
    ∃ sel', Stands r (tget 0 c.grants r) sy sel' (Machine.commitDone c.id (if e.stop.stopped = true then Machine.stopSynths r e else e)) ∧ (d.stop.stopped = false → sel' = some sy) := by
  have hm := h.memberSwitched c offset
  obtain ⟨hst, hstop⟩ : Stands r (tget 0 c.grants r) sy (some sy) e ∧ e.stop = d.stop := by
    obtain rfl | rfl := he
    · exact ⟨hm, memberSwitched_stop ..⟩
    · exact ⟨hm.of_regions (retuneStandby_regions ..) (retuneStandby_can _ _ hm.can), by rw [retuneStandby_stop, memberSwitched_stop]⟩
  split
  next hs =>
    obtain ⟨sel', hoff⟩ := hst.stopSynths
    exact ⟨sel', hoff.commitDone _, fun hn => by rw [hstop, hn] at hs; cases hs⟩
  next => exact ⟨_, hst.commitDone _, fun _ => rfl⟩

end

/-! ## The switch (R88, R186, R195, R501) -/

section
variable {r : Nat} {d : Die} {c : Commit} (hc : d.Canonical) (hp : pendingCommit d r = some c) (hs : c.strobed = true) (hb : bit (c.switched ||| c.refused) r = false) (offset : Int)
include hc hp hs hb

/-- A member that is no pause-switch goes to its idle synthesizer. -/
theorem switchingInstant_idle (hn : bit c.pausing r = false) (hl : (synth d r (idleOf (region d r))).lock = true) :
    ∃ sel, Stands r (tget 0 c.grants r) (idleOf (region d r)) sel (switchingInstant r offset d) ∧ (d.stop.stopped = false → sel = some (idleOf (region d r))) := by
  have hsel := (stands_of_canonical hc r).selectSynth hl
  have hadopt := hsel.of_regions (adoptOpp_regions r (tget 0 c.grants r) _) (adoptOpp_can _ _ _ hsel.can)
  have hafter := Stands.afterSwitch hadopt (c := c) (offset := offset) (.inr rfl)
  rw [adoptOpp_stop, selectSynth_stop] at hafter
  simpa only [switchingInstant, hp, hs, hb, hn, hl, Bool.not_true, Bool.false_eq_true, or_self, if_false, if_true] using hafter

/-- A pause-switch member goes back to its sole synthesizer. -/
theorem switchingInstant_pause (hy : bit c.pausing r = true) (hl : (synth d r (region d r).live).lock = true) :
    ∃ sel, Stands r (tget 0 c.grants r) (region d r).live sel (switchingInstant r offset d) ∧ (d.stop.stopped = false → sel = some (region d r).live) := by
  have hpause := (stands_of_canonical hc r).of_regions (pauseIslands_regions r (tget 0 c.grants r) c.count d) (pauseIslands_can _ _ _ _ hc)
  have hlock : (synth (pauseIslands r (tget 0 c.grants r) c.count d) r (region d r).live).lock = true := by unfold synth at hl ⊢; rwa [pauseIslands_synths]
  have hend := Stands.pauseEnd ((Stands.selectSynth hpause hlock).modRegion r (f := fun x => { x with pause := some (c.id, c.count, x.opp, tget 0 c.grants r) })) r
  have hafter := hend.afterSwitch (c := c) (offset := offset) (.inl rfl)
  rw [pauseEnd_stop, modRegion_stop, selectSynth_stop, pauseIslands_stop] at hafter
  simpa only [switchingInstant, hp, hs, hb, hy, hl, Bool.not_true, Bool.false_eq_true, or_self, if_false, if_true] using hafter

/-- Without lock the switch is refused, and the region stands as it did. -/
theorem switchingInstant_refuses (hl : (synth d r (if bit c.pausing r then (region d r).live else idleOf (region d r))).lock = false) :
    Stands r (region d r).opp (region d r).live (region d r).select (switchingInstant r offset d) := by
  have h := stands_of_canonical hc r
  simp only [switchingInstant, hp, hs, hb, hl, Bool.not_true, Bool.false_eq_true, or_self, if_false]
  exact Stands.commitDone ((h.emit ..).modCommit ..) _

end

/-! ## Pause-switches (R195) -/

theorem commitOf_of {a b : Die} (h : a.commits = b.commits) (id : Nat) : commitOf a id = commitOf b id := by
  unfold commitOf
  rw [h]

/-- An aborted commit has ended. -/
theorem commitOf_abortCommit {id : Nat} {c : Commit} {d : Die} (h : commitOf d id = some c) (hn : c.decided = false) (reason rgn fault : Nat) :
    commitOf (abortCommit id reason rgn fault d) id = none := by
  have hcommits : ∃ p, (abortCommit id reason rgn fault d).commits =
      ((modCommit id (fun e => { e with done := true, riseWritten := false, count := d.tally.now }) d).commits.filter p) := by
    simp only [abortCommit, h, hn, Bool.false_eq_true, if_false, afterAbort_commits, emit_commits]
    rw [each_commits (fun _ _ => writeSynth_commits ..), each_commits retuneStandby_commits]
    exact ⟨_, rfl⟩
  obtain ⟨p, hp⟩ := hcommits
  unfold commitOf
  rw [hp, List.find?_eq_none]
  intro e he
  obtain ⟨x, -, rfl⟩ := List.mem_map.1 (List.mem_of_mem_filter he)
  split <;> simp [*]

/-- An update that leaves the names and ends of commits, at the commit of an ID. -/
theorem commitOf_modCommit {id : Nat} {c : Commit} {d : Die} {f : Commit → Commit} (h : commitOf d id = some c) (hf : ∀ c, (f c).id = c.id ∧ (f c).done = c.done) :
    commitOf (modCommit id f d) id = some (f c) := by
  obtain ⟨hid, -⟩ : c.id = id ∧ c.done = false := by simpa using List.find?_some (p := fun x : Commit => decide (x.id = id) && !x.done) h
  have hg : (fun x : Commit => decide (x.id = id) && !x.done) ∘ (fun x => if x.id = id then f x else x) = fun x => decide (x.id = id) && !x.done := by
    funext x
    simp only [Function.comp]
    split <;> simp [*]
  unfold commitOf modCommit at *
  dsimp only
  rw [List.find?_map, hg, h, Option.map_some, if_pos hid]

theorem synth_writeSynth {r sy : Nat} {s : Setting} {use : SynthUse} {must : Bool} {d : Die} (hc : d.Canonical) (hr : (synth d r sy).retired = false) :
    let x := synth (writeSynth r sy s use must d) r sy
    x.lock = false ∧ x.use = use ∧ x.setting = s := by
  simp only [writeSynth, hr, Bool.false_eq_true, if_false]
  rw [synth_modSynth_same hc.synths]
  exact ⟨rfl, rfl, rfl⟩

/-- A loan of a lane leaves commits and synthesizers. -/
theorem droverLend_sameBut {r cause : Nat} {d e : Die} (h : droverLend r cause d = some e) : SameBut [.ledger, .regions] d e :=
  droverLend_kept (sameBut_closed _ d) (sameBut_refl _ d) h

theorem pauseLend_aborts {r : Nat} {c : Commit} {d : Die} (hp : pendingCommit d r = some c) (hy : bit c.pausing r = true) (hn : bit c.lent r = false) (hd : c.decided = false)
    (ht : c.count ≤ d.tally.now + 120000) (hl : droverLend r 5 d = none) : pauseLend r d = abortCommit c.id 6 r 0xFF d := by
  have hnow : ¬d.tally.now + 120000 < c.count := by omega
  simp only [pauseLend, hp, hy, hn, hd, hl, hnow, Bool.not_true, Bool.false_eq_true, or_self, if_false]

theorem pauseLend_writes {r : Nat} {c : Commit} {d e : Die} (hp : pendingCommit d r = some c) (hy : bit c.pausing r = true) (hn : bit c.lent r = false) (hd : c.decided = false)
    (ht : c.count ≤ d.tally.now + 120000) (hl : droverLend r 5 d = some e) :
    let f := modCommit c.id (fun x => { x with lent := x.lent ||| 2 ^ r }) (deselect r e)
    pauseLend r d = writeSynth r (region f r).live (ladderSetting (tget 0 c.grants r)) (.pause c.id) false f := by
  have hnow : ¬d.tally.now + 120000 < c.count := by omega
  simp only [pauseLend, hp, hy, hn, hd, hl, hnow, Bool.not_true, Bool.false_eq_true, or_self, if_false]

/-- At T + 1,500 ns the gate opens where nothing stands against the island. -/
theorem pauseGate_of_due {i t : Nat} {d : Die} (hc : d.Canonical) (hp : (island d i).ring.pauseFrom = some t) (ht : t + 1500 ≤ d.tally.now) :
    (island (pauseGate i d) i).ring = { (island d i).ring with gate := islandMayRun d i, pauseFrom := none } := by
  simp only [pauseGate, hp, if_pos ht]
  unfold island
  rw [pauseEnd_islands]
  exact congrArg Island.ring (isl_same hc)

/-- Settles O17: the switch to each synthesizer and its refusal by where the region then stands, the loan and the gates of a pause-switch by their own effects. -/
theorem regionsSwitchOrKeepTheirPoint : Obligations.RegionsSwitchOrKeepTheirPoint := by
  intro s r hc hr
  have named : isRegion r = true := decide_eq_true hr
  refine ⟨fun c hp hs hb offset => ⟨fun hn hl => ?_, fun hy hl => ?_, fun hl => ?_⟩, fun c hp hid hy hn hd ht => ⟨fun hl => ?_, fun hl hret => ?_⟩, fun i t hi hp ht => ?_⟩
  · refine gives_run rfl named ?_
    obtain ⟨sel, ⟨-, hopp, hlive, hsel⟩, hrun⟩ := switchingInstant_idle hc hp hs hb offset hn hl
    exact ⟨hopp, hlive, fun h => hsel.trans (hrun h)⟩
  · refine gives_run rfl named ?_
    obtain ⟨sel, ⟨-, hopp, hlive, hsel⟩, hrun⟩ := switchingInstant_pause hc hp hs hb offset hy hl
    exact ⟨hopp, hlive, fun h => hsel.trans (hrun h)⟩
  · refine gives_run rfl named ?_
    obtain ⟨-, hopp, hlive, hsel⟩ := switchingInstant_refuses hc hp hs hb offset hl
    exact ⟨hopp, hlive, hsel⟩
  · refine gives_run rfl named ?_
    rw [pauseLend_aborts hp hy hn hd ht hl]
    exact commitOf_abortCommit hid hd ..
  · refine gives_run rfl named ?_
    obtain ⟨e, he⟩ := Option.isSome_iff_exists.1 hl
    have hsame := droverLend_sameBut he
    have hcommits : e.commits = s.die.commits := hsame .commits (by decide)
    have hsynths : e.synths = s.die.synths := hsame .synths (by decide)
    obtain ⟨hcan, -, hlive, hsel⟩ := ((Stands.deselect ((stands_of_canonical hc r).droverLend standsAt_lane he))).modCommit c.id (fun x => { x with lent := x.lent ||| 2 ^ r })
    rw [pauseLend_writes hp hy hn hd ht he, hlive]
    obtain ⟨hlock, huse, hset⟩ := synth_writeSynth (sy := (region s.die r).live) (s := ladderSetting (tget 0 c.grants r)) (use := .pause c.id) (must := false) hcan
      (by simpa only [synth, modCommit_synths, deselect_synths, hsynths] using hret)
    refine ⟨?_, ?_, hlock, huse, hset⟩
    · rw [commitOf_of (writeSynth_commits ..)]
      exact commitOf_modCommit ((commitOf_of ((deselect_commits ..).trans hcommits) _).trans hid) fun _ => ⟨rfl, rfl⟩
    · unfold region at hsel ⊢
      rw [writeSynth_regions, hsel]
  · exact gives_run rfl (decide_eq_true hi) (pauseGate_of_due hc hp ht)

end Sys2Proof.Machine

namespace Sys2Proof.Machine
open Sys2Proof

/-! ## The islands of a region (R17, R18) -/

theorem mem_regionIslands {r i : Nat} (hr : r < 80) (hi : i < 1248) : i ∈ regionIslands r ↔ islandRegion i = r := by
  unfold regionIslands islandRegion
  split
  · simp only [List.mem_map, List.mem_range]
    constructor
    · rintro ⟨k, hk, rfl⟩
      split <;> omega
    · intro h
      refine ⟨4 * (i / 32 % 4) + i % 32 % 4, by omega, ?_⟩
      split at h <;> omega
  · simp only [List.mem_map, List.mem_range]
    constructor
    · rintro ⟨k, hk, rfl⟩
      split <;> omega
    · intro h
      refine ⟨(i - 1152) % 12, by omega, ?_⟩
      split at h <;> omega

theorem regionIslands_nodup (r : Nat) : (regionIslands r).Nodup := by
  unfold regionIslands
  split
  · refine List.nodup_range.map_on fun x hx y hy h => ?_
    rw [List.mem_range] at hx hy
    omega
  · exact List.nodup_range.map fun x y h => by omega

/-- Along a list of islands each ring is changed once. -/
theorem each_ring {g : Ring → Ring} {l : List Nat} (hn : l.Nodup) {d : Die} (hc : d.Canonical) (j : Nat) :
    island (each l (fun i d => modRing i g d) d) j = if j ∈ l then { island d j with ring := g (island d j).ring } else island d j := by
  obtain ⟨hin, hout⟩ := (each_get (I := Die.Canonical) (get := island) (f := fun i d => modRing i g d) (g := fun _ x => { x with ring := g x.ring }) l hn
    (fun i e _ he => modRing_can _ _ _ he) (fun i e _ he => isl_same he) (fun i k e _ he hk => isl_other he hk) hc).2 j
  split
  next h => exact hin h
  next h => exact hout h

/-! ## Fields of a payload -/

theorem fld_window {p : Bytes} {a n off k : Nat} (h : off + k ≤ n) : fld ((p.drop a).take n) off k = fld p (a + off) k := by
  unfold fld
  rw [List.drop_take, List.take_take, List.drop_drop, Nat.min_eq_left (by omega)]

theorem fld_succ (p : Bytes) (off n : Nat) : fld p off (n + 1) = fld p off 1 + 256 * fld p (off + 1) n := by
  unfold fld
  rw [← List.drop_drop]
  cases p.drop off with
  | nil => simp [unle]
  | cons b t => simp [unle]

theorem zeroBytes_one {p : Bytes} {a : Nat} (h : fld p a 1 = 0) : ZeroBytes p a (a + 1) := by
  intro j h1 h2
  rw [show j = a by omega, h]

/-- A setting word that reads has no reserved bit set (R9). -/
theorem settingReserved_of_reads {p : Bytes} {v : Setting} (h : readSetting ((p.drop 8).take 8) = some v) : settingReserved p = none := by
  simp only [readSetting, fld_window (show 0 + 1 ≤ 8 by decide), fld_window (show 4 + 1 ≤ 8 by decide), fld_window (show 5 + 1 ≤ 8 by decide), fld_window (show 6 + 2 ≤ 8 by decide), Nat.reduceAdd] at h
  split at h
  next hok =>
    obtain ⟨hn, hdiv, hbit, hzero, -⟩ := hok
    rw [fld_succ, show 14 + 1 = 15 from rfl] at hzero
    obtain ⟨h14, h15⟩ : fld p 14 1 = 0 ∧ fld p 15 1 = 0 := by omega
    rw [Bool.not_eq_true'] at hbit
    simp [settingReserved, Nat.not_le.2 hn, Nat.not_le.2 hdiv, hbit, h14, h15]
  next => cases h

/-! ## island.read, island.phase and island.reset (R116, R373, R433) -/

section
variable {d : Die} {p : Bytes} {q : Nat} (e : Exec)

theorem islandReadBody_reads (hk : fld p 2 1 ≤ 2) (hz : fld p 3 1 = 0) (ho : q = 0 ∨ (region d (islandRegion (fld p 0 2))).owner = q)
    (hi : fld p 0 2 < 1248) (hp : present d (islandRegion (fld p 0 2)) = true) :
    islandReadBody q e p d = (d, .done (islandWord d (fld p 0 2)) (some (islandBytes d (fld p 0 2) (fld p 2 1)))) := by
  unfold islandReadBody
  refine checked_pass ?_
  simp only [List.forall_mem_cons]
  exact ⟨decide_eq_false (Nat.not_lt.2 hk), zeroCheck_pass (zeroBytes_one hz), regionScope_pass ho, islandFound_pass hi hp, nofun⟩

theorem islandPhaseBody_steps (hs : fld p 2 1 ≠ 0x80) (hz : fld p 3 1 = 0) (hr : d.startup.ready = 1) (hi : fld p 0 2 < 1248)
    (hp : present d (islandRegion (fld p 0 2)) = true) (hn : phaseRefused d (fld p 0 2) = false) :
    islandPhaseBody 0 e p d = (modRing (fld p 0 2) (fun x => { x with phaseLeft := fldI p 2 1 }) d, .done 0 none) := by
  unfold islandPhaseBody
  refine checked_pass ?_
  simp only [List.forall_mem_cons]
  exact ⟨decide_eq_false hs, zeroCheck_pass (zeroBytes_one hz), rfl, readyCheck_pass hr, islandFound_pass hi hp, hn, nofun⟩

theorem islandResetBody_resets (hz : ZeroBytes p 2 4) (hr : d.startup.ready = 1) (hi : fld p 0 2 < 1248)
    (hp : present d (islandRegion (fld p 0 2)) = true) (hn : islandResetRefused d (fld p 0 2) = false) :
    islandResetBody 0 e p d = (beginIslandReset (fld p 0 2) d, .done 0 none) := by
  have hagain : (island d (fld p 0 2)).ring.resetSince.isSome = false := by
    simp only [islandResetRefused, Bool.or_eq_false_iff] at hn
    exact hn.1.1.1.1
  simp only [islandResetBody, hagain, Bool.and_false, Bool.not_false, Bool.true_and, Bool.false_eq_true, if_false]
  refine checked_pass ?_
  simp only [List.forall_mem_cons]
  exact ⟨zeroCheck_pass hz, rfl, readyCheck_pass hr, islandFound_pass hi hp, hn, nofun⟩

/-- A re-executed island.reset leaves the reset that runs (R344). -/
theorem islandResetBody_again (hz : ZeroBytes p 2 4) (hr : d.startup.ready = 1) (hi : fld p 0 2 < 1248)
    (hp : present d (islandRegion (fld p 0 2)) = true) (he : e.reexecuted = true) (hs : (island d (fld p 0 2)).ring.resetSince.isSome = true) :
    islandResetBody 0 e p d = (d, .done 0 none) := by
  simp only [islandResetBody, he, hs, Bool.and_self, Bool.not_true, Bool.false_and, if_true]
  refine checked_pass ?_
  simp only [List.forall_mem_cons]
  exact ⟨zeroCheck_pass hz, rfl, readyCheck_pass hr, islandFound_pass hi hp, trivial, nofun⟩

end


/-! ### The island in reset -/

/-- An island that stops for a reset is gated, and no other island changes (R431, R433). -/
theorem island_resetStops {d : Die} (hc : d.Canonical) (i : Nat) :
    (island (resetStops i d) i).ring.resetSince = (island d i).ring.resetSince ∧ (island (resetStops i d) i).ring.gate = false ∧ (island (resetStops i d) i).margin.run = 0 ∧
      ∀ j, j ≠ i → island (resetStops i d) j = island d j := by
  have h1 : (stopBellows i d).Canonical := stopBellows_can _ _ hc
  have h2 : (clearStep i (stopBellows i d)).Canonical := clearStep_can _ _ h1
  refine ⟨?_, ?_, ?_, fun j hj => ?_⟩
  · rw [resetStops, island_modMargin_same h2.islands, clearStep, island_modIsland_same h1.islands, stopBellows, isl_same hc]
  · rw [resetStops, island_modMargin_same h2.islands, clearStep, island_modIsland_same h1.islands, stopBellows, isl_same hc]
  · rw [resetStops, island_modMargin_same h2.islands]
  · rw [resetStops, island_modMargin_other h2.islands hj, clearStep, island_modIsland_other h1.islands hj, stopBellows, isl_other hc hj]

theorem island_refreshIsland (i j : Nat) (d : Die) : island (refreshIsland i d) j = island d j := by
  unfold island
  rw [refreshIsland_islands]

theorem island_emitReset (kind phase origin : Nat) (l : Loc) (j : Nat) (d : Die) : island (emitReset kind phase origin l d) j = island d j := by
  unfold island
  rw [emitReset_islands]

theorem island_beginIslandReset {d : Die} (hc : d.Canonical) (i : Nat) :
    (island (beginIslandReset i d) i).ring.resetSince = some d.tally.now ∧ (island (beginIslandReset i d) i).ring.gate = false ∧
      (island (beginIslandReset i d) i).margin.run = 0 ∧ ∀ j, j ≠ i → island (beginIslandReset i d) j = island d j := by
  have h1 : (emitReset 5 0 1 (.island i) d).Canonical := emitReset_can _ _ _ _ _ hc
  unfold beginIslandReset
  dsimp only
  obtain ⟨hsince, hgate, hrun, hothers⟩ := island_resetStops (modRing_can i (fun x => { x with resetSince := some (emitReset 5 0 1 (.island i) d).tally.now }) _ h1) i
  simp only [island_refreshIsland]
  refine ⟨?_, hgate, hrun, fun j hj => ?_⟩
  · rw [hsince, isl_same h1, emitReset_tally]
  · rw [hothers j hj, isl_other h1 hj, island_emitReset]

/-! ## region.read, region.reset and region.config (R374, R375) -/

theorem regionFound_pass {d : Die} {r : Nat} (hr : r < 80) (hp : present d r = true) : (regionFound d r).1 = false := by
  simp [regionFound, hr, hp]

section
variable {d : Die} {p : Bytes} {q : Nat} (e : Exec)

theorem regionReadBody_reads (hz : ZeroBytes p 2 4) (ho : q = 0 ∨ (region d (fld p 0 2)).owner = q) (hr : fld p 0 2 < 80) (hp : present d (fld p 0 2) = true) :
    regionReadBody q e p d = (d, .done 0 (some (regionBytes d (fld p 0 2)))) := by
  unfold regionReadBody
  refine checked_pass ?_
  simp only [List.forall_mem_cons]
  exact ⟨zeroCheck_pass hz, regionScope_pass ho, regionFound_pass hr hp, nofun⟩

theorem bit_zero_of_le_one {v : Nat} (h : v ≤ 1) : bit v 0 = decide (v = 1) := by
  interval_cases v <;> rfl

theorem regionResetBody_resets (hs : fld p 2 1 ≤ 1) (hz : fld p 3 1 = 0) (hd : d.startup.ready = 1) (hw : 72 ≤ fld p 0 2 → fld p 2 1 = 1)
    (hr : fld p 0 2 < 80) (hp : present d (fld p 0 2) = true) (hn : regionResetRefused d (fld p 0 2) = false) (hl : fld p 2 1 = 1 → noLender d (fld p 0 2) = false) :
    regionResetBody 0 e p d = (beginRegionReset (fld p 0 2) (decide (fld p 2 1 = 1)) d, .done 0 none) := by
  have hagain : inReset d (fld p 0 2) = false := by
    simp only [regionResetRefused, Bool.or_eq_false_iff] at hn
    exact hn.1.2
  simp only [regionResetBody, bit_zero_of_le_one hs, hagain, Bool.and_false, Bool.not_false, Bool.true_and, Bool.false_eq_true, if_false]
  refine checked_pass ?_
  simp only [List.forall_mem_cons]
  exact ⟨bitsCheck_pass (and_mask_of_le_one hs), zeroCheck_pass (zeroBytes_one hz), rfl, readyCheck_pass hd, guard_pass fun h => by simp [hw h.1], regionFound_pass hr hp,
    hn, guard_pass hl, nofun⟩

theorem resetStops_regions (i : Nat) (d : Die) : (resetStops i d).regions = d.regions := by
  rw [resetStops, modMargin_regions, clearStep_regions, stopBellows_regions]

/-- A region's islands stop without a change of the region. -/
theorem RegionHolds.resetStops {k : Region → Prop} {r : Nat} (h : RegionHolds k r d) (l : List Nat) : RegionHolds k r (each l (fun i d => refreshIsland i (resetStops i d)) d) :=
  h.of_regions (each_regions fun _ _ => (refreshIsland_regions ..).trans (resetStops_regions ..))
    (each_kept (fun _ _ he => refreshIsland_can _ _ (resetStops_can _ _ he)) h.can)

theorem RegionHolds.acquireBoth {k : Region → Prop} {r : Nat} (h : RegionHolds k r d) (s : Nat) (use : SynthUse) : RegionHolds k r (acquireBoth s use d) :=
  h.of_regions ((writeSynth_regions ..).trans (writeSynth_regions ..)) (writeSynth_can _ _ _ _ _ _ (writeSynth_can _ _ _ _ _ _ h.can))

/-- What a region keeps where its clock goes away and it acquires anew. -/
theorem RegionHolds.reacquire {k : Region → Prop} {r : Nat} (h : RegionHolds k r d) (hk : ∀ x sel t, k x → k { x with select := sel, test := t }) (use : SynthUse) :
    RegionHolds k r (Machine.acquireBoth r use (Machine.modRegion r (fun x => { x with test := none }) (deselect r d))) := by
  have h1 : RegionHolds k r (Machine.modRegion r (fun x => { x with select := none }) d) := h.modRegion r fun x => hk x _ _
  have h2 : RegionHolds k r (deselect r d) := h1.of_regions (regionClockLost_regions ..) (regionClockLost_can _ _ h1.can)
  exact (h2.modRegion r fun x => hk x _ _).acquireBoth r use

/-- Region r is in a reset since an instant, with its synthesizers or without. -/
def ResetSince (since : Nat) (withSynth : Bool) (x : Region) : Prop := x.reset = some { since := since, synth := withSynth }

theorem beginRegionReset_reset {d : Die} (hc : d.Canonical) (r : Nat) (withSynth : Bool) :
    (region (beginRegionReset r withSynth d) r).reset = some { since := d.tally.now, synth := withSynth } := by
  suffices h : RegionHolds (ResetSince d.tally.now withSynth) r (beginRegionReset r withSynth d) from h.holds
  unfold beginRegionReset
  dsimp only
  generalize hd1 : returnRegion r _ = d1
  have hcan1 : d1.Canonical := hd1 ▸ returnRegion_can _ _ (setPower_can _ _ _ (assayAbort_can _ _ _ (abortRegion_can _ _ _ _ (emitReset_can _ _ _ _ _ hc))))
  have hnow1 : d1.tally = d.tally := by
    rw [← hd1, returnRegion_tally, setPower_tally, assayAbort_tally, abortRegion, abortWhere_tally, emitReset_tally]
  generalize hd2 : each (regionIslands r) (fun i d => modRing i (fun x => { x with resetSince := none }) d) d1 = d2
  have hcan2 : d2.Canonical := hd2 ▸ each_kept (fun _ _ he => modRing_can _ _ _ he) hcan1
  have hnow2 : d2.tally = d.tally := by
    rw [← hd2]
    exact (each_tally fun _ _ => modRing_tally ..).trans hnow1
  have hbegun : RegionHolds (ResetSince d.tally.now withSynth) r (modRegion r (fun x => { x with reset := some { since := d2.tally.now, synth := withSynth } }) d2) := by
    rw [hnow2]
    exact RegionHolds.modRegion_same (p := fun _ => True) ⟨hcan2, trivial⟩ fun _ _ => rfl
  generalize hd3 : ite (r < 72) _ _ = d3
  have hstopped : RegionHolds (ResetSince d.tally.now withSynth) r d3 := by
    subst hd3
    split
    · exact hbegun.resetStops _
    · exact hbegun
  split
  · split
    next e he => exact (hstopped.droverLend (fun _ _ _ hx => hx) he).reacquire (fun _ _ _ hx => hx) .recover
    next => exact hstopped.reacquire (fun _ _ _ hx => hx) .recover
  · exact hstopped

/-- The three selections of region.config, bit by bit. -/
theorem configBits {v : Nat} (h : v ≤ 7) : v &&& 0xF8 = 0 ∧ bit v 0 = decide (v % 2 = 1) ∧ bit v 1 = decide (v / 2 % 2 = 1) ∧ bit v 2 = decide (4 ≤ v) := by
  interval_cases v <;> decide

theorem regionConfigBody_sets (h1 : 1 ≤ fld p 2 1) (h7 : fld p 2 1 ≤ 7) (ht : fld p 3 1 ≤ 1) (hi : fld p 4 1 ≤ 2) (hz : ZeroBytes p 5 8) (hb : badBand p = none)
    (hz' : ZeroBytes p 40 48) (ho : q = 0 ∨ fld p 2 1 = 4 ∧ (region d (fld p 0 2)).owner = q) (hf : 4 ≤ fld p 2 1 → (region d (fld p 0 2)).fenced = false)
    (hr : fld p 0 2 < 80) (hp : present d (fld p 0 2) = true) :
    regionConfigBody q e p d = (configure (fld p 0 2) (fld p 2 1) p d, .done 0 none) := by
  obtain ⟨hmask, -, -, hfour⟩ := configBits h7
  simp only [regionConfigBody, hfour]
  refine checked_pass ?_
  simp only [List.forall_mem_cons]
  refine ⟨bitsCheck_pass hmask, decide_eq_false (by omega), decide_eq_false (Nat.not_lt.2 ht), decide_eq_false (Nat.not_lt.2 hi), zeroCheck_pass hz, by rw [hb]; rfl, zeroCheck_pass hz',
    decide_eq_false ?_, regionScope_pass (ho.imp_right And.right), regionFound_pass hr hp, guard_pass hf, nofun⟩
  omega

end

/-! ### The settings of a region -/

theorem region_hostInterval {d : Die} (hc : d.Canonical) (r code k : Nat) :
    region (hostInterval r code d) k = if k = r then { region d r with injection := code } else region d k := by
  have hreg : (hostInterval r code d).regions = (modRegion r (fun x => { x with injection := code }) d).regions := each_regions fun _ _ => modRing_regions ..
  unfold region at *
  rw [hreg]
  exact tget_tset_from hc.regions

theorem island_hostInterval {d : Die} (hc : d.Canonical) {r j : Nat} (hr : r < 80) (hj : j < 1248) (code : Nat) :
    island (hostInterval r code d) j =
      if islandRegion j = r then { island d j with ring := { (island d j).ring with intervalDue := some code, hostAt := some (island d j).ring.count } } else island d j := by
  unfold hostInterval
  rw [each_ring (regionIslands_nodup r) (modRegion_can _ _ _ hc), island_modRegion]
  simp only [mem_regionIslands hr hj]

/-- An update of a region where it is selected. -/
def selected (b : Bool) (r : Nat) (f : Region → Region) (d : Die) : Die := if b = true then modRegion r f d else d

theorem selected_can {b : Bool} {r : Nat} {f : Region → Region} {d : Die} (hc : d.Canonical) : (selected b r f d).Canonical := by
  unfold selected
  split
  · exact modRegion_can _ _ _ hc
  · exact hc

theorem island_selected (b : Bool) (r j : Nat) (f : Region → Region) (d : Die) : island (selected b r f d) j = island d j := by
  unfold selected
  split <;> rfl

theorem region_selected {d : Die} (hc : d.Canonical) (b : Bool) (r k : Nat) (f : Region → Region) :
    region (selected b r f d) k = if k = r then (if b = true then f (region d r) else region d r) else region d k := by
  unfold selected
  split
  · exact tget_tset_from hc.regions
  · split
    next h => rw [h]
    next => rfl

/-- The selections 0 and 1 of region.config. -/
def withTable (p : Bytes) (x : Region) : Region := { x with bandTable := decide (fld p 3 1 = 1) }

def withBands (p : Bytes) (x : Region) : Region := { x with bands := (List.range 32).map (fun j => fld p (8 + j) 1) }

theorem configure_eq (r sel : Nat) (p : Bytes) (d : Die) : configure r sel p d =
    if bit sel 2 = true then hostInterval r (fld p 4 1) (selected (bit sel 1) r (withBands p) (selected (bit sel 0) r (withTable p) d))
    else selected (bit sel 1) r (withBands p) (selected (bit sel 0) r (withTable p) d) := rfl

/-- What selections 0 and 1 make of a region. -/
theorem region_withTable_withBands {d : Die} (hc : d.Canonical) (b c : Bool) (r k : Nat) (p : Bytes) : region (selected c r (withBands p) (selected b r (withTable p) d)) k =
    if k = r then { region d r with
      bandTable := if b = true then decide (fld p 3 1 = 1) else (region d r).bandTable
      bands := if c = true then (List.range 32).map (fun j => fld p (8 + j) 1) else (region d r).bands }
    else region d k := by
  rw [region_selected (selected_can hc), region_selected hc, region_selected hc, if_pos rfl]
  by_cases hk : k = r
  · rw [if_pos hk, if_pos hk]
    split_ifs <;> rfl
  · rw [if_neg hk, if_neg hk, if_neg hk]

theorem region_configure {d : Die} (hc : d.Canonical) {sel : Nat} (h7 : sel ≤ 7) (r k : Nat) (p : Bytes) : region (configure r sel p d) k = if k = r then
      { region d r with
        bandTable := if sel % 2 = 1 then decide (fld p 3 1 = 1) else (region d r).bandTable
        bands := if sel / 2 % 2 = 1 then (List.range 32).map (fun j => fld p (8 + j) 1) else (region d r).bands
        injection := if 4 ≤ sel then fld p 4 1 else (region d r).injection }
    else region d k := by
  obtain ⟨-, h0, h1, h2⟩ := configBits h7
  simp only [configure_eq, h0, h1, h2, decide_eq_true_eq]
  split
  · rw [region_hostInterval (selected_can (selected_can hc))]
    simp only [region_withTable_withBands hc, if_true, decide_eq_true_eq]
    split <;> rfl
  · simp only [region_withTable_withBands hc, decide_eq_true_eq]

theorem island_configure {d : Die} (hc : d.Canonical) {sel r j : Nat} (h7 : sel ≤ 7) (hr : r < 80) (hj : j < 1248) (p : Bytes) : island (configure r sel p d) j =
    if islandRegion j = r ∧ 4 ≤ sel then { island d j with ring := { (island d j).ring with intervalDue := some (fld p 4 1), hostAt := some (island d j).ring.count } } else island d j := by
  obtain ⟨-, -, -, h2⟩ := configBits h7
  simp only [configure_eq, h2, decide_eq_true_eq]
  split
  next h4 =>
    rw [island_hostInterval (selected_can (selected_can hc)) hr hj, island_selected, island_selected]
    simp only [h4, and_true]
  next h4 => rw [island_selected, island_selected, if_neg (fun h => h4 h.2)]

/-! ## region.test (R83, R88, R376) -/

section
variable {d : Die} {p : Bytes} (e : Exec)

/-- Without a test setting to leave, region.test 0 is done. -/
theorem regionTestBody_idle (hop : fld p 2 1 = 0) (hz : ZeroBytes p 3 8) (hz' : ZeroBytes p 8 16) (hd : d.startup.ready = 1) (hr : fld p 0 2 < 80) (hp : present d (fld p 0 2) = true)
    (ht : (region d (fld p 0 2)).test = none) : regionTestBody 0 e p d = (d, .done 0 none) := by
  have hres : reservedAt p 8 16 = none := by simpa [zeroCheck] using zeroCheck_pass hz'
  simp only [regionTestBody, hop]
  refine (checked_pass ?_).trans (if_pos (.inl ⟨trivial, by rw [ht]; rfl⟩))
  simp only [List.forall_mem_cons]
  exact ⟨rfl, zeroCheck_pass hz, by simp [hres], rfl, rfl, readyCheck_pass hd, rfl, regionFound_pass hr hp, rfl, nofun⟩

/-- region.test 1 of a setting, the first time it is executed, on what the idle synthesizer can do. -/
theorem regionTestBody_tests {v : Setting} (hop : fld p 2 1 = 1) (hz : ZeroBytes p 3 8) (hd : d.startup.ready = 1) (hr : fld p 0 2 < 80) (hp : present d (fld p 0 2) = true)
    (hv : readSetting ((p.drop 8).take 8) = some v) (hplan : inPlan d (fld p 0 2) = false) (hpend : pendingCommit d (fld p 0 2) = none) (he : e.reexecuted = false) :
    regionTestBody 0 e p d = if (synth d (fld p 0 2) (idleOf (region d (fld p 0 2)))).retired = true then (d, .refuse stFailed 0xFFFF)
      else (writeSynth (fld p 0 2) (idleOf (region d (fld p 0 2))) v .test false d, .wait) := by
  simp only [regionTestBody, testTarget, hop, hv, he, Option.getD_some, if_true, Bool.false_and, Bool.false_eq_true, false_and, one_ne_zero, or_self, if_false]
  refine checked_pass ?_
  simp only [List.forall_mem_cons]
  exact ⟨rfl, zeroCheck_pass hz, rfl, by rw [settingReserved_of_reads hv]; rfl, rfl, readyCheck_pass hd, rfl, regionFound_pass hr hp, by simp [hplan, hpend], nofun⟩

end

/-- Settles O48: each command passes its checks and completes with the effect of its body; region.test waits for its switch, or is refused. -/
theorem islandAndRegionCommandsActOnTheirOwn : Obligations.IslandAndRegionCommandsActOnTheirOwn := by
  intro s q e hc
  dsimp only
  refine ⟨fun hi hp => ⟨fun hx hk hz ho => ?_, ?_, ?_⟩, fun hr hp => ⟨fun hx hz ho => ?_, ?_, fun hx h1 h7 ht hi hz hb hz' ho hf => ?_, ?_⟩⟩
  · exact completesOk_of_body hx rfl (islandReadBody_reads e hk hz ho hi hp) rfl
  · rintro hx hs hz rfl hd hn
    exact completesOk_of_body hx rfl (islandPhaseBody_steps e hs hz hd hi hp hn) ⟨isl_same hc, fun j hj => isl_other hc hj⟩
  · rintro hx hz rfl hd
    exact ⟨fun hn => completesOk_of_body hx rfl (islandResetBody_resets e hz hd hi hp hn) (island_beginIslandReset hc _),
      fun he hs => completesOk_of_body hx rfl (islandResetBody_again e hz hd hi hp he hs) rfl⟩
  · exact completesOk_of_body hx rfl (regionReadBody_reads e hz ho hr hp) rfl
  · rintro hx hs hz rfl hd hw hn hl
    exact completesOk_of_body hx rfl (regionResetBody_resets e hs hz hd hw hr hp hn hl) (beginRegionReset_reset hc _ _)
  · exact completesOk_of_body hx rfl (regionConfigBody_sets e h1 h7 ht hi hz hb hz' ho hf hr hp) ⟨fun k => region_configure hc h7 _ k _, fun j hj => island_configure hc h7 hr hj _⟩
  · rintro hx hz rfl hd
    refine ⟨fun hop hz' ht => completesOk_of_body hx rfl (regionTestBody_idle e hop hz hz' hd hr hp ht) rfl, fun v hop hv hplan hpend he => ?_⟩
    have hbody := regionTestBody_tests e hop hz hd hr hp hv hplan hpend he
    refine ⟨fun hret => ?_, fun hret => ?_⟩
    · rw [if_neg (by simp [hret])] at hbody
      obtain ⟨hlock, huse, hset⟩ := synth_writeSynth (s := v) (use := .test) (must := false) hc hret
      obtain ⟨-, hexec, -, -⟩ := id hx
      exact ⟨by rw [exec_command hx rfl hbody, finish_wait], huse, hset, hlock, by rw [queue_of (writeSynth_queues ..), hexec]⟩
    · rw [if_pos hret] at hbody
      exact exec_command hx rfl hbody

end Sys2Proof.Machine

namespace Sys2Proof.Machine
open Sys2Proof

/-! ## What a ring keeps through the other parts of its period (R129 to R142, R159 to R172) -/

/-- The ring of island i has a property, on a die in canonical form. -/
structure RingHolds (p : Ring → Prop) (i : Nat) (d : Die) : Prop where
  can : d.Canonical
  holds : p (island d i).ring

namespace RingHolds

section
variable {p : Ring → Prop} {i : Nat} {d : Die}

theorem of_islands {e : Die} (h : RingHolds p i d) (hi : e.islands = d.islands) (hc : e.Canonical) : RingHolds p i e := by
  have hsame : island e i = island d i := by unfold island; rw [hi]
  exact ⟨hc, hsame ▸ h.holds⟩

theorem ite {c : Prop} [Decidable c] {a b : Die} (ha : RingHolds p i a) (hb : RingHolds p i b) : RingHolds p i (if c then a else b) := by
  split
  · exact ha
  · exact hb

theorem emit (h : RingHolds p i d) (c : Nat) (loc : Loc) (b : Bytes) : RingHolds p i (emit c loc b d) := h.of_islands (emit_islands ..) (emit_can _ _ _ _ h.can)

theorem modLane (h : RingHolds p i d) (k : Nat) (f : Lane → Lane) : RingHolds p i (modLane k f d) := h.of_islands rfl (modLane_can _ _ _ h.can)

theorem modLink (h : RingHolds p i d) (l : Nat) (f : Link → Link) : RingHolds p i (modLink l f d) := h.of_islands rfl (modLink_can _ _ _ h.can)

/-- An update of the ring itself. -/
theorem modRing_to (q : Ring → Prop) (h : RingHolds p i d) {f : Ring → Ring} (hf : ∀ x, p x → q (f x)) : RingHolds q i (modRing i f d) := by
  have hx : (island (Machine.modRing i f d) i).ring = f (island d i).ring := congrArg Island.ring (isl_same h.can)
  exact ⟨modRing_can _ _ _ h.can, hx ▸ hf _ h.holds⟩

/-- An update of the ring that keeps the property. -/
theorem modRing (h : RingHolds p i d) {f : Ring → Ring} (hf : ∀ x, p x → p (f x) := by exact fun _ hx => hx) : RingHolds p i (modRing i f d) := h.modRing_to p hf

theorem modHolds (h : RingHolds p i d) (j : Nat) (f : Holds → Holds) : RingHolds p i (modHolds j f d) := by
  have hx : (island (Machine.modHolds j f d) i).ring = (island d i).ring := by
    by_cases hj : i = j
    · subst hj
      rw [island_modHolds_same h.can.islands]
    · rw [island_modHolds_other h.can.islands hj]
  exact ⟨modHolds_can _ _ _ h.can, hx ▸ h.holds⟩

theorem modMargin (h : RingHolds p i d) (j : Nat) (f : Margin → Margin) : RingHolds p i (modMargin j f d) := by
  have hx : (island (Machine.modMargin j f d) i).ring = (island d i).ring := by
    by_cases hj : i = j
    · subst hj
      rw [island_modMargin_same h.can.islands]
    · rw [island_modMargin_other h.can.islands hj]
  exact ⟨modMargin_can _ _ _ h.can, hx ▸ h.holds⟩

theorem limits (h : RingHolds p i d) (g : Limits) : RingHolds p i { d with limits := g } := h.of_islands rfl { h.can with }

theorem countHold (h : RingHolds p i d) (j pos cause : Nat) : RingHolds p i (countHold j pos cause d) := by
  unfold Machine.countHold
  dsimp only
  split
  · exact ite (((h.modHolds ..).limits _).modLink ..) ((h.modHolds ..).limits _)
  · exact (h.modHolds ..).limits _

theorem crossingRecord (h : RingHolds p i d) (code j kind : Nat) (u : LaneUse) : RingHolds p i (crossingRecord code j kind u d) := h.emit ..

theorem countGuard (h : RingHolds p i d) (j : Nat) (u : LaneUse) : RingHolds p i (countGuard j u d) := by
  have hc := h.countHold j u.pos 7
  unfold Machine.countGuard
  exact ite ((ite (hc.crossingRecord ..) hc).modHolds ..) ((ite (hc.crossingRecord ..) hc).modHolds ..)

theorem crossingPoison (h : RingHolds p i d) (j kind : Nat) (u : LaneUse) : RingHolds p i (crossingPoison j kind u d) := by
  have hm := (ite (h.crossingRecord 0x030B j kind u) h (c := (island d j).holds.poison = 0)).modHolds j (fun x => { x with poison := x.poison + 1 })
  exact hm.of_islands (certMark_islands ..) (crossingPoison_kept (canonical_closed _) j kind u d h.can)

theorem laneFill (h : RingHolds p i d) (r pos edge : Nat) (u : LaneUse) (key : Nat) : RingHolds p i (laneFill r pos edge u key d) := by
  have hl := h.modLane key (fun x => { x with occ := (lane d key).occ + 1 })
  unfold Machine.laneFill
  exact ite (((ite (hl.modHolds ..) hl).modHolds ..).emit ..) (ite (hl.modHolds ..) hl)

theorem useLaneOp (h : RingHolds p i d) (j : Nat) (u : LaneUse) : RingHolds p i (useLaneOp j u d) := by
  unfold Machine.useLaneOp
  dsimp only
  refine ite h (ite ?_ (ite (ite ((h.modLane ..).crossingPoison ..) (h.laneFill ..)) ?_))
  · exact ite ((ite (h.modLane ..) h).crossingPoison ..) (ite (h.modLane ..) h)
  · split
    · exact h.laneFill ..
    · exact h

theorem starvedSlot (h : RingHolds p i d) (j : Nat) : RingHolds p i (starvedSlot j d) := h.of_islands (starvedSlot_islands ..) (starvedSlot_can _ _ h.can)

theorem ageLanes (h : RingHolds p i d) (j : Nat) : RingHolds p i (ageLanes j d) := h.of_islands (ageLanes_islands ..) (ageLanes_can _ _ h.can)

theorem periodAccounts (h : RingHolds p i d) (j len : Nat) : RingHolds p i (periodAccounts j len d) := by
  unfold Machine.periodAccounts
  exact h.modMargin ..

theorem recheckAll (h : RingHolds p i d) (j : Nat) (obs : RingObs) : RingHolds p i (recheckAll j obs d) := by
  unfold Machine.recheckAll
  refine each_kept (P := RingHolds p i) (fun n e he => ?_) h
  split
  · exact he.modMargin ..
  · exact he

/-- The tokens of a period move the counts of R158 on and nothing else of the ring. -/
theorem sampleTokens {q : Ring → Prop} (h : RingHolds p i d) (hq : ∀ x, p x → q { x with own3 := x.own2, own2 := x.own1, own1 := x.count }) (toks : List (Option Nat)) :
    RingHolds q i (sampleTokens i toks d) := by
  unfold Machine.sampleTokens
  refine each_kept (P := RingHolds q i) (fun n e he => ?_) (h.modRing_to q hq)
  split
  · exact ite (he.of_islands (sampleToken_islands ..) (sampleToken_can _ _ _ _ he.can)) he
  · exact he

end

/-! ### The measurement (R105, R106, R132 to R137) -/

/-- An alert changes of a ring what R105 and R108 say: the margin stretch due, the release and the state of the Bellows. -/
theorem alertRing_eq (a s : Nat) (x : Ring) : ∃ m r g b, alertRing a s x = { x with marginDue := m, released := r, goodRun := g, bellows := b } := by
  unfold alertRing
  split
  · exact ⟨_, _, _, _, rfl⟩
  · exact ⟨_, _, _, _, rfl⟩

theorem runRing_eq (good : Bool) (x : Ring) : ∃ g, runRing good x = { x with goodRun := g } := by
  unfold runRing
  split
  · exact ⟨_, rfl⟩
  · exact ⟨_, rfl⟩

section
variable {p : Ring → Prop} {i : Nat} {d : Die} (hp : ∀ x m r g b, p x → p { x with marginDue := m, released := r, goodRun := g, bellows := b })
include hp

theorem compare (h : RingHolds p i d) (obs : RingObs) : RingHolds p i (compare i obs d) := by
  have hA : ∀ a s x, p x → p (alertRing a s x) := fun a s x hx => by
    obtain ⟨m, r, g, b, he⟩ := alertRing_eq a s x
    exact he ▸ hp _ _ _ _ _ hx
  have hR : ∀ good x, p x → p (runRing good x) := fun good x hx => by
    obtain ⟨g, he⟩ := runRing_eq good x
    exact he ▸ hp _ _ _ _ _ hx
  unfold Machine.compare
  extract_lets x c a e del
  split
  · exact h
  · extract_lets d1 d2 d3
    have h1 : RingHolds p i d1 := ite (h.modMargin ..) h
    have h2 : RingHolds p i d2 := ite (h1.of_islands (noteOutside_islands ..) (noteOutside_can _ _ h1.can)) h1
    have h3 : RingHolds p i d3 := ite (h2.modRing (hA _ _)) (ite (h2.modRing (hR _)) h2)
    exact ite (h3.emit ..) h3

end
end RingHolds

/-! ## What an edge end keeps through the samples of its tokens (R155 to R158) -/

/-- Edge end k has a property, on a die in canonical form. -/
structure EndHolds (p : EdgeEnd → Prop) (k : Nat) (d : Die) : Prop where
  can : d.Canonical
  holds : p (edgeEnd d k)

namespace EndHolds

section
variable {p : EdgeEnd → Prop} {k : Nat} {d : Die}

theorem of_ends {e : Die} (h : EndHolds p k d) (hk : e.ends = d.ends) (hc : e.Canonical) : EndHolds p k e := by
  have hsame : edgeEnd e k = edgeEnd d k := by unfold edgeEnd; rw [hk]
  exact ⟨hc, hsame ▸ h.holds⟩

theorem emit (h : EndHolds p k d) (c : Nat) (loc : Loc) (b : Bytes) : EndHolds p k (emit c loc b d) := h.of_ends (emit_ends ..) (emit_can _ _ _ _ h.can)

/-- An update of any end that keeps the property. -/
theorem modEnd (h : EndHolds p k d) (j : Nat) {f : EdgeEnd → EdgeEnd} (hf : ∀ x, p x → p (f x) := by exact fun _ hx => hx) : EndHolds p k (modEnd j f d) := by
  refine ⟨modEnd_can _ _ _ h.can, ?_⟩
  by_cases hk : k = j
  · subst hk
    rw [edgeEnd_modEnd_same h.can.ends]
    exact hf _ h.holds
  · rw [edgeEnd_modEnd_other h.can.ends hk]
    exact h.holds

/-- What every sample of a period keeps stands after all of them. -/
theorem sampleTokens (h : EndHolds p k d) (i : Nat) (toks : List (Option Nat))
    (hs : ∀ n j e, EndHolds p k e → EndHolds p k (sampleToken ((island d i).ring.own2 - (island d i).ring.own3) j (toks.getD n none) e)) :
    EndHolds p k (sampleTokens i toks d) := by
  unfold Machine.sampleTokens
  refine each_kept (P := EndHolds p k) (fun n e he => ?_) (h.of_ends rfl (modRing_can _ _ _ h.can))
  split
  · split
    · exact hs _ _ _ he
    · exact he
  · exact he

end

/-! ### The state of an end -/

section
variable {st : EndState → Prop} {k : Nat} {d : Die}

theorem sampleToken_state (h : EndHolds (fun x => st x.state) k d) (dOwn j : Nat) (tok : Option Nat) : EndHolds (fun x => st x.state) k (sampleToken dOwn j tok d) := by
  have hstale : EndHolds (fun x => st x.state) k (endStaleEnd j d) := by
    unfold endStaleEnd
    split
    · exact (h.modEnd _).emit ..
    · exact h
  have hbad : EndHolds (fun x => st x.state) k (badSample j dOwn d) := by
    unfold badSample
    have hm := h.modEnd j (f := fun x => { x with bad := min 65535 (x.bad + 1), lead := if x.state = .active then sat16 (x.lead + dOwn) else x.lead })
    dsimp only
    split
    · split
      · exact ((hm.emit ..).modEnd _).emit ..
      · exact hm.emit ..
    · exact hm
  unfold sampleToken
  split
  · exact h.modEnd _
  · split
    · exact hstale.modEnd _
    · exact hbad

theorem sampleTokens_state (h : EndHolds (fun x => st x.state) k d) (i : Nat) (toks : List (Option Nat)) : EndHolds (fun x => st x.state) k (Machine.sampleTokens i toks d) :=
  h.sampleTokens i toks fun _ _ _ he => he.sampleToken_state ..

end

/-- Without a sample, and with the own count as it was a period ago, an end that holds the slot goes on to hold it (R158). -/
theorem sampleTokens_none {k : Nat} {d : Die} (h : EndHolds (fun x => x.state = .active ∧ 6 ≤ x.lead) k d) {i : Nat} (ho : (island d i).ring.own2 = (island d i).ring.own3) :
    EndHolds (fun x => x.state = .active ∧ 6 ≤ x.lead) k (Machine.sampleTokens i [] d) := by
  refine h.sampleTokens i [] fun n j e he => he.modEnd j fun x hx => ?_
  obtain ⟨hstate, hlead⟩ := hx
  refine ⟨hstate, ?_⟩
  dsimp only
  rw [if_pos hstate, ho, Nat.sub_self, sat16, clamp]
  omega

end EndHolds

/-! ## The slot that follows (R158, R159, R192, R210) -/

/-- A fold whose steps all find something finds something in a list that is not empty. -/
theorem foldl_isSome {α β : Type} {f : Option β → α → Option β} (hf : ∀ m a, (f m a).isSome = true) {l : List α} (hl : l ≠ []) (m : Option β) : (l.foldl f m).isSome = true := by
  rw [← List.dropLast_append_getLast hl, List.foldl_append]
  exact hf _ _

/-- Where an edge would hold the slot, one is found to do so. -/
theorem comparator_of_holdingEdges {d : Die} {i : Nat} (h : holdingEdges d i ≠ []) : ∃ c, comparator d i = some c := by
  unfold comparator
  rw [← Option.isSome_iff_exists, Option.isSome_map]
  refine foldl_isSome (fun m a => ?_) h none
  split
  · rfl
  · split <;> rfl

theorem comparator_of_active {d : Die} {i p k : Nat} (hp : p < 4) (hk : sideEnd i p = some k) (h : EndHolds (fun x => x.state = .active ∧ 6 ≤ x.lead) k d) : ∃ c, comparator d i = some c := by
  refine comparator_of_holdingEdges (List.ne_nil_of_mem (a := ((edgeEnd d k).lead, p, (edgeEnd d k).cause)) (List.mem_append_left _ ?_))
  refine List.mem_filterMap.2 ⟨p, List.mem_range.2 hp, ?_⟩
  simp only [hk]
  exact if_pos h.holds

/-- Without an ACTIVE edge and without a link nothing holds the slot. -/
theorem comparator_of_inactive {d : Die} {i : Nat} (hl : islandLink i = none) (h : ∀ p k, p < 4 → sideEnd i p = some k → (edgeEnd d k).state ≠ .active) : comparator d i = none := by
  have hnone : holdingEdges d i = [] := by
    unfold holdingEdges
    rw [hl, List.append_nil, List.filterMap_eq_nil_iff]
    intro p hp
    split
    next k hk => exact if_neg fun hx => h p k (List.mem_range.1 hp) hk hx.1
    next => rfl
  rw [comparator, hnone]
  rfl

section
variable {i : Nat} {d : Die} {obs : RingObs}

/-- The slot in progress is delivered, as cycle n. -/
def Delivered (n : Nat) (x : Ring) : Prop := x.count = n ∧ x.now = .delivered

/-- A region without a plan and without a fast step, with nothing that holds the slot, delivers it. -/
theorem nextSlot_delivers (hs : (island d i).ring.stopDue = false) (hc : obs.coreStop = false) (hl : obs.lanes = []) (hp : (region d (islandRegion i)).plan = none)
    (hf : (region d (islandRegion i)).fast = none) (hh : comparator d i = none) : ∃ a, nextSlot i obs d = deliver i (modRing i (fun x => { x with acc := a }) d) := by
  have hfast : fastSlot d i = ((island d i).ring.acc, true) := by simp only [fastSlot, hf]
  have hopen : ∀ a, horizonOpen (modRing i (fun x => { x with acc := a }) d) i = true := fun a => by simp only [horizonOpen, region_modRing, hp]
  refine ⟨(island d i).ring.acc, ?_⟩
  simp only [nextSlot, hs, hc, hl, hh, hfast, hopen, guardHold, each, List.find?_nil, List.foldl_nil, Bool.false_eq_true, Bool.false_and, Bool.or_false, Bool.not_true, Bool.false_and, false_and, if_false]

/-- The slot is held against an edge. -/
theorem RingHolds.nextSlot_holds {n : Nat} {c : Nat × Nat} (h : RingHolds (fun x => x.count = n ∧ x.stopDue = false) i d) (hh : comparator d i = some c) :
    RingHolds (fun x => x.count = n ∧ ∃ c, x.now = .held c) i (nextSlot i obs d) := by
  obtain ⟨hcan, hcount, hstop⟩ := h
  have hcount : RingHolds (fun x => x.count = n) i d := ⟨hcan, hcount⟩
  unfold nextSlot
  simp only [hh, hstop, Option.isNone_some, Bool.and_false, Bool.false_and, Bool.or_false, Bool.false_eq_true, if_false]
  refine (RingHolds.countHold (p := fun x => x.count = n) ?_ ..).modRing_to _ fun x hx => ⟨hx, _, rfl⟩
  exact .ite ((RingHolds.modRing (.ite hcount.modRing hcount)).starvedSlot i) (RingHolds.modRing (.ite hcount.modRing hcount))

/-- The decision on a slot leaves the length of the last period. -/
theorem RingHolds.nextSlot_period {n : Nat} (h : RingHolds (fun x => x.period = n) i d) : RingHolds (fun x => x.period = n) i (nextSlot i obs d) := by
  unfold nextSlot
  extract_lets x held guard' f stopNow d1 d2 pace d3
  have h1 : RingHolds (fun x => x.period = n) i d1 := .ite h.modRing h
  have h2 : RingHolds (fun x => x.period = n) i d2 := h1.modRing
  have h3 : RingHolds (fun x => x.period = n) i d3 := .ite (h2.starvedSlot i) h2
  clear_value d3 pace guard' held
  refine .ite h3.modRing.modRing ?_
  split
  · exact (h3.countHold ..).modRing
  · refine .ite (h3.modRing.modHolds ..) ?_
    split
    · exact (h3.countGuard ..).modRing
    · unfold deliver
      exact each_kept (P := RingHolds (fun x => x.period = n) i) (fun u e he => he.useLaneOp i u) h3.modRing

theorem RingHolds.closedSlot_period {n : Nat} (h : RingHolds (fun x => x.period = n) i d) : RingHolds (fun x => x.period = n) i (closedSlot i obs d) := by
  unfold closedSlot
  extract_lets x d1 d2 runs
  have h1 : RingHolds (fun x => x.period = n) i d1 := h.modRing
  have h2 : RingHolds (fun x => x.period = n) i d2 := .ite (h1.modHolds ..) h1
  exact .ite h2.modRing h2

end

/-- The Bellows' state for the next period leaves the length of the last one, the count and the slot. -/
theorem nextBellows_slot (x : Ring) : (nextBellows x).period = x.period ∧ (nextBellows x).count = x.count ∧ (nextBellows x).now = x.now := by
  unfold nextBellows
  dsimp only
  repeat' split
  all_goals exact ⟨rfl, rfl, rfl⟩

/-! ## One period of a ring (R110, R142, R155) -/

section
variable (i : Nat) (obs : RingObs) (d : Die)

/-- The die once the period that ends is accounted. -/
def periodAccounted : Die :=
  let len := flooredPeriod d i (rawPeriod d i obs)
  let x := (island d i).ring
  modHolds i (fun h => { h with lastHeld := match x.now with | .held _ => true | _ => false })
    (modRing i (fun x => { x with period := len, sinceEdge := x.sinceEdge + len, cause := publishedCause x, marginDue := 0, stepDue := 0 }) (periodAccounts i len d))

/-- The die once the replicas, too, have measured. -/
def periodMeasured : Die :=
  let e := periodAccounted i obs d
  if measures e i then compare i obs (recheckAll i obs e) else e

/-- The die as the decision on the slot that follows finds it: the tokens, too, are sampled. -/
def periodSampled : Die := ageLanes i (sampleTokens i obs.tokens (periodMeasured i obs d))

end

section
variable {i : Nat} {d : Die} {obs : RingObs}

theorem ringPeriod_runs (hb : (island d i).ring.bellows ≠ .stopped) (hs : (island d i).ring.settleSince = none) : ringPeriod i obs d =
    modRing i nextBellows (if (island d i).ring.gate then nextSlot i obs (periodSampled i obs d) else closedSlot i obs (periodSampled i obs d)) :=
  if_neg (by simp [hb, hs])

theorem periodSampled_regions : (periodSampled i obs d).regions = d.regions := by
  unfold periodSampled periodMeasured
  simp only [ageLanes_regions, sampleTokens_regions, apply_ite Die.regions, compare_regions, recheckAll_regions, ite_self]
  exact periodAccounts_regions i (flooredPeriod d i (rawPeriod d i obs)) d

theorem periodMeasured_ends : (periodMeasured i obs d).ends = d.ends := by
  unfold periodMeasured
  simp only [apply_ite Die.ends, compare_ends, recheckAll_ends, ite_self]
  exact periodAccounts_ends i (flooredPeriod d i (rawPeriod d i obs)) d

/-- What the accounts and the measurement of a period leave of a ring. -/
structure SlotStands (x y : Ring) (len : Nat) : Prop where
  period : y.period = len
  gate : y.gate = x.gate
  count : y.count = x.count
  stopDue : y.stopDue = x.stopDue
  own2 : y.own2 = x.own2
  own3 : y.own3 = x.own3

variable (hc : d.Canonical)
include hc

theorem ring_periodMeasured (obs : RingObs) : RingHolds (fun y => SlotStands (island d i).ring y (flooredPeriod d i (rawPeriod d i obs))) i (periodMeasured i obs d) := by
  have hstart : RingHolds (fun y => y = (island d i).ring) i d := ⟨hc, rfl⟩
  have hacc : RingHolds (fun y => SlotStands (island d i).ring y (flooredPeriod d i (rawPeriod d i obs))) i (periodAccounted i obs d) := by
    unfold periodAccounted
    exact ((hstart.periodAccounts ..).modRing_to _ fun _ hx => by subst hx; exact ⟨rfl, rfl, rfl, rfl, rfl, rfl⟩).modHolds ..
  exact .ite ((hacc.recheckAll ..).compare (fun _ _ _ _ _ ⟨h1, h2, h3, h4, h5, h6⟩ => ⟨h1, h2, h3, h4, h5, h6⟩) obs) hacc

theorem ring_periodSampled (obs : RingObs) :
    RingHolds (fun y => y.period = flooredPeriod d i (rawPeriod d i obs) ∧ y.count = (island d i).ring.count ∧ y.stopDue = (island d i).ring.stopDue) i (periodSampled i obs d) :=
  ((ring_periodMeasured hc obs).sampleTokens (fun _ hx => ⟨hx.period, hx.count, hx.stopDue⟩) _).ageLanes i

theorem periodMeasured_end {p : EdgeEnd → Prop} {k : Nat} (hk : p (edgeEnd d k)) : EndHolds p k (periodMeasured i obs d) :=
  EndHolds.of_ends ⟨hc, hk⟩ periodMeasured_ends (ring_periodMeasured hc obs).can

theorem periodSampled_inactive {k : Nat} (hk : (edgeEnd d k).state ≠ .active) : (edgeEnd (periodSampled i obs d) k).state ≠ .active := by
  have hm := EndHolds.sampleTokens_state (st := (· ≠ .active)) (periodMeasured_end (i := i) (obs := obs) hc hk) i obs.tokens
  exact (hm.of_ends (ageLanes_ends ..) (ageLanes_can _ _ hm.can)).holds

theorem periodSampled_holding {k : Nat} (ht : obs.tokens = []) (ho : (island d i).ring.own2 = (island d i).ring.own3) (hk : (edgeEnd d k).state = .active ∧ 6 ≤ (edgeEnd d k).lead) :
    EndHolds (fun x => x.state = .active ∧ 6 ≤ x.lead) k (periodSampled i obs d) := by
  obtain ⟨-, hx⟩ := ring_periodMeasured (i := i) hc obs
  have hm := (periodMeasured_end (i := i) (obs := obs) (p := fun x => x.state = .active ∧ 6 ≤ x.lead) hc hk).sampleTokens_none (hx.own2.trans (ho.trans hx.own3.symm))
  unfold periodSampled
  rw [ht]
  exact hm.of_ends (ageLanes_ends ..) (ageLanes_can _ _ hm.can)

variable (hb : (island d i).ring.bellows ≠ .stopped) (hs : (island d i).ring.settleSince = none)
include hb hs

theorem ringPeriod_period (obs : RingObs) : (island (ringPeriod i obs d) i).ring.period = flooredPeriod d i (rawPeriod d i obs) := by
  obtain ⟨hcan, hlen, -, -⟩ := ring_periodSampled (i := i) hc obs
  have hp : RingHolds (fun y => y.period = flooredPeriod d i (rawPeriod d i obs)) i (periodSampled i obs d) := ⟨hcan, hlen⟩
  rw [ringPeriod_runs hb hs]
  exact (RingHolds.modRing_to (fun y => y.period = flooredPeriod d i (rawPeriod d i obs)) (.ite hp.nextSlot_period hp.closedSlot_period) fun x hx => (nextBellows_slot x).1.trans hx).holds

variable (hg : (island d i).ring.gate = true) (hd : (island d i).ring.stopDue = false)
include hg hd

theorem ringPeriod_delivers (hstop : obs.coreStop = false) (hl : obs.lanes = []) (hp : (region d (islandRegion i)).plan = none) (hf : (region d (islandRegion i)).fast = none)
    (hlink : islandLink i = none) (he : ∀ p k, p < 4 → sideEnd i p = some k → (edgeEnd d k).state ≠ .active) :
    (island (ringPeriod i obs d) i).ring.count = ((island d i).ring.count + 1) % 2 ^ 56 ∧ (island (ringPeriod i obs d) i).ring.now = .delivered := by
  obtain ⟨hcan, -, hcount, hdue⟩ := ring_periodSampled (i := i) hc obs
  have hregion : region (periodSampled i obs d) (islandRegion i) = region d (islandRegion i) := by unfold region; rw [periodSampled_regions]
  obtain ⟨a, hslot⟩ := nextSlot_delivers (obs := obs) (hdue.trans hd) hstop hl (by rw [hregion, hp]) (by rw [hregion, hf])
    (comparator_of_inactive hlink fun p k hp hk => periodSampled_inactive hc (he p k hp hk))
  have hstart : RingHolds (fun y => y.count = (island d i).ring.count) i (periodSampled i obs d) := ⟨hcan, hcount⟩
  have hdone : RingHolds (Delivered (((island d i).ring.count + 1) % 2 ^ 56)) i (nextSlot i obs (periodSampled i obs d)) := by
    rw [hslot]
    unfold deliver
    exact (hstart.modRing (f := fun x => { x with acc := a })).modRing_to _ fun x hx => ⟨congrArg (fun n => (n + 1) % 2 ^ 56) hx, rfl⟩
  rw [ringPeriod_runs hb hs, if_pos hg]
  refine (hdone.modRing fun x hx => ?_).holds
  obtain ⟨-, hn, hnow⟩ := nextBellows_slot x
  exact ⟨hn.trans hx.1, hnow.trans hx.2⟩

theorem ringPeriod_holds {p k : Nat} (ht : obs.tokens = []) (hp : p < 4) (hk : sideEnd i p = some k) (ho : (island d i).ring.own2 = (island d i).ring.own3)
    (he : (edgeEnd d k).state = .active ∧ 6 ≤ (edgeEnd d k).lead) :
    (island (ringPeriod i obs d) i).ring.count = (island d i).ring.count ∧ ∃ c, (island (ringPeriod i obs d) i).ring.now = .held c := by
  obtain ⟨hcan, -, hcount, hdue⟩ := ring_periodSampled (i := i) hc obs
  obtain ⟨c, hcmp⟩ := comparator_of_active hp hk (periodSampled_holding hc ht ho he)
  have hslot := RingHolds.nextSlot_holds (obs := obs) ⟨hcan, hcount, hdue.trans hd⟩ hcmp
  rw [ringPeriod_runs hb hs, if_pos hg]
  refine (hslot.modRing fun x hx => ?_).holds
  obtain ⟨-, hn, hnow⟩ := nextBellows_slot x
  rw [hn, hnow]
  exact hx

end

/-- Settles O8: the length of the period through all that follows it, and the slot by what the comparator finds once the tokens are sampled. -/
theorem ringPeriodsDeliverOrHold : Obligations.RingPeriodsDeliverOrHold := by
  intro s i obs hc hi hb hs
  have named : isIsland i = true := decide_eq_true hi
  refine ⟨gives_run rfl named (ringPeriod_period hc hb hs obs), fun hg hd hstop hl hp hf hlink he => ?_, fun p k hp hk hstate hlead ho hg hd ht => ?_⟩
  · exact gives_run rfl named (ringPeriod_delivers hc hb hs hg hd hstop hl hp hf hlink he)
  · exact gives_run rfl named (ringPeriod_holds hc hb hs hg hd ht hp hk ho ⟨hstate, hlead⟩)

end Sys2Proof.Machine

namespace Sys2Proof.Machine
open Sys2Proof

/-! ## The Bellows acquires, loses and resumes injection (R103 to R107, R118) -/

theorem inWindow_of_windows {x y : Ring} (h : x.windows = y.windows) (slot : Slot') (c : Nat) : inWindow x slot c = inWindow y slot c := by
  unfold inWindow
  rw [h]

theorem island_pauseEnd (r i : Nat) (d : Die) : island (pauseEnd r d) i = island d i := by
  unfold island
  rw [pauseEnd_islands]

section
variable {i : Nat} {d : Die} (hc : d.Canonical)
include hc

theorem ring_modRing (f : Ring → Ring) : (island (modRing i f d) i).ring = f (island d i).ring := congrArg Island.ring (isl_same hc)

theorem ring_acquire (ctx : AcqContext) : (island (acquire i ctx d) i).ring =
    { (island d i).ring with bellows := .acquiring, settleSince := none, acqSince := d.tally.now, acqContext := ctx, matching := 0, missing := 0, windowDirty := false } :=
  ring_modRing hc _

/-- After 100 ns the acquisition begins, in the context for which the ring started. -/
theorem ring_settleDone {t : Nat} (hs : (island d i).ring.settleSince = some t) (hb : (island d i).ring.bellows = .acquiring) (ht : t + 100 ≤ d.tally.now)
    (hp : clockPresent d (islandRegion i) = true) : (island (settleDone i d) i).ring =
      { (island d i).ring with settleSince := none, acqSince := d.tally.now, matching := 0, missing := 0, windowDirty := false } := by
  have hdone : settleDone i d = acquire i (island d i).ring.acqContext d := by simp only [settleDone, hs, hb, ht, hp, and_self, if_true]
  rw [hdone, ring_acquire hc, ← hb]

/-- Lock of a ring that no release and no forecast window holds back. -/
theorem ring_injectionLock (hr : (island d i).ring.released = false) (hw : inWindow (island d i).ring (island d i).ring.now (island d i).ring.count = false) :
    (island (injectionLock i d) i).ring = { (island d i).ring with
      slot := 0, interval := (island d i).ring.intervalDue.getD (island d i).ring.interval, intervalDue := none, matching := 0, missing := 0, windowDirty := false,
      gate := (island d i).ring.gate || islandMayRun d i, pauseFrom := none, bellows := .injected } := by
  unfold injectionLock
  rw [island_pauseEnd, ring_modRing hc]
  dsimp only
  rw [hr, if_neg Bool.false_ne_true, if_neg]
  exact ne_true_of_eq_false ((inWindow_of_windows rfl _ _).trans hw)

end

section
variable {i periods : Nat} {d : Die} (hp : clockPresent d (islandRegion i) = true)
include hp

/-- A matching window during acquisition is the first, or declares lock. -/
theorem injectionWindow_matches (hb : (island d i).ring.bellows = .acquiring) (hs : (island d i).ring.settleSince = none) (hw : 255 ≤ periods ∧ periods ≤ 257) :
    injectionWindow i periods d =
      if (island d i).ring.matching + 1 < 2 then modRing i (fun x => { x with matching := x.matching + 1 }) d else injectionLock i d := by
  simp only [injectionWindow, hp, hb, hs, hw, and_self, decide_true, Option.isSome_none, Bool.not_true, Bool.false_eq_true, if_false]

/-- A window of an injected ring that does not match is the first, or loses lock. -/
theorem injectionWindow_misses (hb : (island d i).ring.bellows = .injected) (hd : (island d i).ring.windowDirty = false) (hw : ¬(255 ≤ periods ∧ periods ≤ 257)) :
    injectionWindow i periods d =
      if (island d i).ring.missing + 1 < 2 then modRing i (fun x => { x with missing := x.missing + 1 }) d else acquire i .reacquisition d := by
  simp only [injectionWindow, hp, hb, hd, hw, decide_false, Bool.not_true, Bool.false_eq_true, if_false]

end

/-! ## An acquisition fails (R103, R402, R405) -/

/-- The failure of an acquisition is counted and recorded. -/
def acquisitionFailed (i : Nat) (d : Die) : Die :=
  let l := addFailure d.tally.now (island d i).ring.failures
  emit 0x010A (.island i) (le 1 (recentFailures d.tally.now l) ++ le 1 (contextCode (island d i).ring.acqContext)) (modRing i (fun x => { x with failures := l }) d)

section
variable {i : Nat} {d : Die}

theorem acquisitionFailed_tally : (acquisitionFailed i d).tally = d.tally := emit_tally ..

theorem acquisitionFailed_store : (acquisitionFailed i d).store = d.store := emit_store ..

theorem injectionTimeout_of_due (hb : (island d i).ring.bellows = .acquiring) (hs : (island d i).ring.settleSince = none) (ht : (island d i).ring.acqSince + 1400 ≤ d.tally.now) :
    injectionTimeout i d =
      if permanent (addFailure d.tally.now (island d i).ring.failures) = true then bellowsRetire i 0 (addFailure d.tally.now (island d i).ring.failures).length (acquisitionFailed i d)
      else if (island d i).ring.acqContext = .start then modRing i (fun x => { x with settleSince := some (acquisitionFailed i d).tally.now, matching := 0, missing := 0 }) (acquisitionFailed i d)
      else acquire i .reacquisition (acquisitionFailed i d) := by
  refine (if_pos ⟨hb, by rw [hs]; rfl, ht⟩).trans (ite_congr rfl (fun _ => rfl) fun _ => ?_)
  change (match (island d i).ring.acqContext with
    | .start => modRing i (fun x => { x with settleSince := some (acquisitionFailed i d).tally.now, matching := 0, missing := 0 }) (acquisitionFailed i d)
    | .reacquisition => acquire i .reacquisition (acquisitionFailed i d)
    | .pauseSwitch => acquire i .reacquisition (acquisitionFailed i d)) = _
  cases (island d i).ring.acqContext <;> rfl

theorem bellowsRetired_of {a b : Die} (h : a.store = b.store) (i : Nat) : bellowsRetired a i = bellowsRetired b i := by
  unfold bellowsRetired
  rw [h]

/-- A RETIRE of kind 2 puts the Bellows on the working list. -/
theorem bellowsRetired_emitRetire (sub count : Nat) (l : Loc) (d : Die) : bellowsRetired (emitRetire 2 sub count l i d) i = true := by
  unfold emitRetire listRetired
  split
  next h =>
    obtain ⟨e, he, hx⟩ := List.any_eq_true.1 h
    obtain ⟨hk, -, hid⟩ := of_decide_eq_true hx
    exact List.any_eq_true.2 ⟨e, he, decide_eq_true ⟨hk, hid⟩⟩
  next => simp [bellowsRetired]

theorem bellowsRetire_yoke (hc : d.Canonical) (hr : bellowsRetired d i = false) (cause count : Nat) :
    (island (bellowsRetire i cause count d) i).ring.bellows = .yoke ∧ bellowsRetired (bellowsRetire i cause count d) i = true := by
  unfold bellowsRetire
  rw [if_neg (by simp [hr])]
  constructor
  · unfold yokeEnter
    rw [island_emit, ring_modRing (emitRetire_can _ _ _ _ _ _ (modRing_can _ _ _ hc))]
  · rw [bellowsRetired_of (yokeEnter_store ..), bellowsRetired_emitRetire]

section
variable (hc : d.Canonical)
include hc

theorem acquisitionFailed_can : (acquisitionFailed i d).Canonical := emit_can _ _ _ _ (modRing_can _ _ _ hc)

theorem ring_acquisitionFailed : (island (acquisitionFailed i d) i).ring = { (island d i).ring with failures := addFailure d.tally.now (island d i).ring.failures } := by
  unfold acquisitionFailed
  rw [island_emit, ring_modRing hc]

/-- Another failure than a permanent one: a start settles again, and any other acquisition begins again. -/
theorem ring_injectionTimeout_retries (hb : (island d i).ring.bellows = .acquiring) (hs : (island d i).ring.settleSince = none)
    (ht : (island d i).ring.acqSince + 1400 ≤ d.tally.now) (hp : permanent (addFailure d.tally.now (island d i).ring.failures) = false) {y : Ring} (hy : y = (island (injectionTimeout i d) i).ring) :
    y.failures = addFailure d.tally.now (island d i).ring.failures ∧ y.bellows = .acquiring ∧
      (if (island d i).ring.acqContext = .start then y.settleSince = some d.tally.now else y.settleSince = none ∧ y.acqSince = d.tally.now) := by
  have hcan := acquisitionFailed_can (i := i) hc
  rw [injectionTimeout_of_due hb hs ht, if_neg (by simp [hp])] at hy
  by_cases hx : (island d i).ring.acqContext = .start
  · rw [if_pos hx, ring_modRing hcan, ring_acquisitionFailed hc, acquisitionFailed_tally] at hy
    rw [if_pos hx, hy]
    exact ⟨rfl, hb, rfl⟩
  · rw [if_neg hx, ring_acquire hcan, ring_acquisitionFailed hc, acquisitionFailed_tally] at hy
    rw [if_neg hx, hy]
    exact ⟨rfl, rfl, rfl, rfl⟩

end

/-! ## Resumption and phase steps (R106, R107, R116) -/

theorem injectionResume_of_run (hb : (island d i).ring.bellows = .released) (hg : 16 ≤ (island d i).ring.goodRun) (hp : clockPresent d (islandRegion i) = true)
    (hw : inWindow (island d i).ring (island d i).ring.now (island d i).ring.count = false) : injectionResume i d =
      modRing i (fun x => { x with bellows := .injected, released := false, goodRun := 0, slot := 0, interval := x.intervalDue.getD x.interval, intervalDue := none }) d :=
  if_pos ⟨hb, hg, hp, by rw [hw]; rfl⟩

/-- The ring with its phase offset moved by one step of v. -/
def phaseMoved (v : Int) (x : Ring) : Ring := { x with phase := x.phase + v, phaseLeft := x.phaseLeft - v, stepDue := v, sinceStep := 0 }

theorem phaseStep_of_due {tFree : Nat} (hl : (island d i).ring.phaseLeft ≠ 0) (hn : (region d (islandRegion i)).fenced = false) (hg : (island d i).ring.gate = true)
    (hy : (island d i).ring.bellows ≠ .yoke) (hz : (island d i).ring.stepDue = 0) (he : 8 ≤ (island d i).ring.sinceStep)
    (hf : 0 < (island d i).ring.phaseLeft ∨ floorPeriod d i (island d i).ring.opp + Config.fineStep (island d i).ring.opp ≤ rawPeriod d i { tFree := tFree }) :
    phaseStep i tFree d = modRing i (phaseMoved (if 0 < (island d i).ring.phaseLeft then 1 else -1)) d := by
  refine if_pos ⟨hl, by rw [hn]; rfl, hg, hy, hz, he, ?_⟩
  rw [Bool.or_eq_true, decide_eq_true_eq, decide_eq_true_eq]
  exact hf.imp_left fun h => by rw [if_pos h]; decide

end

/-- Settles O9: each event by the ring that it leaves, the failed acquisition by what its failures then say. -/
theorem bellowsAcquireLoseAndResumeInjection : Obligations.BellowsAcquireLoseAndResumeInjection := by
  refine ⟨fun s i hc hi => ?_, fun s i hc hi => ?_⟩
  all_goals have named : isIsland i = true := decide_eq_true hi
  · refine ⟨fun t hs hb ht hp => gives_run rfl named (ring_settleDone hc hs hb ht hp), fun periods hb hs hp h1 h2 => ⟨fun hm => ?_, fun hm hr hw => ?_⟩,
      fun periods hb hd hp hw => ⟨fun hm => ?_, fun hm => ?_⟩, fun hb hs ht => ⟨fun hp => ?_, fun hp hr => ?_⟩⟩
    · refine gives_run rfl named ?_
      rw [injectionWindow_matches hp hb hs ⟨h1, h2⟩, if_pos (by rw [hm]; decide), ring_modRing hc, hm]
    · refine gives_run rfl named ?_
      rw [injectionWindow_matches hp hb hs ⟨h1, h2⟩, if_neg (by rw [hm]; decide), ring_injectionLock hc hr hw]
      exact ⟨rfl, rfl, rfl, rfl, rfl⟩
    · refine gives_run rfl named ?_
      rw [injectionWindow_misses hp hb hd hw, if_pos (by rw [hm]; decide), ring_modRing hc, hm]
    · refine gives_run rfl named ?_
      rw [injectionWindow_misses hp hb hd hw, if_neg (by rw [hm]; decide), ring_acquire hc]
      exact ⟨rfl, rfl, rfl, rfl⟩
    · exact gives_run rfl named (ring_injectionTimeout_retries hc hb hs ht hp rfl)
    · refine gives_run rfl named ?_
      rw [injectionTimeout_of_due hb hs ht, if_pos hp]
      exact bellowsRetire_yoke (acquisitionFailed_can hc) ((bellowsRetired_of acquisitionFailed_store i).trans hr) ..
  · refine ⟨fun hb hg hp hw => gives_run rfl named ?_, fun tFree hl hn hg hy hz he hf => gives_run rfl named ?_⟩
    · rw [injectionResume_of_run hb hg hp hw, ring_modRing hc]
    · rw [phaseStep_of_due hl hn hg hy hz he hf, ring_modRing hc]
      split
      · rfl
      · rfl

end Sys2Proof.Machine

namespace Sys2Proof.Machine
open Sys2Proof

/-! ## Tables that carry no proof of their form -/

section
variable {α : Type} [DecidableEq α] {d v : α}

/-- A value that is not the default reads back from any table. -/
theorem tget_tset_of_ne (hv : v ≠ d) (t : Tbl α) (k : Nat) : tget d (tset d t k v) k = v := by
  induction t with
  | nil => simp [tset, tget, hv]
  | cons e t ih =>
    obtain ⟨j, w⟩ := e
    unfold tset
    rw [if_neg hv, if_neg hv]
    split_ifs with hlt heq
    · simp [tget]
    · simp [tget]
    · rw [tget, if_neg (Ne.symm heq), ih]

/-- A write leaves every other key of any table. -/
theorem tget_tset_of_ne_key {k i : Nat} (hi : i ≠ k) (t : Tbl α) : tget d (tset d t k v) i = tget d t i := by
  induction t with
  | nil =>
    unfold tset
    split_ifs
    · rfl
    · exact if_neg hi.symm
  | cons e t ih =>
    obtain ⟨j, w⟩ := e
    unfold tset
    split_ifs with hlt hd heq hd
    · rfl
    · rw [tget, if_neg hi.symm]
    · rw [tget, if_neg (heq ▸ hi.symm)]
    · rw [tget, if_neg hi.symm, tget, if_neg (heq ▸ hi.symm)]
    · rw [tget, tget, ih]

end

/-! ## One turn of many -/

section
variable {β : Type} {I : Die → Prop} {get : Die → β} {f : Nat → Die → Die} {l : List Nat} {a : Nat} {d : Die}
  (hi : ∀ b e, b ∈ l → I e → I (f b e)) (ho : ∀ b e, b ∈ l → b ≠ a → I e → get (f b e) = get e)
include hi ho

theorem get_each_of_notMem (ha : a ∉ l) (hd : I d) : get (each l f d) = get d :=
  (each_inv (P := fun e => I e ∧ get e = get d) l
    (fun b e hb he => ⟨hi b e hb he.1, (ho b e hb (fun h => ha (h ▸ hb)) he.1).trans he.2⟩) ⟨hd, rfl⟩).2

/-- Where one turn alone writes what is read, that turn finds it as it was, and leaves what is read in the end. -/
theorem get_each_of_mem {Q : β → Prop} (hn : l.Nodup) (ha : a ∈ l) (hm : ∀ e, I e → get e = get d → Q (get (f a e))) (hd : I d) : Q (get (each l f d)) := by
  obtain ⟨l₁, l₂, rfl⟩ := List.append_of_mem ha
  have hsplit : each (l₁ ++ a :: l₂) f d = each l₂ f (f a (each l₁ f d)) := List.foldl_append
  have h₁ : a ∉ l₁ := fun h => (List.nodup_append.1 hn).2.2 a h a (List.mem_cons_self ..) rfl
  have h₂ : a ∉ l₂ := (List.nodup_cons.1 (List.nodup_append.1 hn).2.1).1
  have hi₁ : ∀ b e, b ∈ l₁ → I e → I (f b e) := fun b e hb => hi b e (List.mem_append_left _ hb)
  have hd₁ : I (each l₁ f d) := each_inv l₁ hi₁ hd
  have hget₁ : get (each l₁ f d) = get d := get_each_of_notMem hi₁ (fun b e hb => ho b e (List.mem_append_left _ hb)) h₁ hd
  rw [hsplit, get_each_of_notMem (fun b e hb => hi b e (List.mem_append_right _ (List.mem_cons_of_mem _ hb)))
    (fun b e hb => ho b e (List.mem_append_right _ (List.mem_cons_of_mem _ hb))) h₂ (hi a _ ha hd₁)]
  exact hm _ hd₁ hget₁

end

/-! ## What follows a change of a ceiling (R193, R194, R216, R246, R247) -/

namespace RegionHolds

section
variable {p : Region → Prop} {r k : Nat} {d : Die}

/-- An update of region k that keeps the property where k is the region itself. -/
theorem modRegion_at (h : RegionHolds p r d) {f : Region → Region} (hf : r = k → ∀ x, p x → p (f x)) : RegionHolds p r (Machine.modRegion k f d) := by
  by_cases hk : r = k
  · subst hk
    exact h.modRegion_same (hf rfl)
  · have hx : region (Machine.modRegion k f d) r = region d r := region_other h.can hk
    exact ⟨modRegion_can _ _ _ h.can, hx ▸ h.holds⟩

variable (hp : r = k → ∀ x t a s v, p x → p { x with throttle := t, actionDue := a, settleDue := s, restoreDue := v })
include hp

theorem throttleUpdate (h : RegionHolds p r d) : RegionHolds p r (throttleUpdate k d) := by
  unfold Machine.throttleUpdate
  extract_lets x t new since d1
  have h1 : RegionHolds p r d1 := h.modRegion_at fun hk x => hp hk x _ _ _ _
  clear_value new
  split
  · exact h
  · split
    · exact (h1.emit ..).of_regions (attribThrottle_regions ..) (attribThrottle_kept (canonical_closed _) _ _ _ (h1.emit ..).can)
    · exact h1.emit ..

theorem restore (h : RegionHolds p r d) : RegionHolds p r (restore k d) := by
  unfold Machine.restore
  dsimp only
  split
  · have h1 : RegionHolds p r (Machine.modRegion k (fun x => { x with restoreDue := none }) d) := h.modRegion_at fun hk x => hp hk x _ _ _ _
    exact h1.of_regions (joinRequest_regions ..) (joinRequest_can _ _ _ _ _ h1.can)
  · exact h

theorem ceilingChanged (h : RegionHolds p r d) (before : Nat) : RegionHolds p r (ceilingChanged before k d) := by
  unfold Machine.ceilingChanged
  extract_lets after d1 d2
  split
  · exact h.throttleUpdate hp
  · have h1 : RegionHolds p r d1 := h.modRegion_at fun hk x => hp hk x _ _ _ _
    have h2 : RegionHolds p r d2 := h1.throttleUpdate hp
    split
    · exact (h2.of_regions (regrant_regions ..) (regrant_can _ _ h2.can)).restore hp
    · exact h2

end

end RegionHolds

/-- The change of a ceiling of region k leaves every other region. -/
theorem region_setCeiling_other {r k : Nat} (hk : r ≠ k) {d : Die} (hc : d.Canonical) (j : Nat) (v : Option Nat) : region (setCeiling j k v d) r = region d r := by
  unfold setCeiling
  split
  · rfl
  · have h : RegionHolds (· = region d r) r (modRegion k (fun x => { x with ceilings := lset none x.ceilings j v }) d) :=
      RegionHolds.modRegion_at (p := (· = region d r)) ⟨hc, rfl⟩ fun h => absurd h hk
    exact (h.ceilingChanged (fun h => absurd h hk) _).holds

theorem getD_lset {α : Type} (d : α) (l : List α) (k : Nat) (v : α) : (lset d l k v).getD k d = v := by
  induction k generalizing l with
  | zero => cases l <;> rfl
  | succ k ih => cases l <;> simp only [lset, List.getD_cons_succ, ih]

/-- The ceiling of a reason other than TENANT_FENCE stands as it is set. -/
theorem region_setCeiling_same {p : Region → Prop} {r j : Nat} {d : Die} (h : RegionHolds p r d) (hj : j ≠ 9) (v : Option Nat)
    (hp : ∀ x c t a s w, p x → p { x with ceilings := c, throttle := t, actionDue := a, settleDue := s, restoreDue := w }) :
    (region (setCeiling j r v d) r).ceilings.getD j none = v ∧ p (region (setCeiling j r v d) r) := by
  unfold setCeiling
  split
  next he =>
    rw [ceilingAt, if_neg hj] at he
    exact ⟨he, h.holds⟩
  next =>
    have hset : RegionHolds (fun x => x.ceilings.getD j none = v ∧ p x) r (modRegion r (fun x => { x with ceilings := lset none x.ceilings j v }) d) :=
      h.modRegion_same fun x hx => ⟨getD_lset .., hp x _ _ _ _ _ hx⟩
    exact (hset.ceilingChanged (fun _ x t a s w hx => ⟨hx.1, hp x _ _ _ _ _ hx.2⟩) _).holds

end Sys2Proof.Machine

namespace Sys2Proof.Machine
open Sys2Proof

/-! ## A replica agrees again or is retired (R137 to R140) -/

/-- The other replica of the kind (Table 5.1). -/
def twinOf (j : Nat) : Nat := if j % 2 = 0 then j + 1 else j - 1

theorem twinOf_ne (j : Nat) : twinOf j ≠ j := by
  unfold twinOf
  split <;> omega

/-- The spare of replica j joins an active set: it works, and is not in the set (R138, R140). -/
def spareJoins (mask i j : Nat) (d : Die) : Bool := !bit mask (twinOf j) && !replicaRetired d i (twinOf j)

/-- An active set without replica j, with its spare where that joins. -/
def maskWithout (mask i j : Nat) (d : Die) : Nat := if spareJoins mask i j d = true then mask - 2 ^ j + 2 ^ twinOf j else mask - 2 ^ j

/-- R138: the failed replica is retired. -/
def retireReplica (i j : Nat) (d : Die) : Die :=
  emitRetire 1 j 1 (.island i) i (emit 0x0203 (.island i) (le 1 j)
    (modMargin i (fun x => { x with replicas := tmod {} x.replicas j (fun y => { y with retired := true, remeasure := none }) }) d))

/-- R138, R140: replica j leaves the active set, and its spare joins. -/
def leaveActive (mask i j : Nat) (d : Die) : Die :=
  if bit mask j = true then
    if spareJoins mask i j d = true then
      emit 0x0204 (.island i) (le 1 (twinOf j) ++ le 1 j ++ le 1 (mask - 2 ^ j + 2 ^ twinOf j)) (modMargin i (fun x => { x with active := some (mask - 2 ^ j + 2 ^ twinOf j) }) d)
    else modMargin i (fun x => { x with active := some (mask - 2 ^ j) }) d
  else d

theorem replicaFail_eq (i j : Nat) (d : Die) : replicaFail i j d = blindCheck i (replicaKind j) (leaveActive (activeMask d i) i j (retireReplica i j d)) := rfl

section
variable {i j : Nat} {d : Die}

theorem activeMask_of_active {m : Nat} (h : (island d i).margin.active = some m) : activeMask d i = m := by
  unfold activeMask
  rw [h, Option.getD_some]

theorem margin_modMargin (hc : d.Canonical) (f : Margin → Margin) : (island (modMargin i f d) i).margin = f (island d i).margin := by
  rw [island_modMargin_same hc.islands]

/-- The retirement of a Bellows leaves the Plumb of its island. -/
theorem margin_bellowsRetire (hc : d.Canonical) (cause count : Nat) : (island (bellowsRetire i cause count d) i).margin = (island d i).margin := by
  unfold bellowsRetire
  split
  · rfl
  · have hret : island (emitRetire 2 0 count (.island i) i (modRing i (fun x => { x with failures := [] }) d)) i = island (modRing i (fun x => { x with failures := [] }) d) i := by
      unfold island
      rw [emitRetire_islands]
    unfold yokeEnter
    rw [island_emit, isl_same (emitRetire_can _ _ _ _ _ _ (modRing_can _ _ _ hc)), hret, isl_same hc]

theorem margin_blindCheck (hc : d.Canonical) (k : Nat) : ∃ b, (island (blindCheck i k d) i).margin = { (island d i).margin with blind := b } := by
  unfold blindCheck
  split
  · refine ⟨true, ?_⟩
    rw [margin_bellowsRetire (emit_can _ _ _ _ (modMargin_can _ _ _ hc)), island_emit, margin_modMargin hc]
  · exact ⟨_, rfl⟩

theorem retireReplica_can (hc : d.Canonical) : (retireReplica i j d).Canonical := emitRetire_can _ _ _ _ _ _ (emit_can _ _ _ _ (modMargin_can _ _ _ hc))

theorem margin_retireReplica (hc : d.Canonical) : (island (retireReplica i j d) i).margin =
    { (island d i).margin with replicas := tmod {} (island d i).margin.replicas j (fun y => { y with retired := true, remeasure := none }) } := by
  unfold retireReplica island
  rw [emitRetire_islands, emit_islands]
  exact margin_modMargin hc _

theorem leaveActive_can {mask : Nat} (hc : d.Canonical) : (leaveActive mask i j d).Canonical := by
  unfold leaveActive
  split
  · split
    · exact emit_can _ _ _ _ (modMargin_can _ _ _ hc)
    · exact modMargin_can _ _ _ hc
  · exact hc

theorem margin_leaveActive {mask : Nat} (hc : d.Canonical) : (island (leaveActive mask i j d) i).margin =
    { (island d i).margin with active := if bit mask j = true then some (maskWithout mask i j d) else (island d i).margin.active } := by
  unfold leaveActive maskWithout
  split
  · split
    · rw [island_emit, margin_modMargin hc]
    · rw [margin_modMargin hc]
  · rfl

/-- A replica that has failed is retired, and leaves the active set. -/
theorem margin_replicaFail (hc : d.Canonical) : ∃ b, (island (replicaFail i j d) i).margin =
    { (island d i).margin with
      replicas := tmod {} (island d i).margin.replicas j (fun y => { y with retired := true, remeasure := none })
      active := if bit (activeMask d i) j = true then some (maskWithout (activeMask d i) i j (retireReplica i j d)) else (island d i).margin.active
      blind := b } := by
  have hcr : (retireReplica i j d).Canonical := retireReplica_can hc
  obtain ⟨b, hb⟩ := margin_blindCheck (leaveActive_can (mask := activeMask d i) (i := i) (j := j) hcr) (replicaKind j)
  exact ⟨b, by rw [replicaFail_eq, hb, margin_leaveActive hcr, margin_retireReplica hc]⟩

theorem replicaRetired_replicaFail (hc : d.Canonical) : replicaRetired (replicaFail i j d) i j = true := by
  obtain ⟨b, hb⟩ := margin_replicaFail (i := i) (j := j) hc
  have hne : ({ tget {} (island d i).margin.replicas j with retired := true, remeasure := none } : Replica) ≠ {} := fun h => Bool.noConfusion (congrArg Replica.retired h)
  unfold replicaRetired
  rw [hb]
  exact congrArg Replica.retired (tget_tset_of_ne hne ..)

/-- The retirement of a replica leaves its spare as it was. -/
theorem replicaRetired_retireReplica (hc : d.Canonical) : replicaRetired (retireReplica i j d) i (twinOf j) = replicaRetired d i (twinOf j) := by
  unfold replicaRetired
  rw [margin_retireReplica hc]
  exact congrArg Replica.retired (tget_tset_of_ne_key (twinOf_ne j) _)

/-- A working spare joins the active set in place of the replica that has failed. -/
theorem activeMask_replicaFail (hc : d.Canonical) (hj : bit (activeMask d i) j = true) (ht : bit (activeMask d i) (twinOf j) = false) (hr : replicaRetired d i (twinOf j) = false) :
    activeMask (replicaFail i j d) i = activeMask d i - 2 ^ j + 2 ^ twinOf j := by
  obtain ⟨b, hb⟩ := margin_replicaFail (i := i) (j := j) hc
  have hspare : spareJoins (activeMask d i) i j (retireReplica i j d) = true := by
    rw [spareJoins, replicaRetired_retireReplica hc, ht, hr]
    rfl
  refine activeMask_of_active ?_
  rw [hb]
  exact (if_pos hj).trans (congrArg some (if_pos hspare))

section
variable {n a : Nat} (hr : replicaRetired d i j = false) (hx : (tget {} (island d i).margin.replicas j).remeasure = some (n, a)) (hn : 3 ≤ n)
include hr hx hn

/-- One agreement among three re-measures: the disagreement was transient, and the replica stands as new. -/
theorem disagreementResolved_transient (hc : d.Canonical) (ha : 0 < a) (hw : tblWf {} (island d i).margin.replicas = true) :
    tget {} (island (disagreementResolved i j d) i).margin.replicas j = {} ∧ (island (disagreementResolved i j d) i).ring = (island d i).ring := by
  unfold replicaRetired at hr
  simp only [disagreementResolved, hx, hr, if_neg (Nat.not_lt.2 hn), Bool.false_eq_true, or_false, if_pos ha]
  rw [island_emit, island_modMargin_same hc.islands]
  refine ⟨?_, rfl⟩
  rw [tget_tmod_same hw, hr]

theorem disagreementResolved_failed (ha : a = 0) : disagreementResolved i j d = replicaFail i j d := by
  unfold replicaRetired at hr
  simp only [disagreementResolved, hx, hr, ha, if_neg (Nat.not_lt.2 hn), Bool.false_eq_true, or_false, if_false, Nat.lt_irrefl]

end
end

/-! ## The end of an alert interval (R142, R143) -/

/-- The margin at the end of an alert interval that counts, or does not count, towards its run. -/
def intervalEnded (b : Bool) (m : Margin) : Margin := { m with run := if b = true then min 101 (m.run + 1) else 0, intDelivered := 0, intAlerts := 0 }

theorem present_lt {d : Die} {r : Nat} (h : present d r = true) : r < 80 := by
  unfold present at h
  split at h
  · omega
  · exact of_decide_eq_true h

theorem mem_presentRegions {d : Die} {r : Nat} : r ∈ presentRegions d ↔ present d r = true := by
  simp only [presentRegions, List.mem_filter, List.mem_range, and_iff_right_iff_imp]
  exact present_lt

/-- The end of an interval in region r is the end of the interval of its islands. -/
theorem island_regionInterval {r i : Nat} {d : Die} (hc : d.Canonical) (hr : r < 80) (hi : i < 1248) : island (regionInterval r d) i =
    if islandRegion i = r then { island d i with margin := intervalEnded (runCounts d i && alerting (island d i).margin) (island d i).margin } else island d i := by
  unfold regionInterval
  extract_lets l hit d1 d2
  have hd2 : d2.islands = d1.islands := by
    unfold d2
    split <;> rfl
  have hlast : island (match hit with | some k => marginRequest r k d2 | none => d2) i = island d1 i := by
    unfold island
    rw [← hd2]
    clear_value hit d2
    split
    · rw [marginRequest_islands]
    · rfl
  have heach := (each_get (I := Die.Canonical) (get := island) (g := fun k x => { x with margin := intervalEnded (l.contains k) x.margin }) (regionIslands r) (regionIslands_nodup r)
    (fun k e _ he => modMargin_can k _ e he) (fun k e _ he => island_modMargin_same he.islands) (fun k j e _ he hj => island_modMargin_other he.islands hj) hc).2 i
  refine hlast.trans ?_
  split
  next h =>
    have hmem := (mem_regionIslands hr hi).2 h
    have hl : l.contains i = (runCounts d i && alerting (island d i).margin) := by
      rw [Bool.eq_iff_iff, List.contains_iff_mem, List.mem_filter]
      exact and_iff_right hmem
    exact (heach.1 hmem).trans (by rw [hl])
  next h => exact heach.2 fun hm => h ((mem_regionIslands hr hi).1 hm)

/-- Each present island is at the end of one interval, and one without an alerting interval has no run. -/
theorem alertIntervalEnd_margin {i : Nat} {d : Die} (hc : d.Canonical) (hi : i < 1248) (hp : present d (islandRegion i) = true) :
    (island (alertIntervalEnd d) i).margin.intDelivered = 0 ∧ (island (alertIntervalEnd d) i).margin.intAlerts = 0 ∧
      (alerting (island d i).margin = false → (island (alertIntervalEnd d) i).margin.run = 0) := by
  refine get_each_of_mem (I := Die.Canonical) (get := (island · i)) (a := islandRegion i)
    (Q := fun x => x.margin.intDelivered = 0 ∧ x.margin.intAlerts = 0 ∧ (alerting (island d i).margin = false → x.margin.run = 0))
    (fun r e _ he => regionInterval_can r e he) (fun r e hr hne he => ?_) (presentRegions_nodup d) (mem_presentRegions.2 hp) (fun e he hsame => ?_) hc
  · exact (island_regionInterval he (present_lt (mem_presentRegions.1 hr)) hi).trans (if_neg hne.symm)
  · rw [island_regionInterval he (present_lt hp) hi, if_pos rfl, hsame]
    refine ⟨rfl, rfl, fun ha => ?_⟩
    simp only [intervalEnded, ha, Bool.and_false, Bool.false_eq_true, if_false]

/-! ## The margin ceiling rises (R144) -/

/-- A ceiling that has been quiet for 1 s rises by one point, and its time begins again. -/
theorem marginRelease_rises {r c : Nat} {d : Die} (hc : d.Canonical) (hx : (region d r).ceilings.getD 7 none = some c) (hl : (region d r).latched = false)
    (ht : (region d r).quietSince + 1000000000 ≤ d.tally.now) :
    (region (marginRelease r d) r).ceilings.getD 7 none = (if 15 ≤ c then none else some (c + 1)) ∧ (region (marginRelease r d) r).quietSince = d.tally.now := by
  simp only [marginRelease, hx, hl, ht, Bool.not_false, and_self, if_true]
  have hq : RegionHolds (fun x => x.quietSince = d.tally.now) r (modRegion r (fun x => { x with quietSince := d.tally.now }) d) :=
    RegionHolds.modRegion_same (p := fun _ => True) ⟨hc, trivial⟩ fun _ _ => rfl
  exact region_setCeiling_same (hq.emit ..) (by decide) (risen (some c)) fun _ _ _ _ _ _ hx => hx

/-! ## The steps of islands of no plan (R135, R171) -/

/-- An island with its step registers cleared. -/
def stepCleared (x : Island) : Island :=
  { x with
    margin := { x.margin with stepMin := none, stepRep := 0, below := 0, firstBelow := 0, alerts := 0, spanWindows := 0 }
    holds := { x.holds with byCause := [], byEdge := [], late := 0, overflow := 0, poison := 0, highWater := 0, highEdge := 0, highLogged := false, pace := 0 } }

theorem inPlan_of {a b : Die} (h : a.regions = b.regions) (r : Nat) : inPlan a r = inPlan b r := by
  unfold inPlan region
  rw [h]

theorem island_unplannedStep {i : Nat} {d : Die} (hc : d.Canonical) (hi : i < 1248) (hp : present d (islandRegion i) = true) :
    island (unplannedStep d) i = if inPlan d (islandRegion i) = true then island d i else stepCleared (island d i) := by
  have hmem : i ∈ presentIslands d := List.mem_filter.2 ⟨List.mem_range.2 hi, hp⟩
  refine ((each_get (I := fun e => e.Canonical ∧ e.regions = d.regions) (get := island) (f := fun i e => if inPlan e (islandRegion i) = true then e else clearStep i e)
    (g := fun k x => if inPlan d (islandRegion k) = true then x else stepCleared x) (presentIslands d) (List.nodup_range.filter _)
    (fun k e _ he => ?_) (fun k e _ he => ?_) (fun k j e _ he hj => ?_) ⟨hc, rfl⟩).2 i).1 hmem
  · split
    · exact he
    · exact ⟨clearStep_can _ _ he.1, (clearStep_regions ..).trans he.2⟩
  · rw [inPlan_of he.2]
    split
    · rfl
    · exact island_modIsland_same he.1.islands
  · split
    · rfl
    · exact island_modIsland_other he.1.islands hj

/-- Settles O10: a resolved disagreement by what it leaves of the replica, the other events by the island or the region that each writes. -/
theorem plumbRetiresReplicasAndCountsAlerts : Obligations.PlumbRetiresReplicasAndCountsAlerts := by
  intro s hc
  refine ⟨fun i j n a hi hj hr hx hn => ?_, ?_, fun r c hr hx hl ht => ?_, ?_⟩
  · have named : (isIsland i && decide (j < 6)) = true := by simp [isIsland, hi, hj]
    refine ⟨fun ha hw => gives_run rfl named (disagreementResolved_transient hr hx hn hc ha hw), fun ha => gives_run rfl named ?_⟩
    rw [disagreementResolved_failed hr hx hn ha]
    exact ⟨replicaRetired_replicaFail hc, activeMask_replicaFail hc⟩
  · exact gives_run (b := true) rfl rfl fun i hi hp => alertIntervalEnd_margin hc hi hp
  · exact gives_run rfl (decide_eq_true hr) (marginRelease_rises hc hx hl ht)
  · refine gives_run (b := true) rfl rfl fun i hi hp => ?_
    rw [island_unplannedStep hc hi hp]
    split
    · rfl
    · exact ⟨rfl, rfl, rfl, rfl, rfl, rfl, rfl⟩

end Sys2Proof.Machine

namespace Sys2Proof.Machine
open Sys2Proof

/-! ## Bytes of an output -/

theorem unle_le (n v : Nat) : unle (le n v) = v % 256 ^ n := by
  induction n generalizing v with
  | zero => simp [le, unle, Nat.mod_one]
  | succ n ih =>
    rw [le, unle, ih, BitVec.toNat_ofNat]
    show v % 256 + 256 * (v / 256 % 256 ^ n) = v % 256 ^ (n + 1)
    rw [Nat.pow_succ', Nat.mod_mul]

/-- The first field of a byte string that begins with a number. -/
theorem fld_le_append (n v : Nat) (b : Bytes) : fld (le n v ++ b) 0 n = v % 256 ^ n := by
  rw [fld, List.drop_zero, List.take_left' (le_len n v), unle_le]

/-- A field past the first part of a byte string. -/
theorem fld_append_right {b : Bytes} {m : Nat} (h : b.length = m) (c : Bytes) (off n : Nat) : fld (b ++ c) (m + off) n = fld c off n := by
  rw [fld, fld, ← h, List.drop_length_add_append]

theorem flatMap_length_const {l : List Nat} {f : Nat → Bytes} {n : Nat} (h : ∀ j, (f j).length = n) : (l.flatMap f).length = l.length * n := by
  simp [List.length_flatMap, h]

theorem fit_length (n : Nat) (b : Bytes) : (fit n b).length = n := by
  simp only [fit, List.length_take, List.length_append, List.length_replicate]
  omega

/-! ## cap.set (R248, R280, R356) -/

theorem outside_pass {lo hi v : Nat} (h₁ : lo ≤ v) (h₂ : v ≤ hi) : outside lo hi v = false := by
  simp [outside, h₁, h₂]

/-- cap.set of kind k acts where the checks of the kind pass. -/
theorem capSetBody_sets {q k : Nat} {e : Exec} {p : Bytes} {d : Die} (hk : fld p 0 1 = k) (h3 : k ≤ 3) (hz : ZeroBytes p 1 8) (hz' : ZeroBytes p (capEnd k) 48) (hq : q = 0 ∨ k = 3)
    (hc : ∀ c ∈ capChecks d q k e p, c.1 = false) : capSetBody q e p d = (setCaps k e p d, .done 0 none) := by
  subst hk
  unfold capSetBody
  refine checked_pass fun c hm => ?_
  rcases List.mem_append.1 hm with h | h
  · simp only [List.mem_cons, List.not_mem_nil, or_false] at h
    rcases h with rfl | rfl | rfl | rfl
    · exact decide_eq_false (Nat.not_lt.2 h3)
    · exact zeroCheck_pass hz
    · exact zeroCheck_pass hz'
    · exact decide_eq_false (by omega)
  · exact hc c h

section
variable {p : Bytes} {d : Die} {q : Nat} {e : Exec}

theorem capChecks_package (h₁ : 100 ≤ fld p 8 2) (h₂ : fld p 8 2 ≤ fld p 10 2) (h₃ : fld p 8 2 ≤ 1150) (h₄ : fld p 10 2 ≤ 1600) : ∀ c ∈ capChecks d q 0 e p, c.1 = false := by
  simp only [capChecks, if_true, List.forall_mem_cons]
  exact ⟨outside_pass h₁ h₃, outside_pass h₂ h₄, nofun⟩

theorem capChecks_rails (h : ∀ k, k < 5 → capLeast k ≤ fld p (8 + 2 * k) 2 ∧ fld p (8 + 2 * k) 2 ≤ capTop k ∧ capLeast k ≤ fld p (18 + 2 * k) 2 ∧ fld p (18 + 2 * k) 2 ≤ limitTop k) :
    ∀ c ∈ capChecks d q 1 e p, c.1 = false := by
  intro c hc
  rcases List.mem_append.1 hc with hm | hm
  all_goals
    obtain ⟨k, hk, rfl⟩ := List.mem_map.1 hm
    obtain ⟨h₁, h₂, h₃, h₄⟩ := h k (List.mem_range.1 hk)
  · exact outside_pass h₁ h₂
  · exact outside_pass h₃ h₄

theorem capChecks_thermal (h₁ : 1120 ≤ fldI p 8 2) (h₂ : fldI p 8 2 + 80 ≤ fldI p 10 2) (h₃ : fldI p 8 2 ≤ 1520) (h₄ : fldI p 10 2 ≤ 1680) : ∀ c ∈ capChecks d q 2 e p, c.1 = false := by
  have hc : capChecks d q 2 e p = [rangeCheck (!decide (1120 ≤ fldI p 8 2 ∧ fldI p 8 2 ≤ 1520)) 8, rangeCheck (!decide (fldI p 8 2 + 80 ≤ fldI p 10 2 ∧ fldI p 10 2 ≤ 1680)) 10] := rfl
  simp only [hc, List.forall_mem_cons]
  exact ⟨by simp [rangeCheck, h₁, h₃], by simp [rangeCheck, h₂, h₄], nofun⟩

/-- The fractions of kind 3: in range, zero where no region is, 4,096 in all, and a tenant's within R280. -/
theorem capChecks_fractions (ht : q ≠ 0 → fractionBreach d q e.staged = none ∧ sumBreach d q e.staged = false)
    (hf : ∀ r, r < 80 → fld e.staged (2 * r) 2 ≤ 4096 ∧ (present d r = false → fld e.staged (2 * r) 2 = 0))
    (hs : total ((presentRegions d).map (fun r => fld e.staged (2 * r) 2)) = 4096) : ∀ c ∈ capChecks d q 3 e p, c.1 = false := by
  have hbad : badFraction d e.staged = none := by
    refine List.find?_eq_none.2 fun r hr => ?_
    obtain ⟨hle, hzero⟩ := hf r (List.mem_range.1 hr)
    rw [Bool.not_eq_true, Bool.or_eq_false_iff]
    refine ⟨decide_eq_false (Nat.not_lt.2 hle), ?_⟩
    cases hp : present d r with
    | true => rfl
    | false => exact decide_eq_false (not_not.2 (hzero hp))
  have hc : capChecks d q 3 e p = [(decide (q ≠ 0) && (fractionBreach d q e.staged).isSome, stNoPrivilege, (fractionBreach d q e.staged).getD 0xFFFF),
     (decide (q ≠ 0) && sumBreach d q e.staged, stNoPrivilege, 0xFFFF),
     ((badFraction d e.staged).isSome, stRange, 0x8000 + 2 * (badFraction d e.staged).getD 0),
     (decide (total ((presentRegions d).map (stagedFraction e.staged)) ≠ 4096), stRange, 0xFFFF)] := rfl
  simp only [hc, List.forall_mem_cons]
  exact ⟨guard_pass fun h => by rw [(ht h).1]; rfl, guard_pass fun h => (ht h).2, by rw [hbad]; rfl, decide_eq_false (not_not.2 hs), nofun⟩

/-- Kind 1 writes the cap and the limit of each rail (R356). -/
theorem setCaps_rails (hc : d.Canonical) : (setCaps 1 e p d).limits = d.limits ∧
    ∀ k, k < 5 → rail (setCaps 1 e p d) k = { rail d k with capW := some (fld p (8 + 2 * k) 2), limitA := some (fld p (18 + 2 * k) 2) } := by
  refine ⟨each_limits fun _ _ => rfl, fun k hk => ?_⟩
  exact ((each_get (I := Die.Canonical) (get := rail) (g := fun k x => { x with capW := some (fld p (8 + 2 * k) 2), limitA := some (fld p (18 + 2 * k) 2) }) (List.range 5) List.nodup_range
    (fun k e _ he => modRail_can k _ e he) (fun k e _ he => rail_modRail_same he.rails) (fun k j e _ he hj => rail_modRail_other he.rails hj) hc).2 k).1 (List.mem_range.2 hk)

theorem present_of {a b : Die} (h : a.startup = b.startup) (r : Nat) : present a r = present b r := by
  unfold present
  rw [h]

/-- Kind 3 writes the fraction and the strict flag of each region, of which a tenant's region keeps the flag (R280). -/
theorem setCaps_fractions (hc : d.Canonical) : (setCaps 3 e p d).limits = d.limits ∧ ∀ r, r < 80 → region (setCaps 3 e p d) r =
    { region d r with fraction := if present d r = true then some (fld e.staged (2 * r) 2) else none, strict := bit (fld e.staged 160 10) r || decide ((region d r).owner ≠ 0) } := by
  refine ⟨each_limits fun _ _ => rfl, fun r hr => ?_⟩
  exact ((each_get (I := fun f => f.Canonical ∧ f.startup = d.startup) (get := region)
    (f := fun r f => modRegion r (fun x => { x with fraction := if present f r = true then some (stagedFraction e.staged r) else none, strict := bit (fld e.staged 160 10) r || decide (x.owner ≠ 0) }) f)
    (g := fun r x => { x with fraction := if present d r = true then some (stagedFraction e.staged r) else none, strict := bit (fld e.staged 160 10) r || decide (x.owner ≠ 0) })
    (List.range 80) List.nodup_range (fun k f _ hf => ⟨modRegion_can k _ f hf.1, hf.2⟩) (fun k f _ hf => by rw [region_same hf.1, present_of hf.2])
    (fun k j f _ hf hj => region_other hf.1 hj) ⟨hc, rfl⟩).2 r).1 (List.mem_range.2 hr)

end

/-! ## cap.ceiling (R144, R347, R357) -/

/-- Bits 6 and 7 of a byte below 64 are zero. -/
theorem and_C0_of_lt {b : Nat} (h : b < 64) : b &&& 0xC0 = 0 := by
  revert b
  decide

theorem ownedBy_of {d : Die} {q : Nat} {m : RegionSet} (h : ∀ r ∈ setRegions m, (region d r).owner = q) : ownedBy d q m = true := by
  simpa [ownedBy] using h

section
variable {q : Nat} {p : Bytes} {d : Die} (e : Exec) (hb : fld p 10 1 < 64) (hz : ZeroBytes p 11 16) (hm : fld p 0 10 ≠ 0) (hp : ∀ r ∈ setRegions (fld p 0 10), present d r = true)
include hb hz hm hp

theorem capCeilingBody_sets (hu : bit (fld p 10 1) 5 = false) (ht : q ≠ 0 → ∀ r ∈ setRegions (fld p 0 10), (region d r).owner = q ∧ (region d r).hostHeld = false) :
    capCeilingBody q e p d = (each (setRegions (fld p 0 10)) (hostCeiling q (if bit (fld p 10 1) 4 = true then none else some (fld p 10 1 % 16))) d, .done 0 none) := by
  have hheld : q ≠ 0 → firstRegion (fld p 0 10) (fun r => (region d r).hostHeld) = none := fun h => List.find?_eq_none.2 fun r hr => by simp [(ht h r hr).2]
  simp only [capCeilingBody, hu, Bool.false_and, Bool.false_eq_true, if_false]
  refine checked_pass ?_
  simp only [List.forall_mem_cons]
  exact ⟨bitsCheck_pass (and_C0_of_lt hb), rfl, zeroCheck_pass hz, guard_pass fun h => by rw [ownedBy_of fun r hr => (ht h r hr).1]; rfl, trivial, guard_pass fun h => by rw [hheld h]; rfl,
    decide_eq_false hm, absentCheck_pass hp, nofun⟩

theorem capCeilingBody_unlatches (hu : fld p 10 1 = 32) : capCeilingBody 0 e p d = (each (setRegions (fld p 0 10)) unlatch d, .done 0 none) := by
  have h5 : bit 32 5 = true := by decide
  simp only [capCeilingBody, hu, h5, if_true]
  refine checked_pass ?_
  simp only [List.forall_mem_cons]
  exact ⟨bitsCheck_pass (and_C0_of_lt hb), rfl, zeroCheck_pass hz, rfl, rfl, rfl, decide_eq_false hm, absentCheck_pass hp, nofun⟩

end

section
variable {m : RegionSet} {r : Nat} {d : Die} (hr : r ∈ setRegions m) (hc : d.Canonical)
include hr hc

/-- The host's ceiling stands in each region of the set, held for queue 0 where one is set. -/
theorem region_each_hostCeiling (q : Nat) (v : Option Nat) : let x := region (each (setRegions m) (hostCeiling q v) d) r
    x.ceilings.getD 8 none = v ∧ (q = 0 → x.hostHeld = v.isSome) := by
  refine get_each_of_mem (I := Die.Canonical) (get := (region · r)) (Q := fun x => x.ceilings.getD 8 none = v ∧ (q = 0 → x.hostHeld = v.isSome))
    (fun k e _ he => setCeiling_can _ _ _ _ (modRegion_can _ _ _ he)) (fun k e _ hk he => ?_) (set_nodup m) hr (fun e he _ => ?_) hc
  · exact (region_setCeiling_other hk.symm (modRegion_can _ _ _ he) _ _).trans (region_other he hk.symm)
  · have hheld : RegionHolds (fun x => q = 0 → x.hostHeld = v.isSome) r (modRegion r (fun x => { x with hostHeld := if q = 0 then v.isSome else x.hostHeld }) e) :=
      RegionHolds.modRegion_same (p := fun _ => True) ⟨he, trivial⟩ fun _ _ h => if_pos h
    exact region_setCeiling_same hheld (by decide) v fun _ _ _ _ _ _ hx => hx

/-- No region of the set is latched, and one that was has no margin ceiling. -/
theorem region_each_unlatch : let x := region (each (setRegions m) unlatch d) r
    x.latched = false ∧ ((region d r).latched = true → x.ceilings.getD 7 none = none) := by
  refine get_each_of_mem (I := Die.Canonical) (get := (region · r)) (Q := fun x => x.latched = false ∧ ((region d r).latched = true → x.ceilings.getD 7 none = none))
    (fun k e _ he => ?_) (fun k e _ hk he => ?_) (set_nodup m) hr (fun e he hsame => ?_) hc
  · unfold unlatch
    split
    · exact setCeiling_can _ _ _ _ (modRegion_can _ _ _ he)
    · exact he
  · dsimp only [unlatch]
    split
    · exact (region_setCeiling_other hk.symm (modRegion_can _ _ _ he) _ _).trans (region_other he hk.symm)
    · rfl
  · dsimp only [unlatch]
    split
    next =>
      have hoff : RegionHolds (fun x => x.latched = false) r (modRegion r (fun x => { x with latched := false }) e) :=
        RegionHolds.modRegion_same (p := fun _ => True) ⟨he, trivial⟩ fun _ _ => rfl
      obtain ⟨hceil, hlatch⟩ := region_setCeiling_same (j := 7) hoff (by decide) none fun _ _ _ _ _ _ hx => hx
      exact ⟨hlatch, fun _ => hceil⟩
    next h => exact ⟨by simpa using h, fun hl => absurd (hsame ▸ hl) h⟩

end

/-! ## cap.read (R358) -/

theorem throttleBytes_length (d : Die) (r : Nat) : (throttleBytes d r).length = 112 := by
  simp only [throttleBytes, List.length_append, flatMap_length_const fun _ => le_len .., List.length_range, zeros_len]

theorem capBytes_rail (d : Die) (k r : Nat) : capBytes d 1 k r = fit 40 (rail d k).record := rfl

section
variable {q : Nat} (e : Exec) {p : Bytes} {d : Die}

/-- Kind 0 answers the throttle account of a region to its owner and to queue 0. -/
theorem capReadBody_throttle (hk : fld p 0 1 = 0) (hrail : fld p 1 1 = 0) (hr : fld p 2 2 < 80) (hp : present d (fld p 2 2) = true) (ho : q = 0 ∨ (region d (fld p 2 2)).owner = q) :
    capReadBody q e p d = (d, .done 112 (some (throttleBytes d (fld p 2 2)))) := by
  rw [← throttleBytes_length d (fld p 2 2)]
  simp only [capReadBody, hk, hrail]
  refine checked_pass ?_
  simp only [List.forall_mem_cons]
  exact ⟨rfl, rfl, rfl, decide_eq_false fun h => h.2 rfl, regionScope_pass ho, regionFound_pass hr hp, nofun⟩

/-- Kinds 1 and 2 answer queue 0 the record of a rail, and the limits of the die. -/
theorem capReadBody_die {kind : Nat} (hk : fld p 0 1 = kind) (h1 : 1 ≤ kind) (h2 : kind ≤ 2) (hrail : fld p 1 1 ≤ 4) (hrail' : kind = 2 → fld p 1 1 = 0) (hr : fld p 2 2 = 0) :
    capReadBody 0 e p d = (d, .done (capBytes d kind (fld p 1 1) 0).length (some (capBytes d kind (fld p 1 1) 0))) := by
  have h0 : kind ≠ 0 := by omega
  simp only [capReadBody, hk, hr]
  refine checked_pass ?_
  simp only [List.forall_mem_cons]
  refine ⟨decide_eq_false (Nat.not_lt.2 h2), Bool.or_eq_false_iff.2 ⟨decide_eq_false ?_, decide_eq_false (Nat.not_lt.2 hrail)⟩, decide_eq_false fun h => h.2 rfl, rfl,
    guard_pass fun h => absurd h h0, guard_pass fun h => absurd h h0, nofun⟩
  omega

end

/-! ## pool.set and pool.read (R250, R273, R359) -/

/-- The pool side of a link whose loan ends at an instant: the borrower's loan is gone, the lender's cap is to be restored (R273). -/
def loanEnded (now : Nat) (x : PoolLink) : PoolLink := { x with loan := max x.loan 0, restoreAt := if 0 < x.loan then some (now + 30000000) else x.restoreAt }

/-- The lost link ends its loan, and no other link is changed. -/
theorem link_poolLost {l k : Nat} {d : Die} (hc : d.Canonical) : link (poolLost l 0 d) k =
    if k = l then { link d l with pool := loanEnded d.tally.now (link d l).pool } else link d k := by
  have hmod : ∀ f : Link → Link, link (modLink l f d) k = if k = l then f (link d l) else link d k := fun f => tget_tset_from hc.links
  unfold poolLost loanEnded
  dsimp only
  rcases lt_trichotomy (link d l).pool.loan 0 with h | h | h
  · rw [if_pos h, if_neg (not_lt_of_gt h), max_eq_right (le_of_lt h), link_emit]
    exact hmod fun x => { x with pool := { x.pool with loan := 0 } }
  · rw [if_neg (not_lt_of_ge h.ge), if_neg (fun hl => not_lt_of_ge h.le hl.1), if_neg (not_lt_of_ge h.le), max_eq_left h.ge]
    split
    next hk => rw [hk]
    next => rfl
  · rw [if_neg (not_lt_of_gt h), if_pos ⟨h, rfl⟩, if_pos h, max_eq_left (le_of_lt h)]
    exact hmod _

/-- The end of a loan changes of the limits the burst credit alone. -/
theorem poolLost_burst (l cause : Nat) (d : Die) : (poolLost l cause d).limits.burst = d.limits.burst := by
  unfold poolLost
  dsimp only
  split
  · rw [emit_limits]
    rfl
  · split <;> rfl

theorem beginRound_limits (d : Die) : ∃ t, (beginRound d).limits = { d.limits with roundEnergy := 0, roundStart := t } := by
  unfold beginRound
  dsimp only
  generalize he : each (presentRegions d) _ d = e
  have hl : e.limits = d.limits := he ▸ each_limits fun _ _ => rfl
  exact ⟨e.tally.now, by rw [hl]⟩

theorem beginRound_links (d : Die) : (beginRound d).links = d.links := each_links fun _ _ => rfl

/-- R273: each of these links is as a lost one, and lending has to start again. -/
def loansEnded (ls : List Nat) (pool : Nat) (d : Die) : Die :=
  each ls (fun l d => modPool l (fun p => { p with want := 0, offer := 0, idle := 0, mismatches := 0, outstanding := false, member := p.member && decide (pool = d.limits.pool) })
    (poolLost l 0 d)) d

theorem loansEnded_burst (ls : List Nat) (pool : Nat) (d : Die) : (loansEnded ls pool d).limits.burst = d.limits.burst := by
  refine each_inv (P := fun e => e.limits.burst = d.limits.burst) ls (fun l e _ he => ?_) rfl
  rw [modPool_limits, poolLost_burst, he]

theorem link_loansEnded {ls : List Nat} {pool l : Nat} {d : Die} (hc : d.Canonical) (hn : ls.Nodup) (hl : l ∈ ls) : let x := (link (loansEnded ls pool d) l).pool
    x.want = 0 ∧ x.offer = 0 ∧ x.loan = max (link d l).pool.loan 0 ∧ (0 < (link d l).pool.loan → x.restoreAt = some (d.tally.now + 30000000)) := by
  refine get_each_of_mem (I := fun e => e.Canonical ∧ e.tally = d.tally) (get := (link · l))
    (Q := fun x => x.pool.want = 0 ∧ x.pool.offer = 0 ∧ x.pool.loan = max (link d l).pool.loan 0 ∧ (0 < (link d l).pool.loan → x.pool.restoreAt = some (d.tally.now + 30000000)))
    (fun k e _ he => ⟨modPool_can _ _ _ (poolLost_can _ _ _ he.1), ?_⟩) (fun k e _ hk he => ?_) hn hl (fun e he hsame => ?_) ⟨hc, rfl⟩
  · rw [modPool_tally, poolLost_tally, he.2]
  · exact (link_modLink_other (poolLost_can _ _ _ he.1).links hk.symm).trans ((link_poolLost he.1).trans (if_neg hk.symm))
  · simp only [modPool]
    rw [link_modLink_same (poolLost_can _ _ _ he.1).links, link_poolLost he.1, if_pos rfl, hsame, he.2]
    exact ⟨rfl, rfl, rfl, fun h => if_pos h⟩

section
variable {pool base : Nat} {d : Die}

/-- The die of a changed pool or base cap, before its new round. -/
theorem setPool_of_changed (h : pool ≠ d.limits.pool ∨ base ≠ d.limits.base) : setPool pool base d =
    beginRound (setPackage base (loansEnded (List.range 32) pool d).limits.burst { loansEnded (List.range 32) pool d with limits := { (loansEnded (List.range 32) pool d).limits with pool := pool } }) := by
  simp only [setPool, h, decide_true, if_true, loansEnded]

theorem setPool_of_unchanged (hp : pool = d.limits.pool) (hb : base = d.limits.base) : setPool pool base d =
    setPackage base d.limits.burst { d with limits := { d.limits with pool := pool } } := by
  simp only [setPool, hp, hb, ne_eq, not_true_eq_false, or_self, decide_false, Bool.false_eq_true, if_false]

/-- A write of the pool and the base cap clears the burst credit and flag, and leaves the burst cap (R250). -/
theorem setPool_limits : let g := (setPool pool base d).limits
    g.pool = pool ∧ g.base = base ∧ g.burst = d.limits.burst ∧ g.credit = 0 ∧ g.flag = false := by
  dsimp only
  by_cases h : pool ≠ d.limits.pool ∨ base ≠ d.limits.base
  · have hburst := loansEnded_burst (List.range 32) pool d
    rw [setPool_of_changed h]
    generalize loansEnded (List.range 32) pool d = f at *
    obtain ⟨t, ht⟩ := beginRound_limits (setPackage base f.limits.burst { f with limits := { f.limits with pool := pool } })
    rw [ht]
    exact ⟨rfl, rfl, hburst, rfl, rfl⟩
  · rw [not_or, not_not, not_not] at h
    rw [setPool_of_unchanged h.1 h.2]
    exact ⟨rfl, rfl, rfl, rfl, rfl⟩

theorem link_setPool {l : Nat} (h : pool ≠ d.limits.pool ∨ base ≠ d.limits.base) : link (setPool pool base d) l = link (loansEnded (List.range 32) pool d) l := by
  unfold link
  rw [setPool_of_changed h, beginRound_links]
  generalize loansEnded (List.range 32) pool d = f
  rfl

theorem poolSetBody_sets (e : Exec) {p : Bytes} (h₁ : 100 ≤ fld p 2 2) (h₂ : fld p 2 2 ≤ 1150) : poolSetBody 0 e p d = (setPool (fld p 0 2) (fld p 2 2) d, .done 0 none) := by
  unfold poolSetBody
  refine checked_pass ?_
  simp only [List.forall_mem_cons]
  exact ⟨rfl, outside_pass h₁ h₂, nofun⟩

end

/-- pool.read begins with the pool and the base cap. -/
theorem poolReadBytes_fields (d : Die) : fld (poolReadBytes d) 0 2 = d.limits.pool % 65536 ∧ fld (poolReadBytes d) 2 2 = d.limits.base % 65536 := by
  simp only [poolReadBytes, List.append_assoc]
  exact ⟨fld_le_append 2 _ _, (fld_append_right (le_len 2 _) _ 0 2).trans (fld_le_append 2 _ _)⟩

/-- Settles O42: each command passes its checks and completes with the effect of its body. -/
theorem capAndPoolCommandsSetLimits : Obligations.CapAndPoolCommandsSetLimits := by
  intro s q e hc
  dsimp only
  refine ⟨fun hx hz => ⟨?_, ?_, ?_, fun hk hz' ht hf hs => ?_⟩, fun hx hb hz hm hp => ⟨fun hu ht => ?_, ?_⟩, fun hx => ⟨fun hk hrail hr hp ho => ?_, ?_, ?_⟩, ?_, ?_⟩
  · rintro rfl hk hz' h₁ h₂ h₃ h₄
    exact completesOk_of_body hx rfl (capSetBody_sets hk (by decide) hz hz' (.inl rfl) (capChecks_package h₁ h₂ h₃ h₄)) rfl
  · rintro rfl hk hz' h
    exact completesOk_of_body hx rfl (capSetBody_sets hk (by decide) hz hz' (.inl rfl) (capChecks_rails h)) (setCaps_rails hc)
  · rintro rfl hk hz' h₁ h₂ h₃ h₄
    exact completesOk_of_body hx rfl (capSetBody_sets hk (by decide) hz hz' (.inl rfl) (capChecks_thermal h₁ h₂ h₃ h₄)) rfl
  · exact completesOk_of_body hx rfl (capSetBody_sets hk (by decide) hz hz' (.inr rfl) (capChecks_fractions ht hf hs)) (setCaps_fractions hc)
  · refine completesOk_of_body hx rfl (capCeilingBody_sets e hb hz hm hp hu ht) fun r hr => ?_
    obtain ⟨hceil, hheld⟩ := region_each_hostCeiling hr hc q (if bit (fld (e.desc.drop 16) 10 1) 4 = true then none else some (fld (e.desc.drop 16) 10 1 % 16))
    refine ⟨hceil, fun hq => (hheld hq).trans ?_⟩
    cases bit (fld (e.desc.drop 16) 10 1) 4 <;> rfl
  · rintro hu rfl
    exact completesOk_of_body hx rfl (capCeilingBody_unlatches e hb hz hm hp hu) fun r hr => region_each_unlatch hr hc
  · exact completesOk_of_body hx rfl (capReadBody_throttle e hk hrail hr hp ho) rfl
  · rintro hk hrail hr rfl
    have hbody := capReadBody_die (d := s.die) e hk (by decide) (by decide) hrail nofun hr
    rw [capBytes_rail, fit_length] at hbody
    exact completesOk_of_body hx rfl hbody rfl
  · rintro hk hrail hr rfl
    exact completesOk_of_body hx rfl (capReadBody_die e hk (by decide) (by decide) (by omega) (fun _ => hrail) hr) rfl
  · rintro hx rfl h₁ h₂
    obtain ⟨hpool, hbase, hburst, hcredit, hflag⟩ := setPool_limits (pool := fld (e.desc.drop 16) 0 2) (base := fld (e.desc.drop 16) 2 2) (d := s.die)
    refine completesOk_of_body hx rfl (poolSetBody_sets e h₁ h₂) ⟨hpool, hbase, hburst, hcredit, hflag, fun hp hb => ?_, fun h l hl => ?_⟩
    · rw [setPool_of_unchanged hp hb]
      rfl
    · rw [link_setPool h]
      exact link_loansEnded hc List.nodup_range (List.mem_range.2 hl)
  · rintro hx rfl
    exact ⟨completesOk_of_body hx rfl (checked_pass (by simp [rootCheck])) rfl, poolReadBytes_fields s.die⟩

end Sys2Proof.Machine

namespace Sys2Proof.Machine
open Sys2Proof

/-! ## What a context keeps through the retirement of its records (R208, R209, R223) -/

theorem context_of {a b : Die} (h : a.contexts = b.contexts) (c : Nat) : context a c = context b c := by
  unfold context
  rw [h]

/-- A context that is set reads back. -/
theorem context_setContext_some (c : Nat) (x : Context) (d : Die) : context (setContext c (some x) d) c = some x := tget_tset_of_ne (Option.some_ne_none x) ..

/-- Context c is in use, and has a property. -/
def ContextHolds (p : Context → Prop) (c : Nat) (d : Die) : Prop := ∃ x, context d c = some x ∧ p x

namespace ContextHolds

section
variable {p : Context → Prop} {c : Nat} {d : Die}

theorem of_contexts {e : Die} (h : ContextHolds p c d) (he : e.contexts = d.contexts) : ContextHolds p c e := by
  unfold ContextHolds
  rw [context_of he]
  exact h

theorem modContext (h : ContextHolds p c d) {f : Context → Context} (hf : ∀ x, p x → p (f x)) : ContextHolds p c (modContext c f d) := by
  obtain ⟨x, hx, hp⟩ := h
  refine ⟨f x, ?_, hf x hp⟩
  unfold Machine.modContext
  rw [hx]
  exact context_setContext_some ..

variable (hp : ∀ x w s g r, p x → p { x with window := w, step := s, gather := g, ready := r })
include hp

theorem passAccounts (h : ContextHolds p c d) (r : Nat) : ContextHolds p c (passAccounts c r d) := by
  unfold Machine.passAccounts
  exact modContext (h.of_contexts rfl) fun x => hp x x.window x.step _ x.ready

theorem markRetired (h : ContextHolds p c d) (w : WinRecord) (step : Nat) : ContextHolds p c (markRetired c w step d) := by
  have he : ContextHolds p c (emit 0x050C (.other c) (le 4 step ++ le 8 w.cycle) d) := h.of_contexts (emit_contexts ..)
  unfold Machine.markRetired
  dsimp only
  split
  · exact he
  · exact modContext (each_kept (fun r e h => passAccounts hp h r) he) fun x => hp x x.window _ _ _

theorem retireRecord (h : ContextHolds p c d) (w : WinRecord) : ContextHolds p c (retireRecord c w d) := by
  unfold Machine.retireRecord
  split
  · exact h
  next x hx =>
    obtain ⟨y, hy, hpy⟩ := h
    obtain rfl : y = x := Option.some.inj (hy.symm.trans hx)
    have hset : ∀ e, ContextHolds p c (setContext c (some { y with window := y.window.erase w }) e) := fun e =>
      ⟨_, context_setContext_some .., hp y _ y.step y.gather y.ready hpy⟩
    dsimp only
    split
    · exact markRetired hp (hset _) ..
    · exact hset _

/-- The retirement of records moves the window, the step and its certificate, and nothing else of the context. -/
theorem retirePass (h : ContextHolds p c d) : ContextHolds p c (retirePass c d) := by
  unfold Machine.retirePass
  split
  · split
    · exact each_kept (fun w e h => retireRecord hp h w) h
    · exact h
  · exact h

end
end ContextHolds

/-! ## Plans are released at their start Tally (R149, R349) -/

section
variable {c : Nat} {x : Context} {d : Die} (hx : context d c = some x)
include hx

/-- A plan that is not started, or whose Tally has not come, is not released. -/
theorem planRelease_waits (h : x.state = .loaded ∨ d.tally.now < x.startTally) : planRelease c d = d := by
  simp only [planRelease, hx]
  refine if_pos ?_
  rcases h with h | h
  · exact .inl (by rw [h]; decide)
  · exact .inr (.inr h)

/-- The released plan is the one that was started. -/
theorem planRelease_releases (hr : x.released = false) (hs : x.state ≠ .loaded) (ht : x.startTally ≤ d.tally.now) : ContextHolds
    (fun y => y.released = true ∧ y.startCount = x.startCount ∧ y.startTally = x.startTally ∧ y.tag = x.tag ∧ y.regions = x.regions) c (planRelease c d) := by
  simp only [planRelease, hx]
  rw [hr, if_neg (by simp [Nat.not_lt.2 ht])]
  refine ContextHolds.retirePass (fun _ _ _ _ _ h => h) (ContextHolds.of_contexts (d := setContext c (some { x with released := true }) d) ⟨_, context_setContext_some .., rfl, rfl, rfl, rfl, rfl⟩ ?_)
  rw [each_contexts reopen_contexts, each_contexts fun l => coupleLink_contexts l x.tag, each_contexts releaseEdge_contexts]

end

/-! ## Resets end after 1 µs (R431, R432, R433) -/

/-- An island leaves its reset: it joins its plan, its Bellows starts where it may run, and its edges rejoin. -/
def rejoinIsland (i : Nat) (d : Die) : Die :=
  refreshIsland i (if ringMayRun (joinPlan i d) i then startBellows i (joinPlan i d) else joinPlan i d)

theorem RegionHolds.rejoinIsland {p : Region → Prop} {r : Nat} {d : Die} (h : RegionHolds p r d) (i : Nat) : RegionHolds p r (rejoinIsland i d) := by
  have hj : RegionHolds p r (joinPlan i d) := h.of_regions (joinPlan_regions ..) (joinPlan_can _ _ h.can)
  unfold Machine.rejoinIsland
  split
  · have hb := hj.of_regions (startBellows_regions i _) (startBellows_can _ _ hj.can)
    exact hb.of_regions (refreshIsland_regions ..) (refreshIsland_can _ _ hb.can)
  · exact hj.of_regions (refreshIsland_regions ..) (refreshIsland_can _ _ hj.can)

/-- Neither the count of a plan nor the start of the Bellows puts an island into reset. -/
theorem RingHolds.rejoinIsland {v : Option Nat} {i : Nat} {d : Die} (h : RingHolds (fun x => x.resetSince = v) i d) : RingHolds (fun x => x.resetSince = v) i (rejoinIsland i d) := by
  have hj : RingHolds (fun x => x.resetSince = v) i (joinPlan i d) := by
    unfold joinPlan
    split
    · split
      · exact .ite h.modRing h
      · exact h
    · exact h
  have hb : RingHolds (fun x => x.resetSince = v) i (startBellows i (joinPlan i d)) := by
    unfold startBellows
    exact .ite hj.modRing hj.modRing
  have hi := RingHolds.ite (c := ringMayRun (joinPlan i d) i = true) hb hj
  exact hi.of_islands (refreshIsland_islands ..) (refreshIsland_can _ _ hi.can)

/-- The region is in no reset. -/
def OutOfReset (x : Region) : Prop := x.reset = none

section
variable {r : Nat} {t : RegionReset} {d : Die} (hx : (region d r).reset = some t)
include hx

theorem regionResetEnd_waits (h : d.tally.now < t.since + 1000 ∨ (t.synth = true ∧ t.relocked = false)) : regionResetEnd r d = d := by
  simp only [regionResetEnd, hx]
  exact if_pos (h.imp_right fun ⟨hs, hl⟩ => ⟨hs, .inl (by rw [hl]; rfl)⟩)

theorem regionResetEnd_ends (hc : d.Canonical) (ht : t.since + 1000 ≤ d.tally.now) (hs : t.synth = true → t.relocked = true ∧ (region d r).drover = .own) :
    RegionHolds OutOfReset r (regionResetEnd r d) := by
  have hwait : ¬(d.tally.now < t.since + 1000 ∨ (t.synth = true ∧ ((!t.relocked) = true ∨ (region d r).drover ≠ .own))) := by
    rintro (h | ⟨hy, h⟩)
    · omega
    · obtain ⟨hl, ho⟩ := hs hy
      exact h.elim (by simp [hl]) (absurd ho)
  simp only [regionResetEnd, hx]
  rw [if_neg hwait]
  have hend : RegionHolds OutOfReset r (modRegion r (fun x => { x with reset := none }) (missedEnd r d)) :=
    RegionHolds.modRegion_same (p := fun _ => True) ⟨missedEnd_can _ _ hc, trivial⟩ fun _ _ => rfl
  refine RegionHolds.restore (fun _ _ _ _ _ _ h => h) ?_
  generalize hd : ite (r < 72) _ _ = e
  have he : RegionHolds OutOfReset r e := by
    subst hd
    split
    · exact each_kept (fun i _ he => he.rejoinIsland i) hend
    · exact hend
  exact (he.emit ..).of_regions (regrant_regions ..) (regrant_can _ _ (he.emit ..).can)

end

section
variable {i t : Nat} {d : Die} (hx : (island d i).ring.resetSince = some t)
include hx

theorem islandResetEnd_waits (h : d.tally.now < t + 1000) : islandResetEnd i d = d := by
  simp only [islandResetEnd, hx]
  exact if_pos h

theorem islandResetEnd_ends (hc : d.Canonical) (ht : t + 1000 ≤ d.tally.now) : RingHolds (fun x => x.resetSince = none) i (islandResetEnd i d) := by
  simp only [islandResetEnd, hx]
  rw [if_neg (Nat.not_lt.2 ht)]
  have hend : RingHolds (fun x => x.resetSince = none) i
      (modRing i (fun x => { x with resetSince := none, bellows := if (!bellowsRetired d i) = true then .stopped else x.bellows }) (missedEnd (islandRegion i) d)) :=
    RingHolds.modRing_to (p := fun _ => True) _ ⟨missedEnd_can _ _ hc, trivial⟩ fun _ _ => rfl
  exact hend.rejoinIsland.emit ..

end

/-- Settles O37: each event by what it leaves of the region, the ring or the context, and the die unchanged before its time. -/
theorem resetsEndAndPlansAreReleased : Obligations.ResetsEndAndPlansAreReleased := by
  intro s hc
  dsimp only
  refine ⟨fun r t hr hx => ⟨fun ht hs => ?_, fun h => ?_⟩, fun i t hi hx => ⟨fun ht => ?_, fun h => ?_⟩, fun c x hcx hx hr => ⟨fun hs ht => ?_, fun h => ?_⟩⟩
  · exact gives_run rfl (decide_eq_true hr) (regionResetEnd_ends hx hc ht hs).holds
  · exact (run_named (decide_eq_true hr)).trans (by rw [regionResetEnd_waits hx h])
  · exact gives_run rfl (decide_eq_true hi) (islandResetEnd_ends hx hc ht).holds
  · exact (run_named (decide_eq_true hi)).trans (by rw [islandResetEnd_waits hx h])
  · exact gives_run rfl (decide_eq_true hcx) (planRelease_releases hx hr hs ht)
  · exact (run_named (decide_eq_true hcx)).trans (by rw [planRelease_waits hx h])

end Sys2Proof.Machine

namespace Sys2Proof.Machine
open Sys2Proof

theorem link_of {a b : Die} (h : a.links = b.links) (l : Nat) : link a l = link b l := by
  unfold link
  rw [h]

theorem edgeEnd_of {a b : Die} (h : a.ends = b.ends) (k : Nat) : edgeEnd a k = edgeEnd b k := by
  unfold edgeEnd
  rw [h]

/-! ## Ends of on-die edges activate (R154, R158) -/

theorem farEnd_ne (k : Nat) : farEnd k ≠ k := by
  unfold farEnd
  split <;> omega

/-- An end that becomes ACTIVE takes its lead from the own count and that of its neighbour, and the far end keeps its own. -/
theorem edgeEnd_edgeActivation {k : Nat} {d : Die} (hc : d.Canonical) (he : edgeExists d (k / 2) = true) (hx : (edgeEnd d k).coupled = true) (hs : (edgeEnd d k).state = .pending)
    (hn : islandExcused d (endIsland (farEnd k)) = false) :
    (edgeEnd (edgeActivation k d) k).state = .active ∧
      (edgeEnd (edgeActivation k d) k).lead = sat16 (((island d (endIsland k)).ring.own3 : Int) - (island d (endIsland (farEnd k))).ring.count) ∧
      edgeEnd (edgeActivation k d) (farEnd k) = edgeEnd d (farEnd k) := by
  simp only [edgeActivation, he, hx, hs, hn, decide_true, Bool.not_false, Bool.and_self, if_true]
  rw [edgeEnd_modEnd_same hc.ends]
  exact ⟨rfl, rfl, edgeEnd_modEnd_other hc.ends (farEnd_ne k)⟩

/-! ## Hoop frames are formed (R157, R462) -/

section
variable {l : Nat} {d : Die} (hc : d.Canonical)
include hc

/-- Where no frame waits, the one formed carries the count and flags of the island, the tag, and what was held since the last. -/
theorem link_hoopForm (hp : present d (islandRegion (1200 + l)) = true) (hw : (link d l).waitHoop = none)
    (hdue : (link d l).hoopCount / 16 ≠ (island d (1200 + l)).ring.count / 16 ∨ hoopFlagsOf d l ≠ (link d l).hoopFlags ∨ (link d l).hoopAt + 1000 ≤ d.tally.now) : ∃ v,
    link (hoopForm l d) l = { link d l with
      waitHoop := some (.hoop (hoopFlagsOf d l) (link d l).tag ((island d (1200 + l)).ring.count % 2 ^ 48) (sat 16 (link d l).heldForYou))
      hoopAt := d.tally.now, hoopCount := (island d (1200 + l)).ring.count, hoopFlags := hoopFlagsOf d l, heldForYou := 0, lead := v } := by
  unfold hoopForm
  dsimp only
  rw [if_pos ⟨hp, hdue⟩, hw, link_modLink_same hc.links]
  exact ⟨_, rfl⟩

/-! ## Hoop frames are received, or discarded (R56, R152, R157, R158, R172, R175) -/

theorem link_linkStaleEnd : link (linkStaleEnd l d) l = { link d l with stale := none } := by
  unfold linkStaleEnd
  split
  · rw [link_emit, link_modLink_same hc.links]
  next h => rw [← h]

theorem link_validFrame : link (validFrame l d) l = { link d l with discarded := 0, absent := false } := link_modLink_same hc.links

end

/-- The link with what a frame tells of its partner. -/
def frameTaken (f : Bytes) (now : Nat) (x : Link) : Link :=
  { x with remote := fld f 4 6, remoteTag := fld f 2 2, remoteCoupled := bit (fld f 1 1) 0, remoteExcused := bit (fld f 1 1) 1, remoteCause := bits (fld f 1 1) 5 3, hoopHeard := some now }

/-- The link in the state and with the lead that follow what it knows of its partner. -/
def stateTaken (x : Link) : Link :=
  let y := { x with state := linkStateAfter x }
  let z := { y with lead := if y.state = EndState.active then linkLead y else 0 }
  { z with mismatch := tagMismatch z }

section
variable {l : Nat} {f : Bytes} {d : Die}

/-- The die once the frame has acted on its link, and what it held counts towards the critical path. -/
def frameEntered (l : Nat) (f : Bytes) (d : Die) : Die :=
  { modLink l (fun x => stateTaken (frameTaken f d.tally.now x)) d with limits := { d.limits with caused := d.limits.caused + fld f 10 2 } }

theorem link_frameEntered (hc : d.Canonical) : link (frameEntered l f d) l = stateTaken (frameTaken f d.tally.now (link d l)) :=
  tget_tmod_same (f := fun x => stateTaken (frameTaken f d.tally.now x)) hc.links

/-- A valid frame acts on its link, and may be recorded as the onset of a tag mismatch. -/
theorem hoopReceived_enters (hok : hoopFrameOk f = true) : ∃ (onset : Bool) (b : Bytes),
    hoopReceived l f d = if onset then emit 0x0303 (.link l) b (frameEntered l f (linkStaleEnd l (validFrame l d))) else frameEntered l f (linkStaleEnd l (validFrame l d)) :=
  ⟨_, _, if_pos hok⟩

/-- The link that a valid frame leaves was present and not stale as it took the frame. -/
theorem link_hoopReceived (hc : d.Canonical) (hok : hoopFrameOk f = true) :
    link (hoopReceived l f d) l = stateTaken (frameTaken f d.tally.now { link d l with discarded := 0, absent := false, stale := none }) := by
  have hv : (validFrame l d).Canonical := validFrame_can _ _ hc
  have hlink : link (frameEntered l f (linkStaleEnd l (validFrame l d))) l = stateTaken (frameTaken f d.tally.now { link d l with discarded := 0, absent := false, stale := none }) := by
    rw [link_frameEntered (linkStaleEnd_can _ _ hv), linkStaleEnd_tally, validFrame_tally, link_linkStaleEnd hv, link_validFrame hc]
  obtain ⟨onset, b, he⟩ := hoopReceived_enters (l := l) (d := d) hok
  rw [he]
  split
  · rw [link_emit, hlink]
  · exact hlink

theorem hoopReceived_limits (hok : hoopFrameOk f = true) : (hoopReceived l f d).limits = { d.limits with caused := d.limits.caused + fld f 10 2 } := by
  have hlimits : (frameEntered l f (linkStaleEnd l (validFrame l d))).limits = { d.limits with caused := d.limits.caused + fld f 10 2 } := by
    unfold frameEntered
    rw [linkStaleEnd_limits, validFrame_limits]
  obtain ⟨onset, b, he⟩ := hoopReceived_enters (l := l) (d := d) hok
  rw [he]
  split
  · rw [emit_limits, hlimits]
  · exact hlimits

/-- A PENDING coupled end whose partner holds the coupling under the same tag, and is not excused, becomes ACTIVE. -/
theorem linkStateAfter_active {x : Link} (hx : x.coupled = true) (hs : x.state = .pending) (hr : x.remoteCoupled = true) (he : x.remoteExcused = false) (ht : x.tag ≠ 0) (hm : x.remoteTag = x.tag) :
    linkStateAfter x = .active := by
  simp [linkStateAfter, tagMismatch, hx, hs, hr, he, ht, hm]

theorem stateTaken_active (now : Nat) {x : Link} (hx : x.coupled = true) (hs : x.state = .pending) (hr : bit (fld f 1 1) 0 = true) (he : bit (fld f 1 1) 1 = false) (ht : x.tag ≠ 0)
    (hm : fld f 2 2 = x.tag) : (stateTaken (frameTaken f now x)).state = .active ∧ (stateTaken (frameTaken f now x)).lead = sat16 (countDiff x.hoopCount (fld f 4 6)) := by
  have h : linkStateAfter (frameTaken f now x) = .active := linkStateAfter_active (x := frameTaken f now x) hx hs hr he ht hm
  exact ⟨h, if_pos h⟩

/-- A discarded frame is counted, and tells nothing of the partner. -/
theorem link_discardFrame (hc : d.Canonical) : ∃ a, link (discardFrame l d) l = { link d l with discarded := min 65535 ((link d l).discarded + 1), absent := a } := by
  unfold discardFrame
  extract_lets n d1
  have hd1 : link d1 l = { link d l with discarded := min 65535 n } := link_modLink_same hc.links
  have hc1 : d1.Canonical := modLink_can _ _ _ hc
  split
  · exact ⟨true, by rw [link_of (chooseParent_links ..), link_emit, link_modLink_same hc1.links, hd1]⟩
  · exact ⟨_, hd1⟩

end

/-! ## Edges without frames or samples are stale, and are released (R175) -/

section
variable {l t : Nat} {d : Die} (hc : d.Canonical)
include hc

theorem link_hoopTimeout (hu : (link d l).up = true) (ha : (link d l).state = .active) (hs : (link d l).stale = none) (hh : (link d l).hoopHeard = some t) (ht : t + 2000 ≤ d.tally.now) :
    link (hoopTimeout l d) l = { link d l with stale := some d.tally.now } := by
  have hquiet : hoopTimeout l d = emit 0x0306 (.island (1200 + l)) (le 2 l ++ le 6 (link d l).remote) (modLink l (fun x => { x with stale := some d.tally.now }) d) := by
    simp only [hoopTimeout, hu, ha, hs, hh, ht, decide_true, Option.isNone_none, Bool.and_self, if_true]
  rw [hquiet, link_emit, link_modLink_same hc.links]

theorem link_staleRelease (hs : (link d l).stale = some t) (ht : t + 100000 ≤ d.tally.now) :
    link (staleRelease (.link l) d) l = { link d l with state := .released, lead := 0, stale := none } := by
  simp only [staleRelease, hs, ht, if_true]
  rw [link_of (staleRecord_links ..), link_modLink_same hc.links]

theorem edgeEnd_staleRelease {e side : Nat} (hs : (edgeEnd d (2 * e + side)).stale = some t) (ht : t + 100000 ≤ d.tally.now) :
    edgeEnd (staleRelease (.die e side) d) (2 * e + side) = { edgeEnd d (2 * e + side) with state := .released, lead := 0, stale := none } := by
  simp only [staleRelease, hs, ht, if_true]
  rw [edgeEnd_of (staleRecord_ends ..), edgeEnd_modEnd_same hc.ends]

end

/-- Settles O11: each event by the end or the link that it leaves. -/
theorem hoopEdgesActivateAndGoStale : Obligations.HoopEdgesActivateAndGoStale := by
  intro s hc
  refine ⟨fun e side he hside hex hx hst hn => ?_, fun l hl => ?_, fun e side t he hside hs ht => ?_⟩
  · have hhalf : (2 * e + side) / 2 = e := by omega
    exact gives_run rfl (decide_eq_true ⟨he, hside⟩) (edgeEnd_edgeActivation hc (hhalf.symm ▸ hex) hx hst hn)
  · have named : isLink l = true := decide_eq_true hl
    refine ⟨fun hp hw hdue => ?_, fun f hf hok => ?_, fun f hf hbad => ?_, fun t hu ha hs hh ht => ?_, fun t hs ht => ?_⟩
    · refine gives_run rfl named ?_
      obtain ⟨v, hv⟩ := link_hoopForm hc hp hw hdue
      rw [hv]
      exact ⟨rfl, rfl, rfl, rfl, rfl⟩
    · refine gives_run rfl (by rw [named]; exact decide_eq_true hf) ?_
      rw [link_hoopReceived hc hok, hoopReceived_limits hok]
      exact ⟨rfl, rfl, rfl, rfl, rfl, rfl, stateTaken_active s.die.tally.now (x := { link s.die l with discarded := 0, absent := false, stale := none })⟩
    · refine gives_run rfl (by rw [named]; exact decide_eq_true hf) ?_
      obtain ⟨a, ha⟩ := link_discardFrame (l := l) hc
      rw [hoopReceived, if_neg (by simp [hbad]), ha]
      exact ⟨rfl, rfl⟩
    · exact gives_run rfl named (link_hoopTimeout hc hu ha hs hh ht)
    · exact gives_run rfl named (link_staleRelease hc hs ht)
  · exact gives_run rfl (decide_eq_true ⟨he, hside⟩) (edgeEnd_staleRelease hc hs ht)

end Sys2Proof.Machine

namespace Sys2Proof.Machine
open Sys2Proof

/-! ## A command that names a context (R341, R342) -/

section
variable {d : Die} {q b c : Nat} {x : Context} (h : NamesContext d q b c x)
include h

theorem ctxOf_named : ctxOf d q b = (c, x) := by
  obtain ⟨-, hx, -, hn⟩ := h
  simp only [ctxOf, hn, hx, Option.getD_some]

theorem ctxScope_pass : (ctxScope d q b).1 = false := by
  obtain ⟨-, hx, ho, hn⟩ := h
  simp only [ctxScope, hn, hx]
  exact guard_pass fun hq => decide_eq_false (not_not.2 (ho.resolve_left hq))

theorem ctxChecks_pass (off : Nat) : ∀ k ∈ ctxChecks d q b off, k.1 = false := by
  obtain ⟨-, -, -, hn⟩ := h
  have hb : ¬(16 ≤ b ∧ b ≠ 0xFF) := by
    rintro ⟨hb, hf⟩
    rw [namedCtx, if_neg hf, if_neg (by omega)] at hn
    cases hn
  simp only [ctxChecks, List.forall_mem_cons]
  exact ⟨decide_eq_false hb, by rw [hn]; rfl, nofun⟩

end

/-! ## The ends of an edge are coupled and uncoupled (R151, R154) -/

/-- The end is coupled, or is not. -/
def Coupled (b : Bool) (x : EdgeEnd) : Prop := x.coupled = b

namespace EndHolds

section
variable {k : Nat} {d : Die}

theorem noteHost {p : EdgeEnd → Prop} (h : EndHolds p k d) (j : Nat) (hp : ∀ x n, p x → p { x with hostAt := n }) : EndHolds p k (noteHost j d) := h.modEnd j fun x => hp x _

/-- A couple at any end leaves a coupled end coupled. -/
theorem coupleEnd (h : EndHolds (Coupled true) k d) (src j : Nat) : EndHolds (Coupled true) k (coupleEnd src j d) := by
  unfold Machine.coupleEnd
  dsimp only
  split
  · exact h
  · refine (h.modEnd j ?_).emit ..
    exact fun _ _ => rfl

theorem uncoupleEnd (h : EndHolds (Coupled false) k d) (src j : Nat) : EndHolds (Coupled false) k (uncoupleEnd src j d) := by
  unfold Machine.uncoupleEnd
  split
  · refine (h.modEnd j ?_).emit ..
    exact fun _ _ => rfl
  · exact h

/-- An update of the end itself. -/
theorem modEnd_same {p : EdgeEnd → Prop} (hc : d.Canonical) {f : EdgeEnd → EdgeEnd} (hf : p (f (edgeEnd d k))) : EndHolds p k (Machine.modEnd k f d) :=
  ⟨modEnd_can _ _ _ hc, by rwa [edgeEnd_modEnd_same hc.ends]⟩

end
end EndHolds

section
variable {d : Die} (hc : d.Canonical)
include hc

theorem coupleEnd_couples (src k : Nat) : EndHolds (Coupled true) k (coupleEnd src k d) := by
  unfold coupleEnd
  dsimp only
  split
  next h => exact ⟨hc, h.1⟩
  next =>
    refine (EndHolds.modEnd_same hc ?_).emit ..
    exact rfl

theorem uncoupleEnd_uncouples (src k : Nat) : EndHolds (Coupled false) k (uncoupleEnd src k d) := by
  unfold uncoupleEnd
  split
  next =>
    refine (EndHolds.modEnd_same hc ?_).emit ..
    exact rfl
  next h => exact ⟨hc, by simpa [Coupled] using h⟩

/-! ## A link edge is coupled and uncoupled (R151, R168, R177) -/

theorem link_coupleLink (l tag : Nat) : (link (coupleLink l tag d) l).coupled = true := by
  unfold coupleLink
  dsimp only
  split
  next h => exact h.1
  next =>
    split
    · rw [link_modLink_same (clearLinkLanes_can _ _ hc).links]
    · rw [link_modLink_same hc.links]

theorem link_uncoupleLink (l : Nat) : (link (uncoupleLink l d) l).coupled = false := by
  unfold uncoupleLink
  split
  next => rw [link_of (clearLinkLanes_links ..), link_modLink_same hc.links]
  next h => simpa using h

theorem link_uncoupleLink_other {l k : Nat} (hk : k ≠ l) : link (uncoupleLink l d) k = link d k := by
  unfold uncoupleLink
  split
  · rw [link_of (clearLinkLanes_links ..), link_modLink_other hc.links hk]
  · rfl

end

/-! ## plan.unload (R281, R351) -/

/-- PLAN_UNLOAD is written, and the Pattern's requests are withdrawn. -/
def unloadRecorded (c : Nat) (x : Context) (d : Die) : Die :=
  let e := emit 0x0502 (.other c) (le 2 x.tag ++ zeros 2 ++ le 4 (match x.step with | some s => s.1 | none => 0)) d
  { e with commitReqs := e.commitReqs.filter (fun r => !(decide (r.source = .pattern) && decide (r.context = c) && decide ((r.members ||| r.deferred) &&& x.regions ≠ 0))) }

/-- The edges between the regions of an unloaded plan, and their link edges, are uncoupled. -/
def edgesUnloaded (m : RegionSet) (d : Die) : Die :=
  each ((List.range 32).filter (fun l => bit m (linkRegion l))) uncoupleLink (each (innerEnds m) (uncoupleEnd 1) d)

/-- A region without a plan: the fence of owner 0 over it ends (R281). -/
def planless (y : Region) : Region := { y with plan := none, fenceDue := if y.owner = 0 ∧ y.fenced then some (false, 1) else y.fenceDue }

/-- The regions of an unloaded plan are free, and their islands run where they may. -/
def regionsFreed (m : RegionSet) (d : Die) : Die :=
  each ((setRegions m).flatMap regionIslands) (fun i d => reopen i (modRing i (fun y => { y with startDue := false }) d)) (each (setRegions m) (fun r d => modRegion r planless d) d)

theorem unloadPlan_of_context {c : Nat} {x : Context} {d : Die} (hx : context d c = some x) :
    unloadPlan c d = setContext c none (regionsFreed x.regions (edgesUnloaded x.regions (each (setRegions x.regions) clearTarget (unloadRecorded c x d)))) := by
  simp only [unloadPlan, hx]
  rfl

section
variable (c : Nat) (x : Context) (m : RegionSet) (d : Die)

theorem unloadRecorded_contexts : (unloadRecorded c x d).contexts = d.contexts := emit_contexts ..

theorem edgesUnloaded_contexts : (edgesUnloaded m d).contexts = d.contexts :=
  (each_contexts uncoupleLink_contexts).trans (each_contexts (uncoupleEnd_contexts 1))

theorem edgesUnloaded_regions : (edgesUnloaded m d).regions = d.regions :=
  (each_regions uncoupleLink_regions).trans (each_regions (uncoupleEnd_regions 1))

theorem regionsFreed_contexts : (regionsFreed m d).contexts = d.contexts :=
  (each_contexts fun i e => reopen_contexts i (modRing i _ e)).trans (each_contexts fun _ _ => rfl)

theorem regionsFreed_ends : (regionsFreed m d).ends = d.ends :=
  (each_ends fun i e => reopen_ends i (modRing i _ e)).trans (each_ends fun _ _ => rfl)

theorem regionsFreed_links : (regionsFreed m d).links = d.links :=
  (each_links fun i e => reopen_links i (modRing i _ e)).trans (each_links fun _ _ => rfl)

theorem unloaded_contexts : (regionsFreed x.regions (edgesUnloaded x.regions (each (setRegions x.regions) clearTarget (unloadRecorded c x d)))).contexts = d.contexts := by
  rw [regionsFreed_contexts, edgesUnloaded_contexts, each_contexts clearTarget_contexts, unloadRecorded_contexts]

end

/-- The region has no Pattern target. -/
def Untargeted (x : Region) : Prop := x.patternTarget = none

/-- The region is of no plan, and has no Pattern target. -/
def Freed (x : Region) : Prop := x.plan = none ∧ x.patternTarget = none

section
variable {m : RegionSet} {d : Die} (hc : d.Canonical)
include hc

theorem unloadRecorded_can (c : Nat) (x : Context) : (unloadRecorded c x d).Canonical := { emit_can _ _ _ _ hc with }

theorem edgesUnloaded_can : (edgesUnloaded m d).Canonical := each_can (each_can hc (uncoupleEnd_can 1)) uncoupleLink_can

/-- No region of the set has a Pattern target once they are cleared. -/
theorem region_each_clearTarget {r : Nat} (hr : r ∈ setRegions m) : RegionHolds Untargeted r (each (setRegions m) clearTarget d) := by
  have hthrottle : ∀ k e, RegionHolds Untargeted r (modRegion k (fun x => { x with patternTarget := none }) e) → RegionHolds Untargeted r (clearTarget k e) :=
    fun k e h => h.throttleUpdate fun _ _ _ _ _ _ h => h
  exact (each_make (I := Die.Canonical) (P := RegionHolds Untargeted r) (setRegions m) r hr (fun k e _ he => clearTarget_can k e he)
    (fun e he => hthrottle r e (RegionHolds.modRegion_same (p := fun _ => True) ⟨he, trivial⟩ fun _ _ => rfl))
    (fun k e _ _ h => hthrottle k e (h.modRegion k fun _ _ => rfl)) hc).2

/-- The ends between the regions of the set are uncoupled. -/
theorem edgeEnd_edgesUnloaded {k : Nat} (hk : k ∈ innerEnds m) : (edgeEnd (edgesUnloaded m d) k).coupled = false := by
  have hends : EndHolds (Coupled false) k (each (innerEnds m) (uncoupleEnd 1) d) :=
    (each_make (I := Die.Canonical) (P := EndHolds (Coupled false) k) (innerEnds m) k hk (fun j e _ he => uncoupleEnd_can 1 j e he) (fun e he => uncoupleEnd_uncouples he 1 k)
      (fun j e _ _ h => h.uncoupleEnd 1 j) hc).2
  rw [edgesUnloaded, edgeEnd_of (each_ends uncoupleLink_ends)]
  exact hends.holds

/-- The link edges of the regions of the set are uncoupled. -/
theorem link_edgesUnloaded {l : Nat} (hl : l < 32) (hb : bit m (linkRegion l) = true) : (link (edgesUnloaded m d) l).coupled = false :=
  get_each_of_mem (I := Die.Canonical) (get := (link · l)) (Q := fun x => x.coupled = false) (fun j e _ he => uncoupleLink_can j e he) (fun _ _ _ hj he => link_uncoupleLink_other he hj.symm)
    (List.nodup_range.filter _) (List.mem_filter.2 ⟨List.mem_range.2 hl, hb⟩) (fun _ he _ => link_uncoupleLink he l) (each_can hc (uncoupleEnd_can 1))

end

/-- The regions of the set are of no plan, and without a target where they had none. -/
theorem region_regionsFreed {m : RegionSet} {r : Nat} {d : Die} (hr : r ∈ setRegions m) (h : RegionHolds Untargeted r d) : Freed (region (regionsFreed m d) r) := by
  have hfree : RegionHolds Freed r (each (setRegions m) (fun k e => modRegion k planless e) d) :=
    (each_make (I := RegionHolds Untargeted r) (P := RegionHolds Freed r) (setRegions m) r hr (fun k e _ he => he.modRegion k (f := planless) fun _ hx => hx)
      (fun e he => he.modRegion_same (f := planless) fun _ hx => ⟨rfl, hx⟩) (fun k e _ _ he => he.modRegion k (f := planless) fun _ hx => ⟨rfl, hx.2⟩) h).2
  refine (hfree.of_regions ?_ ?_).holds
  · exact each_regions fun i e => reopen_regions i (modRing i _ e)
  · exact each_can hfree.can fun i e he => reopen_can i _ (modRing_can i _ e he)

/-- The context is free, and its regions and the edges between them with it. -/
structure Unloaded (c : Nat) (x : Context) (d f : Die) : Prop where
  free : context f c = none
  others : ∀ k, k ≠ c → context f k = context d k
  regions : ∀ r ∈ setRegions x.regions, Freed (region f r)
  ends : ∀ k ∈ innerEnds x.regions, (edgeEnd f k).coupled = false
  links : ∀ l, l < 32 → bit x.regions (linkRegion l) = true → (link f l).coupled = false

theorem unloadPlan_unloads {c : Nat} {x : Context} {d : Die} (hc : d.Canonical) (hx : context d c = some x) : Unloaded c x d (unloadPlan c d) := by
  have hrec : (unloadRecorded c x d).Canonical := unloadRecorded_can hc c x
  have hclear : (each (setRegions x.regions) clearTarget (unloadRecorded c x d)).Canonical := each_can hrec clearTarget_can
  rw [unloadPlan_of_context hx]
  constructor
  · refine tget_tset_same ?_
    rw [unloaded_contexts]
    exact hc.contexts
  · intro k hk
    exact (tget_tset_of_ne_key hk _).trans (context_of (unloaded_contexts c x d) k)
  · intro r hr
    exact region_regionsFreed hr ((region_each_clearTarget hrec hr).of_regions (edgesUnloaded_regions ..) (edgesUnloaded_can hclear))
  · intro k hk
    rw [edgeEnd_setContext, edgeEnd_of (regionsFreed_ends ..)]
    exact edgeEnd_edgesUnloaded hclear hk
  · intro l hl hb
    rw [link_setContext, link_of (regionsFreed_links ..)]
    exact link_edgesUnloaded hclear hl hb

theorem planUnloadBody_unloads {d : Die} {q c : Nat} {x : Context} (e : Exec) {p : Bytes} (hn : NamesContext d q (fld p 0 1) c x) (hz : ZeroBytes p 1 4) :
    planUnloadBody q e p d = (unloadPlan c d, .done 0 none) := by
  unfold planUnloadBody
  refine (checked_pass ?_).trans (by rw [ctxOf_named hn])
  simp only [List.forall_mem_append, List.forall_mem_cons]
  exact ⟨⟨zeroCheck_pass hz, ctxScope_pass hn, nofun⟩, ctxChecks_pass hn 0⟩

/-! ## plan.couple (R151, R153, R177, R352) -/

section
variable {d : Die} {q c : Nat} {x : Context} (e : Exec) {p : Bytes}

/-- plan.couple of edges that exist inside the plan changes them in order. -/
theorem planCoupleBody_couples (hn : NamesContext d q (fld p 0 1) c x) (hz : ZeroBytes p 2 4) (ho : fld p 1 1 ≤ 1) (hr : d.startup.ready = 1) (hl : coupleEdges p ≠ [])
    (hv : ∀ v ∈ coupleEdges p, edgeField v.1 = true ∧ edgeInside x v.1 = true ∧ (v.1 < 2332 → edgeExists d v.1 = true)) :
    planCoupleBody q e p d = ((hostEdges (decide (fld p 1 1 = 1)) x.tag ((coupleEdges p).map (·.1)) d).1,
      .done (hostEdges (decide (fld p 1 1 = 1)) x.tag ((coupleEdges p).map (·.1)) d).2 none) := by
  have hfield : (coupleEdges p).any (fun v => !edgeField v.1) = false := by simpa using fun a b h => (hv (a, b) h).1
  have hinside : (coupleEdges p).find? (fun v => !edgeInside x v.1) = none := List.find?_eq_none.2 fun v h => by simp [(hv v h).2.1]
  have hexists : (coupleEdges p).find? (fun v => decide (v.1 < 2332) && !edgeExists d v.1) = none :=
    List.find?_eq_none.2 fun v h => by rw [guard_pass fun hlt => by rw [(hv v h).2.2 hlt]; rfl]; decide
  simp only [planCoupleBody, ctxOf_named hn, hinside, hexists]
  refine checked_pass ?_
  simp only [List.forall_mem_append, List.forall_mem_cons]
  exact ⟨⟨⟨decide_eq_false (Nat.not_lt.2 ho), zeroCheck_pass hz, hfield, List.isEmpty_eq_false_iff.2 hl, ctxScope_pass hn, readyCheck_pass hr, nofun⟩, ctxChecks_pass hn 0⟩, rfl, rfl, nofun⟩

end

section
variable {d : Die} {g : Nat} (tag : Nat) (hg : g < 2332)
include hg

theorem hostEdge_refuses (h : refusal d (fun _ => true) g ≠ none) : (hostEdge true tag g d).1.ends = d.ends := by
  obtain ⟨reason, hr⟩ := Option.ne_none_iff_exists'.1 h
  simp only [hostEdge, hg, hr, if_true]
  exact emit_ends ..

variable (hc : d.Canonical)
include hc

/-- A legal edge is coupled at both ends. -/
theorem hostEdge_couples (h : refusal d (fun _ => true) g = none) (k : Nat) (hk : k = 2 * g ∨ k = 2 * g + 1) : EndHolds (Coupled true) k (hostEdge true tag g d).1 := by
  simp only [hostEdge, hg, h, if_true]
  have hboth : EndHolds (Coupled true) k (coupleEnd 1 (2 * g + 1) (coupleEnd 1 (2 * g) d)) := by
    rcases hk with rfl | rfl
    · exact (coupleEnd_couples hc 1 _).coupleEnd 1 _
    · exact coupleEnd_couples (coupleEnd_can _ _ _ hc) 1 _
  exact (hboth.noteHost _ fun _ _ h => h).noteHost _ fun _ _ h => h

/-- An edge is uncoupled at both ends. -/
theorem hostEdge_uncouples (k : Nat) (hk : k = 2 * g ∨ k = 2 * g + 1) : EndHolds (Coupled false) k (hostEdge false tag g d).1 := by
  simp only [hostEdge, hg, if_true, Bool.false_eq_true, if_false]
  have hboth : EndHolds (Coupled false) k (uncoupleEnd 1 (2 * g + 1) (uncoupleEnd 1 (2 * g) d)) := by
    rcases hk with rfl | rfl
    · exact (uncoupleEnd_uncouples hc 1 _).uncoupleEnd 1 _
    · exact uncoupleEnd_uncouples (uncoupleEnd_can _ _ _ hc) 1 _
  exact (hboth.noteHost _ fun _ _ h => h).noteHost _ fun _ _ h => h

end

theorem link_hostEdge {d : Die} (hc : d.Canonical) {g : Nat} (hg : 0x8000 ≤ g) (on : Bool) (tag : Nat) : (link (hostEdge on tag g d).1 (g - 0x8000)).coupled = on := by
  have hn : ¬g < 2332 := by omega
  cases on with
  | true =>
    simp only [hostEdge, hn, if_false, if_true]
    exact link_coupleLink hc _ tag
  | false =>
    simp only [hostEdge, hn, if_false, Bool.false_eq_true]
    exact link_uncoupleLink hc _

/-- Settles O40: plan.unload by the phases of its effect, plan.couple by the change of each edge. -/
theorem plansAreUnloadedAndCoupled : Obligations.PlansAreUnloadedAndCoupled := by
  intro s q e c x hc
  dsimp only
  intro hn
  obtain ⟨-, hx, -, -⟩ := id hn
  refine ⟨fun hexec hz => ?_, fun hexec hz ho hr hl hv => ?_⟩
  · obtain ⟨hfree, hothers, hregions, hends, hlinks⟩ := unloadPlan_unloads hc hx
    exact completesOk_of_body hexec rfl (planUnloadBody_unloads e hn hz) ⟨hfree, hothers, hregions, hends, hlinks⟩
  · refine completesOk_of_body hexec rfl (planCoupleBody_couples e hn hz ho hr hl hv) ⟨rfl, fun g hone hg => ?_, fun g hone hg => ?_⟩
    · rw [hone]
      refine ⟨fun hon hok => ?_, fun hon hno => ?_, fun hoff => ?_⟩
      · rw [hon]
        exact ⟨(hostEdge_couples x.tag hg hc hok _ (.inl rfl)).holds, (hostEdge_couples x.tag hg hc hok _ (.inr rfl)).holds⟩
      · rw [hon]
        exact hostEdge_refuses x.tag hg hno
      · rw [hoff]
        exact ⟨(hostEdge_uncouples x.tag hg hc _ (.inl rfl)).holds, (hostEdge_uncouples x.tag hg hc _ (.inr rfl)).holds⟩
    · rw [hone]
      exact link_hostEdge hc hg _ _

end Sys2Proof.Machine

namespace Sys2Proof.Machine
open Sys2Proof

/-! ## What the abort of a commit leaves (R189, R194, R216, R217) -/

namespace Stands

section
variable {r o l : Nat} {sel : Option Nat} {d : Die}

theorem regrant (h : Stands r o l sel d) (k : Nat) : Stands r o l sel (regrant k d) := h.of_regions (regrant_regions ..) (regrant_can _ _ h.can)

theorem clearTarget (h : Stands r o l sel d) (k : Nat) : Stands r o l sel (clearTarget k d) :=
  RegionHolds.throttleUpdate (fun _ _ _ _ _ _ hx => hx) (h.modRegion k)

theorem patternDropped (h : Stands r o l sel d) (k reason : Nat) : Stands r o l sel (patternDropped k reason d) := by
  unfold Machine.patternDropped
  split
  · exact RegionHolds.emit (h.clearTarget k) ..
  · exact h

theorem each_regrant (h : Stands r o l sel d) (ks : List Nat) : Stands r o l sel (each ks Machine.regrant d) := each_kept (fun k _ he => Stands.regrant he k) h

theorem patternAborted (h : Stands r o l sel d) (c : Commit) (reason rgn : Nat) : Stands r o l sel (patternAborted c reason rgn d) := by
  unfold Machine.patternAborted
  split
  · exact h.each_regrant _
  · split
    · exact h.each_regrant _
    · split
      · exact each_kept (fun k _ he => Stands.clearTarget he k) h
      · split
        · exact h.of_regions rfl { h.can with }
        · exact (h.patternDropped ..).each_regrant _

theorem afterAbort (h : Stands r o l sel d) (c : Commit) (reason rgn : Nat) : Stands r o l sel (afterAbort c reason rgn d) := by
  unfold Machine.afterAbort
  split
  · exact h.patternAborted ..
  · exact each_kept (fun k _ he => Stands.regrant (RegionHolds.modRegion he k) k) h
  · exact each_kept (fun k _ he => Stands.regrant (RegionHolds.modRegion he k) k) h
  · exact h.each_regrant _

/-- The abort of a commit moves no region. -/
theorem abortCommit (h : Stands r o l sel d) (id reason rgn fault : Nat) : Stands r o l sel (abortCommit id reason rgn fault d) := by
  unfold Machine.abortCommit
  split
  · exact h
  · split
    · exact h
    · refine Stands.afterAbort (RegionHolds.emit ?_ ..) ..
      refine each_kept (fun k _ he => RegionHolds.of_regions he (writeSynth_regions ..) (writeSynth_can _ _ _ _ _ _ he.can)) ?_
      refine each_kept (fun k _ he => RegionHolds.of_regions he (retuneStandby_regions ..) (retuneStandby_can _ _ he.can)) ?_
      exact (h.modCommit ..).commits _

end

end Stands

theorem commitOf_id {d : Die} {id : Nat} {c : Commit} (h : commitOf d id = some c) : c.id = id := by
  have hfound := List.find?_some (p := fun x : Commit => decide (x.id = id) && !x.done) h
  simp only [Bool.and_eq_true, decide_eq_true_eq] at hfound
  exact hfound.1

/-- An undecided commit that is aborted has ended; its rails, and the points at which regions stand, are as before. -/
theorem abortCommit_spec {d : Die} (hc : d.Canonical) {id : Nat} {c : Commit} (h : commitOf d id = some c) (hn : c.decided = false) (reason rgn fault : Nat) :
    let f := abortCommit id reason rgn fault d
    commitOf f id = none ∧ f.rails = d.rails ∧ ∀ r, (region f r).opp = (region d r).opp ∧ (region f r).select = (region d r).select := by
  refine ⟨commitOf_abortCommit h hn .., abortCommit_rails .., fun r => ?_⟩
  obtain ⟨-, hopp, -, hsel⟩ := (stands_of_canonical hc r).abortCommit id reason rgn fault
  exact ⟨hopp, hsel⟩

/-! ## The acceptance of a commit (R181, R184) -/

/-- The entries written along a list of keys. -/
theorem tget_foldl_tset {α : Type} [DecidableEq α] {d : α} (g : Nat → α) {k : Nat} (l : List Nat) {t : Tbl α} (ht : tblWf d t = true) :
    tget d (l.foldl (fun t r => tset d t r (g r)) t) k = if k ∈ l then g k else tget d t k := by
  induction l generalizing t with
  | nil => rfl
  | cons a l ih =>
    rw [List.foldl_cons, ih (tset_wf ht), tget_tset_from ht]
    by_cases hk : k = a
    · simp [hk]
    · simp [hk]

/-- The commit as it is formed at acceptance, before the retunes of its members. -/
def formedCommit (src : CommitSource) (target : Nat) (members : RegionSet) (count ctx aborts : Nat) (key : Option (Nat × Nat)) (d : Die) : Commit :=
  { id := d.nextCommit, source := src, target := target, members := members, grants := (setRegions members).foldl (fun t r => tset 0 t r (grantOf d r target)) [],
    count := count, acceptedAt := d.tally.now, key := key, context := ctx, aborts := aborts }

/-- The commit x stands as c was formed; its retunes, pause-switches and progress may differ. -/
structure AsFormed (c x : Commit) : Prop where
  id : x.id = c.id
  source : x.source = c.source
  target : x.target = c.target
  members : x.members = c.members
  grants : x.grants = c.grants
  count : x.count = c.count
  acceptedAt : x.acceptedAt = c.acceptedAt
  key : x.key = c.key

/-- A commit of the die stands as c was formed. -/
def Listed (c : Commit) (d : Die) : Prop := ∃ x ∈ d.commits, AsFormed c x

namespace Listed

section
variable {c : Commit} {d : Die}

theorem of_commits {e : Die} (h : Listed c d) (he : e.commits = d.commits) : Listed c e := by
  unfold Listed
  rw [he]
  exact h

theorem modCommit (h : Listed c d) (id : Nat) {f : Commit → Commit} (hf : ∀ x, AsFormed c x → AsFormed c (f x)) : Listed c (modCommit id f d) := by
  obtain ⟨x, hx, hc⟩ := h
  refine ⟨_, List.mem_map_of_mem hx, ?_⟩
  split
  · exact hf x hc
  · exact hc

/-- A retune changes no more of a commit than its retunes and pause-switches. -/
theorem retuneMember (h : Listed c d) (id g r : Nat) : Listed c (retuneMember id g r d) := by
  unfold Machine.retuneMember
  dsimp only
  split
  · exact h
  · split
    · exact h.modCommit id fun x hx => { hx with }
    · exact (h.of_commits (writeSynth_commits ..)).modCommit id fun x hx => { hx with }

end

end Listed

section
variable (src : CommitSource) (target : Nat) (members : RegionSet) (count ctx aborts : Nat) (key : Option (Nat × Nat)) (d : Die)

theorem formedCommit_grants {r : Nat} (hr : r ∈ setRegions members) :
    tget 0 (formedCommit src target members count ctx aborts key d).grants r = min target (regionCeiling (region d r)) :=
  (tget_foldl_tset (fun r => grantOf d r target) _ rfl).trans (if_pos hr)

/-- The commit joins those of the die, and its ID is used up. -/
def commitJoined : Die :=
  { d with commits := d.commits ++ [formedCommit src target members count ctx aborts key d], nextCommit := if d.nextCommit + 1 = 2 ^ 32 then 1 else d.nextCommit + 1 }

/-- The members of a commit that has joined are retuned. -/
def membersRetuned : Die :=
  let c := formedCommit src target members count ctx aborts key d
  each (setRegions members) (fun r e => retuneMember c.id (tget 0 c.grants r) r e)
    (emit 0x0401 (.region (lowestOf members)) (commitForm c 0 0xFF) (commitJoined src target members count ctx aborts key d))

/-- The host's target takes force in a region (R246). -/
def hostTargeted (r : Nat) (e : Die) : Die := throttleUpdate r (modRegion r (fun x => { x with hostTarget := some target }) e)

theorem acceptCommit_eq : acceptCommit src target members count ctx aborts key d =
    if src = .host then each (setRegions members) (hostTargeted target) (membersRetuned src target members count ctx aborts key d)
    else membersRetuned src target members count ctx aborts key d := rfl

theorem hostTargeted_commits (r : Nat) (e : Die) : (hostTargeted target r e).commits = e.commits := throttleUpdate_commits ..

theorem hostTargeted_nextCommit (r : Nat) (e : Die) : (hostTargeted target r e).nextCommit = e.nextCommit := throttleUpdate_nextCommit ..

theorem acceptCommit_lists : Listed (formedCommit src target members count ctx aborts key d) (acceptCommit src target members count ctx aborts key d) := by
  have hjoined : Listed (formedCommit src target members count ctx aborts key d) (commitJoined src target members count ctx aborts key d) :=
    ⟨_, List.mem_append_right _ (List.mem_singleton.2 rfl), rfl, rfl, rfl, rfl, rfl, rfl, rfl, rfl⟩
  have hretuned : Listed (formedCommit src target members count ctx aborts key d) (membersRetuned src target members count ctx aborts key d) :=
    each_kept (fun r _ he => Listed.retuneMember he ..) (hjoined.of_commits (emit_commits ..))
  rw [acceptCommit_eq]
  split
  · exact hretuned.of_commits (each_commits (hostTargeted_commits target))
  · exact hretuned

theorem acceptCommit_nextCommit : (acceptCommit src target members count ctx aborts key d).nextCommit = if d.nextCommit + 1 = 2 ^ 32 then 1 else d.nextCommit + 1 := by
  have hretuned : (membersRetuned src target members count ctx aborts key d).nextCommit = (commitJoined src target members count ctx aborts key d).nextCommit := by
    rw [membersRetuned, each_nextCommit fun _ _ => retuneMember_nextCommit .., emit_nextCommit]
  rw [acceptCommit_eq]
  split
  · rw [each_nextCommit (hostTargeted_nextCommit target), hretuned]; rfl
  · rw [hretuned]; rfl

end

/-! ## opp.commit, opp.cancel and opp.read (R353, R354, R355) -/

/-- Bits 4 to 7 of an operating point are zero. -/
theorem and_F0_of_lt {b : Nat} (h : b < 16) : b &&& 0xF0 = 0 := by
  revert b
  decide

section
variable {q : Nat} {e : Exec} {p : Bytes} {d : Die}

/-- opp.commit of legal members at a legal Tally accepts the commit. -/
theorem oppCommitBody_accepts (hk : e.reexecuted = true → keyedCommit d (keyOf q e) = none) (h16 : fld p 10 1 < 16) (hz : ZeroBytes p 11 16) (hm : fld p 0 10 ≠ 0)
    (hr : d.startup.ready = 1) (hs : d.stop.stopped = false) (hmem : ∀ r ∈ setRegions (fld p 0 10), present d r = true ∧ (region d r).owner = q ∧ commitBlocked d r = false)
    (ht : legalTally d (fld p 16 8) Config.commitLead = true) :
    oppCommitBody q e p d = (acceptCommit .host (fld p 10 1) (fld p 0 10) (fld p 16 8) 0 0 (some (keyOf q e)) d, .done d.nextCommit none) := by
  have hnew : (if e.reexecuted = true then keyedCommit d (keyOf q e) else none) = none := by
    split
    next h => exact hk h
    next => rfl
  have hfree : firstRegion (fld p 0 10) (commitBlocked d) = none := List.find?_eq_none.2 fun r hr => by simp [(hmem r hr).2.2]
  simp only [oppCommitBody, hnew, Nat.mod_eq_of_lt h16]
  refine checked_pass ?_
  simp only [List.forall_mem_cons]
  exact ⟨bitsCheck_pass (and_F0_of_lt h16), zeroCheck_pass hz, by rw [ownedBy_of fun r hr => (hmem r hr).2.1]; rfl, readyCheck_pass hr, decide_eq_false hm,
    absentCheck_pass fun r hr => (hmem r hr).1, by rw [oppBusy, regionCheck, hfree]; rfl, hs, by rw [ht]; rfl, nofun⟩

theorem oppCommitBody_reexecuted {c : Commit} (he : e.reexecuted = true) (hk : keyedCommit d (keyOf q e) = some c) : oppCommitBody q e p d = (d, .done c.id none) := by
  simp only [oppCommitBody, he, hk, if_true]

/-- opp.cancel of an undecided commit that the queue may cancel aborts it. -/
theorem oppCancelBody_aborts {c : Commit} (hr : d.startup.ready = 1) (hid : commitOf d (fld p 0 4) = some c) (hn : c.decided = false) (hs : c.source = .host ∨ c.source = .pattern)
    (ho : q = 0 ∨ ∀ r ∈ setRegions c.members, (region d r).owner = q) :
    oppCancelBody q e p d = (abortCommit (fld p 0 4) 7 (lowestOf c.members) 0xFF d, .done 0 none) := by
  have hmay : cancelForbidden d q c = false := by
    have hown : (decide (q ≠ 0) && !ownedBy d q c.members) = false := guard_pass fun hq => by rw [ownedBy_of (ho.resolve_left hq)]; rfl
    rw [cancelForbidden, hown]
    obtain h | h := hs
    · rw [h]; rfl
    · rw [h]; rfl
  simp only [oppCancelBody, hid, hmay, hn]
  refine checked_pass ?_
  simp only [List.forall_mem_cons]
  exact ⟨trivial, readyCheck_pass hr, Bool.and_false _, trivial, nofun⟩

end

/-- A field of one byte is the byte that stands there. -/
theorem fld_byte_of_getElem? {b : Bytes} {off : Nat} {v : Byte} (h : b[off]? = some v) : fld b off 1 = v.toNat := by
  obtain ⟨hlt, rfl⟩ := List.getElem?_eq_some_iff.1 h
  rw [fld, List.drop_eq_getElem_cons hlt]
  rfl

/-- The bin byte of region r in opp.read. -/
theorem oppBytes_bin (d : Die) {r : Nat} (hr : r < 80) : fld (oppBytes d) (64 + r) 1 =
    (if !present d r then 0xFF else if 4 ≤ d.startup.fuses.bins.getD r 0 then Config.freeNat (d.fresh + r) else d.startup.fuses.bins.getD r 0) % 256 := by
  have hoff : ((List.range 64).flatMap (fun j => leI 1 (if d.startup.fuses.offsetsBad then 12 else d.startup.fuses.offsets.getD j 0))).length = 64 :=
    flatMap_length_const fun _ => le_len ..
  rw [oppBytes, fld_append_right hoff]
  have hbyte : ∀ f : Nat → Nat, (List.range 80).flatMap (fun r => le 1 (f r)) = (List.range 80).map (fun r => BitVec.ofNat 8 (f r)) := fun f => List.map_eq_flatMap.symm
  rw [hbyte, fld_byte_of_getElem? (v := BitVec.ofNat 8 _) (by rw [List.getElem?_map, List.getElem?_range hr]; rfl), BitVec.toNat_ofNat]

theorem oppBytes_length (d : Die) : (oppBytes d).length = 144 := by
  have hoff : ∀ v : Int, (leI 1 v).length = 1 := fun _ => le_len ..
  simp only [oppBytes, List.length_append, flatMap_length_const fun _ => hoff _, flatMap_length_const fun _ => le_len .., List.length_range]

/-- Settles O41: each command passes its checks and completes with the effect of its body. -/
theorem oppCommandsCommitCancelAndRead : Obligations.OppCommandsCommitCancelAndRead := by
  intro s q e hc
  dsimp only
  refine ⟨fun hx => ⟨fun hk h16 hz hm hr hs hmem h10 hlead hlast => ?_, fun c he hk => ?_⟩, fun hx hr c hid hn hs ho => ?_, fun hx => ?_, oppBytes_length _, fun r hr => ⟨fun hp => ?_, fun hp hb => ?_⟩⟩
  · refine completesOk_of_body hx rfl (oppCommitBody_accepts hk h16 hz hm hr hs hmem (decide_eq_true ⟨h10, hlead, hlast⟩)) ⟨acceptCommit_nextCommit .., acceptCommit_rails .., ?_⟩
    obtain ⟨c, hin, hid, hsource, htarget, hmembers, hgrants, hcount, hat, hkey⟩ :=
      acceptCommit_lists .host (fld (e.desc.drop 16) 10 1) (fld (e.desc.drop 16) 0 10) (fld (e.desc.drop 16) 16 8) 0 0 (some (keyOf q e)) s.die
    refine ⟨c, hin, hid, hsource, htarget, hmembers, hcount, hat, hkey, fun r hr => ?_⟩
    rw [hgrants, formedCommit_grants _ _ _ _ _ _ _ _ hr]
  · exact completesOk_of_body hx rfl (oppCommitBody_reexecuted he hk) rfl
  · refine completesOk_of_body hx rfl (oppCancelBody_aborts hr hid hn hs ho) ?_
    rw [commitOf_id hid]
    exact abortCommit_spec hc hid hn ..
  · exact completesOk_of_body hx rfl rfl rfl
  · rw [oppBytes_bin _ hr, hp]
    rfl
  · rw [oppBytes_bin _ hr, hp, if_neg (by simp), if_neg (by omega), Nat.mod_eq_of_lt (by omega)]

end Sys2Proof.Machine

namespace Sys2Proof.Machine
open Sys2Proof

/-! ## What a rail keeps -/

/-- Rail k has a property, on a die in canonical form. -/
structure RailHolds (p : Rail → Prop) (k : Nat) (d : Die) : Prop where
  can : d.Canonical
  holds : p (rail d k)

theorem rail_of {a b : Die} (h : a.rails = b.rails) (k : Nat) : rail a k = rail b k := by
  unfold rail
  rw [h]

/-- The AVSBus engine of a rail starts the first waiting transaction if its bus is free (R451). -/
def engineStarted (x : Rail) : Rail :=
  match x.busy, x.waiting with
  | none, op :: t => if x.off then { x with waiting := [] } else { x with busy := some op, waiting := t, failed := 0 }
  | _, _ => x

theorem avsStart_eq (k : Nat) (d : Die) : avsStart k d = modRail k engineStarted d := rfl

theorem engineStarted_eq (x : Rail) : ∃ b w n, engineStarted x = { x with busy := b, waiting := w, failed := n } ∧ (n = x.failed ∨ n = 0) := by
  unfold engineStarted
  split
  · split
    · exact ⟨x.busy, [], x.failed, rfl, .inl rfl⟩
    · exact ⟨_, _, 0, rfl, .inr rfl⟩
  · exact ⟨x.busy, x.waiting, x.failed, rfl, .inl rfl⟩

namespace RailHolds

section
variable {p : Rail → Prop} {k : Nat} {d : Die}

theorem of_rails {e : Die} (h : RailHolds p k d) (hr : e.rails = d.rails) (hc : e.Canonical) : RailHolds p k e := ⟨hc, (rail_of hr k).symm ▸ h.holds⟩

theorem emit (h : RailHolds p k d) (c : Nat) (loc : Loc) (b : Bytes) : RailHolds p k (emit c loc b d) := h.of_rails (emit_rails ..) (emit_can _ _ _ _ h.can)

/-- An update of the rail itself. -/
theorem modRail_same {q : Rail → Prop} (h : RailHolds p k d) {f : Rail → Rail} (hf : ∀ x, p x → q (f x)) : RailHolds q k (modRail k f d) :=
  ⟨modRail_can _ _ _ h.can, (rail_modRail_same (f := f) h.can.rails).symm ▸ hf _ h.holds⟩

/-- An update of any rail that keeps the property where it is the rail itself. -/
theorem modRail (h : RailHolds p k d) (j : Nat) {f : Rail → Rail} (hf : k = j → ∀ x, p x → p (f x)) : RailHolds p k (modRail j f d) := by
  by_cases hj : k = j
  · subst hj
    exact h.modRail_same (hf rfl)
  · exact ⟨modRail_can _ _ _ h.can, (rail_modRail_other (f := f) h.can.rails hj).symm ▸ h.holds⟩

/-! ### The AVSBus engine (R451) -/

variable {j : Nat} (hp : k = j → ∀ x b w n, (n = x.failed ∨ n = 0) → p x → p { x with busy := b, waiting := w, failed := n })
include hp

theorem avsStart (h : RailHolds p k d) : RailHolds p k (avsStart j d) := by
  rw [avsStart_eq]
  refine h.modRail j fun hk x hx => ?_
  obtain ⟨b, w, n, heq, hn⟩ := engineStarted_eq x
  rw [heq]
  exact hp hk x b w n hn hx

theorem avsPush (h : RailHolds p k d) (op : AvsOp) : RailHolds p k (avsPush j op d) := by
  unfold Machine.avsPush
  split
  · exact h
  · exact RailHolds.avsStart hp (h.modRail j fun hk x hx => hp hk x x.busy _ x.failed (.inl rfl) hx)

end

end RailHolds

/-! ## Rails go to their targets (R180, R185) -/

theorem railRegions_of {a b : Die} (hs : a.startup = b.startup) (k : Nat) : railRegions a k = railRegions b k := by
  have hp : present a = present b := funext (present_of hs)
  rw [railRegions, railRegions, presentRegions, presentRegions, hp]

theorem region_of {a b : Die} (h : a.regions = b.regions) (r : Nat) : region a r = region b r := by
  unfold region
  rw [h]

theorem requirement_of {a b : Die} (hs : a.startup = b.startup) (r k : Nat) : requirement a r k = requirement b r k := by
  rw [requirement, requirement, offsetCode, offsetCode, hs]

theorem requirementNow_of {a b : Die} (hr : a.regions = b.regions) (hc : a.commits = b.commits) (hs : a.startup = b.startup) (r : Nat) : requirementNow a r = requirementNow b r := by
  simp only [requirementNow, requirement_of hs, region_of hr, hc]

theorem inBank_of {a b : Die} (hr : a.regions = b.regions) (hd : a.dormant = b.dormant) (r : Nat) : inBank a r = inBank b r := by
  rw [inBank, inBank, region_of hr, hd]

/-- The target of a rail rests on regions and their commits, the fuses and Dormant. -/
theorem ruleTarget_of {a b : Die} (hr : a.regions = b.regions) (hc : a.commits = b.commits) (hs : a.startup = b.startup) (hd : a.dormant = b.dormant) (k : Nat) :
    ruleTarget a k = ruleTarget b k := by
  have hquad : quadTarget a = quadTarget b := funext fun j => by simp only [quadTarget, railRegions_of hs, inBank_of hr hd, requirementNow_of hr hc hs]
  rw [ruleTarget, ruleTarget, hquad]

theorem ruleTarget_retarget (j k : Nat) (d : Die) : ruleTarget (retarget j d) k = ruleTarget d k :=
  ruleTarget_of (retarget_regions ..) (retarget_commits ..) (retarget_startup ..) (retarget_dormant ..) k

theorem ruleTarget_each_retarget (l : List Nat) (k : Nat) (d : Die) : ruleTarget (each l retarget d) k = ruleTarget d k :=
  each_kept (P := fun e => ruleTarget e k = ruleTarget d k) (fun j e he => (ruleTarget_retarget j k e).trans he) rfl

section
variable {k : Nat} {d : Die} (hc : d.Canonical)
include hc

theorem rail_retarget_same : (rail (retarget k d) k).target = (ruleTarget d k).getD Config.retentionMv := by
  unfold retarget
  dsimp only
  split
  next h => exact h.1.symm
  next =>
    unfold writeTarget
    refine (RailHolds.avsPush (p := fun x => x.target = (ruleTarget d k).getD Config.retentionMv) (fun _ _ _ _ _ _ hx => hx) ?_ _).holds
    exact RailHolds.modRail_same (p := fun _ => True) ⟨hc, trivial⟩ fun _ _ => rfl

theorem rail_retarget_other {j : Nat} (hj : k ≠ j) : rail (retarget j d) k = rail d k := by
  unfold retarget
  dsimp only
  split
  · rfl
  · unfold writeTarget
    refine (RailHolds.avsPush (p := (· = rail d k)) (fun h => absurd h hj) ?_ _).holds
    exact RailHolds.modRail (p := (· = rail d k)) ⟨hc, rfl⟩ j fun h => absurd h hj

/-- Each rail of a list without repeats goes to its target. -/
theorem rail_each_retarget {l : List Nat} (hn : l.Nodup) (hk : k ∈ l) : (rail (each l retarget d) k).target = (ruleTarget (each l retarget d) k).getD Config.retentionMv := by
  rw [ruleTarget_each_retarget]
  refine get_each_of_mem (I := fun e => e.Canonical ∧ ruleTarget e k = ruleTarget d k) (get := (rail · k)) (Q := fun x => x.target = (ruleTarget d k).getD Config.retentionMv)
    (fun j e _ he => ⟨retarget_can j e he.1, (ruleTarget_retarget j k e).trans he.2⟩) (fun j e _ hj he => rail_retarget_other he.1 hj.symm) hn hk (fun e he _ => ?_) ⟨hc, rfl⟩
  rw [rail_retarget_same he.1, he.2]

end

/-! ## The Chandler accepts a commit (R181) -/

/-- The members of a request without an obstacle. -/
def freeMembers (q : CommitReq) (d : Die) : RegionSet := regionSet ((setRegions q.members).filter (fun r => !commitBlocked d r))

/-- The first waiting request becomes a commit; a Pattern's is recorded as well. -/
theorem commitAccept_accepts {q : CommitReq} {t : List CommitReq} {d : Die} (hq : d.commitReqs = q :: t) (hr : chandlerRuns d = true) (hs : d.stop.stopped = false)
    (hm : freeMembers q d ≠ 0) :
    SameBut [.ledger] (acceptCommit q.source q.target (freeMembers q d) (firstCount d) q.context q.aborts none { d with commitReqs := t }) (commitAccept d) := by
  have hm' : ¬regionSet ((setRegions q.members).filter (fun r => !commitBlocked { d with commitReqs := t } r)) = 0 := hm
  simp only [commitAccept, hq, hr, hs, hm', Bool.not_true, Bool.or_self, Bool.false_eq_true, if_false]
  split
  · split
    · exact emit_kept (sameBut_closed _ _) _ _ _ _ (sameBut_refl _ _)
    · exact sameBut_refl _ _
  · exact sameBut_refl _ _

/-! ## The voltage rise and the decision (R185, R189, R501) -/

section
variable {id : Nat} {c : Commit} {d : Die} (h : commitOf d id = some c)
include h

theorem voltageRise_writes (hn : c.decided = false) (hw : c.riseWritten = false) (ht : c.count ≤ d.tally.now + 25000)
    (hl : ∀ r ∈ setRegions (c.retuned ||| c.pausing), memberLocked d c r = true) (hr : chandlerRuns d = true) :
    voltageRise id d = each (risingRails d c) retarget (modCommit id (fun e => { e with riseWritten := true, raised := (risingRails d c).foldl (fun m k => m ||| 2 ^ k) 0 }) d) := by
  have hlocked : (setRegions (c.retuned ||| c.pausing)).all (memberLocked d c) = true := List.all_eq_true.2 hl
  simp only [voltageRise, h, hn, hw, hlocked, hr, Nat.not_lt.2 ht, Bool.not_true, Bool.false_eq_true, or_self, if_false]

theorem commitDecision_decides (hn : c.decided = false) (ht : c.count ≤ d.tally.now + 10) (hf : decisionFailure d c = none) :
    commitDecision id d = modCommit id (fun e => { e with decided := true }) d := by
  simp only [commitDecision, h, hn, hf, Nat.not_lt.2 ht, Bool.false_eq_true, or_self, if_false]

theorem commitDecision_aborts {reason r fault : Nat} (hn : c.decided = false) (ht : c.count ≤ d.tally.now + 10) (hf : decisionFailure d c = some (reason, r, fault)) :
    commitDecision id d = abortCommit id reason r fault d := by
  simp only [commitDecision, h, hn, hf, Nat.not_lt.2 ht, Bool.false_eq_true, or_self, if_false]

end

/-! ## The strobe and the end of a commit (R186, R188) -/

theorem commitOf_eq_none {d : Die} {id : Nat} (h : ∀ e ∈ d.commits, e.id = id → e.done = true) : commitOf d id = none :=
  List.find?_eq_none.2 fun e he => by
    by_cases hid : e.id = id
    · simp [h e he hid]
    · simp [hid]

section
variable {id : Nat} {c : Commit} {d : Die} (h : commitOf d id = some c)
include h

/-- A commit whose members have all switched or been refused ends. -/
theorem commitDone_ends (hs : c.strobed = true) (hm : (c.switched ||| c.refused) = c.members) : commitOf (commitDone id d) id = none := by
  have hdone : ∀ e ∈ d.commits.map (fun x => if x.id = id then { x with done := true, riseWritten := false } else x), e.id = id → e.done = true := by
    intro e he hid
    obtain ⟨x, -, rfl⟩ := List.mem_map.1 he
    by_cases hx : x.id = id
    · rw [if_pos hx]
    · rw [if_neg hx] at hid
      exact absurd hid hx
  refine commitOf_eq_none ?_
  simp only [commitDone, h, hs, hm, and_self, if_true]
  rw [each_commits memberDone_commits]
  split
  · simpa only [modCommit, emit_commits] using hdone
  · intro e he
    exact hdone e (by simpa only [modCommit, emit_commits] using List.mem_of_mem_filter he)

theorem commitDone_waits (hm : (c.switched ||| c.refused) ≠ c.members) : commitDone id d = d := by
  simp only [commitDone, h, hm, and_false, if_false]

theorem commitStrobe_of_due (hd : c.decided = true) (hs : c.strobed = false) (ht : c.count ≤ d.tally.now) : commitStrobe id d =
    commitDone id (modCommit id (fun e => { e with strobed := true, switched := regionSet ((setRegions c.members).filter (fun r => !bit (c.retuned ||| c.pausing) r)) }) d) := by
  simp only [commitStrobe, h, hd, hs, Nat.not_lt.2 ht, Bool.not_true, Bool.false_eq_true, or_self, if_false]

end

/-! ## The voltage fall (R184, R189) -/

/-- The ended commits of an ID are dropped. -/
def endedDropped (id : Nat) (d : Die) : Die := { d with commits := d.commits.filter (fun e => decide (e.id ≠ id) || !e.done) }

theorem endedDropped_commits {id : Nat} {d : Die} : ∀ e ∈ (endedDropped id d).commits, e.id = id → e.done = false := by
  intro e he hid
  simpa [hid] using (List.mem_filter.1 he).2

theorem endedDropped_can {id : Nat} {d : Die} (hc : d.Canonical) : (endedDropped id d).Canonical := { hc with }

theorem voltageFall_of_due {id : Nat} {c : Commit} {d : Die} (h : d.commits.find? (fun c => decide (c.id = id) && c.done) = some c) (ht : c.count + 2000 ≤ d.tally.now)
    (hr : chandlerRuns d = true) : voltageFall id d = if d.stop.stopped = true then endedDropped id d else each (List.range 5) retarget (endedDropped id d) := by
  simp only [voltageFall, h, hr, Nat.not_lt.2 ht, Bool.not_true, Bool.false_eq_true, or_self, if_false]
  rfl

/-- Settles O16: each event by what it does to its commit and to the rails, an abort by what it leaves. -/
theorem commitsRunFromAcceptanceToTheFall : Obligations.CommitsRunFromAcceptanceToTheFall := by
  intro s hc
  refine ⟨fun q t hq hr hs hm => ?_, fun id c h hn => ⟨fun hw ht hl hr => ?_, fun ht hf => ?_, fun reason r fault ht hf => ?_⟩, fun id c h hd hs ht => ?_, fun id c h ht hr => ?_⟩
  · refine gives_run (b := true) rfl rfl ?_
    have hsame := commitAccept_accepts hq hr hs hm
    have hcommits := hsame .commits (by decide)
    have hreqs := hsame .commitReqs (by decide)
    have hnext := hsame .nextCommit (by decide)
    obtain ⟨c, hin, hid, hsource, htarget, hmembers, hgrants, hcount, -⟩ :=
      acceptCommit_lists q.source q.target (freeMembers q s.die) (firstCount s.die) q.context q.aborts none { s.die with commitReqs := t }
    refine ⟨hreqs.trans (acceptCommit_commitReqs ..), hnext.trans (acceptCommit_nextCommit ..), c, hcommits.symm ▸ hin, hid, hsource, htarget, hmembers, hcount, fun r hr => ?_⟩
    rw [hmembers] at hr
    rw [hgrants]
    exact formedCommit_grants _ _ _ _ _ _ _ _ hr
  · refine gives_run (b := true) rfl rfl ?_
    rw [voltageRise_writes h hn hw ht hl hr]
    refine ⟨?_, fun k hk => rail_each_retarget (modCommit_can _ _ _ hc) (List.nodup_range.filter _) hk⟩
    rw [commitOf_of (each_commits retarget_commits)]
    exact commitOf_modCommit h fun _ => ⟨rfl, rfl⟩
  · refine gives_run (b := true) rfl rfl ?_
    rw [commitDecision_decides h hn ht hf]
    exact ⟨commitOf_modCommit h fun _ => ⟨rfl, rfl⟩, rfl, rfl, rfl⟩
  · refine gives_run (b := true) rfl rfl ?_
    rw [commitDecision_aborts h hn ht hf]
    exact abortCommit_spec hc h hn ..
  · refine gives_run (b := true) rfl rfl ?_
    rw [commitStrobe_of_due h hd hs ht]
    have hstrobed := commitOf_modCommit (f := fun e => { e with strobed := true, switched := regionSet ((setRegions c.members).filter (fun r => !bit (c.retuned ||| c.pausing) r)) }) h fun _ => ⟨rfl, rfl⟩
    split
    next hm => exact commitDone_ends hstrobed rfl hm
    next hm =>
      rw [commitDone_waits hstrobed hm]
      exact ⟨hstrobed, rfl⟩
  · refine gives_run (b := true) rfl rfl ?_
    rw [voltageFall_of_due h ht hr]
    split
    next hs => exact ⟨endedDropped_commits, fun _ => rfl, fun hn => by rw [hs] at hn; cases hn⟩
    next hs =>
      refine ⟨?_, fun hn => absurd hn hs, fun _ k hk => rail_each_retarget (endedDropped_can hc) List.nodup_range (List.mem_range.2 hk)⟩
      rw [each_commits retarget_commits]
      exact endedDropped_commits

end Sys2Proof.Machine

namespace Sys2Proof.Machine
open Sys2Proof

/-! ## Requests of the limit unit (R194, R247) -/

/-- A region that is to join a request of a source and target is in one. -/
theorem joinRequest_joins (src : CommitSource) (target ctx r : Nat) (d : Die) :
    ∃ q ∈ (joinRequest src target ctx r d).commitReqs, q.source = src ∧ q.target = target ∧ bit q.members r = true := by
  unfold joinRequest
  extract_lets e fits
  split
  next hany =>
    obtain ⟨q, hq, hfits⟩ := List.any_eq_true.1 hany
    have hsame : q.source = src ∧ q.target = target := by
      simp only [fits, Bool.and_eq_true, decide_eq_true_eq] at hfits
      exact ⟨hfits.1.1.1, hfits.1.1.2.1⟩
    refine ⟨{ q with members := q.members ||| 2 ^ r }, List.mem_map.2 ⟨q, hq, if_pos hfits⟩, hsame.1, hsame.2, ?_⟩
    simp [bit]
  next => exact ⟨_, List.mem_append_right _ (List.mem_singleton.2 rfl), rfl, rfl, Nat.testBit_two_pow_self⟩

section
variable {r t : Nat} {d : Die}

theorem settlementRequest_of_due (hs : (region d r).settleDue = some t) (ht : t ≤ d.tally.now) (hb : commitBlocked d r = false) : settlementRequest r d =
    if regionCeiling (region d r) < (region d r).opp then joinRequest .settlement (regionCeiling (region d r)) 0 r (modRegion r (fun x => { x with settleDue := none }) d)
    else modRegion r (fun x => { x with settleDue := none }) d := by
  simp only [settlementRequest, hs, hb, Nat.not_lt.2 ht, Bool.false_eq_true, or_self, if_false]

theorem settlementRequest_of_none (hs : (region d r).settleDue = none) : settlementRequest r d = d := by
  simp only [settlementRequest, hs]

theorem restoringRetry_of_due (hs : (region d r).settleDue = none) (hr : (region d r).restoreDue = some t) (ht : t ≤ d.tally.now) (hb : commitBlocked d r = false) :
    restoringRetry r d = restore r (modRegion r (fun x => { x with restoreDue := none }) d) := by
  simp only [restoringRetry, settlementRequest_of_none hs, hr, hb, Nat.not_lt.2 ht, Bool.false_eq_true, or_self, if_false]

/-- No obstacle comes or goes with an update that leaves a region's reset, power, retirement and test setting. -/
theorem commitBlocked_modRegion (hc : d.Canonical) {f : Region → Region} (hf : ∀ x, (f x).reset = x.reset ∧ (f x).power = x.power ∧ (f x).retired = x.retired ∧ (f x).test = x.test) :
    commitBlocked (modRegion r f d) r = commitBlocked d r := by
  obtain ⟨hreset, hpower, hretired, htest⟩ := hf (region d r)
  have hassay : underAssay (modRegion r f d) r = underAssay d r := rfl
  have hpending : pendingCommit (modRegion r f d) r = pendingCommit d r := rfl
  rw [commitBlocked, commitBlocked, hassay, hpending, inReset, inReset, inBank, inBank, region_same hc, hreset, hpower, hretired, htest, modRegion_dormant]

/-- A region without a Pattern target, below its demand and ceiling, is in a restoring request. -/
theorem restore_requests (hb : commitBlocked d r = false) (hp : (region d r).patternTarget = none) (ho : (region d r).opp < min (demand (region d r)) (regionCeiling (region d r))) :
    ∃ q ∈ (restore r d).commitReqs, q.source = .restoring ∧ q.target = min (demand (region d r)) (regionCeiling (region d r)) ∧ bit q.members r = true := by
  simp only [restore, hp, hb, decide_eq_true ho, Option.isNone_none, Bool.not_false, Bool.and_self, if_true]
  exact joinRequest_joins ..

end

/-- No restoring request of the region is due again. -/
theorem restore_clears {r : Nat} {d : Die} (h : RegionHolds (fun x => x.restoreDue = none) r d) : RegionHolds (fun x => x.restoreDue = none) r (restore r d) := by
  unfold restore
  dsimp only
  split
  · have hnone := h.modRegion r (f := fun x => { x with restoreDue := none }) fun _ _ => rfl
    exact hnone.of_regions (joinRequest_regions ..) (joinRequest_can _ _ _ _ _ hnone.can)
  · exact h

/-! ## The region action input (R192, R225, R281) -/

/-- The ratio of a fast step stands as the region's ceiling and operating point give it; what the ratio and the settlement do not touch is kept. -/
theorem RegionHolds.fastStep {p : Region → Prop} {r : Nat} {d : Die} (h : RegionHolds p r d) (hp : ∀ x f t, p x → p { x with fast := f, settleDue := t }) :
    RegionHolds (fun x => x.fast = fastRatio (region d r) ∧ p x) r (fastStep r d) := by
  unfold Machine.fastStep
  extract_lets x new e
  have hstep : RegionHolds (fun y => y.fast = new ∧ p y) r e := by
    unfold e
    split
    next hsame => exact ⟨h.can, hsame.symm, h.holds⟩
    next => exact RegionHolds.emit (h.modRegion_same fun y hy => ⟨rfl, hp y new y.settleDue hy⟩) ..
  split
  · exact hstep.modRegion r fun y hy => ⟨hy.1, hp y y.fast _ hy.2⟩
  · exact hstep

/-- A change of the ceilings of region k. -/
theorem RegionHolds.changeCeilings {p : Region → Prop} {r k : Nat} {d : Die} {f : Region → Region} (h : RegionHolds p r (Machine.modRegion k f d))
    (hp : ∀ x t a s v, p x → p { x with throttle := t, actionDue := a, settleDue := s, restoreDue := v }) : RegionHolds p r (Machine.changeCeilings k f d) :=
  h.ceilingChanged (fun _ => hp) _

/-- A region whose fence stands as its input asked, with no fence due. -/
def FenceSettled (on : Bool) (x : Region) : Prop := x.fenced = on ∧ x.fenceDue = none

/-- The fence takes effect; the guard ceilings that it ends in other regions are no fence of this one. -/
theorem applyFence_settles {r : Nat} {on : Bool} {d : Die} (h : RegionHolds (fun x => x.fenceDue = none) r d) (src : Nat) : RegionHolds (FenceSettled on) r (applyFence r on src d) := by
  have hfollows : ∀ x t a s v, FenceSettled on x → FenceSettled on { x with throttle := t, actionDue := a, settleDue := s, restoreDue := v } := fun _ _ _ _ _ hx => hx
  have hchange : ∀ (e : Die) (pin : Option Nat), RegionHolds (fun x => x.fenceDue = none) r e → RegionHolds (FenceSettled on) r (changeCeilings r (fun x => { x with fenced := on, pin := pin }) e) :=
    fun e pin he => RegionHolds.changeCeilings (he.modRegion_same fun _ hx => ⟨rfl, hx⟩) hfollows
  have hguard : ∀ (k : Nat) (g : Region → Tbl Nat) (e : Die), RegionHolds (FenceSettled on) r e → RegionHolds (FenceSettled on) r (changeCeilings k (fun y => { y with guards := g y }) e) :=
    fun k g e he => RegionHolds.changeCeilings (RegionHolds.modRegion he k fun _ hx => hx) hfollows
  unfold applyFence
  extract_lets x
  split
  next hon => exact ⟨h.can, hon.symm, h.holds⟩
  next =>
    split
    next hon =>
      subst hon
      exact hchange _ _ (h.emit ..)
    next hoff =>
      obtain rfl : on = false := Bool.eq_false_iff.2 hoff
      split
      · exact hchange _ _ (h.emit ..)
      · exact each_kept (fun k e he => hguard k _ e he) (hchange _ _ (h.emit ..))

/-- What follows the fence of a region's action input. -/
def fastStepTaken (r : Nat) (d : Die) : Die := if (region d r).actionDue then fastStep r (modRegion r (fun x => { x with actionDue := false }) d) else d

theorem fenceSettled_fastStepTaken {on : Bool} {r : Nat} {d : Die} (h : RegionHolds (FenceSettled on) r d) : RegionHolds (FenceSettled on) r (fastStepTaken r d) := by
  unfold fastStepTaken
  split
  · have hstep := RegionHolds.fastStep (h.modRegion r (f := fun x => { x with actionDue := false }) fun _ hx => hx) fun _ _ _ hx => hx
    exact ⟨hstep.can, hstep.holds.2⟩
  · exact h

theorem fastStepTaken_of_due {r : Nat} {d : Die} (hc : d.Canonical) (ha : (region d r).actionDue = true) :
    RegionHolds (fun x => x.fast = fastRatio (region d r) ∧ x.actionDue = false) r (fastStepTaken r d) := by
  have hcleared : RegionHolds (fun x => x.actionDue = false) r (modRegion r (fun x => { x with actionDue := false }) d) :=
    RegionHolds.modRegion_same (p := fun _ => True) ⟨hc, trivial⟩ fun _ _ => rfl
  have hratio : fastRatio (region (modRegion r (fun x => { x with actionDue := false }) d) r) = fastRatio (region d r) := by rw [region_same hc]; rfl
  rw [fastStepTaken, if_pos ha, ← hratio]
  exact hcleared.fastStep fun _ _ _ hx => hx

theorem actionApply_of_fence {r src : Nat} {on : Bool} {d : Die} (h : (region d r).fenceDue = some (on, src)) :
    actionApply r d = fastStepTaken r (applyFence r on src (modRegion r (fun x => { x with fenceDue := none }) d)) := by
  simp only [actionApply, h]
  rfl

theorem actionApply_of_none {r : Nat} {d : Die} (h : (region d r).fenceDue = none) : actionApply r d = fastStepTaken r d := by
  simp only [actionApply, h]
  rfl

/-- Settles O18: the requests by what joins them, the actions by what the region keeps through them. -/
theorem limitUnitRequestsAndRegionActions : Obligations.LimitUnitRequestsAndRegionActions := by
  intro s r hc hr
  have named : isRegion r = true := decide_eq_true hr
  refine ⟨fun t hs ht hb => ?_, fun t hs hd ht hb => ?_, fun hn ha => ?_, fun on src hf => ?_⟩
  · refine gives_run rfl named ?_
    rw [settlementRequest_of_due hs ht hb]
    have hcleared := region_same (k := r) (f := fun x => { x with settleDue := none }) hc
    split
    next => exact ⟨by rw [region_of (joinRequest_regions ..), hcleared], fun _ => joinRequest_joins ..⟩
    next hno => exact ⟨by rw [hcleared], fun h => absurd h hno⟩
  · refine gives_run rfl named ?_
    rw [restoringRetry_of_due hs hd ht hb]
    have hx := region_same (k := r) (f := fun x => { x with restoreDue := none }) hc
    refine ⟨(restore_clears ⟨modRegion_can _ _ _ hc, by rw [hx]⟩).holds, fun hp ho => ?_⟩
    have hfree := (commitBlocked_modRegion (f := fun x => { x with restoreDue := none }) hc fun _ => ⟨rfl, rfl, rfl, rfl⟩).trans hb
    have hreq := restore_requests hfree (by rw [hx]; exact hp) (by rw [hx]; exact ho)
    rw [hx] at hreq
    exact hreq
  · refine gives_run rfl named ?_
    rw [actionApply_of_none hn]
    obtain ⟨-, hfast, hdone⟩ := fastStepTaken_of_due hc ha
    exact ⟨hdone, hfast⟩
  · refine gives_run rfl named ?_
    rw [actionApply_of_fence hf]
    exact (fenceSettled_fastStepTaken (applyFence_settles (RegionHolds.modRegion_same (p := fun _ => True) ⟨hc, trivial⟩ fun _ _ => rfl) src)).holds

end Sys2Proof.Machine

namespace Sys2Proof.Machine
open Sys2Proof

/-! ## The AVSBus engine (R450, R451) -/

section
variable {x : Rail}

theorem engineStarted_busy (h : x.busy = none) : (engineStarted x).busy = if x.off then none else x.waiting.head? := by
  unfold engineStarted
  split
  next op t hb hw =>
    rw [hw]
    split
    · exact hb
    · rfl
  next hno =>
    cases hw : x.waiting with
    | nil => rw [h, List.head?_nil, ite_self]
    | cons op t => exact (hno op t h hw).elim

/-- A transaction that waits on a rail that is on goes on waiting, or is in progress. -/
theorem engineStarted_pending {op : AvsOp} (ho : x.off = false) (hm : op ∈ x.waiting) : (engineStarted x).busy = some op ∨ op ∈ (engineStarted x).waiting := by
  unfold engineStarted
  split
  next first t hb hw =>
    rw [ho]
    rw [hw] at hm
    obtain rfl | ht := List.mem_cons.1 hm
    · exact .inl rfl
    · exact .inr ht
  next => exact .inr hm

end

theorem avsDone_can (k : Nat) (op : AvsOp) (resp : AvsResponse) (d : Die) (hc : d.Canonical) : (avsDone k op resp d).Canonical := avsDone_kept (canonical_closed _) k op resp d hc

theorem mem_avsInsert_self (op : AvsOp) (l : List AvsOp) : op ∈ avsInsert op l := by
  simp [avsInsert]

/-! ## A frame fails (R412, R450, R459) -/

namespace RailHolds

section
variable {p : Rail → Prop} {k : Nat} {d : Die} (h : RailHolds p k d)
include h

theorem setVrm (slot r : Nat) (v : Option Nat) : RailHolds p k (setVrm slot r v d) := h.of_rails (setVrm_rails ..) (setVrm_can _ _ _ _ h.can)

theorem alertLower (hp : ∀ x t, p x → p { x with alertStep := t, sawAlert := true }) : RailHolds p k (alertLower k d) := by
  unfold Machine.alertLower
  dsimp only
  split
  · exact each_kept (fun r e he => RailHolds.setVrm he ..) (h.modRail_same fun x hx => hp x _ hx)
  · exact h

theorem flushAlerts (hp : ∀ x, p x → p { x with alertRecord := [] }) (word : Nat) : RailHolds p k (flushAlerts k word d) := by
  unfold Machine.flushAlerts
  exact each_kept (fun c e he => RailHolds.emit he ..) (h.modRail_same hp)

/-- A third failure in a row raises the alert of its rail. -/
theorem alertSource_dead {q : Rail → Prop} (hf : ∀ x, p x → q { x with dead := true }) (hq : ∀ x c t s, q x → q { x with clearSince := c, alertStep := t, sawAlert := s }) (word : Nat) :
    RailHolds q k (alertSource k true (some word) (fun x => { x with dead := true }) d) := by
  unfold alertSource
  refine RailHolds.alertLower (RailHolds.modRail_same (p := q) ?_ fun x hx => ?_) fun x t hx => hq x x.clearSince t true hx
  · exact RailHolds.emit (h.modRail_same hf) ..
  · split
    · exact hq x none _ x.sawAlert hx
    · exact hq x _ x.alertStep x.sawAlert hx

end

end RailHolds

/-- The rail alerts by its failures, and none is counted toward the next three. -/
def Dead (x : Rail) : Prop := x.dead = true ∧ x.failed = 0

theorem rail_avsDead {k : Nat} {d : Die} (hc : d.Canonical) (op : AvsOp) : RailHolds Dead k (avsDead k op d) := by
  unfold avsDead
  extract_lets e f g
  have hfree : RailHolds (fun x => x.failed = 0) k e := RailHolds.modRail_same (p := fun _ => True) ⟨hc, trivial⟩ fun _ _ => rfl
  have hdead : RailHolds Dead k f := by
    unfold f
    split
    next hd => exact ⟨hfree.can, hd, hfree.holds⟩
    next => exact hfree.alertSource_dead (fun _ hx => ⟨rfl, hx⟩) (fun _ _ _ _ hx => hx) _
  have hop : RailHolds Dead k g := by
    unfold g
    split
    · exact hdead.flushAlerts (fun _ hx => hx) _
    · refine hdead.modRail_same fun x hx => ?_
      split
      · exact hx
      · exact hx
    · exact hdead
  exact RailHolds.avsStart (fun _ x b w n hn hx => ⟨hx.1, hn.elim (fun h => h.trans hx.2) id⟩) hop

section
variable {k : Nat} {op : AvsOp} {resp : AvsResponse} {d : Die} (hb : (rail d k).busy = some op)
include hb

theorem avsFrameEnd_repeats (hf : avsFailed resp = true ∨ d.stop.testForce = true) (hn : (rail d k).failed < 2) :
    avsFrameEnd k resp d = modRail k (fun x => { x with failed := x.failed + 1 }) d := by
  have h3 : (rail d k).failed + 1 < 3 := by omega
  simp only [avsFrameEnd, hb, hf, h3, if_true]

theorem avsFrameEnd_givesUp (hf : avsFailed resp = true ∨ d.stop.testForce = true) (hn : 2 ≤ (rail d k).failed) : avsFrameEnd k resp d = avsDead k op d := by
  have h3 : ¬(rail d k).failed + 1 < 3 := by omega
  simp only [avsFrameEnd, hb, hf, h3, if_true, if_false]

end

/-! ## A frame completes (R185, R450, R451) -/

/-- The bus of a rail is free again. -/
def busFreed (x : Rail) : Rail := { x with busy := none, failed := 0 }

theorem statusSeen_of_same {k : Nat} {alert : Bool} {d : Die} (ha : (rail d k).alert = alert) (hn : railAlerting (rail d k) = false) : statusSeen k alert none d = d := by
  simp only [statusSeen, alertLower, ha, hn, if_true, Bool.false_eq_true, false_and, if_false]

/-- A good frame, other than a status poll, whose alert bit says what the rail stands at: its transaction takes effect, and the next one starts. -/
theorem avsFrameEnd_completes {k : Nat} {op : AvsOp} {resp : AvsResponse} {d : Die} (hc : d.Canonical) (hb : (rail d k).busy = some op) (hop : op ≠ .status) (hf : avsFailed resp = false)
    (ht : d.stop.testForce = false) (hd : (rail d k).dead = false) (ha : (rail d k).alert = resp.alert) (hn : railAlerting (rail d k) = false) :
    avsFrameEnd k resp d = avsStart k (avsDone k op resp (modRail k busFreed d)) := by
  have hx : rail (modRail k busFreed d) k = busFreed (rail d k) := rail_modRail_same hc.rails
  have hstatus : statusSeen k resp.alert none (modRail k busFreed d) = modRail k busFreed d := statusSeen_of_same (by rw [hx]; exact ha) (by rw [hx]; exact hn)
  have hdead : (rail (modRail k busFreed d) k).dead = false := by rw [hx]; exact hd
  have hfail : ¬(avsFailed resp = true ∨ d.stop.testForce = true) := by simp [hf, ht]
  simp only [avsFrameEnd, hb, hfail, if_false]
  change avsStart k (avsDone k op resp (statusSeen k (resp.alert || false) none (if (rail (modRail k busFreed d) k).dead = true then _ else modRail k busFreed d))) = _
  rw [hdead, if_neg Bool.false_ne_true, Bool.or_false, hstatus]

/-- A good write of the target in force starts the wait for the rail. -/
theorem rail_targetWritten {k : Nat} {resp : AvsResponse} {d : Die} (hc : d.Canonical) (hb : (rail d k).busy = some (.target (rail d k).target)) (hf : avsFailed resp = false)
    (ht : d.stop.testForce = false) (hd : (rail d k).dead = false) (ha : (rail d k).alert = resp.alert) (hn : railAlerting (rail d k) = false) :
    rail (avsFrameEnd k resp d) k = engineStarted { busFreed (rail d k) with writtenAt := some d.tally.now } := by
  have hfreed : (modRail k busFreed d).Canonical := modRail_can _ _ _ hc
  rw [avsFrameEnd_completes hc hb (fun h => nomatch h) hf ht hd ha hn, avsStart_eq, rail_modRail_same (avsDone_can _ _ _ _ hfreed).rails, avsDone, rail_modRail_same hfreed.rails,
    rail_modRail_same hc.rails]
  exact congrArg engineStarted (if_pos rfl)

/-- The rail is confirmed, whatever else follows. -/
theorem rail_railConfirmed {k : Nat} {d : Die} (hc : d.Canonical) : RailHolds (fun x => x.confirmed = true) k (railConfirmed k d) := by
  have hconf : RailHolds (fun x => x.confirmed = true) k (modRail k (fun x => { x with confirmed := true }) d) := RailHolds.modRail_same (p := fun _ => True) ⟨hc, trivial⟩ fun _ _ => rfl
  have hup := hconf.of_rails (railsUp_rails _) (railsUp_can _ hconf.can)
  unfold railConfirmed
  dsimp only
  split
  · refine RailHolds.avsPush (p := fun x => x.confirmed = true) (fun _ _ _ _ _ _ hx => hx) (RailHolds.modRail_same ?_ fun _ hx => hx) _
    exact hup.modRail_same fun _ hx => hx
  · exact hup

/-- A good read within 10 mV leaves the rail confirmed. -/
theorem rail_avsDone_confirm {k t : Nat} {resp : AvsResponse} {d : Die} (hc : d.Canonical) (hw : (rail d k).writtenAt = some t) (ha : resp.alert = false)
    (hhi : resp.data ≤ (rail d k).target + 10) (hlo : (rail d k).target ≤ resp.data + 10) : RailHolds (fun x => x.confirmed = true) k (avsDone k .confirm resp d) := by
  unfold avsDone
  dsimp only
  split
  · exact rail_railConfirmed hc
  next h =>
    refine ⟨hc, ?_⟩
    simpa [hw, ha, hhi, hlo] using h

theorem confirmationRead_of_due {k t : Nat} {d : Die} (hw : (rail d k).writtenAt = some t) (hn : (rail d k).confirmed = false) (ht : t + 2000 ≤ d.tally.now) :
    confirmationRead k d = avsPush k .confirm d := by
  simp only [confirmationRead, hw, hn, ht, Bool.not_false, and_self, if_true]

/-- A transaction that falls due on a rail that is on waits, or is in progress. -/
theorem rail_avsPush_pending {k : Nat} {d : Die} (hc : d.Canonical) (op : AvsOp) (ho : (rail d k).off = false) :
    (rail (avsPush k op d) k).busy = some op ∨ op ∈ (rail (avsPush k op d) k).waiting := by
  have hx : rail (modRail k (fun x => { x with waiting := avsInsert op x.waiting }) d) k = { rail d k with waiting := avsInsert op (rail d k).waiting } := rail_modRail_same hc.rails
  simp only [avsPush, ho, Bool.false_eq_true, if_false]
  rw [avsStart_eq, rail_modRail_same (modRail_can _ _ _ hc).rails, hx]
  exact engineStarted_pending ho (mem_avsInsert_self ..)

/-! ## PMBus transactions (R236, R452, R453) -/

section
variable {k : Nat} {resp : PmbusResponse} {d : Die} (hc : d.Canonical) (hp : (rail d k).pmbus = some true)
include hc hp

theorem rail_pmbusDone_valid (hok : resp.ok = true) (hfault : resp.fault = false) (he : resp.elapsedNs ≤ 20000) (ht : d.stop.testForce = false) :
    rail (pmbusDone k resp d) k = { rail d k with pmbus := none, reads := (rail d k).reads + 1, sumMw := (rail d k).sumMw + linear11 resp.word } := by
  rw [pmbusDone, rail_modRail_same hc.rails]
  simp only [hp, hok, hfault, he, ht, Bool.not_false, and_self, if_true]

/-- An invalid reading leaves the count and the sum. -/
theorem rail_pmbusDone_invalid (hbad : resp.ok = false ∨ resp.fault = true ∨ 20000 < resp.elapsedNs) : rail (pmbusDone k resp d) k = { rail d k with pmbus := none } := by
  have hno : ¬(resp.ok = true ∧ (!resp.fault) = true ∧ resp.elapsedNs ≤ 20000 ∧ (!d.stop.testForce) = true) := by
    rintro ⟨hok, hfault, he, -⟩
    rcases hbad with h | h | h
    · simp [h] at hok
    · simp [h] at hfault
    · omega
  rw [pmbusDone, rail_modRail_same hc.rails]
  simp only [hp, hno, if_false]

end

/-- Settles O32: a frame by whether it is repeated, given up or takes effect; PMBus transactions by the rail that they leave. -/
theorem railTransactionsCompleteOrFail : Obligations.RailTransactionsCompleteOrFail := by
  intro s k hc hk
  have named : isRail k = true := decide_eq_true hk
  have hsame : ∀ {f : Rail → Rail}, rail (modRail k f s.die) k = f (rail s.die k) := rail_modRail_same hc.rails
  refine ⟨fun op resp hb hf => ⟨fun hn => ?_, fun hn => ?_⟩, fun resp hb hf ht hd ha hn => ?_, fun resp t hb hf ht hd ha hra hn hw hhi hlo => ?_, fun t hw hn ho ht => ?_,
    fun resp hp => ⟨fun hok hfault hel ht => ?_, fun hbad => ?_, fun ht => ?_⟩, fun resp hp => ?_⟩
  · refine gives_run rfl named ?_
    rw [avsFrameEnd_repeats hb hf hn, hsame]
  · refine gives_run rfl named ?_
    rw [avsFrameEnd_givesUp hb hf hn]
    exact (rail_avsDead hc op).holds
  · refine gives_run rfl named ?_
    rw [rail_targetWritten hc hb hf ht hd ha hn]
    have hbusy := engineStarted_busy (x := { busFreed (rail s.die k) with writtenAt := some s.die.tally.now }) rfl
    obtain ⟨b, w, n, heq, hzero⟩ := engineStarted_eq { busFreed (rail s.die k) with writtenAt := some s.die.tally.now }
    refine ⟨by rw [heq], by rw [heq]; exact hzero.elim id id, hbusy, by rw [heq]; rfl⟩
  · refine gives_run rfl named ?_
    rw [avsFrameEnd_completes hc hb (fun h => nomatch h) hf ht hd (ha.trans hra.symm) hn]
    have hfreed : rail (modRail k busFreed s.die) k = busFreed (rail s.die k) := hsame
    have hdone := rail_avsDone_confirm (modRail_can k busFreed _ hc) (by rw [hfreed]; exact hw) hra (by rw [hfreed]; exact hhi) (by rw [hfreed]; exact hlo)
    exact (RailHolds.avsStart (fun _ _ _ _ _ _ hx => hx) hdone).holds
  · refine gives_run rfl named ?_
    rw [confirmationRead_of_due hw hn ht]
    exact rail_avsPush_pending hc _ ho
  · exact gives_run rfl named (rail_pmbusDone_valid hc hp hok hfault hel ht)
  · exact gives_run rfl named (rail_pmbusDone_invalid hc hp hbad)
  · refine gives_run rfl named ?_
    rw [pmbusTimeout, hsame]
    exact if_pos ⟨hp, ht⟩
  · refine gives_run rfl named ?_
    rw [pmbusDone, hsame]
    simp only [hp]

end Sys2Proof.Machine

namespace Sys2Proof.Machine
open Sys2Proof

/-! ## A command is refused in execution (R333, R341) -/

theorem emit_drain (code : Nat) (l : Loc) (b : Bytes) (d : Die) : (emit code l b d).ledger.drain = d.ledger.drain := by
  simp only [emit]
  split_ifs <;> rfl

/-- A command that is refused, save for want of privilege, leaves its queue with the refusal stored. -/
theorem queue_finish_refuse {q status detail : Nat} {e : Exec} {d : Die} (hc : d.Canonical) (he : (queue d q).exec = some e) (hr : (queue d q).resetting = none)
    (hs : status ≠ stNoPrivilege) : (queue (finish q (.refuse status detail) d) q).exec = none ∧
      (queue (finish q (.refuse status detail) d) q).stored =
        ({ seq := fld e.desc 4 4, status := status, flags := b1 e.reexecuted, result := 0, detail := detail } :: (queue d q).stored).take 64 := by
  simp only [finish, he]
  generalize hm : modQueue q _ d = m
  obtain ⟨tail, int, hpost⟩ := queue_postCompletion (q := q) (desc := e.desc) (slot := e.slot) (flags := b1 e.reexecuted) (result := 0) (detail := detail) (d := m)
    (hm ▸ modQueue_wf hc.queues) hs
  rw [hpost, ← hm, queue_same hc]
  simp only [hr]
  rw [hm, hpost, ← hm, queue_same hc]
  exact ⟨rfl, rfl⟩

/-! ## A stream access fails (R212, R341, R394, R466) -/

section
variable {d : Die} {address : Nat}

theorem context_patternFault {c reason : Nat} {x : Context} (hx : context d c = some x) : context (patternFault c reason d) c = some { x with state := .fault reason } := by
  simp only [patternFault, hx, context_of (emit_contexts ..)]
  exact context_setContext_some ..

/-- A Pattern stream that is read ends in a READ fault. -/
theorem streamFail_pattern {n : Nat} {x : Context} (hn : n < 16) (hx : context d n = some x) (hs : x.state = .started ∨ x.state = .starved) (hg : x.segments ≠ []) :
    streamFail n address d = patternFault n 2 (accessFail .none address 0xFFFF d) := by
  simp only [streamFail, hn, hx, if_true]
  rcases hs with hs | hs <;> simp only [hs, hg, ne_eq, not_false_eq_true, and_self, if_true]

/-- The drain that a failed access stops is to send again what was not delivered. -/
theorem streamFail_drain (hr : d.ledger.drain.running = true) (hs : d.ledger.drain.stopping = false) : (streamFail 16 address d).ledger.drain =
    { d.ledger.drain with running := false, stopping := false, partialDue := false, failed := true, outstanding := [], next := d.ledger.drain.firstUndelivered } := by
  have hsame : (accessFail .none address 0xFFFF d).ledger.drain = d.ledger.drain := emit_drain ..
  simp only [streamFail, hr, drainStop, hsame, hs, Nat.lt_irrefl, Bool.false_eq_true, if_false, if_true, fabricInt_ledger, emit_drain, decide_true]

/-- The queue executes a command that reaches host memory. -/
def reachesHost (d : Die) (q : Nat) : Bool := match (queue d q).exec with
  | some e => streamOpcodes.contains (fld e.desc 0 2)
  | none => false

/-- The command in execution on the queue fails to reach host memory. -/
def commandAccessFail (address q : Nat) (d : Die) : Die := match (queue d q).exec with
  | some e => if chandlerRuns d then finish q (.refuse stFailed 0xFFFF) (accessFail (.queue q) address (fld e.desc 0 2) d) else d
  | none => d

/-- Stream 17 fails the first queue that reaches host memory. -/
theorem streamFail_commands : streamFail 17 address d = match (List.range 17).find? (reachesHost d) with
    | some q => commandAccessFail address q d
    | none => d := rfl

theorem streamFail_command {q : Nat} {e : Exec} (hq : q < 17) (hrun : chandlerRuns d = true) (he : (queue d q).exec = some e) (hop : streamOpcodes.contains (fld e.desc 0 2) = true)
    (hfirst : ∀ p, p < q → (queue d p).exec = none) :
    streamFail 17 address d = finish q (.refuse stFailed 0xFFFF) (accessFail (.queue q) address (fld e.desc 0 2) d) := by
  have hfind : (List.range 17).find? (reachesHost d) = some q := by
    rw [List.find?_range_eq_some]
    refine ⟨by simp only [reachesHost, he, hop], List.mem_range.2 hq, fun p hp => ?_⟩
    simp only [reachesHost, hfirst p hp, Bool.not_false]
  rw [streamFail_commands, hfind]
  simp only [commandAccessFail, he, hrun, if_true]

end

/-- Settles O33: each reader of the streams by the end that its failure gives it. -/
theorem streamAccessFailuresEndTheirReaders : Obligations.StreamAccessFailuresEndTheirReaders := by
  intro s address hc
  refine ⟨fun n x hn hx hs hg => gives_run rfl (decide_eq_true (by omega)) ?_, fun hr hs => gives_run rfl rfl ?_, fun q e hq hrun he hop hreset hfirst => gives_run rfl rfl ?_⟩
  · rw [streamFail_pattern hn hx hs hg]
    exact context_patternFault (by rwa [accessFail, context_of (emit_contexts ..)])
  · rw [streamFail_drain hr hs]
    exact ⟨rfl, rfl, rfl, rfl⟩
  · rw [streamFail_command hq hrun he hop hfirst]
    have hsame : queue (accessFail (.queue q) address (fld e.desc 0 2) s.die) q = queue s.die q := queue_emit ..
    obtain ⟨hidle, hstored⟩ := queue_finish_refuse (status := stFailed) (detail := 0xFFFF) (e := e) (accessFail_kept (canonical_closed _) (.queue q) address (fld e.desc 0 2) s.die hc)
      (by rw [hsame]; exact he) (by rw [hsame]; exact hreset) (by decide)
    rw [hidle, hstored]
    exact ⟨rfl, rfl⟩

end Sys2Proof.Machine

namespace Sys2Proof.Machine
open Sys2Proof

theorem setContext_can (c : Nat) (v : Option Context) {d : Die} (hc : d.Canonical) : (setContext c v d).Canonical :=
  (canonical_closed [.contexts]).contexts (List.mem_singleton.2 rfl) c v d hc

/-! ## plan.load (R198, R204, R344, R348) -/

section
variable {d : Die} {m : RegionSet} {b : Bytes}

theorem badMask_none (h : ∀ j, j < 255 → fld b (10 * j) 10 &&& m = fld b (10 * j) 10) : badMask b m = none := by
  simp only [badMask, Option.map_eq_none_iff, List.find?_eq_none, List.mem_range]
  intro j hj
  rw [h j hj]
  simp

/-- No number below n meets a test without another that the test implies. -/
theorem find?_range_none {n : Nat} {p q : Nat → Bool} (h : ∀ k, k < n → p k = true → q k = true) : (List.range n).find? (fun k => p k && !q k) = none :=
  List.find?_eq_none.2 fun k hk => by simpa using h k (List.mem_range.1 hk)

theorem badEdge_none (hedges : ∀ g, g < 2332 → bit (fld b 2550 292) g = true → edgeLegal d m g = true)
    (hlinks : ∀ l, l < 32 → bit (fld b 2842 4) l = true → bit m (linkRegion l) = true) : badEdge d b m = none := by
  have hedge : (List.range 2332).find? (fun g => bit (fld b 2550 292) g && !edgeLegal d m g) = none := find?_range_none hedges
  have hlink : (List.range 32).find? (fun l => bit (fld b 2842 4) l && !bit m (linkRegion l)) = none := find?_range_none hlinks
  unfold badEdge
  simp only [hedge, hlink, Option.map_none]

theorem regionCheck_pass {p : Nat → Bool} {status : Nat} (h : ∀ r ∈ setRegions m, p r = false) : (regionCheck m p status).1 = false := by
  rw [regionCheck, firstRegion, List.find?_eq_none.2 fun r hr => by simp [h r hr]]
  rfl

/-- A queue whose owner has no context names none by 0xFF. -/
theorem namedCtx_own_none {q : Nat} (h : ∀ k x, k < 16 → context d k = some x → x.owner ≠ q) : namedCtx d q 0xFF = none := by
  simp only [namedCtx, if_true, List.find?_eq_none, List.mem_range]
  intro k hk
  cases hx : context d k with
  | none => simp
  | some x => simpa using h k x hk hx

/-- The lowest free place is the one below which every place is taken. -/
theorem freeContext_eq {c : Nat} (hc : c < 16) (hfree : context d c = none) (htaken : ∀ k, k < c → (context d k).isSome = true) : freeContext d = some c := by
  rw [freeContext, List.find?_range_eq_some]
  exact ⟨by rw [hfree]; rfl, List.mem_range.2 hc, fun k hk => by simpa [Option.isSome_iff_ne_none] using htaken k hk⟩

end

section
variable {d : Die} {q c : Nat} {e : Exec}

/-- The context that plan.load creates. -/
def loadedContext (q : Nat) (e : Exec) : Context :=
  { tag := fld (e.desc.drop 16) 10 2, owner := q, regions := fld (e.desc.drop 16) 0 10, masks := stagedMasks e.staged, gains := stagedGains e.staged
    edges := fld e.staged 2550 292 % 2 ^ 2332, links := fld e.staged 2842 4, key := some (keyOf q e) }

/-- Each region of the new plan belongs to it, and no other context or region changes. -/
theorem createContext_spec (hc : d.Canonical) : context (createContext q e c d) c = some (loadedContext q e) ∧ (∀ k, k ≠ c → context (createContext q e c d) k = context d k) ∧
    ∀ r, region (createContext q e c d) r = if r ∈ setRegions (fld (e.desc.drop 16) 0 10) then { region d r with plan := some c } else region d r := by
  have hcontexts : (createContext q e c d).contexts = (setContext c (some (loadedContext q e)) d).contexts := each_contexts fun _ _ => rfl
  refine ⟨?_, fun k hk => ?_, fun r => ?_⟩
  · rw [context_of hcontexts, context_setContext_some]
  · rw [context_of hcontexts, ctx_other hc hk]
  · obtain ⟨hin, hout⟩ := (each_region (g := fun _ y => { y with plan := some c }) (setRegions (fld (e.desc.drop 16) 0 10)) (set_nodup _) (setContext_can c (some (loadedContext q e)) hc)).2 r
    split
    next h => exact hin h
    next h => exact hout h

/-- plan.load of legal staging over free regions of the owner creates the context in the lowest free place. -/
theorem planLoadBody_loads (he : e.reexecuted = false) (htag : fld (e.desc.drop 16) 10 2 ≠ 0) (hz : ZeroBytes (e.desc.drop 16) 14 16) (hlen : fld (e.desc.drop 16) 12 2 = 5408)
    (hr : d.startup.ready = 1) (hm : fld (e.desc.drop 16) 0 10 ≠ 0) (hs : PlanStaged d e.staged (fld (e.desc.drop 16) 0 10))
    (hfree : ∀ r ∈ setRegions (fld (e.desc.drop 16) 0 10), present d r = true ∧ (region d r).owner = q ∧ (region d r).retired = false ∧ inPlan d r = false)
    (hown : ∀ k x, k < 16 → context d k = some x → x.owner ≠ q) (hplace : freeContext d = some c) :
    planLoadBody q e (e.desc.drop 16) d = (createContext q e c d, .done c none) := by
  obtain ⟨h2841, h2846, h2847, hmasks, hedges, hlinks⟩ := hs
  simp only [planLoadBody, he, Bool.false_eq_true, if_false, badMask_none hmasks, badEdge_none hedges hlinks, namedCtx_own_none hown, hplace]
  refine (checked_pass ?_).trans (by rw [hplace]; rfl)
  simp only [List.forall_mem_cons]
  exact ⟨decide_eq_false htag, zeroCheck_pass hz, decide_eq_false (Nat.not_le.2 h2841), decide_eq_false (not_not.2 h2846), decide_eq_false (not_not.2 h2847),
    by rw [ownedBy_of fun r hr => (hfree r hr).2.1]; rfl, readyCheck_pass hr, decide_eq_false hm, decide_eq_false (not_not.2 hlen), absentCheck_pass fun r hr => (hfree r hr).1, rfl, rfl,
    regionCheck_pass fun r hr => by simp [hfree r hr], rfl, rfl, nofun⟩

/-- plan.load that is executed again answers the context it created. -/
theorem planLoadBody_reexecuted (p : Bytes) (he : e.reexecuted = true) (hk : keyedContext d (keyOf q e) = some c) : planLoadBody q e p d = (d, .done c none) := by
  simp only [planLoadBody, he, hk, if_true]

end

/-! ## plan.start (R349) -/

/-- The islands of a region set. -/
def planIslands (m : RegionSet) : List Nat := (setRegions m).flatMap regionIslands

theorem regionIslands_lt {r i : Nat} (hr : r < 80) (hi : i ∈ regionIslands r) : i < 1248 := by
  unfold regionIslands at hi
  split at hi
  · obtain ⟨k, hk, rfl⟩ := List.mem_map.1 hi
    rw [List.mem_range] at hk
    omega
  · obtain ⟨k, hk, rfl⟩ := List.mem_map.1 hi
    rw [List.mem_range] at hk
    omega

theorem islandRegion_of_mem {r i : Nat} (hr : r < 80) (hi : i ∈ regionIslands r) : islandRegion i = r := (mem_regionIslands hr (regionIslands_lt hr hi)).1 hi

theorem mem_planIslands {m : RegionSet} {i : Nat} : i ∈ planIslands m ↔ i < 1248 ∧ islandRegion i ∈ setRegions m := by
  simp only [planIslands, List.mem_flatMap]
  constructor
  · rintro ⟨r, hr, hi⟩
    have hr80 := (mem_setRegions.1 hr).1
    exact ⟨regionIslands_lt hr80 hi, (islandRegion_of_mem hr80 hi).symm ▸ hr⟩
  · rintro ⟨hi, hr⟩
    exact ⟨islandRegion i, hr, (mem_regionIslands (mem_setRegions.1 hr).1 hi).2 rfl⟩

theorem planIslands_nodup (m : RegionSet) : (planIslands m).Nodup :=
  List.nodup_flatMap.2 ⟨fun r _ => regionIslands_nodup r, (set_nodup m).imp_of_mem fun ha hb hne _ hia hib =>
    hne ((islandRegion_of_mem (mem_setRegions.1 ha).1 hia).symm.trans (islandRegion_of_mem (mem_setRegions.1 hb).1 hib))⟩

section
variable {d : Die} (hc : d.Canonical) (count : Nat)
include hc

theorem island_takeCount_other {i j : Nat} (hj : j ≠ i) : island (takeCount count i d) j = island d j :=
  (isl_other (closeGate_can i d hc) hj).trans (isl_other hc hj)

/-- An island that takes the count has its gate closed, and stands at the count unless its reset is to end first. -/
theorem island_takeCount_same (i : Nat) : (island (takeCount count i d) i).ring.gate = false ∧
    (inReset d (islandRegion i) = false → (island d i).ring.resetSince = none → (island (takeCount count i d) i).ring.count = count) := by
  have hgate : (island (closeGate i d) i).ring.gate = false := by rw [closeGate, isl_same hc]
  unfold takeCount
  dsimp only
  rw [isl_same (closeGate_can i d hc)]
  refine ⟨?_, fun hr hs => ?_⟩
  · dsimp only
    split <;> exact hgate
  · simp only [hr, hs, Option.isSome_none, Bool.or_self, Bool.false_eq_true, if_false]

end

section
variable {d : Die} {c : Nat} {x : Context} (hx : context d c = some x)
include hx

/-- The plan is started, its islands take the count, and PLAN_START is written. -/
theorem startPlan_of_context (count tally : Nat) : startPlan c count tally d = emit 0x0501 (.other c) (le 2 x.tag ++ zeros 2 ++ le 8 tally ++ le 8 count)
    (each (planIslands x.regions) (takeCount count) (setContext c (some { x with state := .started, startCount := count, startTally := tally, last := count }) d)) := by
  simp only [startPlan, hx]
  rfl

theorem context_startPlan (count tally : Nat) : context (startPlan c count tally d) c = some { x with state := .started, startCount := count, startTally := tally, last := count } := by
  rw [startPlan_of_context hx, context_emit, context_of (each_contexts (takeCount_contexts count)), context_setContext_some]

/-- The islands of the plan stop, and take the count unless a reset holds them. -/
theorem island_startPlan (hc : d.Canonical) (count tally : Nat) {i : Nat} (hi : i ∈ planIslands x.regions) : (island (startPlan c count tally d) i).ring.gate = false ∧
    (inReset d (islandRegion i) = false → (island d i).ring.resetSince = none → (island (startPlan c count tally d) i).ring.count = count) := by
  rw [startPlan_of_context hx, island_emit]
  refine get_each_of_mem (I := fun e => e.Canonical ∧ e.regions = d.regions) (get := (island · i))
    (Q := fun y => y.ring.gate = false ∧ (inReset d (islandRegion i) = false → (island d i).ring.resetSince = none → y.ring.count = count))
    (fun j e _ he => ⟨takeCount_can count j e he.1, (takeCount_regions ..).trans he.2⟩) (fun j e _ hj he => island_takeCount_other he.1 count hj.symm)
    (planIslands_nodup _) hi (fun e he hsame => ?_) ⟨setContext_can _ _ hc, rfl⟩
  have hreset : inReset e (islandRegion i) = inReset d (islandRegion i) := by rw [inReset, inReset, region_of he.2]
  have hisland : island e i = island d i := hsame
  have htaken := island_takeCount_same he.1 count i
  rw [hreset, hisland] at htaken
  exact htaken

/-- No island outside the plan is touched. -/
theorem island_startPlan_other (hc : d.Canonical) (count tally : Nat) {i : Nat} (hi : i ∉ planIslands x.regions) : island (startPlan c count tally d) i = island d i := by
  rw [startPlan_of_context hx, island_emit]
  exact get_each_of_notMem (I := Die.Canonical) (get := (island · i)) (fun j e _ he => takeCount_can count j e he) (fun j e _ hj he => island_takeCount_other he count hj.symm)
    hi (setContext_can _ _ hc)

end

section
variable {d : Die} {q c : Nat} {x : Context} {p : Bytes} (hn : NamesContext d q (fld p 0 1) c x)
include hn

/-- plan.start of a loaded plan at a legal Tally, over regions that are neither under Assay nor at Bank, starts it. -/
theorem planStartBody_starts (e : Exec) (hz : ZeroBytes p 1 8) (hz' : ZeroBytes p 15 16) (hr : d.startup.ready = 1) (hl : x.state = .loaded)
    (hfree : ∀ r ∈ setRegions x.regions, underAssay d r = false ∧ inBank d r = false) (hs : d.stop.stopped = false) (ht : legalTally d (fld p 16 8) 200000 = true) :
    planStartBody q e p d = (startPlan c (fld p 8 8) (fld p 16 8) d, .done 0 none) := by
  have hregion : firstRegion x.regions (fun r => underAssay d r || inBank d r) = none := List.find?_eq_none.2 fun r hr => by simp [hfree r hr]
  simp only [planStartBody, ctxOf_named hn, hl, hregion, hs, ht, Bool.not_true, Bool.and_false, Bool.false_and, Bool.false_eq_true, if_false]
  refine checked_pass ?_
  simp only [List.forall_mem_append, List.forall_mem_cons]
  exact ⟨⟨⟨zeroCheck_pass hz, zeroCheck_pass hz', ctxScope_pass hn, readyCheck_pass hr, nofun⟩, ctxChecks_pass hn 0⟩, rfl, rfl, rfl, trivial, nofun⟩

end

/-! ## plan.arm and plan.read (R199, R212, R350) -/

/-- The plan as plan.arm leaves it: with a new last segment, or read again from a record of a new first one. -/
def armedContext (p : Bytes) (x : Context) : Context :=
  if bit (fld p 1 1) 0 then { x with state := .started, segments := { base := fld p 8 8, records := fld p 4 4, read := fld p 16 4 } :: x.segments.tail }
  else { x with segments := x.segments ++ [{ base := fld p 8 8, records := fld p 4 4 }], open_ := false }

/-- What stands against plan.arm: the end, a fault other than READ, a resumption without one, and a new segment after one or without room. -/
def armBusy (resume : Bool) (x : Context) : Bool :=
  let reason : Nat := match x.state with | .fault r => r | _ => 0
  (match x.state with | .ended => true | _ => false) || decide (reason = 1 ∨ reason = 3) || (resume && decide (reason ≠ 2)) || (!resume && decide (reason = 2 ∨ 4 ≤ x.segments.length))

section
variable {p : Bytes} {x : Context}

theorem armedContext_new (hop : fld p 1 1 = 0) : armedContext p x = { x with segments := x.segments ++ [{ base := fld p 8 8, records := fld p 4 4 }], open_ := false } := by
  rw [armedContext, hop]
  rfl

theorem armedContext_resumed (hop : fld p 1 1 = 1) :
    armedContext p x = { x with state := .started, segments := { base := fld p 8 8, records := fld p 4 4, read := fld p 16 4 } :: x.segments.tail } := by
  rw [armedContext, hop]
  rfl

theorem armBusy_of_reads (hs : x.state = .loaded ∨ x.state = .started ∨ x.state = .starved) (hroom : x.segments.length < 4) : armBusy false x = false := by
  rcases hs with hs | hs | hs <;> simp [armBusy, hs, hroom]

theorem armBusy_of_readFault (hs : x.state = .fault 2) : armBusy true x = false := by
  simp [armBusy, hs]

end

section
variable {d : Die} {q c : Nat} {x : Context} {p : Bytes} (hn : NamesContext d q (fld p 0 1) c x)
include hn

/-- plan.arm of a legal segment, with nothing against it, arms the plan. -/
theorem planArmBody_arms (e : Exec) (hop : fld p 1 1 ≤ 1) (hz : ZeroBytes p 2 4) (hz' : ZeroBytes p 20 24) (hr : d.startup.ready = 1) (hpos : 0 < fld p 4 4) (hle : fld p 4 4 ≤ 2 ^ 24)
    (hbase : fld p 8 8 % 16 = 0) (hnew : bit (fld p 1 1) 0 = false → fld p 16 4 = 0) (hresume : bit (fld p 1 1) 0 = true → fld p 16 4 < fld p 4 4) (hfree : armBusy (bit (fld p 1 1) 0) x = false) :
    planArmBody q e p d = (setContext c (some (armedContext p x)) d, .done (4 - (armedContext p x).segments.length) none) := by
  simp only [planArmBody, ctxOf_named hn]
  refine checked_pass ?_
  simp only [List.forall_mem_append, List.forall_mem_cons]
  refine ⟨⟨⟨bitsCheck_pass (and_mask_of_le_one hop), zeroCheck_pass hz, decide_eq_false (by omega), ?_, zeroCheck_pass hz', ctxScope_pass hn, readyCheck_pass hr, nofun⟩, ctxChecks_pass hn 0⟩,
    decide_eq_false (by omega), decide_eq_false (by omega), ?_, hfree, nofun⟩
  · cases hb : bit (fld p 1 1) 0 with
    | true => rfl
    | false => exact decide_eq_false (not_not.2 (hnew hb))
  · cases hb : bit (fld p 1 1) 0 with
    | true => exact decide_eq_false (Nat.not_le.2 (hresume hb))
    | false => rfl

theorem planReadBody_reads (e : Exec) (hz : ZeroBytes p 1 4) : planReadBody q e p d = (d, .done (contextWord c x) none) := by
  unfold planReadBody
  refine (checked_pass ?_).trans (by rw [ctxOf_named hn])
  simp only [List.forall_mem_append, List.forall_mem_cons]
  exact ⟨⟨zeroCheck_pass hz, ctxScope_pass hn, nofun⟩, ctxChecks_pass hn 0⟩

end

/-- Settles O39: each command passes its checks, and its body is read off the contexts, the regions and the islands. -/
theorem plansAreLoadedStartedAndArmed : Obligations.PlansAreLoadedStartedAndArmed := by
  intro s q e hc
  dsimp only
  have hroomLeft : ∀ n, 4 - (n + 1) = 3 - n := Nat.add_sub_add_right 3 1
  refine ⟨fun hx => ⟨fun c he htag hz hlen hr hm hs hfree hown h16 hnone htaken => ?_, fun c he hk => ?_⟩,
    fun c x hn => ⟨fun hx hz hz' hr hl hfree hs h10 hlead hlast => ?_, fun hx hz hz' hr hpos hle hbase => ⟨fun hop hfrom hst hroom => ?_, fun hop hfrom hst => ?_⟩, fun hx hz => ?_⟩⟩
  · obtain ⟨hnew, hothers, hregions⟩ := createContext_spec (q := q) (c := c) (e := e) hc
    exact completesOk_of_body hx rfl (planLoadBody_loads he htag hz hlen hr hm hs hfree hown (freeContext_eq h16 hnone htaken))
      ⟨⟨_, hnew, rfl, rfl, rfl, rfl, rfl, rfl, rfl, rfl⟩, hothers, hregions⟩
  · exact completesOk_of_body hx rfl (planLoadBody_reexecuted _ he hk) rfl
  · obtain ⟨-, hctx, -, -⟩ := id hn
    refine completesOk_of_body hx rfl (planStartBody_starts hn e hz hz' hr hl hfree hs (decide_eq_true ⟨h10, hlead, hlast⟩)) ⟨context_startPlan hctx .., fun i hi h1248 => ?_, fun i hi => ?_⟩
    · exact island_startPlan hctx hc _ _ (mem_planIslands.2 ⟨h1248, hi⟩)
    · exact island_startPlan_other hctx hc _ _ fun h => hi (mem_planIslands.1 h).2
  · have hbody := planArmBody_arms hn e (by omega) hz hz' hr hpos hle hbase (fun _ => hfrom) (by rw [hop]; nofun) (by rw [hop]; exact armBusy_of_reads hst hroom)
    rw [armedContext_new hop, List.length_append, List.length_singleton, hroomLeft] at hbody
    exact completesOk_of_body hx rfl hbody ⟨context_setContext_some .., rfl⟩
  · have hbody := planArmBody_arms hn e (by omega) hz hz' hr hpos hle hbase (by rw [hop]; nofun) (fun _ => hfrom) (by rw [hop]; exact armBusy_of_readFault hst)
    rw [armedContext_resumed hop, List.length_cons, hroomLeft] at hbody
    exact completesOk_of_body hx rfl hbody ⟨context_setContext_some .., rfl⟩
  · exact completesOk_of_body hx rfl (planReadBody_reads hn e hz) rfl

end Sys2Proof.Machine

namespace Sys2Proof.Machine
open Sys2Proof

/-! ## Records are read and chained (R199, R200, R201, R205, R209, R212) -/

/-- The chain stands at this cycle, with these segments to read, and reading goes on. -/
def Reads (cycle : Nat) (g : Segment) (t : List Segment) (x : Context) : Prop := x.last = cycle ∧ x.segments = g :: t ∧ x.state = .started

/-- The action of a record by its code; a second step mark of one cycle is refused as a reserved encoding is (R205). -/
def takenAction (x : Context) (cycle : Nat) (b : Bytes) : Option (Nat × Option Action) :=
  match parseRecord b with
  | some (7, a) => if x.lastMark = some cycle then none else some (7, a)
  | p => p

/-- A record of segment g whose cycle has joined the chain takes effect. -/
def recordTaken (c cycle : Nat) (b : Bytes) (g : Segment) (taken : Option (Nat × Option Action)) (d : Die) : Die :=
  match taken with
  | none => recordDone c (emit 0x0505 (.other c) (le 8 g.base ++ le 4 g.read) d)
  | some (9, _) => patternEnd c cycle d
  | some (_, some a) => retirePass c (recordDone c (enterWindow c cycle (fld b 4 2) a d))
  | some (_, none) => recordDone c d

theorem code_of_ite {P : Prop} [Decidable P] {k : Nat} {a : Option Action} {v : Nat × Option Action} (h : (if P then some (k, a) else none) = some v) : v.1 = k := by
  split at h
  · cases h
    rfl
  · cases h

/-- A record that is read as an action has the code of its byte 6. -/
theorem parseRecord_code {b : Bytes} {v : Nat × Option Action} (h : parseRecord b = some v) : v.1 = fld b 6 1 := by
  unfold parseRecord at h
  extract_lets mask b7 rest edges at h
  split at h
  iterate 10 next hcode => exact (code_of_ite h).trans hcode.symm
  next => cases h

theorem takenAction_code {x : Context} {cycle : Nat} {b : Bytes} {v : Nat × Option Action} (h : takenAction x cycle b = some v) : v.1 = fld b 6 1 := by
  unfold takenAction at h
  split at h
  next a hp =>
    split at h
    · cases h
    · cases h
      exact parseRecord_code hp
  next => exact parseRecord_code h

theorem takenAction_end {x : Context} {cycle : Nat} {b : Bytes} (h9 : fld b 6 1 = 9) (hs : (parseRecord b).isSome = true) : ∃ a, takenAction x cycle b = some (9, a) := by
  obtain ⟨v, hv⟩ := Option.isSome_iff_exists.1 hs
  obtain ⟨k, a⟩ := v
  obtain rfl : k = 9 := (parseRecord_code hv).trans h9
  exact ⟨a, by rw [takenAction, hv]; rfl⟩

theorem segmentFreed_contexts (c : Nat) (g : Segment) (d : Die) : (segmentFreed c g d).contexts = d.contexts := emit_contexts ..

theorem refuseEdges_contexts (x : Context) (edges : List Nat) (d : Die) : (refuseEdges x edges d).contexts = d.contexts :=
  (refuseEdges_kept (sameBut_closed _ d) x edges d (sameBut_refl _ d)) .contexts (by decide)

namespace ContextHolds

section
variable {c : Nat} {d : Die}

/-- A record enters the window; the latest mark moves with it. -/
theorem enterWindow {p : Context → Prop} (hp : ∀ x w m, p x → p { x with window := w, lastMark := m }) (h : ContextHolds p c d) (cycle mask : Nat) (a : Action) :
    ContextHolds p c (enterWindow c cycle mask a d) := by
  obtain ⟨x, hx, hpx⟩ := h
  simp only [Machine.enterWindow, hx]
  exact ⟨_, context_setContext_some .., hp x _ _ hpx⟩

variable {cycle : Nat} {g : Segment} {t : List Segment} (hg : g.read + 1 < g.records)
include hg

/-- The read index moves on within a segment. -/
theorem recordDone (h : ContextHolds (Reads cycle g t) c d) : ContextHolds (Reads cycle { g with read := g.read + 1 } t) c (recordDone c d) := by
  obtain ⟨x, hx, hlast, hsegs, hstate⟩ := h
  simp only [Machine.recordDone, hx, hsegs, hg, if_true]
  exact ⟨_, context_setContext_some .., hlast, rfl, hstate⟩

/-- A record other than END is taken, and the next one of its segment is to be read. -/
theorem recordTaken (h : ContextHolds (Reads cycle g t) c d) (b : Bytes) (g' : Segment) {taken : Option (Nat × Option Action)} (h9 : ∀ a, taken ≠ some (9, a)) :
    ContextHolds (Reads cycle { g with read := g.read + 1 } t) c (recordTaken c cycle b g' taken d) := by
  unfold Machine.recordTaken
  split
  next => exact (h.of_contexts (emit_contexts ..)).recordDone hg
  next => exact absurd rfl (h9 _)
  next => exact retirePass (fun _ _ _ _ _ h => h) ((enterWindow (fun _ _ _ h => h) h ..).recordDone hg)
  next => exact h.recordDone hg

end
end ContextHolds

section
variable {c cycle : Nat} {d : Die} {x : Context} (hx : context d c = some x)
include hx

theorem takeRecord_of_context (b : Bytes) : takeRecord c cycle b d =
    recordTaken c cycle b (x.segments.headD { base := 0, records := 0 }) (takenAction x cycle b) (setContext c (some { x with last := cycle }) d) := by
  simp only [takeRecord, hx]
  rfl

/-- END frees the segments that wait, and opens the horizon. -/
theorem context_patternEnd : context (patternEnd c cycle d) c = some { x with state := .ended, open_ := true, segments := [] } := by
  simp only [patternEnd, hx, context_emit]
  exact context_setContext_some ..

/-- Where no record of the window can be retired, none is. -/
theorem retirePass_of_none (hw : ∀ w ∈ x.window, retirable d x w = false) : retirePass c d = d := by
  have hnone : x.window.filter (retirable d x) = [] := List.filter_eq_nil_iff.2 fun w h => by simp [hw w h]
  simp only [retirePass, hx, hnone, each, List.foldl_nil, ite_self]

/-- A started context with a segment and room in its window reads the record: its cycle joins the chain, or faults it. -/
theorem recordRead_of_started {b : Bytes} {g : Segment} {t : List Segment} (hw : ∀ w ∈ x.window, retirable d x w = false) (hg : x.segments = g :: t) (hs : x.state = .started)
    (hch : g.read ≠ 0 ∨ chandlerRuns d = true) (hroom : x.window.length < 256) :
    recordRead c b d = if 2 ^ 56 - 1 < x.last + fld b 0 4 then patternFault c 3 d else takeRecord c (x.last + fld b 0 4) b d := by
  have harmed : (decide (g.read = 0) && !chandlerRuns d) = false := guard_pass fun h0 => by rw [hch.resolve_left (not_not.2 h0)]; rfl
  simp only [recordRead, retirePass_of_none hx hw, hx, hg, hs, harmed, readingResumes, Nat.not_le.2 hroom, Bool.not_true, Bool.or_self, Bool.false_eq_true, if_false]

end

/-! ## A record is applied (R206, R207, R219) -/

section
variable {c i : Nat} {x : Context} {w : WinRecord} {d : Die} (hx : context d c = some x) (hw : x.window = [w])
include hx hw

/-- An island that is asked for the one record of a window, and has reached its cycle, applies it. -/
theorem actionsAt_single (hplan : (region d (islandRegion i)).plan = some c) (hrel : x.released = true) (hexc : islandExcused d i = false) (hasked : (askedIslands d x w).contains i = true)
    (hnew : w.applied.contains i = false) (hdue : applicationCycle x w ≤ (island d i).ring.count) : actionsAt i d = retirePass c (applyRecord c i x w (markApplied c 0 i d)) := by
  have hone : applyOne c i 0 d = applyRecord c i x w (markApplied c 0 i d) := by
    simp only [applyOne, hx, hw, List.getElem?_cons_zero, hasked, hnew, hdue, decide_true, Bool.not_false, Bool.and_self, if_true]
  rw [← hone]
  simp only [actionsAt, hplan, hx, hrel, hexc, hw, Bool.not_true, Bool.false_eq_true, if_false]
  rfl

end

theorem island_of {a b : Die} (h : a.islands = b.islands) (i : Nat) : island a i = island b i := by
  unfold island
  rw [h]

/-- A forecast window that is not empty joins those of the ring, whose count stands. -/
theorem ring_openWindow {i k first last : Nat} {d : Die} (hc : d.Canonical) (hk : 0 < k) (hl : first ≤ last) :
    (island (openWindow i k first last d) i).ring.windows = (island d i).ring.windows ++ [{ k := k, first := first, last := last }] ∧
      (island (openWindow i k first last d) i).ring.count = (island d i).ring.count := by
  rw [openWindow, if_neg (by omega), isl_same hc]
  dsimp only
  split
  · split <;> exact ⟨rfl, rfl⟩
  · exact ⟨rfl, rfl⟩

/-! ## A request is issued (R214, R215) -/

/-- The Pattern's target takes force in a region. -/
def patternTargeted (c opp r : Nat) (d : Die) : Die := throttleUpdate r (modRegion r (fun y => { y with patternTarget := some opp, patternContext := c }) d)

theorem patternTargeted_kept {P : Die → Prop} (hc : Closed P [.ledger, .regions]) (c opp r : Nat) (d : Die) (hd : P d) : P (patternTargeted c opp r d) :=
  throttleUpdate_kept hc r _ (hc.regions (by decide) r _ d hd)

/-- The region's Pattern target is this one, of context c. -/
def Targets (c opp : Nat) (x : Region) : Prop := x.patternTarget = some opp ∧ x.patternContext = c

/-- The region's own obstacles to a commit are those of y. -/
def SameObstacles (y x : Region) : Prop := x.reset = y.reset ∧ x.power = y.power ∧ x.retired = y.retired ∧ x.test = y.test

theorem commitBlocked_of {a b : Die} {r : Nat} (hcommits : b.commits = a.commits) (hstartup : b.startup = a.startup) (hstore : b.store = a.store) (hdormant : b.dormant = a.dormant)
    (hr : SameObstacles (region a r) (region b r)) : commitBlocked b r = commitBlocked a r := by
  obtain ⟨hreset, hpower, hretired, htest⟩ := hr
  simp only [commitBlocked, pendingCommit, inReset, underAssay, inBank, present, hcommits, hstartup, hstore, hdormant, hreset, hpower, hretired, htest]

section
variable {c opp : Nat} {l : List Nat} {d : Die}

theorem each_patternTargeted_sameBut : SameBut [.ledger, .regions] d (each l (patternTargeted c opp) d) :=
  each_kept (fun r e he => patternTargeted_kept (sameBut_closed _ d) c opp r e he) (sameBut_refl _ d)

variable (hc : d.Canonical)
include hc

theorem region_each_patternTargeted {r : Nat} (hr : r ∈ l) : Targets c opp (region (each l (patternTargeted c opp) d) r) := by
  have hthrottle : ∀ k e, RegionHolds (Targets c opp) r (modRegion k (fun y => { y with patternTarget := some opp, patternContext := c }) e) → RegionHolds (Targets c opp) r (patternTargeted c opp k e) :=
    fun k e h => h.throttleUpdate fun _ _ _ _ _ _ h => h
  exact (each_make (I := Die.Canonical) (P := RegionHolds (Targets c opp) r) l r hr (fun k e _ he => patternTargeted_kept (canonical_closed _) c opp k e he)
    (fun e he => hthrottle r e (RegionHolds.modRegion_same (p := fun _ => True) ⟨he, trivial⟩ fun _ _ => ⟨rfl, rfl⟩))
    (fun k e _ _ h => hthrottle k e (h.modRegion k fun _ _ => ⟨rfl, rfl⟩)) hc).2.holds

/-- A target is no obstacle to a commit, and takes none away. -/
theorem commitBlocked_each_patternTargeted (r : Nat) : commitBlocked (each l (patternTargeted c opp) d) r = commitBlocked d r := by
  have hsame : SameBut [.ledger, .regions] d (each l (patternTargeted c opp) d) := each_patternTargeted_sameBut
  have hregion : RegionHolds (SameObstacles (region d r)) r (each l (patternTargeted c opp) d) :=
    each_kept (fun k e he => RegionHolds.throttleUpdate (fun _ _ _ _ _ _ h => h) (RegionHolds.modRegion he k)) ⟨hc, rfl, rfl, rfl, rfl⟩
  exact commitBlocked_of (hsame .commits (by decide)) (hsame .startup (by decide)) (hsame .store (by decide)) (hsame .dormant (by decide)) hregion.holds

end

/-- The regions of a list without an obstacle to a commit. -/
def unblocked (d : Die) (l : List Nat) : List Nat := l.filter (fun r => !commitBlocked d r)

/-- What a request's issue leaves: the targets, and a commit of the regions without an obstacle. -/
structure Issued (c opp : Nat) (l : List Nat) (d e : Die) : Prop where
  contexts : e.contexts = d.contexts
  targets : ∀ r ∈ l, Targets c opp (region e r)
  request : unblocked d l ≠ [] → ∃ q ∈ e.commitReqs, q.source = .pattern ∧ q.target = opp ∧ q.context = c ∧ q.members = regionSet (unblocked d l)

/-- The request for a commit of the regions without an obstacle, the others deferred. -/
def patternRequest (c opp : Nat) (l : List Nat) (late : Bool) (d : Die) : CommitReq :=
  { source := .pattern, target := opp, members := regionSet (unblocked d l), since := d.tally.now, context := c, late := late, deferred := regionSet (l.filter (commitBlocked d)) }

/-- The request joins those that wait for a Chandler, unless every region has an obstacle. -/
def requestPosted (c opp : Nat) (l : List Nat) (late : Bool) (d : Die) : Die :=
  if (unblocked d l).isEmpty then d else { d with commitReqs := d.commitReqs ++ [patternRequest c opp l late d] }

theorem issueRequest_eq (c opp : Nat) (l : List Nat) (late : Bool) (d : Die) : issueRequest c opp l late d = requestPosted c opp l late (each l (patternTargeted c opp) d) := rfl

theorem requestPosted_contexts (c opp : Nat) (l : List Nat) (late : Bool) (d : Die) : (requestPosted c opp l late d).contexts = d.contexts := by
  unfold requestPosted
  split <;> rfl

theorem requestPosted_regions (c opp : Nat) (l : List Nat) (late : Bool) (d : Die) : (requestPosted c opp l late d).regions = d.regions := by
  unfold requestPosted
  split <;> rfl

theorem requestPosted_requests {c opp : Nat} {l : List Nat} {late : Bool} {d : Die} (h : unblocked d l ≠ []) : patternRequest c opp l late d ∈ (requestPosted c opp l late d).commitReqs := by
  rw [requestPosted, if_neg (by simpa using h)]
  exact List.mem_append_right _ (List.mem_singleton.2 rfl)

theorem issueRequest_issues {c opp : Nat} {l : List Nat} {late : Bool} {d : Die} (hc : d.Canonical) : Issued c opp l d (issueRequest c opp l late d) := by
  have hfree : unblocked (each l (patternTargeted c opp) d) l = unblocked d l := by
    simp only [unblocked, commitBlocked_each_patternTargeted hc]
  rw [issueRequest_eq]
  refine ⟨(requestPosted_contexts ..).trans (each_patternTargeted_sameBut .contexts (by decide)), fun r hr => ?_, fun hne => ?_⟩
  · rw [region_of (requestPosted_regions ..)]
    exact region_each_patternTargeted hc hr
  · rw [← hfree] at hne ⊢
    exact ⟨_, requestPosted_requests hne, rfl, rfl, rfl, rfl⟩

/-- The first request of a window, whose issuing island has begun its issue cycle, leaves the window and is issued. -/
theorem requestIssue_head {c opp advance i : Nat} {x : Context} {w : WinRecord} {rest : List WinRecord} {d : Die} (hx : context d c = some x) (hr : x.released = true) (hw : x.window = w :: rest)
    (ha : w.action = .oppRequest opp advance) (hi : issuer d x w = some i) (ht : issueCycle x w ≤ (island d i).ring.count) :
    requestIssue c d = issueRequest c opp (addressed d x w) w.late (setContext c (some { x with window := rest }) d) := by
  simp only [requestIssue, hx, hr, hw, List.find?_cons, ha, hi, ht, decide_true, List.erase_cons_head, Bool.not_true, Bool.false_eq_true, if_false]

/-- Settles O19: the record read by the chain it joins, the window by the record applied, the request by the commit it asks for. -/
theorem patternRecordsAreReadAppliedAndIssued : Obligations.PatternRecordsAreReadAppliedAndIssued := by
  intro s c x hc hc16 hx
  have named : isContext c = true := decide_eq_true hc16
  refine ⟨fun b g t hb hw hg hs hch hroom => ?_, fun i w k n hi hplan hrel hexc hwin hasked hnew ha hdue hyoke hk hn => ?_, fun w rest opp advance i hrel hwin ha hi ht => ?_⟩
  · have hread := recordRead_of_started (b := b) hx hw hg hs hch hroom
    have hnamed : (isContext c && hasLength 16 b) = true := by rw [named, hasLength, hb]; rfl
    have hset : ∀ cycle, context (setContext c (some { x with last := cycle }) s.die) c = some { x with last := cycle } := fun _ => context_setContext_some ..
    refine ⟨fun hover => gives_run rfl hnamed ?_, fun hfits hmore h9 => gives_run rfl hnamed ?_, fun hfits h9 hparsed => gives_run rfl hnamed ?_⟩
    · rw [hread, if_pos hover]
      exact context_patternFault hx
    · rw [hread, if_neg (Nat.not_lt.2 hfits), takeRecord_of_context hx]
      have hchain : ContextHolds (Reads (x.last + fld b 0 4) g t) c (setContext c (some { x with last := x.last + fld b 0 4 }) s.die) := ⟨_, hset _, rfl, hg, hs⟩
      exact hchain.recordTaken hmore _ _ fun a htaken => h9 (takenAction_code htaken).symm
    · obtain ⟨a, htaken⟩ := takenAction_end (x := x) (cycle := x.last + fld b 0 4) h9 hparsed
      rw [hread, if_neg (Nat.not_lt.2 hfits), takeRecord_of_context hx, htaken]
      exact context_patternEnd (hset _)
  · refine gives_run rfl (decide_eq_true hi) ?_
    have happly : applyRecord c i x w (markApplied c 0 i s.die) = openWindow i k w.cycle (w.cycle + n - 1) (markApplied c 0 i s.die) := by
      have hisland : island (markApplied c 0 i s.die) i = island s.die i := rfl
      simp only [applyRecord, ha, hisland, hyoke, decide_false, Bool.false_eq_true, if_false]
    rw [actionsAt_single hx hwin hplan hrel hexc hasked hnew (by simpa only [applicationCycle, ha] using hdue), happly, island_of (retirePass_islands ..)]
    exact ring_openWindow (markApplied_kept (canonical_closed _) c 0 i _ hc) hk (by omega)
  · refine gives_run rfl named ?_
    rw [requestIssue_head hx hrel hwin ha hi ht]
    obtain ⟨hcontexts, htargets, hrequest⟩ := issueRequest_issues (c := c) (opp := opp) (l := addressed s.die x w) (late := w.late) (setContext_can c (some { x with window := rest }) hc)
    refine ⟨?_, htargets, hrequest⟩
    rw [context_of hcontexts]
    exact context_setContext_some ..

end Sys2Proof.Machine

namespace Sys2Proof.Machine
open Sys2Proof

/-! ## One turn of the rails (R236 to R239) -/

/-- Where each turn changes its own rail alone, what its turn makes of rail k stands after the turns of all five. -/
theorem rail_each_turn {f : Nat → Die → Die} {Q : Rail → Prop} {k : Nat} {d : Die} (hc : d.Canonical) (hk : k < 5)
    (hf : ∀ P : Die → Prop, Closed P [.ledger, .rails] → ∀ j e, P e → P (f j e)) (ho : ∀ j e, e.Canonical → k ≠ j → rail (f j e) k = rail e k)
    (hm : ∀ e, e.Canonical → SameBut [.ledger, .rails] d e → rail e k = rail d k → Q (rail (f k e) k)) : Q (rail (each (List.range 5) f d) k) :=
  get_each_of_mem (I := fun e => e.Canonical ∧ SameBut [.ledger, .rails] d e) (get := (rail · k))
    (fun j e _ he => ⟨hf _ (canonical_closed _) j e he.1, hf _ (sameBut_closed _ d) j e he.2⟩) (fun j e _ hj he => ho j e he.1 hj.symm)
    List.nodup_range (List.mem_range.2 hk) (fun e he hsame => hm e he.1 he.2 hsame) ⟨hc, sameBut_refl _ d⟩

theorem chandlerRuns_of_sameBut {a b : Die} (h : SameBut [.ledger, .rails] a b) : chandlerRuns b = chandlerRuns a :=
  chandlerRuns_congr (congrArg Tally.running (h .tally (by decide))) (h .chandler (by decide))

/-! ### The reads of telemetry (R236) -/

/-- A rail whose READ_POUT falls due at an instant, with a Chandler that executes or without. -/
def readDue (runs : Bool) (now : Nat) (x : Rail) : Rail :=
  if x.off = true ∨ x.retention = true then { x with sawOff := true } else if !runs then { x with sawNoChandler := true }
  else if x.pmbus.isSome = true then x else { x with pmbus := some true, pmbusAt := now }

theorem telemetryStart_eq (d : Die) : telemetryStart d = each (List.range 5) (fun k d => modRail k (readDue (chandlerRuns d) d.tally.now) d) d := rfl

theorem rail_telemetryStart {k : Nat} {d : Die} (hc : d.Canonical) (hk : k < 5) : rail (telemetryStart d) k = readDue (chandlerRuns d) d.tally.now (rail d k) := by
  rw [telemetryStart_eq]
  refine rail_each_turn (Q := (· = readDue (chandlerRuns d) d.tally.now (rail d k))) hc hk (fun P hP j e he => modRail_kept hP (by decide) _ _ _ he) (fun j e he hj => rail_modRail_other he.rails hj)
    fun e he hsame hrail => ?_
  have htally : e.tally = d.tally := hsame .tally (by decide)
  rw [rail_modRail_same he.rails, hrail, chandlerRuns_of_sameBut hsame, htally]

/-! ### The end of a window (R237 to R239) -/

/-- What the end of a window makes of rail x: the sums start afresh; the gain and offset stand unless the host wrote them; a window that is used sets an update, one that is skipped is counted. -/
def WindowEnded (d : Die) (x y : Rail) : Prop :=
  y.reads = 0 ∧ y.sumMw = 0 ∧ y.sumDyn = 0 ∧ y.sumLeak = 0 ∧ y.sumCal = 0 ∧ y.hostWrite = none ∧
  (x.hostWrite = none → y.gain = x.gain ∧ y.offset = x.offset) ∧
  (skipReason d x = 0 → y.skipped = 0 ∧ (x.hostWrite = none → y.update = some ((updated x).1, (updated x).2, d.tally.now + 20000))) ∧
  (skipReason d x ≠ 0 → y.skipped = x.skipped + 1 ∧ y.update = none)

theorem skipReason_of_sameBut {a b : Die} (h : SameBut [.ledger, .rails] a b) (x : Rail) : skipReason b x = skipReason a x := by
  have htally : b.tally = a.tally := h .tally (by decide)
  rw [skipReason, skipReason, chandlerRuns_of_sameBut h, htally]

/-- The end of a window writes one rail, after the records of it. -/
theorem railWindowEnd_writes (k : Nat) {d : Die} (hc : d.Canonical) :
    ∃ e f, e.Canonical ∧ e.rails = d.rails ∧ railWindowEnd k d = modRail k f e ∧ ∀ y, WindowEnded d (rail d k) (f y) := by
  unfold railWindowEnd
  extract_lets x reason u after e assay
  have he : e.Canonical ∧ e.rails = d.rails ∧ e.tally = d.tally := by
    unfold e
    split_ifs <;> simp [hc]
  obtain ⟨hcan, hrails, htally⟩ := he
  refine ⟨e, _, hcan, hrails, rfl, fun y => ⟨rfl, rfl, rfl, rfl, rfl, rfl, fun hn => ?_, fun hs => ⟨?_, fun hn => ?_⟩, fun hs => ⟨?_, ?_⟩⟩⟩
  · simp [x, hn]
  · exact if_pos hs
  · simp [reason, x, u, hs, hn, htally]
  · exact if_neg hs
  · exact if_neg fun h => hs h.1

theorem rail_railWindowEnd_other {j k : Nat} {d : Die} (hc : d.Canonical) (hk : k ≠ j) : rail (railWindowEnd j d) k = rail d k := by
  obtain ⟨e, f, hcan, hrails, heq, -⟩ := railWindowEnd_writes j hc
  rw [heq, rail_modRail_other hcan.rails hk, rail_of hrails]

theorem rail_railWindowEnd_same {k : Nat} {d : Die} (hc : d.Canonical) : WindowEnded d (rail d k) (rail (railWindowEnd k d) k) := by
  obtain ⟨e, f, hcan, -, heq, hended⟩ := railWindowEnd_writes k hc
  rw [heq, rail_modRail_same hcan.rails]
  exact hended _

theorem rail_calibrationWindowEnd {k : Nat} {d : Die} (hc : d.Canonical) (hk : k < 5) : WindowEnded d (rail d k) (rail (calibrationWindowEnd d) k) := by
  refine rail_each_turn (Q := WindowEnded d (rail d k)) hc hk (fun P hP => railWindowEnd_kept hP) (fun j e he hj => rail_railWindowEnd_other he hj) fun e he hsame hrail => ?_
  have htally : e.tally = d.tally := hsame .tally (by decide)
  have hended := rail_railWindowEnd_same (k := k) he
  rw [hrail] at hended
  unfold WindowEnded at hended ⊢
  rwa [skipReason_of_sameBut hsame, htally] at hended

/-! ### An update applies (R238) -/

/-- What an update that waits makes of rail x at an instant. -/
def UpdateApplied (now : Nat) (x y : Rail) : Prop :=
  (x.update = none → y = x) ∧ ∀ g o t, x.update = some (g, o, t) → (t ≤ now → y = { x with gain := g, offset := o, update := none }) ∧ (now < t → y = x)

theorem updateApply_of_none {k : Nat} {d : Die} (h : (rail d k).update = none) : updateApply k d = d := by
  simp only [updateApply, h]

theorem updateApply_of_early {k g t : Nat} {o : Int} {d : Die} (h : (rail d k).update = some (g, o, t)) (ht : d.tally.now < t) : updateApply k d = d := by
  simp only [updateApply, h, ht, if_true]

theorem updateApply_rails {k g t : Nat} {o : Int} {d : Die} (h : (rail d k).update = some (g, o, t)) (ht : t ≤ d.tally.now) :
    (updateApply k d).rails = (modRail k (fun x => { x with gain := g, offset := o, update := none }) d).rails := by
  simp only [updateApply, h, Nat.not_lt.2 ht, if_false]
  split
  · exact emit_rails ..
  · rfl

theorem rail_updateApply_same {k : Nat} {d : Die} (hc : d.Canonical) : UpdateApplied d.tally.now (rail d k) (rail (updateApply k d) k) := by
  refine ⟨fun hn => by rw [updateApply_of_none hn], fun g o t hu => ⟨fun ht => ?_, fun ht => by rw [updateApply_of_early hu ht]⟩⟩
  rw [rail_of (updateApply_rails hu ht), rail_modRail_same hc.rails]

theorem rail_updateApply_other {j k : Nat} {d : Die} (hc : d.Canonical) (hk : k ≠ j) : rail (updateApply j d) k = rail d k := by
  rcases hu : (rail d j).update with _ | ⟨g, o, t⟩
  · rw [updateApply_of_none hu]
  · rcases Nat.lt_or_ge d.tally.now t with ht | ht
    · rw [updateApply_of_early hu ht]
    · rw [rail_of (updateApply_rails hu ht), rail_modRail_other hc.rails hk]

theorem rail_calibrationUpdateApply {k : Nat} {d : Die} (hc : d.Canonical) (hk : k < 5) : UpdateApplied d.tally.now (rail d k) (rail (calibrationUpdateApply d) k) := by
  refine rail_each_turn (Q := UpdateApplied d.tally.now (rail d k)) hc hk (fun P hP => updateApply_kept hP) (fun j e he hj => rail_updateApply_other he hj) fun e he hsame hrail => ?_
  have htally : e.tally = d.tally := hsame .tally (by decide)
  rw [← hrail, ← htally]
  exact rail_updateApply_same he

/-! ## What the energy account of a region outlasts (R242, R243, R276) -/

/-- The energy account of region r has a property, on a die in canonical form. -/
abbrev EnergyHolds (q : RegionEnergy → Prop) (r : Nat) (d : Die) : Prop := RegionHolds (fun x => q x.energy) r d

namespace EnergyHolds

section
variable {q : RegionEnergy → Prop} {r : Nat} {d : Die} (h : EnergyHolds q r d)
include h

theorem changeCeilings {k : Nat} {f : Region → Region} (hf : ∀ x, (f x).energy = x.energy) : EnergyHolds q r (Machine.changeCeilings k f d) :=
  RegionHolds.changeCeilings (h.modRegion k fun x hx => (hf x).symm ▸ hx) fun _ _ _ _ _ hx => hx

theorem applyFence (k : Nat) (on : Bool) (src : Nat) : EnergyHolds q r (Machine.applyFence k on src d) := by
  unfold Machine.applyFence
  extract_lets x
  split
  · exact h
  · split
    · exact EnergyHolds.changeCeilings (h.emit ..) fun _ => rfl
    · have hlifted := EnergyHolds.changeCeilings (q := q) (k := k) (f := fun x => { x with fenced := false, pin := none }) (h.emit 0x0709 (.region k) (le 1 src)) fun _ => rfl
      split
      · exact hlifted
      · exact each_kept (fun j e he => he.changeCeilings fun _ => rfl) hlifted

theorem moveRegion (k : Nat) : EnergyHolds q r (Machine.moveRegion k d) := by
  unfold Machine.moveRegion
  split
  · exact h
  · extract_lets old d1 d2 d3
    have h1 : EnergyHolds q r d1 := EnergyHolds.applyFence (h.modRegion k) k false 1
    have h2 : EnergyHolds q r d2 := (h1.modRegion k).emit ..
    have h3 : EnergyHolds q r d3 := h2.of_regions (uncoupleBorders_regions ..) (uncoupleBorders_can _ _ h2.can)
    split
    · exact h3.modRegion k
    · exact h3

end

end EnergyHolds

/-! ## The price of an interval (R228, R233, R234) -/

/-- The counts that price region r: those of the interval, none where the region is retired. -/
def countsOf (counts : List Activity) (d : Die) (r : Nat) : List Nat :=
  if (region d r).retired = true then [] else ((counts.find? (fun c => c.region = r)).map (·.classes)).getD []

/-- The figures of region r in the interval that ends: an assayed one repeats those of its last. -/
def intervalFigures (counts : List Activity) (d : Die) (r : Nat) : Figures :=
  if underAssay d r = true then lastFigures (region d r).energy else figures d r (countsOf counts d r)

/-- The account holds these figures, repeated or not. -/
def Priced (f : Figures) (stale : Bool) (e : RegionEnergy) : Prop := lastFigures e = f ∧ e.stale = stale

/-- What a price takes from a rail: the voltage and state of the interval's start, gain and offset. -/
def rates (x : Rail) : Nat × Bool × Nat × Int := (x.startMv, x.startOff, x.gain, x.offset)

/-- The second die prices regions at the rates of the first, in the same interval. -/
structure SameRates (d e : Die) : Prop where
  can : e.Canonical
  store : e.store = d.store
  startup : e.startup = d.startup
  intervalEnd : e.limits.intervalEnd = d.limits.intervalEnd
  rails : ∀ k, rates (rail e k) = rates (rail d k)

theorem SameRates.refl {d : Die} (hc : d.Canonical) : SameRates d d := ⟨hc, rfl, rfl, rfl, fun _ => rfl⟩

theorem SameRates.trans {a b c : Die} (h : SameRates a b) (h' : SameRates b c) : SameRates a c :=
  ⟨h'.can, h'.store.trans h.store, h'.startup.trans h.startup, h'.intervalEnd.trans h.intervalEnd, fun k => (h'.rails k).trans (h.rails k)⟩

/-- The sums of the package are no part of the rates. -/
theorem SameRates.sums {d e : Die} (h : SameRates d e) (w n : Nat) (o : Tbl Nat) : SameRates d { e with limits := { e.limits with window := w, roundEnergy := n, ownerNow := o } } :=
  ⟨{ h.can with }, h.store, h.startup, h.intervalEnd, h.rails⟩

theorem underAssay_of {a b : Die} (hs : a.store = b.store) (ht : a.startup = b.startup) (r : Nat) : underAssay a r = underAssay b r := by
  simp only [underAssay, hs, present_of ht]

theorem figures_of {d e : Die} {r : Nat} (h : SameRates d e) (hr : region e r = region d r) (n : List Nat) : figures e r n = figures d r n := by
  have hrates : ∀ k, (rail e k).startMv = (rail d k).startMv ∧ (rail e k).startOff = (rail d k).startOff ∧ (rail e k).gain = (rail d k).gain ∧ (rail e k).offset = (rail d k).offset := by
    simpa only [rates, Prod.mk.injEq] using h.rails
  have hcal : ∀ k, calibrated (rail e k) = calibrated (rail d k) := fun k => by
    obtain ⟨-, -, hgain, hoffset⟩ := hrates k
    funext dyn leak n
    rw [calibrated, calibrated, hgain, hoffset]
  have hcoef : coefsNow e r = coefsNow d r := by rw [coefsNow, coefsNow, coefsOf, coefsOf, hr, h.store]
  have hleak : leakOf e r = leakOf d r := by rw [leakOf, leakOf, h.store]
  have hshare : sharers e = sharers d := funext fun k => by rw [sharers, sharers, railRegions_of h.startup]
  simp only [figures, hr, hcoef, hleak, hshare, hcal, (hrates _).1, (hrates _).2.1]

theorem intervalFigures_of {d e : Die} {r : Nat} (h : SameRates d e) (hr : region e r = region d r) (counts : List Activity) : intervalFigures counts e r = intervalFigures counts d r := by
  simp only [intervalFigures, countsOf, underAssay_of h.store h.startup, figures_of h hr, hr]

/-! ### One region's interval -/

/-- The accounts of the owners and the rails take up a region's figures, before the region's own does. -/
def charged (f : Figures) (r : Nat) (hops : List Nat) (d : Die) : Die :=
  chargeRail 4 f.dynS f.leakS f.calS (chargeRail (regionRail r) f.dynQ f.leakQ f.calQ (creditOwners r f hops d))

theorem rates_chargeRail {d : Die} (hc : d.Canonical) (j k dyn leak cal : Nat) : rates (rail (chargeRail j dyn leak cal d) k) = rates (rail d k) := by
  have h : RailHolds (fun x => rates x = rates (rail d k)) k (chargeRail j dyn leak cal d) := RailHolds.modRail (p := fun x => rates x = rates (rail d k)) ⟨hc, rfl⟩ j fun _ _ hx => hx
  exact h.holds

theorem charged_sameBut (f : Figures) (r : Nat) (hops : List Nat) (d : Die) : SameBut [.rails, .tenants] d (charged f r hops d) := by
  have hc := sameBut_closed [.rails, .tenants] d
  exact chargeRail_kept (hc.mono (by decide)) _ _ _ _ _ (chargeRail_kept (hc.mono (by decide)) _ _ _ _ _ (creditOwners_kept (hc.mono (by decide)) _ _ _ _ (sameBut_refl _ d)))

theorem charged_sameRates (f : Figures) (r : Nat) (hops : List Nat) {d : Die} (hc : d.Canonical) : SameRates d (charged f r hops d) := by
  have hsame := charged_sameBut f r hops d
  have h1 := creditOwners_can r f hops d hc
  have h2 := chargeRail_can (regionRail r) f.dynQ f.leakQ f.calQ _ h1
  refine ⟨chargeRail_can _ _ _ _ _ h2, hsame .store (by decide), hsame .startup (by decide), congrArg Limits.intervalEnd (hsame .limits (by decide)), fun k => ?_⟩
  rw [charged, rates_chargeRail h2, rates_chargeRail h1, rail_of (creditOwners_rails ..)]

section
variable (counts : List Activity) {d : Die} (hc : d.Canonical)
include hc

/-- The interval of a region charges its owners and rails, adds to the sums of the package, and writes the region's own account. -/
theorem regionInterval'_writes (r : Nat) : ∃ (e : Die) (g : Region → Region), SameRates d e ∧ e.regions = d.regions ∧ regionInterval' counts r d = modRegion r g e ∧
    ∀ x, Priced (intervalFigures counts d r) (underAssay d r) (g x).energy := by
  unfold regionInterval'
  extract_lets e stale a live n hops f d1 d2 key l d3
  have hn : stale = false → n = countsOf counts d r := fun hs => by
    unfold n live a countsOf
    rw [hs]
    cases (region d r).retired <;> cases counts.find? (fun c => c.region = r) <;> rfl
  have hf : f = intervalFigures counts d r := by
    unfold f intervalFigures
    split
    next => rfl
    next hs => rw [hn (Bool.eq_false_iff.2 hs)]
  exact ⟨d3, _, (charged_sameRates f r hops hc).sums .., charged_sameBut f r hops d .regions (by decide), rfl, fun x => ⟨hf, rfl⟩⟩

theorem regionInterval'_sameRates (r : Nat) : SameRates d (regionInterval' counts r d) := by
  obtain ⟨e, g, he, -, heq, -⟩ := regionInterval'_writes counts hc r
  rw [heq]
  exact ⟨modRegion_can _ _ _ he.can, he.store, he.startup, he.intervalEnd, he.rails⟩

theorem region_regionInterval'_other {r k : Nat} (hk : r ≠ k) : region (regionInterval' counts k d) r = region d r := by
  obtain ⟨e, g, he, hregions, heq, -⟩ := regionInterval'_writes counts hc k
  rw [heq, region_other he.can hk, region_of hregions]

theorem region_regionInterval'_same (r : Nat) : Priced (intervalFigures counts d r) (underAssay d r) (region (regionInterval' counts r d) r).energy := by
  obtain ⟨e, g, he, -, heq, hpriced⟩ := regionInterval'_writes counts hc r
  rw [heq, region_same he.can]
  exact hpriced _

theorem each_regionInterval'_sameRates (l : List Nat) : SameRates d (each l (regionInterval' counts) d) :=
  each_kept (P := SameRates d) (fun r _ he => he.trans (regionInterval'_sameRates counts he.can r)) (SameRates.refl hc)

/-- Each present region is priced once, at the rates with which the interval ends. -/
theorem region_each_regionInterval' {r : Nat} (hr : present d r = true) :
    EnergyHolds (Priced (intervalFigures counts d r) (underAssay d r)) r (each (presentRegions d) (regionInterval' counts) d) := by
  refine ⟨(each_regionInterval'_sameRates counts hc _).can, ?_⟩
  refine get_each_of_mem (I := SameRates d) (get := (region · r)) (Q := fun x => Priced (intervalFigures counts d r) (underAssay d r) x.energy)
    (fun k e _ he => he.trans (regionInterval'_sameRates counts he.can k)) (fun k e _ hk he => region_regionInterval'_other counts he.can hk.symm) (presentRegions_nodup d) (mem_presentRegions.2 hr)
    (fun e he hsame => ?_) (SameRates.refl hc)
  have hpriced := region_regionInterval'_same counts he.can r
  rwa [intervalFigures_of he hsame, underAssay_of he.store he.startup] at hpriced

end

/-! ### The end of an interval -/

namespace EnergyHolds

section
variable {f : Figures} {stale : Bool} {r : Nat} {d : Die} (h : EnergyHolds (Priced f stale) r d)
include h

theorem closeWindow (t : Nat) : EnergyHolds (Priced f stale) r (Machine.closeWindow t d) := by
  unfold Machine.closeWindow
  extract_lets d1 d2 d3 d4
  have h1 : EnergyHolds (Priced f stale) r d1 := each_kept (fun k e he => he.of_regions rfl (modRail_can _ _ _ he.can)) h
  have h2 : EnergyHolds (Priced f stale) r d2 := each_kept (fun k e he => he.modRegion k) h1
  have h3 : EnergyHolds (Priced f stale) r d3 := each_kept (fun k e he => he.of_regions rfl { he.can with }) h2
  have h4 : EnergyHolds (Priced f stale) r d4 := each_kept (fun k e he => he.of_regions rfl (modMargin_can _ _ _ he.can)) h3
  exact h4.of_regions rfl { h4.can with }

theorem beginInterval : EnergyHolds (Priced f stale) r (Machine.beginInterval d) := by
  unfold Machine.beginInterval
  extract_lets d1 d2
  have h1 : EnergyHolds (Priced f stale) r d1 := each_kept (fun k e he => he.of_regions rfl (modRail_can _ _ _ he.can)) h
  have h2 : EnergyHolds (Priced f stale) r d2 := each_kept (fun k e he => he.modRegion k) h1
  exact each_kept (fun k e he => he.moveRegion k) h2

end

end EnergyHolds

theorem each_intervalEnd {α : Type} {l : List α} {f : α → Die → Die} {d : Die} (hf : ∀ a e, (f a e).limits.intervalEnd = e.limits.intervalEnd) :
    (each l f d).limits.intervalEnd = d.limits.intervalEnd :=
  each_kept (P := fun e => e.limits.intervalEnd = d.limits.intervalEnd) (fun a e he => (hf a e).trans he) rfl

theorem closeWindow_intervalEnd (t : Nat) (d : Die) : (closeWindow t d).limits.intervalEnd = d.limits.intervalEnd := by
  unfold closeWindow
  extract_lets d1 d2 d3 d4
  have h1 : d1.limits.intervalEnd = d.limits.intervalEnd := each_intervalEnd fun _ _ => rfl
  have h2 : d2.limits.intervalEnd = d1.limits.intervalEnd := each_intervalEnd fun _ _ => rfl
  have h3 : d3.limits.intervalEnd = d2.limits.intervalEnd := each_intervalEnd fun _ _ => rfl
  have h4 : d4.limits.intervalEnd = d3.limits.intervalEnd := each_intervalEnd fun _ _ => rfl
  exact h4.trans (h3.trans (h2.trans h1))

theorem beginInterval_limits (d : Die) : (beginInterval d).limits = d.limits := by
  unfold beginInterval
  extract_lets d1 d2
  have h1 : d1.limits = d.limits := each_limits fun _ _ => rfl
  have h2 : d2.limits = d1.limits := each_limits fun _ _ => rfl
  rw [each_limits moveRegion_limits, h2, h1]

theorem creditUpdate_eq (n : Nat) (d : Die) : ∃ c b, creditUpdate n d = { d with limits := { d.limits with credit := c, flag := b } } := ⟨_, _, rfl⟩

theorem creditUpdate_intervalEnd (n : Nat) (d : Die) : (creditUpdate n d).limits.intervalEnd = d.limits.intervalEnd := by
  obtain ⟨c, b, heq⟩ := creditUpdate_eq n d
  rw [heq]

/-- The die whose interval that ends at t is in progress of being priced. -/
def intervalBegun (t : Nat) (d : Die) : Die := { d with limits := { d.limits with intervalEnd := t } }

/-- A window of the limit loops ends with every tenth interval. -/
def windowClosed (t : Nat) (d : Die) : Die := if t % 10000 = 0 then closeWindow t d else d

theorem windowClosed_intervalEnd (t : Nat) (d : Die) : (windowClosed t d).limits.intervalEnd = d.limits.intervalEnd := by
  unfold windowClosed
  split
  · exact closeWindow_intervalEnd t d
  · rfl

theorem EnergyHolds.windowClosed {f : Figures} {stale : Bool} {r : Nat} {d : Die} (h : EnergyHolds (Priced f stale) r d) (t : Nat) :
    EnergyHolds (Priced f stale) r (Machine.windowClosed t d) := by
  unfold Machine.windowClosed
  split
  · exact h.closeWindow t
  · exact h

section
variable (counts : List Activity) {d : Die}

theorem intervalEnd_of_done (h : d.tally.now / 1000 * 1000 = d.limits.intervalEnd) : intervalEnd counts d = d := if_pos h

theorem intervalEnd_of_due {t : Nat} (ht : d.tally.now / 1000 * 1000 = t) (h : t ≠ d.limits.intervalEnd) :
    ∃ n, intervalEnd counts d = beginInterval (windowClosed t (creditUpdate n (each (presentRegions d) (regionInterval' counts) (intervalBegun t d)))) :=
  ⟨_, by rw [intervalEnd, ht, if_neg h]; rfl⟩

theorem intervalEnd_prices (hc : d.Canonical) {t : Nat} (ht : d.tally.now / 1000 * 1000 = t) (h : t ≠ d.limits.intervalEnd) : (intervalEnd counts d).limits.intervalEnd = t ∧
    ∀ r, present d r = true → EnergyHolds (Priced (intervalFigures counts d r) (underAssay d r)) r (intervalEnd counts d) := by
  have hbegun : (intervalBegun t d).Canonical := { hc with }
  obtain ⟨n, heq⟩ := intervalEnd_of_due counts ht h
  rw [heq]
  refine ⟨?_, fun r hr => ?_⟩
  · rw [beginInterval_limits, windowClosed_intervalEnd, creditUpdate_intervalEnd, (each_regionInterval'_sameRates counts hbegun _).intervalEnd]
    rfl
  · have hpriced := region_each_regionInterval' counts hbegun hr
    have hcredit : EnergyHolds (Priced (intervalFigures counts d r) (underAssay d r)) r (creditUpdate n _) := hpriced.of_regions (creditUpdate_regions n _) (creditUpdate_can n _ hpriced.can)
    exact (hcredit.windowClosed t).beginInterval

end

/-- What the price of a region tells of its account. -/
theorem Priced.fields {f : Figures} {stale : Bool} {e : RegionEnergy} (h : Priced f stale e) : e.rawQ = f.rawQ ∧ e.rawS = f.rawS ∧ e.calQ = f.calQ ∧ e.calS = f.calS ∧ e.stale = stale := by
  obtain ⟨rfl, hstale⟩ := h
  exact ⟨rfl, rfl, rfl, rfl, hstale⟩

/-- Settles O21: the interval by what it prices and what the account outlasts, each event of the rails by its turn. -/
theorem energyIsPricedAndCalibrated : Obligations.EnergyIsPricedAndCalibrated := by
  intro s hc
  refine ⟨fun counts h => ?_, fun counts h => gives_run (b := true) rfl rfl ?_, gives_run (b := true) rfl rfl fun k hk => ?_, gives_run (b := true) rfl rfl fun k hk => rail_calibrationWindowEnd hc hk,
    gives_run (b := true) rfl rfl fun k hk => rail_calibrationUpdateApply hc hk⟩
  · have hsame : exec (.energyIntervalEnd counts) s = .next { s with die := intervalEnd counts s.die } := rfl
    rw [hsame, intervalEnd_of_done counts h]
  · obtain ⟨hend, hpriced⟩ := intervalEnd_prices counts hc rfl h
    refine ⟨hend, fun r _ hp => ?_⟩
    have hfields := (hpriced r hp).holds.fields
    rw [intervalFigures] at hfields
    cases hfind : counts.find? (fun c => c.region = r) <;> simpa [countsOf, hfind] using hfields
  · have hread := rail_telemetryStart hc hk
    simpa only [readDue, Bool.not_eq_true'] using hread

end Sys2Proof.Machine

namespace Sys2Proof.Machine
open Sys2Proof

/-! ## cal.read (R369) -/

section
variable {p : Bytes} {d : Die} {q : Nat} (e : Exec)

/-- The record of a region or an island is found, and read by queue 0 and by the owner of its region. -/
theorem calReadBody_reads (hz : ZeroBytes p 1 2) (hz' : ZeroBytes p 4 8) (hk : fld p 0 1 ≤ 6) (hdie : 3 < fld p 0 1 → fld p 2 2 = 0 ∧ q = 0)
    (hown : fld p 0 1 ≤ 3 → q = 0 ∨ (region d (calRegion (fld p 0 1) (fld p 2 2))).owner = q)
    (hfound : fld p 0 1 ≤ 3 → present d (calRegion (fld p 0 1) (fld p 2 2)) = true ∧ fld p 2 2 < if fld p 0 1 = 1 then 1248 else 80) :
    calReadBody q e p d = ({ d with fresh := d.fresh + 4 }, .done (calBytes d (fld p 0 1) (fld p 2 2)).length (some (calBytes d (fld p 0 1) (fld p 2 2)))) := by
  unfold calReadBody
  refine checked_pass ?_
  simp only [List.forall_mem_cons]
  refine ⟨decide_eq_false (Nat.not_lt.2 hk), zeroCheck_pass hz, decide_eq_false fun h => h.2 (hdie h.1).1, zeroCheck_pass hz', decide_eq_false fun h => h.1 (hdie h.2).2,
    guard_pass fun h => regionScope_pass (hown h), guard_pass fun h => ?_, nofun⟩
  obtain ⟨hpresent, hlt⟩ := hfound h
  unfold calRegion at hpresent
  split_ifs at hpresent hlt ⊢
  · exact islandFound_pass hlt hpresent
  · exact regionFound_pass hlt hpresent

end

/-! ## cal.set (R229, R231, R239, R370) -/

/-- The effect of cal.set. -/
def calSetDone (kind r : Nat) (b : Bytes) (d : Die) : Die := if kind = 2 then setCoefs r (readCoef b) d else if kind = 3 then setLeak r (readLeak b) d else setGains (readEnergy b) d

/-- cal.set acts where the staged bytes are legal: the reserved ones zero, offsets in range, and a table's region present. -/
theorem calSetBody_sets {p : Bytes} {d : Die} {e : Exec} {kind : Nat} (hk : fld p 0 1 = kind) (h2 : 2 ≤ kind) (h4 : kind ≤ 4) (hz : ZeroBytes p 1 2) (hz' : ZeroBytes p 4 8)
    (hdie : kind = 4 → fld p 2 2 = 0) (hres : stagedReserved kind e.staged = none) (hoff : kind = 4 → badOffset e.staged = none)
    (hfound : kind ≠ 4 → fld p 2 2 < 80 ∧ present d (fld p 2 2) = true) : calSetBody 0 e p d = (calSetDone kind (fld p 2 2) e.staged d, .done 0 none) := by
  simp only [calSetBody, hk]
  refine checked_pass ?_
  simp only [List.forall_mem_cons]
  refine ⟨decide_eq_false (by omega), zeroCheck_pass hz, decide_eq_false fun h => h.2 (hdie h.1), zeroCheck_pass hz', by rw [hres]; rfl, rfl, guard_pass fun h => by rw [hoff h]; rfl,
    guard_pass fun h => ?_, nofun⟩
  obtain ⟨hr, hp⟩ := hfound h
  exact regionFound_pass hr hp

theorem stagedReserved_of_leakage {b : Bytes} (h : ∀ j, 130 ≤ j → j < 136 → fld b j 1 = 0) : stagedReserved 3 b = none := by
  have hplace : ∀ j ∈ [130, 131, 132, 133, 134, 135], 130 ≤ j ∧ j < 136 := by decide
  refine List.find?_eq_none.2 fun j hj => ?_
  obtain ⟨hlow, hhigh⟩ := hplace j hj
  simp [h j hlow hhigh]

theorem stagedReserved_of_gains {b : Bytes} (h : ∀ k, k < 5 → fld b (8 * k + 2) 1 = 0 ∧ fld b (8 * k + 3) 1 = 0) : stagedReserved 4 b = none := by
  have hplace : ∀ j ∈ [2, 3, 10, 11, 18, 19, 26, 27, 34, 35], j / 8 < 5 ∧ (j = 8 * (j / 8) + 2 ∨ j = 8 * (j / 8) + 3) := by decide
  refine List.find?_eq_none.2 fun j hj => ?_
  obtain ⟨hk, hj'⟩ := hplace j hj
  obtain ⟨h2, h3⟩ := h _ hk
  rcases hj' with hj' | hj' <;> rw [hj'] <;> simp [h2, h3]

theorem badOffset_of_inRange {b : Bytes} (h : ∀ k, k < 5 → -524288 ≤ fldI b (8 * k + 4) 4 ∧ fldI b (8 * k + 4) 4 ≤ 524287) : badOffset b = none :=
  List.find?_eq_none.2 fun k hk => by simp [h k (List.mem_range.1 hk)]

/-! ### A table of a region -/

/-- The records of a new table and the marks on its rails. -/
theorem tableNoted_sameBut (kind r : Nat) (d : Die) : SameBut [.ledger, .rails] d (coefChange kind r (noteTables r d)) := by
  have hc := sameBut_closed [.ledger, .rails] d
  exact coefChange_kept (hc.mono (by decide)) _ _ _ (noteTables_kept (hc.mono (by decide)) _ _ (sameBut_refl _ d))

/-- The entry that a write makes is the first of its key. -/
theorem find?_tset_of_ne {α : Type} [DecidableEq α] {d v : α} (hv : v ≠ d) (t : Tbl α) (k : Nat) : (tset d t k v).find? (fun e => e.1 = k) = some (k, v) := by
  induction t with
  | nil => simp [tset, hv]
  | cons e t ih =>
    obtain ⟨j, w⟩ := e
    unfold tset
    rw [if_neg hv, if_neg hv]
    split_ifs with hlt heq
    · simp
    · simp
    · rw [List.find?_cons_of_neg (by simpa using Ne.symm heq), ih]

theorem readCoef_ne_nil (b : Bytes) : readCoef b ≠ [] := by simp [readCoef]

theorem readLeak_ne_noLeak (b : Bytes) : readLeak b ≠ noLeak := by simp [readLeak, noLeak]

theorem leakOf_of_found {d : Die} {r : Nat} {l : Leak} (h : d.store.work.leaks.find? (fun e => e.1 = r) = some (r, l)) : leakOf d r = l := by
  rw [leakOf, h]

section
variable (r : Nat) {d : Die}

/-- A region's coefficients, and its leakage, are held for the interval in progress. -/
def holdingCoefs (old : List Nat) (x : Region) : Region := { x with energy := { x.energy with coefHeld := some (x.energy.coefHeld.getD old) } }

def holdingLeak (old : Leak) (x : Region) : Region := { x with energy := { x.energy with leakHeld := some (x.energy.leakHeld.getD old) } }

theorem setCoefs_writes (l : List Nat) : (setCoefs r l d).store = { d.store with work := { d.store.work with coefs := tset [] d.store.work.coefs r l } } ∧
    (setCoefs r l d).regions = (modRegion r (holdingCoefs (coefsOf d r)) d).regions := by
  have h := tableNoted_sameBut 2 r { modRegion r (holdingCoefs (coefsOf d r)) d with store := { d.store with work := { d.store.work with coefs := tset [] d.store.work.coefs r l } } }
  exact ⟨h .store (by decide), h .regions (by decide)⟩

theorem setLeak_writes (l : Leak) : (setLeak r l d).store = { d.store with work := { d.store.work with leaks := tset noLeak d.store.work.leaks r l } } ∧
    (setLeak r l d).regions = (modRegion r (holdingLeak (leakOf d r)) d).regions := by
  have h := tableNoted_sameBut 3 r { modRegion r (holdingLeak (leakOf d r)) d with store := { d.store with work := { d.store.work with leaks := tset noLeak d.store.work.leaks r l } } }
  exact ⟨h .store (by decide), h .regions (by decide)⟩

variable (hc : d.Canonical)
include hc

/-- The table is replaced, that of every other region stays, and the interval in progress keeps the one it has (R229). -/
theorem setCoefs_replaces {l : List Nat} (hl : l ≠ []) : tget [] (setCoefs r l d).store.work.coefs r = l ∧ (region (setCoefs r l d) r).energy.coefHeld = some ((region d r).energy.coefHeld.getD (coefsOf d r)) ∧
    (setCoefs r l d).store.work.leaks = d.store.work.leaks ∧ ∀ k, k ≠ r → tget [] (setCoefs r l d).store.work.coefs k = tget [] d.store.work.coefs k := by
  obtain ⟨hstore, hregions⟩ := setCoefs_writes r l (d := d)
  rw [hstore, region_of hregions, region_same hc]
  exact ⟨tget_tset_of_ne hl _ r, rfl, rfl, fun k hk => tget_tset_of_ne_key hk _⟩

/-- The leakage table and share are replaced, and the interval in progress keeps those it has (R231). -/
theorem setLeak_replaces {l : Leak} (hl : l ≠ noLeak) : leakOf (setLeak r l d) r = l ∧ (region (setLeak r l d) r).energy.leakHeld = some ((region d r).energy.leakHeld.getD (leakOf d r)) ∧
    (setLeak r l d).store.work.coefs = d.store.work.coefs := by
  obtain ⟨hstore, hregions⟩ := setLeak_writes r l (d := d)
  have hfound : (setLeak r l d).store.work.leaks.find? (fun e => e.1 = r) = some (r, l) := by
    rw [hstore]
    exact find?_tset_of_ne hl _ r
  rw [leakOf_of_found hfound, hstore, region_of hregions, region_same hc]
  exact ⟨rfl, rfl, rfl⟩

end

/-- Gains and offsets wait in each rail (R239). -/
theorem setGains_waits {l : List (Nat × Int)} {d : Die} (hc : d.Canonical) : (setGains l d).store = d.store ∧
    ∀ k, k < 5 → rail (setGains l d) k = { rail d k with hostWrite := some (l.getD k (0x4000, 0)) } := by
  refine ⟨each_store fun _ _ => rfl, fun k hk => ?_⟩
  refine rail_each_turn (Q := (· = { rail d k with hostWrite := some (l.getD k (0x4000, 0)) })) hc hk (fun P hP j e he => modRail_kept hP (by decide) _ _ _ he) (fun j e he hj => rail_modRail_other he.rails hj)
    fun e he _ hrail => ?_
  rw [rail_modRail_same he.rails, hrail]

/-- Settles O47: each command passes its checks and completes with the effect of its body. -/
theorem calCommandsReadAndSetTables : Obligations.CalCommandsReadAndSetTables := by
  intro s q e hc
  dsimp only
  refine ⟨fun hx hz hz' hk hdie hrec => ?_, ?_⟩
  · exact completesOk_of_body hx rfl (calReadBody_reads e hz hz' hk hdie (fun h => (hrec h).1) fun h => (hrec h).2) rfl
  · rintro hx rfl hz hz'
    refine ⟨fun hk hr hp => ?_, fun hk hr hp hzero => ?_, fun hk hr hrails => ?_⟩
    · exact completesOk_of_body hx rfl (calSetBody_sets hk (by decide) (by decide) hz hz' nofun rfl nofun fun _ => ⟨hr, hp⟩) (setCoefs_replaces _ hc (readCoef_ne_nil _))
    · exact completesOk_of_body hx rfl (calSetBody_sets hk (by decide) (by decide) hz hz' nofun (stagedReserved_of_leakage hzero) nofun fun _ => ⟨hr, hp⟩) (setLeak_replaces _ hc (readLeak_ne_noLeak _))
    · have hres := stagedReserved_of_gains fun k hk' => ⟨(hrails k hk').1, (hrails k hk').2.1⟩
      have hoff := badOffset_of_inRange fun k hk' => (hrails k hk').2.2
      exact completesOk_of_body hx rfl (calSetBody_sets hk (by decide) (by decide) hz hz' (fun _ => hr) hres (fun _ => hoff) fun h => absurd rfl h) (setGains_waits hc)

end Sys2Proof.Machine

namespace Sys2Proof.Machine
open Sys2Proof

/-! ## Ceilings and what leaves them (R244) -/

/-- The ceiling of reason j stands at v. -/
def CeilingIs (j : Nat) (v : Option Nat) (x : Region) : Prop := x.ceilings.getD j none = v

theorem getD_lset_of_ne {α : Type} (d : α) {j k : Nat} (h : j ≠ k) (l : List α) (v : α) : (lset d l k v).getD j d = l.getD j d := by
  induction k generalizing j l with
  | zero =>
    obtain ⟨i, rfl⟩ := Nat.exists_eq_succ_of_ne_zero h
    cases l <;> simp [lset]
  | succ k ih =>
    cases j with
    | zero => cases l <;> rfl
    | succ j =>
      have hj : j ≠ k := by omega
      cases l with
      | nil => simpa only [lset, List.getD_cons_succ, List.getD_nil] using ih hj []
      | cons a l => simpa only [lset, List.getD_cons_succ] using ih hj l

/-- What the ceilings of reason j, and what follows a change of them, leave of a region. -/
theorem RegionHolds.setCeiling {p : Region → Prop} {r : Nat} {d : Die} (h : RegionHolds p r d) (j k : Nat) (v : Option Nat) (hl : r = k → ∀ x, p x → p { x with ceilings := lset none x.ceilings j v })
    (hp : ∀ x t a s w, p x → p { x with throttle := t, actionDue := a, settleDue := s, restoreDue := w }) : RegionHolds p r (setCeiling j k v d) := by
  unfold Machine.setCeiling
  split
  · exact h
  · exact RegionHolds.changeCeilings (h.modRegion_at hl) hp

theorem each_cons {α : Type} (a : α) (l : List α) (f : α → Die → Die) (d : Die) : each (a :: l) f d = each l f (f a d) := rfl

/-! ## The loops of an evaluation (R251 to R255) -/

/-- The loops that follow the package's. -/
def otherLoops (d : Die) : List Loop :=
  (List.range 5).flatMap (fun k => [railLoop d 1 k (railCapMw d k), railLoop d 2 k (railCurrentMw d k)]) ++ (presentRegions d).map (strictLoop d)

theorem loops_eq (d : Die) : loops d = packageLoop d :: otherLoops d := rfl

theorem reason_otherLoops {d : Die} {l : Loop} (h : l ∈ otherLoops d) : l.reason = 1 ∨ l.reason = 2 ∨ l.reason = 3 := by
  rcases List.mem_append.1 h with h | h
  · obtain ⟨k, -, hk⟩ := List.mem_flatMap.1 h
    simp only [List.mem_cons, List.not_mem_nil, or_false] at hk
    obtain rfl | rfl := hk
    · exact .inl rfl
    · exact .inr (.inl rfl)
  · obtain ⟨r, -, rfl⟩ := List.mem_map.1 h
    exact .inr (.inr rfl)

theorem reason_packageLoop (d : Die) : (packageLoop d).reason = 0 ∨ (packageLoop d).reason = 10 := by
  unfold packageLoop
  dsimp only
  split
  · exact .inr rfl
  · exact .inl rfl

section
variable {j r : Nat} {v : Option Nat} {d : Die}

theorem ceilingIs_lset {i : Nat} (h : j ≠ i) (w : Option Nat) (x : Region) (hx : CeilingIs j v x) : CeilingIs j v { x with ceilings := lset none x.ceilings i w } :=
  (getD_lset_of_ne _ h ..).trans hx

theorem lowerCeiling_sets (hc : d.Canonical) (hj : j ≠ 9) (n : Nat) : RegionHolds (CeilingIs j (some n)) r (lowerCeiling j n r d) := by
  unfold lowerCeiling
  split
  next h =>
    rw [ceilingAt, if_neg hj] at h
    exact ⟨hc, h⟩
  next =>
    have hraise : RegionHolds (fun _ => True) r (modRaise r j (fun x => { x with lastLower := some d.tally.now }) d) := ⟨modRegion_can _ _ _ hc, trivial⟩
    exact ⟨setCeiling_can _ _ _ _ hraise.can, (region_setCeiling_same hraise hj (some n) fun _ _ _ _ _ _ hx => hx).1⟩

/-- The lowering of another reason, or of another region, leaves a ceiling. -/
theorem RegionHolds.lowerCeiling (h : RegionHolds (CeilingIs j v) r d) {i k : Nat} (hi : r = k → j ≠ i) (n : Nat) : RegionHolds (CeilingIs j v) r (lowerCeiling i n k d) := by
  unfold Machine.lowerCeiling
  split
  · exact h
  · have hraise : RegionHolds (CeilingIs j v) r (modRaise k i (fun x => { x with lastLower := some d.tally.now }) d) := h.modRegion k fun _ hx => hx
    exact hraise.setCeiling i k _ (fun hk => ceilingIs_lset (hi hk) _) fun _ _ _ _ _ hx => hx

/-- A ceiling that a loop lowers in this evaluation, or of another reason, is not raised (R254). -/
theorem RegionHolds.raiseCeiling (h : RegionHolds (CeilingIs j v) r d) (quiet : Bool) {acted : Bool} {i k : Nat} (hi : r = k → j = i → acted = true) :
    RegionHolds (CeilingIs j v) r (raiseCeiling quiet acted i k d) := by
  unfold Machine.raiseCeiling
  extract_lets e x
  have he : RegionHolds (CeilingIs j v) r e := h.modRegion k fun _ hx => hx
  split
  next c hceil =>
    split
    next hrise =>
      have hne : r = k → j ≠ i := fun hk hj => by simp [hi hk hj] at hrise
      have hraise : RegionHolds (CeilingIs j v) r (modRaise k i (fun x => { x with lastRise := some e.tally.now }) e) := he.modRegion k fun _ hx => hx
      exact hraise.setCeiling i k _ (fun hk => ceilingIs_lset (hne hk) _) fun _ _ _ _ _ hx => hx
    next => exact he
  next => exact he

end

/-- A loop that is over lowers its regions once it has written its records and its drain; a drain that begins lowers them to the ceilings of the evaluation's start. -/
theorem loopOver_lowers (base : Nat → Nat) (l : Loop) {d : Die} (hc : d.Canonical) :
    ∃ e low, e.Canonical ∧ e.regions = d.regions ∧ e.limits.windowEnd = d.limits.windowEnd ∧ loopOver base l d = each l.targets (fun r => lowerCeiling l.reason (low r) r) e ∧
      (drainOf d l = none → low = base) := by
  unfold loopOver
  extract_lets fresh x force e1 e2 low e3
  have h1 : e1.Canonical ∧ e1.regions = d.regions ∧ e1.limits = d.limits := by
    unfold e1
    split
    · exact ⟨emit_can _ _ _ _ hc, emit_regions .., emit_limits ..⟩
    · exact ⟨hc, rfl, rfl⟩
  have h2 : e2.Canonical ∧ e2.regions = e1.regions ∧ e2.limits = e1.limits := by
    unfold e2
    split
    · exact ⟨emit_can _ _ _ _ h1.1, emit_regions .., emit_limits ..⟩
    · exact ⟨h1.1, rfl, rfl⟩
  refine ⟨e3, low, { h2.1 with }, h2.2.1.trans h1.2.1, ?_, rfl, fun hn => ?_⟩
  · have hlimits : e2.limits.windowEnd = d.limits.windowEnd := congrArg Limits.windowEnd (h2.2.2.trans h1.2.2)
    exact hlimits
  have hforce : force = false := by
    have hx : x.since = d.tally.now := by simp [x, hn]
    simp [force, hx]
  simp [low, hforce]

section
variable (base : Nat → Nat) {l : Loop} {d : Die}

/-- A loop that is over with a drain that begins: its regions are at the ceilings of the evaluation's start. -/
theorem runLoop_lowers (hc : d.Canonical) (hx : l.exceeds = true) (hn : drainOf d l = none) (hj : l.reason ≠ 9) {r : Nat} (hr : r ∈ l.targets) :
    RegionHolds (CeilingIs l.reason (some (base r))) r (runLoop base l d) := by
  obtain ⟨e, low, he, -, -, heq, hlow⟩ := loopOver_lowers base l hc
  rw [runLoop, if_pos hx, heq, hlow hn]
  refine (each_make (I := Die.Canonical) (P := RegionHolds (CeilingIs l.reason (some (base r))) r) (f := fun k => lowerCeiling l.reason (base k) k) l.targets r hr (fun k e _ he => lowerCeiling_can _ _ _ _ he) (fun e he => lowerCeiling_sets he hj _)
    (fun k e _ he h => ?_) he).2
  by_cases hk : r = k
  · subst hk
    exact lowerCeiling_sets he hj _
  · exact h.lowerCeiling (fun h => absurd h hk) _

/-- A loop leaves the ceilings of other reasons. -/
theorem RegionHolds.runLoop {j r : Nat} {v : Option Nat} (h : RegionHolds (CeilingIs j v) r d) (hj : j ≠ l.reason) : RegionHolds (CeilingIs j v) r (runLoop base l d) := by
  unfold Machine.runLoop
  split
  · obtain ⟨e, low, he, hregions, -, heq, -⟩ := loopOver_lowers base l h.can
    rw [heq]
    exact each_kept (fun k e he => he.lowerCeiling (fun _ => hj) _) (h.of_regions hregions he)
  · split
    · exact h.of_regions (closeDrain_regions ..) (closeDrain_can _ _ h.can)
    · exact h

theorem closeDrain_windowEnd (x : LimitDrain) (d : Die) : (closeDrain x d).limits.windowEnd = d.limits.windowEnd := by
  rw [closeDrain, drainEnd_limits]

theorem runLoop_windowEnd (hc : d.Canonical) : (runLoop base l d).limits.windowEnd = d.limits.windowEnd := by
  unfold runLoop
  split
  · obtain ⟨e, low, -, -, hend, heq, -⟩ := loopOver_lowers base l hc
    rw [heq, each_limits fun _ _ => lowerCeiling_limits .., hend]
  · split
    · exact closeDrain_windowEnd ..
    · rfl

theorem runLoop_can (hc : d.Canonical) : (runLoop base l d).Canonical := runLoop_kept (canonical_closed _) _ _ _ hc

end

/-- The evaluation's window is taken up. -/
def windowTaken (d : Die) : Die := { d with limits := { d.limits with windowEnd := none } }

/-- The ceilings to which the loops of an evaluation of d lower (R251). -/
def evaluationBase (d : Die) (r : Nat) : Nat := stepBelow (region d r)

/-- A loop of the evaluation lowers reason j on region r. -/
def lowers (d : Die) (j r : Nat) : Bool := (loops d).any (fun l => l.exceeds && decide (l.reason = j) && l.targets.contains r)

theorem limitEvaluation_of_due {e : Nat} {d : Die} (he : d.limits.windowEnd = some e) (ht : e + 2000 ≤ d.tally.now) : limitEvaluation d =
    each (presentRegions d) (fun r => each [0, 1, 2, 3, 10] (fun j => raiseCeiling (quietFor d j r) (lowers d j r) j r)) (each (loops d) (runLoop (evaluationBase d)) (windowTaken d)) := by
  simp only [limitEvaluation, he, Nat.not_lt.2 ht, if_false]
  rfl

section
variable {e : Nat} {d : Die} (hc : d.Canonical) (he : d.limits.windowEnd = some e) (ht : e + 2000 ≤ d.tally.now)
include hc he ht

theorem limitEvaluation_takes : (limitEvaluation d).limits.windowEnd = none := by
  rw [limitEvaluation_of_due he ht, each_limits fun r _ => each_limits fun j _ => raiseCeiling_limits ..]
  exact (each_kept (P := fun f => f.Canonical ∧ f.limits.windowEnd = none) (fun l f hf => ⟨runLoop_can _ hf.1, (runLoop_windowEnd _ hf.1).trans hf.2⟩)
    (d := windowTaken d) ⟨{ hc with }, rfl⟩).2

/-- The regions of a package loop that is over, with no drain open, go one point below. -/
theorem limitEvaluation_lowers (hx : (packageLoop d).exceeds = true) (hn : drainOf d (packageLoop d) = none) {r : Nat} (hr : r ∈ (packageLoop d).targets) :
    CeilingIs (packageLoop d).reason (some (stepBelow (region d r))) (region (limitEvaluation d) r) := by
  have hreason := reason_packageLoop d
  have hacted : lowers d (packageLoop d).reason r = true := by
    rw [lowers, loops_eq]
    simp [hx, hr]
  rw [limitEvaluation_of_due he ht, loops_eq, each_cons]
  have hfirst : RegionHolds (CeilingIs (packageLoop d).reason (some (evaluationBase d r))) r (runLoop (evaluationBase d) (packageLoop d) (windowTaken d)) :=
    runLoop_lowers (evaluationBase d) (d := windowTaken d) { hc with } hx hn (by omega) hr
  have hloops := each_inv (P := RegionHolds (CeilingIs (packageLoop d).reason (some (evaluationBase d r))) r) (f := runLoop (evaluationBase d)) (otherLoops d)
    (fun l f hl h => h.runLoop _ (by have := reason_otherLoops hl; omega)) hfirst
  refine RegionHolds.holds (p := CeilingIs _ (some (evaluationBase d r))) (each_kept (fun k f hf => each_kept (fun j f hf => hf.raiseCeiling _ fun hk hj => ?_) hf) hloops)
  rw [← hk, ← hj]
  exact hacted

end

/-! ## Regulator alerts and failed falls (R256) -/

/-- A change of an alert's source sets what it writes of the rail; of the rest, the records and the ceilings that follow touch the alert's own times alone. -/
theorem RailHolds.alertSource {p q : Rail → Prop} {k : Nat} {d : Die} (h : RailHolds p k d) {f : Rail → Rail} (hf : ∀ x, p x → q (f x))
    (hq : ∀ x c t s, q x → q { x with clearSince := c, alertStep := t, sawAlert := s }) (on : Bool) (word : Nat) : RailHolds q k (alertSource k on (some word) f d) := by
  unfold Machine.alertSource
  refine RailHolds.alertLower (RailHolds.modRail_same (p := q) ?_ fun x hx => ?_) fun x t hx => hq x x.clearSince t true hx
  · exact RailHolds.emit (h.modRail_same hf) ..
  · split
    · exact hq x none _ x.sawAlert hx
    · exact hq x _ x.alertStep x.sawAlert hx

/-- The status of a rail as a poll reports it. -/
def StatusIs (word : Nat) (alert : Bool) (x : Rail) : Prop := x.status = word ∧ x.alert = alert

theorem rail_statusPoll {k word : Nat} {d : Die} (hc : d.Canonical) (ho : (rail d k).off = false) : StatusIs word (wordAlerts word) (rail (statusPoll k word d) k) := by
  unfold statusPoll
  rw [if_neg (by simp [ho])]
  unfold statusSeen
  extract_lets e f
  have he : RailHolds (fun x => x.status = word) k e := RailHolds.modRail_same (p := fun _ => True) ⟨hc, trivial⟩ fun _ _ => rfl
  have hf : RailHolds (StatusIs word (wordAlerts word)) k f := by
    unfold f
    split
    next h => exact ⟨he.can, he.holds, h⟩
    next => exact he.alertSource (fun _ hx => ⟨hx, rfl⟩) (fun _ _ _ _ hx => hx) ..
  exact (hf.alertLower fun _ _ hx => hx).holds

section
variable {r : Nat} {d : Die} (hc : d.Canonical)
include hc

theorem region_setVrm_other {k : Nat} (hk : r ≠ k) (slot : Nat) (v : Option Nat) : region (setVrm slot k v d) r = region d r :=
  (region_setCeiling_other hk (modRegion_can _ _ _ hc) _ _).trans (region_other hc hk)

/-- What a rail asks of a region's ceiling stands as it is set; the region's operating point is the same. -/
theorem region_setVrm_same (slot : Nat) (v : Option Nat) : (region (setVrm slot r v d) r).vrm.getD slot none = v ∧ (region (setVrm slot r v d) r).opp = (region d r).opp := by
  have hset : RegionHolds (fun x => x.vrm.getD slot none = v ∧ x.opp = (region d r).opp) r (modRegion r (fun x => { x with vrm := lset none x.vrm slot v }) d) :=
    RegionHolds.modRegion_same (p := fun x => x.opp = (region d r).opp) ⟨hc, rfl⟩ fun _ hx => ⟨getD_lset .., hx⟩
  exact (region_setCeiling_same hset (j := 6) (by decide) _ fun _ _ _ _ _ _ hx => hx).2

/-- Each region of a list without repeats gets what the rail asks of it. -/
theorem region_each_setVrm {l : List Nat} (hn : l.Nodup) (hr : r ∈ l) (slot : Nat) (v : Region → Option Nat) : let x := region (each l (fun k e => setVrm slot k (v (region e k)) e) d) r
    x.vrm.getD slot none = v (region d r) ∧ x.opp = (region d r).opp :=
  get_each_of_mem (I := Die.Canonical) (get := (region · r)) (Q := fun x => x.vrm.getD slot none = v (region d r) ∧ x.opp = (region d r).opp)
    (fun k e _ he => setVrm_can _ _ _ _ he) (fun k e _ hk he => region_setVrm_other he hk.symm _ _) hn hr (fun e he hsame => by rw [← hsame]; exact region_setVrm_same he _ _) hc

end

theorem railRegions_nodup (d : Die) (k : Nat) : (railRegions d k).Nodup := (presentRegions_nodup d).filter _

theorem rail_each_setVrm (l : List Nat) (slot : Nat) (v : Nat → Die → Option Nat) (d : Die) (k : Nat) : rail (each l (fun r e => setVrm slot r (v r e) e) d) k = rail d k :=
  rail_of (each_rails fun _ _ => setVrm_rails ..) k

section
variable {k t : Nat} {d : Die}

theorem alertRises_of_due (hf : (rail d k).fallClear = none) (hs : (rail d k).clearSince = some t) (ht : t + 1000000 ≤ d.tally.now) (hr : (rail d k).alertRise + 100000 ≤ d.tally.now)
    (hn : railAlerting (rail d k) = false) :
    alertRises k d = each (railRegions d k) (fun r e => setVrm (vrmSlot k) r (risen ((region e r).vrm.getD (vrmSlot k) none)) e) (modRail k (fun x => { x with alertRise := d.tally.now }) d) := by
  simp only [alertRises, fallCleared, hf, hs, ht, hr, hn, Bool.not_false, and_self, if_true]

/-- The rail of a fall that fails. -/
def fallFails (now : Nat) (x : Rail) : Rail := { x with fallFailed := true, fallClear := none, rewriteAt := now + 100000, sawAlert := true }

theorem fallTimeout_of_due (word : Nat) (hw : (rail d k).writtenAt = some t) (hfall : (rail d k).falling = true) (hc : (rail d k).confirmed = false) (hn : (rail d k).fallFailed = false)
    (ht : t + (rail d k).allowance ≤ d.tally.now) : fallTimeout k word d =
    each (railRegions d k) (fun r e => setVrm (2 + vrmSlot k) r (some (region e r).opp) e) (alertEvent k 0 1 word (modRail k (fallFails d.tally.now) d)) := by
  simp only [fallTimeout, hw, hfall, hc, hn, ht, Bool.not_false, and_self, if_true]
  rw [railRegions_of (alertEvent_startup ..)]
  rfl

theorem fallRewrite_of_due (hf : (rail d k).fallFailed = true) (hr : (rail d k).rewriteAt ≤ d.tally.now) (hx : chandlerRuns d = true) :
    fallRewrite k d = avsPush k (.target (rail d k).target) (modRail k (fun x => { x with rewriteAt := d.tally.now + 100000 }) d) := by
  simp only [fallRewrite, hf, hr, hx, and_self, if_true]

end

/-- Settles O22: the evaluation by the ceilings that its other loops and rises leave, each event of a rail by the rail and the regions that it writes. -/
theorem limitLoopsAndRegulatorAlerts : Obligations.LimitLoopsAndRegulatorAlerts := by
  intro s hc
  refine ⟨fun e he ht => gives_run (b := true) rfl rfl ⟨limitEvaluation_takes hc he ht, fun hx hn r hr => limitEvaluation_lowers hc he ht hx hn hr⟩, fun k hk => ?_⟩
  have named : isRail k = true := decide_eq_true hk
  have hmod : ∀ f : Rail → Rail, rail (modRail k f s.die) k = f (rail s.die k) := fun f => rail_modRail_same hc.rails
  have hcan : ∀ f : Rail → Rail, (modRail k f s.die).Canonical := fun f => modRail_can _ _ _ hc
  refine ⟨fun word ho => gives_run rfl named (rail_statusPoll hc ho), fun t hf hs ht hr hn => gives_run rfl named ?_, fun word t hw hfall hconf hn ht => gives_run rfl named ?_,
    fun hf hr hx ho => gives_run rfl named ?_⟩
  · rw [alertRises_of_due hf hs ht hr hn, rail_each_setVrm, hmod]
    exact ⟨rfl, fun r hr => (region_each_setVrm (hcan _) (railRegions_nodup ..) hr _ fun x => risen (x.vrm.getD (vrmSlot k) none)).1⟩
  · rw [fallTimeout_of_due word hw hfall hconf hn ht, rail_each_setVrm, rail_of (alertEvent_rails ..), hmod]
    refine ⟨rfl, rfl, fun r hr => ?_⟩
    have hset := region_each_setVrm (alertEvent_can k 0 1 word _ (hcan (fallFails s.die.tally.now))) (railRegions_nodup ..) hr (2 + vrmSlot k) fun x => some x.opp
    rwa [region_of (alertEvent_regions ..)] at hset
  · rw [fallRewrite_of_due hf hr hx]
    have hpushed := rail_avsPush_pending (hcan fun x => { x with rewriteAt := s.die.tally.now + 100000 }) (.target (rail s.die k).target) (by rw [hmod]; exact ho)
    have hwritten : RailHolds (fun x => x.rewriteAt = s.die.tally.now + 100000 ∧ x.target = (rail s.die k).target) k (modRail k (fun x => { x with rewriteAt := s.die.tally.now + 100000 }) s.die) :=
      ⟨hcan _, by rw [hmod]; exact ⟨rfl, rfl⟩⟩
    obtain ⟨hrewrite, htarget⟩ := (hwritten.avsPush (fun _ _ _ _ _ _ hx => hx) (.target (rail s.die k).target)).holds
    exact ⟨hrewrite, htarget, hpushed⟩

end Sys2Proof.Machine

namespace Sys2Proof.Machine
open Sys2Proof

/-! ## A ceiling as it is set, with what else the region keeps (R244) -/

theorem RegionHolds.setCeiling_same {p : Region → Prop} {r j : Nat} {d : Die} (h : RegionHolds p r d) (hj : j ≠ 9) (v : Option Nat) (hl : ∀ x, p x → p { x with ceilings := lset none x.ceilings j v })
    (hp : ∀ x t a s w, p x → p { x with throttle := t, actionDue := a, settleDue := s, restoreDue := w }) : RegionHolds (fun x => CeilingIs j v x ∧ p x) r (Machine.setCeiling j r v d) := by
  have hkeep := h.setCeiling j r v (fun _ => hl) hp
  have hset := region_setCeiling_same (p := fun _ => True) (r := r) ⟨h.can, trivial⟩ hj v fun _ _ _ _ _ _ hx => hx
  exact ⟨hkeep.can, hset.1, hkeep.holds⟩

theorem RegionHolds.modThermal {p : Region → Prop} {r : Nat} {d : Die} (h : RegionHolds p r d) {q : Region → Prop} {f : ThermalRegion → ThermalRegion} (hf : ∀ x, p x → q { x with thermal := f x.thermal }) :
    RegionHolds q r (Machine.modThermal r f d) := h.modRegion_same hf

/-! ## Conversions (R257, R410) -/

theorem sensor_of {a b : Die} (h : a.sensors = b.sensors) (n : Nat) : sensor a n = sensor b n := by
  unfold sensor
  rw [h]

section
variable {x : SensorReading} {d : Die} (hp : present d (x.sensor / 4) = true) (hr : (sensor d x.sensor).retired = false) (ho : (rail d (regionRail (x.sensor / 4))).off = false)
include hp hr ho

theorem convert_of_good (hok : x.ok = true) (hv : inRange x.value = true) : convert x d = modSensor x.sensor (fun y => { y with reading := x.value, converted := true, flagged := false }) d := by
  simp only [convert, hp, hr, ho, hok, hv, Bool.not_true, Bool.false_eq_true, or_self, if_false, and_self, if_true]

theorem convert_of_failed (hok : x.ok = false) (hf : (sensor d x.sensor).flagged = false) : convert x d = sensorInvalid x.sensor 2 (Config.freeInt d.fresh) (drawFree d) := by
  simp only [convert, hp, hr, ho, hok, hf, Bool.not_true, Bool.false_eq_true, or_self, if_false, false_and]

end

/-- A sensor that becomes invalid is flagged, and keeps its reading. -/
theorem sensor_sensorInvalid {n : Nat} {d : Die} (hc : d.Canonical) (cause : Nat) (v : Int) :
    (sensor (sensorInvalid n cause v d) n).flagged = true ∧ (sensor (sensorInvalid n cause v d) n).reading = (sensor d n).reading := by
  unfold sensorInvalid
  extract_lets l e f
  have he : e.Canonical := modSensor_can _ _ _ hc
  have hf : f.Canonical ∧ f.sensors = e.sensors := ⟨emit_can _ _ _ _ he, emit_sensors ..⟩
  have hsensor : sensor f n = { sensor d n with flagged := true, failures := l } := (sensor_of hf.2 n).trans (sensor_modSensor_same hc.sensors)
  split
  · rw [sensor_of (emitRetire_sensors ..), sensor_modSensor_same hf.1.sensors, hsensor]
    exact ⟨rfl, rfl⟩
  · rw [hsensor]
    exact ⟨rfl, rfl⟩

/-! ## The thresholds of every region -/

/-- The parts that a change of ceilings writes. -/
abbrev ceilingParts : List Part := [.ledger, .regions, .commitReqs]

/-- Each region whose sensors convert goes by its hard threshold and then by its soft one. -/
def thresholdsEvaluated (d : Die) : Die := each (thermalRegions d) (fun r e => evaluateSoft r (evaluateHard r e)) d

theorem sensorConversion_eq (readings : List SensorReading) (d : Die) : sensorConversion readings d = endDormant (evaluateTrip (thresholdsEvaluated (each readings convert d))) := rfl

theorem evaluated_kept {P : Die → Prop} (hP : Closed P ceilingParts) (r : Nat) {d : Die} (h : P d) : P (evaluateSoft r (evaluateHard r d)) :=
  evaluateSoft_kept (hP.mono (by decide)) _ _ (evaluateHard_kept (hP.mono (by decide)) _ _ h)

theorem thresholdsEvaluated_sameBut (d : Die) : SameBut ceilingParts d (thresholdsEvaluated d) :=
  each_kept (fun r _ he => evaluated_kept (sameBut_closed _ d) r he) (sameBut_refl _ d)

theorem sensorConversion_sensors (readings : List SensorReading) (d : Die) : (sensorConversion readings d).sensors = (each readings convert d).sensors := by
  rw [sensorConversion_eq, endDormant_sensors, evaluateTrip_sensors]
  exact thresholdsEvaluated_sameBut _ .sensors (by decide)

theorem sensorValid_of {a b : Die} (h : a.sensors = b.sensors) : sensorValid a = sensorValid b := funext fun n => by rw [sensorValid, sensorValid, sensor_of h]

theorem validSensors_of {a b : Die} (hs : a.sensors = b.sensors) (ht : a.startup = b.startup) (hr : a.rails = b.rails) : validSensors a = validSensors b := by
  have hthermal : thermalRegions a = thermalRegions b := by simp only [thermalRegions, presentRegions, funext (present_of ht), rail_of hr]
  rw [validSensors, validSensors, hthermal, sensorValid_of hs]

theorem regionHottest_of {a b : Die} (hs : a.sensors = b.sensors) (ht : a.startup = b.startup) : regionHottest a = regionHottest b := by
  have hhottest : hottestOf a = hottestOf b := funext fun l => by simp only [hottestOf, sensorValid_of hs, sensor_of hs]
  exact funext fun r => by rw [regionHottest, regionHottest, hhottest, railRegions_of ht]

/-! ### One region (R258, R259) -/

/-- The region is held at OPP 0 by its hard threshold. -/
def HardHeld (x : Region) : Prop := CeilingIs 5 (some 0) x ∧ x.thermal.hard = true

section
variable {r : Nat} {h : Int} {d : Die}

/-- The hard threshold writes the region's thermal state, and at most its own ceiling. -/
theorem evaluateHard_writes (r : Nat) (d : Die) : ∃ f, evaluateHard r d = modThermal r f d ∨ evaluateHard r d = setCeiling 5 r (some 0) (modThermal r f d) := by
  unfold evaluateHard
  extract_lets reached below
  split
  · exact ⟨_, .inr rfl⟩
  · exact ⟨_, .inl rfl⟩

/-- The soft threshold writes its side of the region's thermal state, and at most its own ceiling. -/
theorem evaluateSoft_writes (r : Nat) (d : Die) :
    ∃ f v, (evaluateSoft r d = modThermal r f d ∨ evaluateSoft r d = setCeiling 4 r v (modThermal r f d)) ∧ ∀ t, (f t).hard = t.hard := by
  unfold evaluateSoft
  extract_lets reached below x
  split
  · split
    · exact ⟨_, none, .inl rfl, fun _ => rfl⟩
    · exact ⟨_, _, .inr rfl, fun _ => rfl⟩
  · split
    · exact ⟨_, none, .inl rfl, fun _ => rfl⟩
    · exact ⟨_, none, .inl rfl, fun _ => rfl⟩

theorem region_setCeiling_modThermal_other {k : Nat} (hc : d.Canonical) (hk : r ≠ k) (j : Nat) (v : Option Nat) (f : ThermalRegion → ThermalRegion) :
    region (setCeiling j k v (modThermal k f d)) r = region d r :=
  (region_setCeiling_other hk (modRegion_can _ _ _ hc) _ _).trans (region_other hc hk)

theorem region_evaluateHard_other {k : Nat} (hc : d.Canonical) (hk : r ≠ k) : region (evaluateHard k d) r = region d r := by
  obtain ⟨f, h | h⟩ := evaluateHard_writes k d
  · rw [h]
    exact region_other hc hk
  · rw [h, region_setCeiling_modThermal_other hc hk]

theorem region_evaluateSoft_other {k : Nat} (hc : d.Canonical) (hk : r ≠ k) : region (evaluateSoft k d) r = region d r := by
  obtain ⟨f, v, h | h, -⟩ := evaluateSoft_writes k d
  · rw [h]
    exact region_other hc hk
  · rw [h, region_setCeiling_modThermal_other hc hk]

theorem evaluateHard_of_reached (hh : regionHottest d r = some h) (hr : d.limits.hard ≤ h) :
    evaluateHard r d = setCeiling 5 r (some 0) (modThermal r (fun t => { t with hard := true, hardBelow := none, fromReset := false }) d) := by
  simp only [evaluateHard, hh, hr, decide_true, if_true]

theorem evaluateHard_of_below (hh : regionHottest d r = some h) (hr : h < d.limits.hard) : ∃ v : ThermalRegion → Option Nat, evaluateHard r d = modThermal r (fun t => { t with hardBelow := v t }) d := by
  have hno : ¬d.limits.hard ≤ h := not_le.2 hr
  simp only [evaluateHard, hh, hno, decide_false, Bool.false_eq_true, if_false]
  exact ⟨_, rfl⟩

theorem evaluateSoft_of_reached (hh : regionHottest d r = some h) (hr : d.limits.soft ≤ h) (hs : (region d r).thermal.soft = false) :
    evaluateSoft r d = setCeiling 4 r (some (stepBelow (region d r))) (modThermal r (fun t => { t with soft := true, softStep := d.tally.now, softBelow := none, riseFrom := none }) d) := by
  simp only [evaluateSoft, hh, hr, hs, decide_true, if_true, Bool.false_eq_true, if_false]

theorem hardHeld_evaluateHard (hc : d.Canonical) (hh : regionHottest d r = some h) (hr : d.limits.hard ≤ h) : RegionHolds HardHeld r (evaluateHard r d) := by
  rw [evaluateHard_of_reached hh hr]
  have hhard : RegionHolds (fun x => x.thermal.hard = true) r (modThermal r (fun t => { t with hard := true, hardBelow := none, fromReset := false }) d) :=
    RegionHolds.modThermal (p := fun _ => True) ⟨hc, trivial⟩ fun _ _ => rfl
  exact hhard.setCeiling_same (j := 5) (by decide) _ (fun _ hx => hx) fun _ _ _ _ _ hx => hx

/-- The soft threshold does not release the hard one. -/
theorem RegionHolds.evaluateSoft_hardHeld (hr : RegionHolds HardHeld r d) : RegionHolds HardHeld r (evaluateSoft r d) := by
  obtain ⟨f, v, h | h, hf⟩ := evaluateSoft_writes r d
  all_goals
    rw [h]
    have hset : RegionHolds HardHeld r (Machine.modThermal r f d) := hr.modThermal fun x hx => ⟨hx.1, (hf _).trans hx.2⟩
  · exact hset
  · exact hset.setCeiling 4 r v (fun _ x hx => ⟨ceilingIs_lset (by decide) _ x hx.1, hx.2⟩) fun _ _ _ _ _ hx => hx

/-- At the assertion of its soft threshold the region goes one point below. -/
theorem evaluateSoft_lowers (hc : d.Canonical) (hh : regionHottest d r = some h) (hr : d.limits.soft ≤ h) (hs : (region d r).thermal.soft = false) :
    RegionHolds (fun x => CeilingIs 4 (some (stepBelow (region d r))) x ∧ x.thermal.soft = true) r (evaluateSoft r d) := by
  rw [evaluateSoft_of_reached hh hr hs]
  have hsoft : RegionHolds (fun x => x.thermal.soft = true) r (modThermal r (fun t => { t with soft := true, softStep := d.tally.now, softBelow := none, riseFrom := none }) d) :=
    RegionHolds.modThermal (p := fun _ => True) ⟨hc, trivial⟩ fun _ _ => rfl
  exact hsoft.setCeiling_same (j := 4) (by decide) _ (fun _ hx => hx) fun _ _ _ _ _ hx => hx

end

/-- What the thresholds make of a region x whose hottest reading is h. -/
def ThresholdsActed (l : Limits) (h : Int) (x y : Region) : Prop :=
  (l.hard ≤ h → HardHeld y) ∧ (h < l.hard → l.soft ≤ h → x.thermal.soft = false → CeilingIs 4 (some (stepBelow x)) y ∧ y.thermal.soft = true)

theorem thresholdsActed_evaluated {r : Nat} {h : Int} {d : Die} (hc : d.Canonical) (hh : regionHottest d r = some h) :
    ThresholdsActed d.limits h (region d r) (region (evaluateSoft r (evaluateHard r d)) r) := by
  refine ⟨fun hr => (hardHeld_evaluateHard hc hh hr).evaluateSoft_hardHeld.holds, fun hlow hr hs => ?_⟩
  obtain ⟨v, heq⟩ := evaluateHard_of_below hh hlow
  have hx : region (evaluateHard r d) r = { region d r with thermal := { (region d r).thermal with hardBelow := v (region d r).thermal } } := by rw [heq]; exact region_same hc
  have hh' : regionHottest (evaluateHard r d) r = some h := by rw [regionHottest_of (evaluateHard_sensors ..) (evaluateHard_startup ..), hh]
  have hlowered := (evaluateSoft_lowers (evaluateHard_can r d hc) hh' (by rw [evaluateHard_limits]; exact hr) (by rw [hx]; exact hs)).holds
  rwa [hx] at hlowered

theorem region_thresholdsEvaluated {r : Nat} {h : Int} {d : Die} (hc : d.Canonical) (hr : r ∈ thermalRegions d) (hh : regionHottest d r = some h) :
    ThresholdsActed d.limits h (region d r) (region (thresholdsEvaluated d) r) :=
  get_each_of_mem (I := fun e => e.Canonical ∧ SameBut ceilingParts d e) (get := (region · r))
    (fun k e _ he => ⟨evaluated_kept (canonical_closed _) k he.1, evaluated_kept (sameBut_closed _ d) k he.2⟩)
    (fun k e _ hk he => (region_evaluateSoft_other (evaluateHard_can _ _ he.1) hk.symm).trans (region_evaluateHard_other he.1 hk.symm)) ((presentRegions_nodup d).filter _) hr
    (fun e he hsame => by
      have hlimits : e.limits = d.limits := he.2 .limits (by decide)
      have hacted := thresholdsActed_evaluated he.1 (by rw [regionHottest_of (he.2 .sensors (by decide)) (he.2 .startup (by decide)), hh])
      rwa [hlimits, hsame] at hacted) ⟨hc, sameBut_refl _ d⟩

/-! ### The trip (R260) -/

/-- The hottest sensor of a list is one of them, and none is hotter; there is one unless the list is empty. -/
theorem hottestSensor_greatest (d : Die) (l : List Nat) :
    (∀ n, hottestSensor d l = some n → n ∈ l ∧ ∀ m ∈ l, (sensor d m).reading ≤ (sensor d n).reading) ∧ (hottestSensor d l = none → l = []) := by
  induction l using List.reverseRecOn with
  | nil => exact ⟨nofun, fun _ => rfl⟩
  | append_singleton l a ih =>
    obtain ⟨hsome, hnone⟩ := ih
    have hstep : hottestSensor d (l ++ [a]) = (hottestSensor d l).elim (some a) fun k => if (sensor d k).reading < (sensor d a).reading then some a else some k := by
      rw [hottestSensor, List.foldl_append, ← hottestSensor]
      cases hottestSensor d l <;> rfl
    rw [hstep]
    cases hl : hottestSensor d l with
    | none => simp [hnone hl]
    | some k =>
      obtain ⟨hk, hmax⟩ := hsome k hl
      simp only [Option.elim_some]
      split_ifs with hlt
      · refine ⟨fun n hn => ?_, nofun⟩
        obtain rfl := Option.some.inj hn
        simp only [List.mem_append, List.mem_singleton, or_true, or_imp, forall_and, forall_eq, le_refl, and_true, true_and]
        exact fun m hm => (hmax m hm).trans hlt.le
      · refine ⟨fun n hn => ?_, nofun⟩
        obtain rfl := Option.some.inj hn
        simp only [List.mem_append, List.mem_singleton, or_imp, forall_and, forall_eq]
        exact ⟨.inl hk, hmax, not_lt.1 hlt⟩

section
variable {d : Die}

/-- With every valid sensor below the trip, its evaluation times the release alone. -/
theorem evaluateTrip_of_below (h : ∀ n ∈ validSensors d, (sensor d n).reading < Config.trip) : ∃ v, evaluateTrip d = { d with stop := { d.stop with tripBelow := v } } := by
  unfold evaluateTrip
  dsimp only
  split
  next => exact ⟨_, rfl⟩
  next n hn =>
    rw [if_neg (not_le.2 (h n ((hottestSensor_greatest d _).1 n hn).1))]
    exact ⟨_, rfl⟩

/-- A valid sensor at the trip stops a die that it has not stopped. -/
theorem evaluateTrip_of_reached {n : Nat} (hn : n ∈ validSensors d) (hr : Config.trip ≤ (sensor d n).reading) (ht : d.stop.trip = false) :
    ∃ m, evaluateTrip d = stopDie 2 m { d with stop := { d.stop with tripBelow := none } } := by
  obtain ⟨hmax, hempty⟩ := hottestSensor_greatest d (validSensors d)
  cases hm : hottestSensor d (validSensors d) with
  | none => rw [hempty hm] at hn; cases hn
  | some m =>
    have hhot : Config.trip ≤ (sensor d m).reading := hr.trans ((hmax m hm).2 n hn)
    simp only [evaluateTrip, hm, hhot, ht, if_true, Bool.false_eq_true, if_false]
    exact ⟨m, rfl⟩

end

theorem endDormant_of_staying {d : Die} (h : d.dormant.leaving = false) : endDormant d = d := by
  simp only [endDormant, h, Bool.false_eq_true, false_and, if_false]

section
variable (readings : List SensorReading) {d : Die}

theorem each_convert_can (hc : d.Canonical) : (each readings convert d).Canonical := each_can hc convert_can

theorem each_convert_stop : (each readings convert d).stop = d.stop := each_stop convert_stop

theorem each_convert_dormant : (each readings convert d).dormant = d.dormant := each_dormant convert_dormant

/-- Without a trip, the conversions and the thresholds are all that acts. -/
theorem sensorConversion_of_below (h : ∀ n ∈ validSensors (each readings convert d), (sensor (each readings convert d) n).reading < Config.trip) (hl : d.dormant.leaving = false) :
    ∃ v, sensorConversion readings d = { thresholdsEvaluated (each readings convert d) with stop := { d.stop with tripBelow := v } } := by
  have hsame := thresholdsEvaluated_sameBut (each readings convert d)
  have hsensors : (thresholdsEvaluated (each readings convert d)).sensors = (each readings convert d).sensors := hsame .sensors (by decide)
  have hstop : (thresholdsEvaluated (each readings convert d)).stop = d.stop := (hsame .stop (by decide)).trans (each_convert_stop readings)
  have hdormant : (thresholdsEvaluated (each readings convert d)).dormant = d.dormant := (hsame .dormant (by decide)).trans (each_convert_dormant readings)
  obtain ⟨v, heq⟩ := evaluateTrip_of_below (d := thresholdsEvaluated (each readings convert d)) fun n hn => by
    rw [validSensors_of hsensors (hsame .startup (by decide)) (hsame .rails (by decide))] at hn
    rw [sensor_of hsensors]
    exact h n hn
  refine ⟨v, ?_⟩
  rw [sensorConversion_eq, heq, hstop, endDormant_of_staying]
  exact (congrArg Dormant.leaving hdormant).trans hl

theorem sensorConversion_trips {n : Nat} (hn : n ∈ validSensors (each readings convert d)) (hr : Config.trip ≤ (sensor (each readings convert d) n).reading) (ht : d.stop.trip = false) :
    let t := (sensorConversion readings d).stop; t.trip = true ∧ t.stopped = true ∧ t.thermtrip = true ∧ t.td = d.tally.now ∧ t.resumeAt = none := by
  have hsame := thresholdsEvaluated_sameBut (each readings convert d)
  have hsensors : (thresholdsEvaluated (each readings convert d)).sensors = (each readings convert d).sensors := hsame .sensors (by decide)
  have hstop : (thresholdsEvaluated (each readings convert d)).stop = d.stop := (hsame .stop (by decide)).trans (each_convert_stop readings)
  have htally : (thresholdsEvaluated (each readings convert d)).tally = d.tally := (hsame .tally (by decide)).trans (each_tally convert_tally)
  obtain ⟨m, heq⟩ := evaluateTrip_of_reached (d := thresholdsEvaluated (each readings convert d)) (n := n)
    (by rw [validSensors_of hsensors (hsame .startup (by decide)) (hsame .rails (by decide))]; exact hn) (by rw [sensor_of hsensors]; exact hr) (by rw [hstop]; exact ht)
  rw [sensorConversion_eq, endDormant_stop, heq, stopDie_stop]
  exact ⟨by simp, rfl, by simp, congrArg Tally.now htally, rfl⟩

end

/-! ## Thermal deadlines (R258, R259) -/

section
variable {r t : Nat} {d : Die}

theorem softStep_of_due (hs : (region d r).thermal.soft = true) (ht : (region d r).thermal.softStep + 1000000 ≤ d.tally.now) :
    softStep r d = setCeiling 4 r (((region d r).ceilings.getD 4 none).map (· - 1)) (modThermal r (fun t => { t with softStep := d.tally.now }) d) :=
  if_pos ⟨hs, ht⟩

theorem elapsed_some {now n : Nat} (h : t + n ≤ now) : elapsed now n (some t) = true := decide_eq_true h

theorem softRelease_of_due (hs : (region d r).thermal.soft = true) (hb : (region d r).thermal.softBelow = some t) (ht : t + 1000000 ≤ d.tally.now) :
    softRelease r d = modThermal r (fun t => { t with soft := false, riseFrom := some d.tally.now }) d :=
  if_pos ⟨hs, by rw [hb]; exact elapsed_some ht⟩

theorem softRise_of_due (hs : (region d r).thermal.soft = false) (hf : (region d r).thermal.riseFrom = some t) (ht : t + 10000000 ≤ d.tally.now) :
    ∃ f, softRise r d = setCeiling 4 r (risen ((region d r).ceilings.getD 4 none)) (modThermal r f d) :=
  ⟨_, if_pos ⟨by rw [hs]; rfl, by rw [hf]; exact elapsed_some ht⟩⟩

/-- The soft threshold as it counts from the release of the hard one (R259). -/
def softFrom (now : Nat) (t : ThermalRegion) : ThermalRegion := { t with soft := true, softStep := now, softBelow := none, riseFrom := none }

theorem hardRelease_of_due (hh : (region d r).thermal.hard = true) (hb : (region d r).thermal.hardBelow = some t) (ht : t + 1000000 ≤ d.tally.now) : hardRelease r d =
    setCeiling 5 r none (modThermal r (fun t => { t with hard := false, fromReset := false }) (if (region d r).thermal.fromReset then d else setCeiling 4 r (some 0) (modThermal r (softFrom d.tally.now) d))) :=
  if_pos ⟨hh, by rw [hb]; exact elapsed_some ht⟩

/-- The release of the hard threshold ends its ceiling; what it does not touch is kept. -/
theorem RegionHolds.hardReleased {p : Region → Prop} (h : RegionHolds p r d) (hl : ∀ x, p x → p { x with ceilings := lset none x.ceilings 5 none })
    (ht : ∀ x, p x → p { x with thermal := { x.thermal with hard := false, fromReset := false } })
    (hp : ∀ x t a s w, p x → p { x with throttle := t, actionDue := a, settleDue := s, restoreDue := w }) :
    RegionHolds (fun x => CeilingIs 5 none x ∧ x.thermal.hard = false ∧ p x) r (Machine.setCeiling 5 r none (Machine.modThermal r (fun t => { t with hard := false, fromReset := false }) d)) := by
  have hreleased : RegionHolds (fun x => x.thermal.hard = false ∧ p x) r (Machine.modThermal r (fun t => { t with hard := false, fromReset := false }) d) :=
    h.modThermal fun x hx => ⟨rfl, ht x hx⟩
  exact hreleased.setCeiling_same (j := 5) (by decide) none (fun x hx => ⟨hx.1, hl x hx.2⟩) fun x t a s w hx => ⟨hx.1, hp x t a s w hx.2⟩

end

/-- Settles O23: a conversion by the sensor it writes, the thresholds region by region, the trip by the hottest sensor, each deadline by the region it leaves. -/
theorem thermalThresholdsActOnTheirRegions : Obligations.ThermalThresholdsActOnTheirRegions := by
  intro s hc
  refine ⟨fun x hp hret ho => ⟨fun hok hv => gives_run (b := true) rfl rfl ?_, fun hok hf => gives_run (b := true) rfl rfl ?_⟩, fun readings => ?_, fun r hr => ?_⟩
  · have hone : each [x] convert s.die = convert x s.die := rfl
    rw [sensor_of (sensorConversion_sensors ..), hone, convert_of_good hp hret ho hok hv, sensor_modSensor_same hc.sensors]
  · have hone : each [x] convert s.die = convert x s.die := rfl
    rw [sensor_of (sensorConversion_sensors ..), hone, convert_of_failed hp hret ho hok hf]
    exact sensor_sensorInvalid (drawFree_can _ hc) ..
  · refine ⟨fun hbelow hleaving => gives_run (b := true) rfl rfl ?_, fun n hn htrip ht => gives_run (b := true) rfl rfl (sensorConversion_trips readings hn htrip ht)⟩
    obtain ⟨v, heq⟩ := sensorConversion_of_below readings hbelow hleaving
    refine ⟨sensorConversion_sensors .., ?_, fun r h hr hh => ?_⟩
    · rw [heq]
    · rw [heq]
      exact region_thresholdsEvaluated (each_convert_can readings hc) hr hh
  · have named : isRegion r = true := decide_eq_true hr
    have htrue : RegionHolds (· = region s.die r) r s.die := ⟨hc, rfl⟩
    refine ⟨fun hs ht => gives_run rfl named ?_, fun t hs hb ht => gives_run rfl named ?_, fun t hs hf ht => gives_run rfl named ?_, fun t hh hb ht => gives_run rfl named ?_⟩
    · rw [softStep_of_due hs ht]
      have hstep : RegionHolds (fun x => x.thermal.softStep = s.die.tally.now) r (modThermal r (fun t => { t with softStep := s.die.tally.now }) s.die) := htrue.modThermal fun _ _ => rfl
      exact (hstep.setCeiling_same (j := 4) (by decide) _ (fun _ hx => hx) fun _ _ _ _ _ hx => hx).holds
    · rw [softRelease_of_due hs hb ht]
      exact region_same hc
    · obtain ⟨f, heq⟩ := softRise_of_due hs hf ht
      rw [heq]
      have hany : RegionHolds (fun _ => True) r (modThermal r f s.die) := htrue.modThermal fun _ _ => trivial
      exact (hany.setCeiling_same (j := 4) (by decide) _ (fun _ hx => hx) fun _ _ _ _ _ hx => hx).holds.1
    · rw [hardRelease_of_due hh hb ht]
      cases hreset : (region s.die r).thermal.fromReset with
      | false =>
        have hsoft : RegionHolds (fun x => x.thermal.soft = true) r (modThermal r (softFrom s.die.tally.now) s.die) := htrue.modThermal fun _ _ => rfl
        have hlow := hsoft.setCeiling_same (j := 4) (by decide) (some 0) (fun _ hx => hx) fun _ _ _ _ _ hx => hx
        obtain ⟨hceil, hoff, hfour, hon⟩ := (hlow.hardReleased (fun x hx => ⟨ceilingIs_lset (by decide) _ x hx.1, hx.2⟩) (fun _ hx => hx) fun _ _ _ _ _ hx => hx).holds
        exact ⟨hceil, hoff, fun _ => ⟨hfour, hon⟩, nofun⟩
      | true =>
        have hfour : RegionHolds (CeilingIs 4 ((region s.die r).ceilings.getD 4 none)) r s.die := ⟨hc, rfl⟩
        obtain ⟨hceil, hoff, hkept⟩ := (hfour.hardReleased (fun x hx => ceilingIs_lset (by decide) _ x hx) (fun _ hx => hx) fun _ _ _ _ _ hx => hx).holds
        exact ⟨hceil, hoff, nofun, fun _ => hkept⟩

end Sys2Proof.Machine

namespace Sys2Proof.Machine
open Sys2Proof

/-! ## What a link keeps -/

/-- Link l has a property, on a die in canonical form. -/
structure LinkHolds (p : Link → Prop) (l : Nat) (d : Die) : Prop where
  can : d.Canonical
  holds : p (link d l)

namespace LinkHolds

section
variable {p : Link → Prop} {l k : Nat} {d : Die}

theorem of_links {e : Die} (h : LinkHolds p l d) (hl : e.links = d.links) (hc : e.Canonical) : LinkHolds p l e := ⟨hc, (link_of hl l).symm ▸ h.holds⟩

/-- An update of the link itself. -/
theorem modLink_same {q : Link → Prop} (h : LinkHolds p l d) {f : Link → Link} (hf : ∀ x, p x → q (f x)) : LinkHolds q l (modLink l f d) :=
  ⟨modLink_can _ _ _ h.can, (link_modLink_same (f := f) h.can.links).symm ▸ hf _ h.holds⟩

/-- An update of any link that keeps the property where it is the link itself. -/
theorem modLink (h : LinkHolds p l d) {f : Link → Link} (hf : l = k → ∀ x, p x → p (f x)) : LinkHolds p l (modLink k f d) := by
  by_cases hk : l = k
  · subst hk
    exact h.modLink_same (hf rfl)
  · exact ⟨modLink_can _ _ _ h.can, (link_modLink_other (f := f) h.can.links hk).symm ▸ h.holds⟩

theorem poolRecord (h : LinkHolds p l d) (code amount role : Nat) : LinkHolds p l (poolRecord code k amount role d) := h.of_links (poolRecord_links ..) (poolRecord_can _ _ _ _ _ h.can)

variable (hp : l = k → ∀ x n q o w, p x → p { x with pool := { x.pool with loan := n, seq := q, outstanding := o }, waitPool := w })
include hp

theorem sendPool (h : LinkHolds p l d) (kind ack amount : Nat) : LinkHolds p l (sendPool k kind ack amount d) := h.modLink fun hk x hx => hp hk x _ _ _ _ hx

theorem setLoan (h : LinkHolds p l d) (v : Int) : LinkHolds p l (setLoan k v d) := by
  have hset : LinkHolds p l (Machine.modLink k (fun x => { x with pool := { x.pool with loan := v } }) d) := h.modLink fun hk x hx => hp hk x _ _ _ _ hx
  exact hset.of_links rfl { hset.can with }

theorem returnLoan (h : LinkHolds p l d) (ack : Nat) : LinkHolds p l (returnLoan k ack d) := by
  unfold Machine.returnLoan
  dsimp only
  split
  · exact h
  · exact ((h.setLoan hp 0).sendPool hp ..).poolRecord ..

end

end LinkHolds

/-! ## STATUS rounds (R270, R272) -/

/-- What a STATUS says: want and offer of the link. -/
def Asks (want offer : Nat) (x : Link) : Prop := x.pool.want = want ∧ x.pool.offer = offer

/-- The STATUS that goes out last says the want, the offer and the loan of the link. -/
def StatusWaits (x : Link) : Prop := x.waitPool.getLast? = some (.pool 0 x.pool.seq 0xFFFF x.pool.want x.pool.offer 0 x.pool.loan)

/-- The want and the offer of a round are set, and the rounds in which a loan was idle are counted. -/
def roundSet (want offer : Nat) (l : Nat) (d : Die) : Die :=
  let on := poolLink d l
  modPool l (fun p => { p with
    want := if on then want else 0
    offer := if on then offer else 0
    idle := if p.loan < 0 ∧ (want = 0 ∨ !on) then p.idle + 1 else 0 }) d

/-- A loan idle for three rounds is returned. -/
def idleReturned (l : Nat) (d : Die) : Die := if 3 ≤ (link d l).pool.idle then modPool l (fun p => { p with idle := 0 }) (returnLoan l 0xFFFF d) else d

/-- A loan of the die is recalled. -/
def loanRecalled (recalling : Bool) (l : Nat) (d : Die) : Die :=
  let lent := (link d l).pool.loan.toNat
  if recalling ∧ 0 < lent then poolRecord 0x0703 l lent 0 (sendPool l 3 0xFFFF lent d) else d

theorem statusLink_eq (want offer : Nat) (recalling : Bool) (l : Nat) (d : Die) :
    statusLink want offer recalling l d = sendPool l 0 0xFFFF 0 (loanRecalled recalling l (idleReturned l (roundSet want offer l d))) := rfl

namespace LinkHolds

section
variable {p : Link → Prop} {l k : Nat} {d : Die} (hp : l = k → ∀ x n q i o w, p x → p { x with pool := { x.pool with loan := n, seq := q, idle := i, outstanding := o }, waitPool := w })
include hp

theorem idleReturned (h : LinkHolds p l d) : LinkHolds p l (idleReturned k d) := by
  unfold Machine.idleReturned
  split
  · exact LinkHolds.modLink (h.returnLoan (fun hk x n q o w hx => hp hk x n q x.pool.idle o w hx) _) fun hk x hx => hp hk x _ _ 0 _ _ hx
  · exact h

theorem loanRecalled (h : LinkHolds p l d) (recalling : Bool) : LinkHolds p l (loanRecalled recalling k d) := by
  unfold Machine.loanRecalled
  dsimp only
  split
  · exact (h.sendPool (fun hk x n q o w hx => hp hk x n q x.pool.idle o w hx) ..).poolRecord ..
  · exact h

end

end LinkHolds

section
variable (want offer : Nat) (recalling : Bool) {l : Nat} {d : Die} (hc : d.Canonical)
include hc

theorem statusLink_asks : LinkHolds (fun x => Asks (if poolLink d l then want else 0) (if poolLink d l then offer else 0) x ∧ StatusWaits x) l (statusLink want offer recalling l d) := by
  have hset : LinkHolds (Asks (if poolLink d l then want else 0) (if poolLink d l then offer else 0)) l (roundSet want offer l d) :=
    LinkHolds.modLink_same (p := fun _ => True) ⟨hc, trivial⟩ fun _ _ => ⟨rfl, rfl⟩
  have hsettled := (hset.idleReturned (k := l) fun _ _ _ _ _ _ _ hx => hx).loanRecalled (k := l) (fun _ _ _ _ _ _ _ hx => hx) recalling
  rw [statusLink_eq]
  refine hsettled.modLink_same fun x hx => ⟨hx, ?_⟩
  rw [StatusWaits, List.getLast?_concat]

theorem link_statusLink_other {k : Nat} (hk : l ≠ k) : link (statusLink want offer recalling k d) l = link d l := by
  have hset : LinkHolds (· = link d l) l (roundSet want offer k d) := LinkHolds.modLink (p := (· = link d l)) ⟨hc, rfl⟩ fun h => absurd h hk
  have hsettled := (hset.idleReturned (k := k) fun h => absurd h hk).loanRecalled (k := k) (fun h => absurd h hk) recalling
  rw [statusLink_eq]
  exact (hsettled.sendPool (fun h => absurd h hk) ..).holds

end

theorem returnLoan_pool (l ack : Nat) (d : Die) : (returnLoan l ack d).limits.pool = d.limits.pool := by
  unfold returnLoan
  dsimp only
  split
  · rfl
  · rw [poolRecord_limits, sendPool_limits]
    rfl

theorem idleReturned_pool (l : Nat) (d : Die) : (idleReturned l d).limits.pool = d.limits.pool := by
  unfold idleReturned
  split
  · exact returnLoan_pool ..
  · rfl

theorem loanRecalled_limits (recalling : Bool) (l : Nat) (d : Die) : (loanRecalled recalling l d).limits = d.limits := by
  unfold loanRecalled
  dsimp only
  split
  · rw [poolRecord_limits, sendPool_limits]
  · rfl

theorem statusLink_pool (want offer : Nat) (recalling : Bool) (l : Nat) (d : Die) : (statusLink want offer recalling l d).limits.pool = d.limits.pool := by
  rw [statusLink_eq, sendPool_limits, loanRecalled_limits, idleReturned_pool]
  rfl

theorem poolLink_of {a b : Die} {l : Nat} (hl : link a l = link b l) (hp : a.limits.pool = b.limits.pool) : poolLink a l = poolLink b l := by
  rw [poolLink, poolLink, hl, hp]

theorem beginRound_begins (d : Die) : (beginRound d).limits.roundStart = d.tally.now ∧ (beginRound d).limits.roundEnergy = 0 :=
  ⟨congrArg Tally.now (each_tally fun _ _ => rfl), rfl⟩

/-- The links over which STATUS goes out. -/
def statusLinks (d : Die) : List Nat := (List.range 32).filter (fun l => (link d l).rxUp)

theorem statusSend_of_due {d : Die} (hp : d.limits.pool ≠ 0) (hx : chandlerRuns d = true) (ht : d.limits.roundStart < d.tally.now / 10000000 * 10000000) :
    ∃ recalling, statusSend d = beginRound (each (statusLinks d) (statusLink (wantNow d) (offerNow d) recalling) d) :=
  ⟨_, if_neg (by simp [hp, hx, ht])⟩

theorem statusSend_sends {l : Nat} {d : Die} (hc : d.Canonical) (hp : d.limits.pool ≠ 0) (hx : chandlerRuns d = true) (ht : d.limits.roundStart < d.tally.now / 10000000 * 10000000)
    (hl : l < 32) (hr : (link d l).rxUp = true) :
    Asks (if poolLink d l then wantNow d else 0) (if poolLink d l then offerNow d else 0) (link (statusSend d) l) ∧ StatusWaits (link (statusSend d) l) := by
  obtain ⟨recalling, heq⟩ := statusSend_of_due hp hx ht
  rw [heq, link_of (beginRound_links _)]
  refine get_each_of_mem (I := fun e => e.Canonical ∧ e.limits.pool = d.limits.pool) (get := (link · l))
    (Q := fun x => Asks (if poolLink d l then wantNow d else 0) (if poolLink d l then offerNow d else 0) x ∧ StatusWaits x)
    (fun k e _ he => ⟨statusLink_can _ _ _ _ _ he.1, (statusLink_pool ..).trans he.2⟩) (fun k e _ hk he => link_statusLink_other _ _ _ he.1 hk.symm) (List.nodup_range.filter _)
    (List.mem_filter.2 ⟨List.mem_range.2 hl, hr⟩) (fun e he hsame => ?_) ⟨hc, rfl⟩
  rw [← poolLink_of hsame he.2]
  exact (statusLink_asks _ _ _ he.1).holds

theorem statusSend_begins {d : Die} (hp : d.limits.pool ≠ 0) (hx : chandlerRuns d = true) (ht : d.limits.roundStart < d.tally.now / 10000000 * 10000000) :
    (statusSend d).limits.roundStart = d.tally.now ∧ (statusSend d).limits.roundEnergy = 0 := by
  obtain ⟨recalling, heq⟩ := statusSend_of_due hp hx ht
  have htally : (each (statusLinks d) (statusLink (wantNow d) (offerNow d) recalling) d).tally = d.tally := each_tally fun _ _ => statusLink_tally ..
  have hbegins := beginRound_begins (each (statusLinks d) (statusLink (wantNow d) (offerNow d) recalling) d)
  rwa [htally, ← heq] at hbegins

/-! ## Loans (R268, R269) -/

/-- The second die may lend and borrow as the first: its base cap, its stop state and every loan are the same. -/
structure SameBudget (d e : Die) : Prop where
  base : e.limits.base = d.limits.base
  stop : e.stop = d.stop
  loan : ∀ l, (link e l).pool.loan = (link d l).pool.loan

namespace SameBudget

section
variable {d e : Die} (h : SameBudget d e)
include h

theorem lentTotal : lentTotal e = lentTotal d := by simp only [Machine.lentTotal, h.loan]

theorem borrowedTotal : borrowedTotal e = borrowedTotal d := by simp only [Machine.borrowedTotal, h.loan]

theorem fifth : fifth e = fifth d := by rw [Machine.fifth, Machine.fifth, h.base]

theorem borrowable (n : Nat) : borrowable e n = borrowable d n := by
  simp only [Machine.borrowable, sustainedMw, h.stop, h.lentTotal, h.borrowedTotal, h.fifth, h.base]

/-- A change of a link that leaves its loan. -/
theorem modLink (hc : e.Canonical) (l : Nat) {f : Link → Link} (hf : ∀ x, (f x).pool.loan = x.pool.loan) : SameBudget d (modLink l f e) := by
  refine ⟨h.base, h.stop, fun k => ?_⟩
  by_cases hk : k = l
  · subst hk
    rw [link_modLink_same hc.links, hf, h.loan]
  · rw [link_modLink_other hc.links hk, h.loan]

end

end SameBudget

/-- The link with a frame that waits, and its sequence number. -/
def frameQueued (kind ack amount : Nat) (x : Link) : Link :=
  { x with
    pool := { x.pool with seq := (x.pool.seq + 1) % 65536, outstanding := x.pool.outstanding || decide (kind ≠ 0) }
    waitPool := x.waitPool ++ [.pool kind ((x.pool.seq + 1) % 65536) ack x.pool.want x.pool.offer amount x.pool.loan] }

/-- The link with a change of its pool side. -/
def poolChanged (f : PoolLink → PoolLink) (x : Link) : Link := { x with pool := f x.pool }

/-- The link with another loan. -/
def loanSet (v : Int) (x : Link) : Link := { x with pool := { x.pool with loan := v } }

theorem link_poolRecord (code l amount role : Nat) (d : Die) : link (poolRecord code l amount role d) l = link d l := link_of (poolRecord_links ..) l

section
variable {l : Nat} {d : Die} (hc : d.Canonical)
include hc

theorem link_modPool (f : PoolLink → PoolLink) : link (modPool l f d) l = poolChanged f (link d l) := link_modLink_same hc.links

theorem link_setLoan (v : Int) : link (setLoan l v d) l = loanSet v (link d l) := link_modLink_same (f := loanSet v) hc.links

theorem link_sendPool (kind ack amount : Nat) : link (sendPool l kind ack amount d) l = frameQueued kind ack amount (link d l) := link_modLink_same hc.links

/-- A loan that the die has borrowed over the link goes back whole (R272). -/
theorem link_returnLoan (ack : Nat) (hb : (link d l).pool.loan < 0) :
    link (returnLoan l ack d) l = frameQueued 2 ack (-(link d l).pool.loan).toNat (loanSet 0 (link d l)) := by
  have hn : (-(link d l).pool.loan).toNat ≠ 0 := by omega
  have hset := setLoan_can l 0 d hc
  rw [returnLoan, if_neg hn, link_poolRecord, link_sendPool hset, link_setLoan hc]

end

/-! ## Frames of the pool (R268, R273) -/

/-- A frame of this pool is heard over a link: the partner pools with the die. -/
def heard (l : Nat) (d : Die) : Die := modPool l (fun p => { p with member := true, lastValid := some d.tally.now }) (validFrame l d)

/-- The link over which a frame of this pool was heard. -/
def linkHeard (now : Nat) (x : Link) : Link := { x with discarded := 0, absent := false, pool := { x.pool with member := true, lastValid := some now } }

theorem poolFrame_acts {kind l : Nat} {f : Bytes} {effect : Die → Die} {d : Die} (hr : (link d l).rxUp = true) (hok : poolFrameOk kind f = true) (hp : d.limits.pool ≠ 0)
    (hf : fld f 2 2 = d.limits.pool) (hx : chandlerRuns d = true) : poolFrame kind l f effect d = effect (heard l d) := by
  have hpool : d.limits.pool ≠ 0 ∧ fld f 2 2 = d.limits.pool := ⟨hp, hf⟩
  have hruns : chandlerRuns (heard l d) = true := hx
  simp only [poolFrame, hr, hok, Bool.not_true, Bool.false_eq_true, if_false, if_true, validFrame_limits, hpool, ne_eq, not_false_eq_true, and_self]
  exact if_pos hruns

section
variable {l : Nat} {d : Die} (hc : d.Canonical)
include hc

theorem heard_can : (heard l d).Canonical := modPool_can _ _ _ (validFrame_can _ _ hc)

theorem link_heard : link (heard l d) l = linkHeard d.tally.now (link d l) := by
  rw [heard, link_modPool (validFrame_can _ _ hc), link_validFrame hc]
  rfl

theorem heard_sameBudget : SameBudget d (heard l d) := by
  have hvalid : SameBudget d (validFrame l d) := SameBudget.modLink ⟨rfl, rfl, fun _ => rfl⟩ hc l fun _ => rfl
  exact hvalid.modLink (validFrame_can _ _ hc) l fun _ => rfl

end

/-! ### STATUS: the reading of the loan, and what is lent (R271, R274) -/

section
variable {l : Nat} {f : Bytes} {d : Die}

theorem checkLoan_of_agreeing (ho : (link d l).pool.outstanding = false) (ht : fldI f 18 2 = -(link d l).pool.loan) : checkLoan l f d = modPool l (fun p => { p with mismatches := 0 }) d := by
  simp only [checkLoan, ho, ht, Bool.false_eq_true, if_false, if_true]

theorem checkLoan_of_second (ho : (link d l).pool.outstanding = false) (ht : fldI f 18 2 ≠ -(link d l).pool.loan) (hm : (link d l).pool.mismatches ≠ 0) :
    checkLoan l f d = resolveLoan l (fldI f 18 2) d := by
  simp only [checkLoan, ho, ht, hm, Bool.false_eq_true, if_false]

theorem link_resolveLoan (hc : d.Canonical) (theirs : Int) :
    link (resolveLoan l theirs d) l = loanSet (max (link d l).pool.loan (-theirs)) (poolChanged (fun p => { p with mismatches := 0 }) (link d l)) := by
  unfold resolveLoan
  dsimp only
  rw [link_emit, link_setLoan (modPool_can _ _ _ hc), link_modPool hc]

/-- What a want of the partner gets: no more than the offer and the fifth of the base cap that is left. -/
def lendable (f : Bytes) (l : Nat) (d : Die) : Nat := min (min (fld f 14 2) (link d l).pool.offer) (fifth d - lentTotal d)

theorem lend_of_unwanted (h : fld f 14 2 = 0) : lend l f d = d := by
  simp only [lend, h, Nat.zero_min, true_or, if_true]

theorem link_lend (hc : d.Canonical) (hn : 0 < lendable f l d) (hs : d.stop.stopped = false) (hb : borrowedTotal d = 0) (hu : (link d l).up = true) : link (lend l f d) l =
    frameQueued 1 (fld f 6 2) (lendable f l d) (loanSet ((link d l).pool.loan + lendable f l d) (poolChanged (fun p => { p with offer := p.offer - lendable f l d }) (link d l))) := by
  have hlend : lend l f d = poolRecord 0x0701 l (lendable f l d) 0 (sendPool l 1 (fld f 6 2) (lendable f l d)
      (setLoan l ((link d l).pool.loan + lendable f l d) (modPool l (fun p => { p with offer := p.offer - lendable f l d }) d))) :=
    if_neg (by rintro (h | h | h | h); exacts [hn.ne' h, by simp [hs] at h, h hb, by simp [hu] at h])
  have h1 := modPool_can l (fun p => { p with offer := p.offer - lendable f l d }) d hc
  have h2 := setLoan_can l ((link d l).pool.loan + lendable f l d) _ h1
  rw [hlend, link_poolRecord, link_sendPool h2, link_setLoan h1, link_modPool hc]

end

/-! ### GRANT, RETURN and RECALL (R271, R272) -/

/-- What a GRANT does once its frame is heard. -/
def grantTaken (l : Nat) (f : Bytes) (d : Die) : Die :=
  let n := borrowable d (fld f 20 2)
  let e := poolRecord 0x0701 l n 1 (setLoan l ((link d l).pool.loan - n) d)
  if n < fld f 20 2 then poolRecord 0x0702 l (fld f 20 2 - n) 1 (sendPool l 2 (fld f 6 2) (fld f 20 2 - n) e) else e

/-- What a RETURN does once its frame is heard. -/
def returnTaken (l : Nat) (f : Bytes) (d : Die) : Die :=
  let n := min (fld f 20 2) (link d l).pool.loan.toNat
  if n = 0 then d else poolRecord 0x0702 l n 0 (setLoan l ((link d l).pool.loan - n) (modPool l (fun p => { p with outstanding := false }) d))

/-- What a RECALL does once its frame is heard. -/
def recallTaken (l : Nat) (f : Bytes) (d : Die) : Die :=
  if (link d l).pool.loan < 0 then returnLoan l (fld f 6 2) (poolRecord 0x0703 l (fld f 20 2) 1 d) else d

theorem statusReceived_eq (l : Nat) (f : Bytes) (d : Die) : statusReceived l f d = poolFrame 0 l f (fun e => lend l f (checkLoan l f e)) d := rfl

theorem grantReceived_eq (l : Nat) (f : Bytes) (d : Die) : grantReceived l f d = poolFrame 1 l f (grantTaken l f) d := rfl

theorem returnReceived_eq (l : Nat) (f : Bytes) (d : Die) : returnReceived l f d = poolFrame 2 l f (returnTaken l f) d := rfl

theorem recallReceived_eq (l : Nat) (f : Bytes) (d : Die) : recallReceived l f d = poolFrame 3 l f (recallTaken l f) d := rfl

section
variable {l : Nat} {f : Bytes} {d : Die} (hc : d.Canonical)
include hc

theorem link_grantTaken : let n := borrowable d (fld f 20 2)
    link (grantTaken l f d) l = if n < fld f 20 2 then frameQueued 2 (fld f 6 2) (fld f 20 2 - n) (loanSet ((link d l).pool.loan - n) (link d l)) else loanSet ((link d l).pool.loan - n) (link d l) := by
  unfold grantTaken
  extract_lets n e
  have he : e.Canonical ∧ link e l = loanSet ((link d l).pool.loan - n) (link d l) :=
    ⟨poolRecord_can _ _ _ _ _ (setLoan_can _ _ _ hc), by rw [link_poolRecord, link_setLoan hc]⟩
  split
  · rw [link_poolRecord, link_sendPool he.1, he.2]
  · exact he.2

theorem link_returnTaken (hn : 0 < min (fld f 20 2) (link d l).pool.loan.toNat) : link (returnTaken l f d) l =
    loanSet ((link d l).pool.loan - min (fld f 20 2) (link d l).pool.loan.toNat) (poolChanged (fun p => { p with outstanding := false }) (link d l)) := by
  have hset := modPool_can l (fun p => { p with outstanding := false }) d hc
  simp only [returnTaken, hn.ne', if_false]
  rw [link_poolRecord, link_setLoan hset, link_modPool hc]

theorem link_recallTaken (hb : (link d l).pool.loan < 0) : link (recallTaken l f d) l = frameQueued 2 (fld f 6 2) (-(link d l).pool.loan).toNat (loanSet 0 (link d l)) := by
  have hrecord : link (poolRecord 0x0703 l (fld f 20 2) 1 d) l = link d l := link_poolRecord ..
  rw [recallTaken, if_pos hb, link_returnLoan (poolRecord_can _ _ _ _ _ hc) _ (by rw [hrecord]; exact hb), hrecord]

/-! ### Silent links (R273) -/

theorem link_linkSilent {t : Nat} (hb : (link d l).pool.loan < 0) (hv : (link d l).pool.lastValid = some t) (ht : t + 20000000 ≤ d.tally.now) : link (linkSilent l d) l = loanSet 0 (link d l) := by
  simp only [linkSilent, hv, ht, if_true, poolLost, hb]
  rw [link_emit, link_setLoan hc]

theorem link_restoreCap (cause : Nat) : link (restoreCap l cause d) l = loanSet 0 (poolChanged (fun p => { p with restoreAt := none }) (link d l)) := by
  rw [restoreCap, link_emit, link_setLoan (modPool_can _ _ _ hc), link_modPool hc]

end

theorem lenderRestore_of_lost {l t : Nat} {d : Die} (hl : 0 < (link d l).pool.loan) (hr : (link d l).pool.restoreAt = some t) (ht : t ≤ d.tally.now) : lenderRestore l d = restoreCap l 0 d := by
  simp only [lenderRestore, not_le.2 hl, hr, ht, if_false, if_true]

theorem lenderRestore_of_silent {l t : Nat} {d : Die} (hl : 0 < (link d l).pool.loan) (hr : (link d l).pool.restoreAt = none) (hv : (link d l).pool.lastValid = some t)
    (ht : t + 30000000 ≤ d.tally.now) : lenderRestore l d = restoreCap l 1 d := by
  simp only [lenderRestore, not_le.2 hl, hr, hv, ht, if_false, if_true]

/-! ## Guard ceilings (R285) -/

/-- What a guard ceiling, and what follows its change, leave of a region. -/
theorem RegionHolds.setGuard {p : Region → Prop} {r k : Nat} {d : Die} (h : RegionHolds p r d) (v c : Nat) (hg : r = k → ∀ x, p x → p { x with guards := tset 16 x.guards v c })
    (hp : r = k → ∀ x t a s w, p x → p { x with throttle := t, actionDue := a, settleDue := s, restoreDue := w }) : RegionHolds p r (setGuard v c k d) := by
  unfold Machine.setGuard Machine.changeCeilings
  exact (h.modRegion_at hg).ceilingChanged hp _

/-- What decides whose fence a region's disturbance breaches. -/
def fenceSide (x : Region) : Bool × Nat × RegionEnergy := (x.fenced, x.owner, x.energy)

/-- The second die measures fences as the first: the same fences, owners, energy accounts and limits. -/
structure SameFences (d e : Die) : Prop where
  can : e.Canonical
  startup : e.startup = d.startup
  limits : e.limits = d.limits
  side : ∀ r, fenceSide (region e r) = fenceSide (region d r)

namespace SameFences

theorem refl {d : Die} (hc : d.Canonical) : SameFences d d := ⟨hc, rfl, rfl, fun _ => rfl⟩

section
variable {d e : Die} (h : SameFences d e)
include h

theorem fields (r : Nat) : (region e r).fenced = (region d r).fenced ∧ (region e r).owner = (region d r).owner ∧ (region e r).energy = (region d r).energy := by
  simpa only [fenceSide, Prod.mk.injEq] using h.side r

theorem presentRegions : presentRegions e = presentRegions d := by rw [Machine.presentRegions, Machine.presentRegions, funext (present_of h.startup)]

theorem fencedRegions (v : Nat) : fencedRegions e v = fencedRegions d v := by
  simp only [Machine.fencedRegions, h.presentRegions, (h.fields _).1, (h.fields _).2.1]

theorem disturbOver : disturbOver e = disturbOver d := by
  funext n r
  rw [Machine.disturbOver, Machine.disturbOver, (h.fields r).2.2]

theorem worst (n v : Nat) : worst e n v = worst d n v := by rw [Machine.worst, Machine.worst, h.fencedRegions, h.disturbOver]

theorem variation : variation e = variation d := by
  funext k o
  rw [Machine.variation, Machine.variation, h.limits]

theorem largestOther (k v : Nat) : largestOther e k v = largestOther d k v := by rw [Machine.largestOther, Machine.largestOther, h.variation]

/-- A change of the log alone. -/
theorem logged {f : Die} (hs : SameBut [.ledger] e f) (hf : f.Canonical) : SameFences d f :=
  ⟨hf, (hs .startup (by decide)).trans h.startup, (hs .limits (by decide)).trans h.limits, fun r => by rw [region_of (hs .regions (by decide)), h.side]⟩

theorem modTenant (v : Nat) (f : Tenant → Tenant) : SameFences d (modTenant v f e) := ⟨modTenant_can _ _ _ h.can, h.startup, h.limits, h.side⟩

theorem setGuard (v c k : Nat) : SameFences d (setGuard v c k e) := by
  refine ⟨setGuard_can _ _ _ _ h.can, (setGuard_startup ..).trans h.startup, (setGuard_limits ..).trans h.limits, fun r => ?_⟩
  have hside : RegionHolds (fun x => fenceSide x = fenceSide (region d r)) r e := ⟨h.can, h.side r⟩
  exact (hside.setGuard v c (fun _ _ hx => hx) fun _ _ _ _ _ _ hx => hx).holds

end

end SameFences

/-- Tenant v has the guard ceiling c on the region; 16 is none. -/
def GuardAt (v c : Nat) (x : Region) : Prop := tget 16 x.guards v = c

section
variable {r v : Nat} {d : Die}

theorem guards_setGuard_same (hc : d.Canonical) (c : Nat) : (region (setGuard v c r d) r).guards = tset 16 (region d r).guards v c := by
  have hset : RegionHolds (fun x => x.guards = tset 16 (region d r).guards v c) r (modRegion r (fun x => { x with guards := tset 16 x.guards v c }) d) :=
    RegionHolds.modRegion_same (p := fun x => x.guards = (region d r).guards) ⟨hc, rfl⟩ fun x hx => congrArg (tset 16 · v c) hx
  unfold setGuard changeCeilings
  exact (hset.ceilingChanged (fun _ _ _ _ _ _ hx => hx) _).holds

theorem region_setGuard_other {k : Nat} (hc : d.Canonical) (hk : r ≠ k) (c : Nat) : region (setGuard v c k d) r = region d r := by
  have hsame : RegionHolds (· = region d r) r d := ⟨hc, rfl⟩
  exact (hsame.setGuard v c (fun h => absurd h hk) fun h => absurd h hk).holds

/-- A guard ceiling at OPP 0 stands through the guard's other settings to OPP 0. -/
theorem RegionHolds.setGuard_zero (h : RegionHolds (GuardAt v 0) r d) (w k : Nat) : RegionHolds (GuardAt v 0) r (Machine.setGuard w 0 k d) := by
  refine h.setGuard w 0 (fun _ x hx => ?_) fun _ _ _ _ _ _ hx => hx
  by_cases hv : v = w
  · subst hv
    exact tget_tset_of_ne (by decide) ..
  · exact (tget_tset_of_ne_key hv _).trans hx

theorem guardAt_setGuard_zero (hc : d.Canonical) : RegionHolds (GuardAt v 0) r (setGuard v 0 r d) :=
  ⟨setGuard_can _ _ _ _ hc, by rw [GuardAt, guards_setGuard_same hc, tget_tset_of_ne (by decide)]⟩

end

/-! ### The guard acts on a rail -/

/-- Fenced tenant v is disturbed in region r of rail k, and the owner found varies more than it does. -/
def Disturbed (d : Die) (v test k r : Nat) : Prop :=
  r ∈ fencedRegions d v ∧ regionRail r = k ∧ breaches test (disturbOver d (windowsOf test) r) = true ∧ variation d k v < variation d k (largestOther d k v)

/-- The fenced regions of tenant v on rail k whose disturbance breaches a test. -/
def breached (v test k : Nat) (d : Die) : List Nat := (fencedRegions d v).filter (fun r => decide (regionRail r = k) && breaches test (disturbOver d (windowsOf test) r))

/-- FENCE_GUARD is written. -/
def guardLogged (v test k : Nat) (d : Die) : Die :=
  emit 0x070A (.rail k) (le 1 v ++ le 1 (if decide (variation d k v < variation d k (largestOther d k v)) then largestOther d k v else 0xFF) ++ le 1 test ++ zeros 1 ++ le 2 (ratioMs d v) ++ le 2 (ratioS d v)) d

/-- The regions of a rail that an owner holds. -/
def ownedOn (k o : Nat) (d : Die) : List Nat := (railRegions d k).filter (fun q => decide ((region d q).owner = o))

theorem guardRail_of_none {v test k : Nat} {d : Die} (h : breached v test k d = []) : guardRail v test k d = d := by
  unfold breached at h
  simp only [guardRail, h]

theorem guardRail_of_breach {v test k r : Nat} {t : List Nat} {d : Die} (h : breached v test k d = r :: t) : ∃ most, guardRail v test k d =
    if decide (variation d k v < variation d k (largestOther d k v)) then
      let f := each (ownedOn k (largestOther d k v) (guardLogged v test k d)) (setGuard v 0) (guardLogged v test k d)
      attribTo 0x070A most (largestOther d k v) (shareQ8 (variation f k) v) 0xFFFF f
    else guardLogged v test k d := by
  unfold breached at h
  simp only [guardRail, h]
  exact ⟨_, rfl⟩

/-- But for the log, the guard puts the regions of a list at OPP 0: where a region is disturbed, those of the rail that the owner found holds. -/
theorem guardRail_writes (v test k : Nat) {d : Die} (hc : d.Canonical) : ∃ e l, e.Canonical ∧ SameBut [.ledger] d e ∧ SameBut [.ledger] (each l (setGuard v 0) e) (guardRail v test k d) ∧
    ∀ r, Disturbed d v test k r → ∀ q ∈ railRegions d k, (region d q).owner = largestOther d k v → q ∈ l := by
  have hbad : ∀ r, Disturbed d v test k r → r ∈ breached v test k d := fun r ⟨hr, hk, hb, _⟩ => List.mem_filter.2 ⟨hr, by simp [hk, hb]⟩
  cases hl : breached v test k d with
  | nil =>
    rw [hl] at hbad
    rw [guardRail_of_none hl]
    exact ⟨d, [], hc, sameBut_refl _ d, sameBut_refl _ d, fun r hr => nomatch hbad r hr⟩
  | cons r t =>
    obtain ⟨most, heq⟩ := guardRail_of_breach hl
    have he : (guardLogged v test k d).Canonical ∧ SameBut [.ledger] d (guardLogged v test k d) := ⟨emit_can _ _ _ _ hc, emit_kept (sameBut_closed _ d) _ _ _ _ (sameBut_refl _ d)⟩
    rw [heq]
    split
    next =>
      refine ⟨_, _, he.1, he.2, attribTo_kept (sameBut_closed _ _) _ _ _ _ _ _ (sameBut_refl _ _), fun r _ q hq ho => ?_⟩
      rw [ownedOn, List.mem_filter, railRegions_of (he.2 .startup (by decide)), region_of (he.2 .regions (by decide))]
      exact ⟨hq, decide_eq_true ho⟩
    next hno => exact ⟨_, [], he.1, he.2, sameBut_refl _ _, fun r hr => absurd (decide_eq_true hr.2.2.2) hno⟩

section
variable {d e : Die} {v test k : Nat}

theorem guardRail_can (hc : e.Canonical) : (guardRail v test k e).Canonical := guardRail_kept (canonical_closed _) _ _ _ _ hc

theorem SameFences.guardRail (h : SameFences d e) : SameFences d (guardRail v test k e) := by
  obtain ⟨f, l, hf, hpre, hpost, -⟩ := guardRail_writes v test k h.can
  exact (each_kept (fun _ _ hg => hg.setGuard ..) (h.logged hpre hf)).logged hpost (guardRail_can h.can)

theorem RegionHolds.guardRail {w q : Nat} (h : RegionHolds (GuardAt w 0) q e) : RegionHolds (GuardAt w 0) q (guardRail v test k e) := by
  obtain ⟨f, l, hf, hpre, hpost, -⟩ := guardRail_writes v test k h.can
  have hset : RegionHolds (GuardAt w 0) q (each l (Machine.setGuard v 0) f) := each_kept (fun _ _ hg => hg.setGuard_zero ..) (h.of_regions (hpre .regions (by decide)) hf)
  exact hset.of_regions (hpost .regions (by decide)) (guardRail_can h.can)

/-- The regions of the owner found are at OPP 0. -/
theorem guardRail_caps (hc : e.Canonical) {r : Nat} (hr : Disturbed e v test k r) {q : Nat} (hq : q ∈ railRegions e k) (ho : (region e q).owner = largestOther e k v) :
    RegionHolds (GuardAt v 0) q (guardRail v test k e) := by
  obtain ⟨f, l, hf, -, hpost, hmem⟩ := guardRail_writes v test k hc
  have hset : RegionHolds (GuardAt v 0) q (each l (setGuard v 0) f) :=
    (each_make (I := Die.Canonical) (P := RegionHolds (GuardAt v 0) q) (f := setGuard v 0) l q (hmem r hr q hq ho) (fun _ _ _ hg => setGuard_can _ _ _ _ hg) (fun _ hg => guardAt_setGuard_zero hg)
      (fun _ _ _ _ hg => hg.setGuard_zero ..) hf).2
  exact hset.of_regions (hpost .regions (by decide)) (guardRail_can hc)

theorem SameFences.disturbed (h : SameFences d e) {r : Nat} (hr : Disturbed d v test k r) : Disturbed e v test k r := by
  rw [Disturbed, h.fencedRegions, h.disturbOver, h.variation, h.largestOther]
  exact hr

theorem guardRail_tenants : (guardRail v test k d).tenants = d.tenants := (guardRail_kept (sameBut_closed _ d) _ _ _ _ (sameBut_refl _ d)) .tenants (by decide)

end

/-! ### The guard acts for a tenant -/

/-- The guard acts on each quadrant rail where its test found a breach. -/
def guardTested (b : Bool) (v test : Nat) (d : Die) : Die := if b then each (List.range 4) (guardRail v test) d else d

/-- What the guard measures of tenant v. -/
def Measured (d : Die) (v : Nat) (t : Tenant) : Prop :=
  (fencedRegions d v = [] → t.ratioMs = 0 ∧ t.ratioS = 0 ∧ t.calmSince = none) ∧ (fencedRegions d v ≠ [] → t.ratioMs = ratioMs d v ∧ t.ratioS = ratioS d v)

/-- The guard writes what it measures of a tenant, and then acts on the breaches that it found; without a fenced region there are none. -/
theorem guardTenant_writes (n v : Nat) (d : Die) : ∃ f b, guardTenant n v d = guardTested b v 1 (guardTested (breaches 0 (worst d 100 v)) v 0 (modTenant v f d)) ∧ ∀ t, Measured d v (f t) := by
  unfold guardTenant
  by_cases hf : fencedRegions d v = []
  · have hworst : breaches 0 (worst d 100 v) = false := by simp [worst, hf, breaches]
    refine ⟨fun t => { t with ratioMs := 0, ratioS := 0, calmSince := none }, false, ?_, fun t => ⟨fun _ => ⟨rfl, rfl, rfl⟩, fun h => absurd hf h⟩⟩
    rw [if_pos (List.isEmpty_iff.2 hf), hworst]
    rfl
  · extract_lets ms s calm e g
    refine ⟨fun t => { t with ratioMs := ratioMs d v, ratioS := ratioS d v, calmSince := if calm then some (t.calmSince.getD n) else none }, decide (n % 10000000 = 0) && breaches 1 s, ?_,
      fun t => ⟨fun h => absurd h hf, fun _ => ⟨rfl, rfl⟩⟩⟩
    rw [if_neg (fun h => hf (List.isEmpty_iff.1 h))]
    simp only [guardTested, Bool.and_eq_true, decide_eq_true_eq]
    rfl

section
variable {d e : Die} {b : Bool} {v test : Nat}

theorem guardTested_tenants : (guardTested b v test d).tenants = d.tenants := by
  unfold guardTested
  split
  · exact each_tenants fun _ _ => guardRail_tenants
  · rfl

theorem SameFences.guardTested (h : SameFences d e) : SameFences d (guardTested b v test e) := by
  unfold Machine.guardTested
  split
  · exact each_kept (fun _ _ hg => hg.guardRail) h
  · exact h

theorem RegionHolds.guardTested {w q : Nat} (h : RegionHolds (GuardAt w 0) q e) : RegionHolds (GuardAt w 0) q (guardTested b v test e) := by
  unfold Machine.guardTested
  split
  · exact each_kept (fun _ _ hg => hg.guardRail) h
  · exact h

end

theorem RegionHolds.guardTenant {w q : Nat} {e : Die} (h : RegionHolds (GuardAt w 0) q e) (n v : Nat) : RegionHolds (GuardAt w 0) q (guardTenant n v e) := by
  obtain ⟨f, b, heq, -⟩ := guardTenant_writes n v e
  rw [heq]
  exact RegionHolds.guardTested (RegionHolds.guardTested (h.of_regions rfl (modTenant_can _ _ _ h.can)))

section
variable {d e : Die} (h : SameFences d e) (n v : Nat)
include h

theorem SameFences.guardTenant : SameFences d (guardTenant n v e) := by
  obtain ⟨f, b, heq, -⟩ := guardTenant_writes n v e
  rw [heq]
  exact (h.modTenant v f).guardTested.guardTested

theorem tenant_guardTenant_other {w : Nat} (hw : w ≠ v) : tenant (guardTenant n v e) w = tenant e w := by
  obtain ⟨f, b, heq, -⟩ := guardTenant_writes n v e
  have htenants : (guardTenant n v e).tenants = (modTenant v f e).tenants := by rw [heq, guardTested_tenants, guardTested_tenants]
  rw [tenant, htenants]
  exact tenant_modTenant_other h.can.tenants hw

theorem tenant_guardTenant_same : Measured d v (tenant (guardTenant n v e) v) := by
  obtain ⟨f, b, heq, hf⟩ := guardTenant_writes n v e
  have htenants : (guardTenant n v e).tenants = (modTenant v f e).tenants := by rw [heq, guardTested_tenants, guardTested_tenants]
  have hsame : tenant (guardTenant n v e) v = f (tenant e v) := by
    rw [tenant, htenants]
    exact tenant_modTenant_same h.can.tenants
  have hmeasured := hf (tenant e v)
  rwa [Measured, h.fencedRegions, ratioMs, ratioS, h.worst, h.worst, ← hsame] at hmeasured

/-- The breach of the 1 ms test puts the regions of the owner found at OPP 0. -/
theorem guardTenant_caps {k r q : Nat} (hb : breaches 0 (worst d 100 v) = true) (hr : Disturbed d v 0 k r) (hk : k < 4) (hq : q ∈ railRegions d k) (ho : (region d q).owner = largestOther d k v) :
    RegionHolds (GuardAt v 0) q (guardTenant n v e) := by
  obtain ⟨f, b, heq, -⟩ := guardTenant_writes n v e
  rw [heq, h.worst, hb]
  refine RegionHolds.guardTested ?_
  exact (each_make (I := SameFences d) (P := RegionHolds (GuardAt v 0) q) (f := guardRail v 0) (List.range 4) k (List.mem_range.2 hk) (fun _ _ _ hg => hg.guardRail)
    (fun g hg => guardRail_caps hg.can (hg.disturbed hr) (by rwa [railRegions_of hg.startup]) (by rw [(hg.fields q).2.1, hg.largestOther, ho])) (fun _ _ _ _ hg => hg.guardRail) (h.modTenant v f)).2

end

/-- The die whose window that ends at n is tested. -/
def guardBegun (n : Nat) (d : Die) : Die := { d with limits := { d.limits with guardEnd := n } }

theorem guardEvaluation_of_due {n : Nat} {d : Die} (hn : d.limits.intervalEnd / 10000 * 10000 = n) (h : d.limits.guardEnd < n) (ht : n + 2000 ≤ d.tally.now) :
    guardEvaluation d = each (List.range 17) (guardTenant n) (guardBegun n d) := by
  subst hn
  exact if_neg (by omega)

section
variable {n v : Nat} {d : Die} (hc : d.Canonical)
include hc

theorem each_guardTenant_sameFences (l : List Nat) : SameFences d (each l (guardTenant n) d) := each_kept (fun v _ hg => hg.guardTenant n v) (SameFences.refl hc)

theorem tenant_each_guardTenant (hv : v < 17) : Measured d v (tenant (each (List.range 17) (guardTenant n) d) v) :=
  get_each_of_mem (I := SameFences d) (get := (tenant · v)) (fun w _ _ hg => hg.guardTenant n w) (fun w _ _ hw hg => tenant_guardTenant_other hg n w hw.symm) List.nodup_range
    (List.mem_range.2 hv) (fun _ hg _ => tenant_guardTenant_same hg n v) (SameFences.refl hc)

theorem each_guardTenant_caps (hv : v < 17) {k r q : Nat} (hb : breaches 0 (worst d 100 v) = true) (hr : Disturbed d v 0 k r) (hk : k < 4) (hq : q ∈ railRegions d k)
    (ho : (region d q).owner = largestOther d k v) : GuardAt v 0 (region (each (List.range 17) (guardTenant n) d) q) :=
  ((each_make (I := SameFences d) (P := RegionHolds (GuardAt v 0) q) (List.range 17) v (List.mem_range.2 hv) (fun w _ _ hg => hg.guardTenant n w)
    (fun _ hg => guardTenant_caps hg n v hb hr hk hq ho) (fun w _ _ _ hh => hh.guardTenant n w) (SameFences.refl hc)).2).holds

end

/-! ### Guard ceilings rise (R285) -/

/-- The conditions of tenant v have held for 10 ms at the instant t, and its ceilings have not risen at it. -/
def RiseDue (t : Nat) (x : Tenant) : Prop := ∃ c, x.calmSince = some c ∧ c + 10000000 ≤ t ∧ x.riseAt < t

/-- A guard ceiling of tenant v on region r, where there is one, rises by a point. -/
def guardLifted (v r : Nat) (d : Die) : Die := if tget 16 (region d r).guards v < 16 then setGuard v (tget 16 (region d r).guards v + 1) r d else d

/-- The guard ceilings on a region with that of tenant v risen. -/
def lifted (v : Nat) (g : Tbl Nat) : Tbl Nat := if tget 16 g v < 16 then tset 16 g v (tget 16 g v + 1) else g

section
variable {t v r : Nat} {d : Die}

theorem guardRise_of_due (h : RiseDue t (tenant d v)) : guardRise t v d = each (presentRegions d) (guardLifted v) (modTenant v (fun x => { x with riseAt := t }) d) := by
  obtain ⟨c, hs, hc, hr⟩ := h
  simp only [guardRise, hs, hc, hr, and_self, if_true]
  rfl

theorem guardRise_of_not (h : ¬RiseDue t (tenant d v)) : guardRise t v d = d := by
  unfold guardRise
  split
  next c hs => exact if_neg fun hd => h ⟨c, hs, hd⟩
  next => rfl

theorem guardRise_can (hc : d.Canonical) : (guardRise t v d).Canonical := guardRise_kept (canonical_closed _) _ _ _ hc

theorem guardRise_startup : (guardRise t v d).startup = d.startup := (guardRise_kept (sameBut_closed _ d) _ _ _ (sameBut_refl _ d)) .startup (by decide)

theorem guardLifted_tenants : (guardLifted v r d).tenants = d.tenants := by
  unfold guardLifted
  split
  · exact setGuard_tenants ..
  · rfl

theorem guardLifted_can (hc : d.Canonical) : (guardLifted v r d).Canonical := by
  unfold guardLifted
  split
  · exact setGuard_can _ _ _ _ hc
  · exact hc

theorem region_guardLifted_other {k : Nat} (hc : d.Canonical) (hk : r ≠ k) : region (guardLifted v k d) r = region d r := by
  unfold guardLifted
  split
  · exact region_setGuard_other hc hk _
  · rfl

theorem guards_guardLifted_same (hc : d.Canonical) : (region (guardLifted v r d) r).guards = lifted v (region d r).guards := by
  unfold guardLifted lifted
  split
  · exact guards_setGuard_same hc _
  · rfl

theorem tenant_guardRise_other {w : Nat} (hc : d.Canonical) (hw : w ≠ v) : tenant (guardRise t v d) w = tenant d w := by
  by_cases h : RiseDue t (tenant d v)
  · rw [guardRise_of_due h, tenant, each_tenants fun _ _ => guardLifted_tenants]
    exact tenant_modTenant_other hc.tenants hw
  · rw [guardRise_of_not h]

open Classical in
/-- A tenant whose rise is due lifts its ceiling on each present region. -/
theorem guards_guardRise (hc : d.Canonical) (hr : present d r = true) : (region (guardRise t v d) r).guards = if RiseDue t (tenant d v) then lifted v (region d r).guards else (region d r).guards := by
  split
  next h =>
    rw [guardRise_of_due h]
    exact get_each_of_mem (I := Die.Canonical) (get := fun e => (region e r).guards) (Q := (· = lifted v (region d r).guards)) (fun _ _ _ he => guardLifted_can he)
      (fun _ _ _ hk he => by rw [region_guardLifted_other he hk.symm]) (presentRegions_nodup d) (mem_presentRegions.2 hr) (fun e he hsame => by rw [guards_guardLifted_same he, hsame]; rfl)
      (modTenant_can v (fun x => { x with riseAt := t }) _ hc)
  next h => rw [guardRise_of_not h]

end

theorem tget_lifted_other {v w : Nat} (h : v ≠ w) (g : Tbl Nat) : tget 16 (lifted w g) v = tget 16 g v := by
  unfold lifted
  split
  · exact tget_tset_of_ne_key h _
  · rfl

theorem tget_lifted_low {v : Nat} {g : Tbl Nat} (h : tget 16 g v < 15) : tget 16 (lifted v g) v = tget 16 g v + 1 := by
  rw [lifted, if_pos (by omega)]
  exact tget_tset_of_ne (by omega) ..

theorem lifted_of_none {v : Nat} {g : Tbl Nat} (h : 16 ≤ tget 16 g v) : lifted v g = g := if_neg (Nat.not_lt.2 h)

theorem lifted_last (v : Nat) : lifted v [(v, 15)] = [] := by simp [lifted, tget, tset]

/-- Tenant v has a guard ceiling at OPP 15, or none, and no other tenant has one. -/
def Sole (v : Nat) (g : Tbl Nat) : Prop := g = [(v, 15)] ∨ g = []

theorem Sole.lifted_other {v w : Nat} {g : Tbl Nat} (h : Sole v g) (hw : v ≠ w) : lifted w g = g := by
  obtain rfl | rfl := h
  · exact lifted_of_none (by simp [tget, hw])
  · rfl

theorem Sole.lifted {v : Nat} {g : Tbl Nat} (h : Sole v g) (w : Nat) : Sole v (lifted w g) := by
  by_cases hw : v = w
  · subst hw
    obtain rfl | rfl := h
    · exact .inr (lifted_last v)
    · exact .inr rfl
  · rwa [h.lifted_other hw]

/-- What a rise that is due, or not, makes of a guard ceiling below OPP 15 or of none. -/
def RisenFrom (due : Prop) (g g' : Nat) : Prop := (due → (g < 15 → g' = g + 1) ∧ (16 ≤ g → g' = g)) ∧ (¬due → g' = g)

section
variable (t : Nat) {v r : Nat} {d : Die} (hc : d.Canonical) (hv : v < 17) (hr : present d r = true)
include hc hv hr

/-- The guard ceiling of tenant v on a present region after the rises of every tenant. -/
theorem guard_each_guardRise : RisenFrom (RiseDue t (tenant d v)) (tget 16 (region d r).guards v) (tget 16 (region (each (List.range 17) (guardRise t) d) r).guards v) := by
  have hguards : ∀ w e, e.startup = d.startup → e.Canonical → (region (guardRise t w e) r).guards = _ := fun w e he hcan => guards_guardRise hcan ((present_of he r).trans hr)
  have hturns := get_each_of_mem (f := guardRise t) (I := fun e => e.Canonical ∧ e.startup = d.startup) (get := fun e => (tenant e v, tget 16 (region e r).guards v))
    (Q := fun x => RisenFrom (RiseDue t (tenant d v)) (tget 16 (region d r).guards v) x.2)
    (fun w e _ he => ⟨guardRise_can he.1, guardRise_startup.trans he.2⟩) (fun w e _ hw he => ?_) List.nodup_range (List.mem_range.2 hv) (fun e he hsame => ?_) ⟨hc, rfl⟩
  · dsimp only at hturns
    exact hturns
  · rw [tenant_guardRise_other he.1 hw.symm, hguards w e he.2 he.1]
    split
    · rw [tget_lifted_other hw.symm]
    · rfl
  · obtain ⟨htenant, hguard⟩ := Prod.mk.inj hsame
    dsimp only
    rw [hguards v e he.2 he.1, htenant, ← hguard]
    refine ⟨fun hdue => ?_, fun hno => by rw [if_neg hno]⟩
    rw [if_pos hdue]
    exact ⟨tget_lifted_low, fun h => by rw [lifted_of_none h]⟩

/-- A sole guard ceiling at OPP 15 that rises is removed. -/
theorem guards_each_guardRise_removed (hg : (region d r).guards = [(v, 15)]) (hdue : RiseDue t (tenant d v)) : (region (each (List.range 17) (guardRise t) d) r).guards = [] := by
  have hguards : ∀ w e, e.startup = d.startup → e.Canonical → (region (guardRise t w e) r).guards = _ := fun w e he hcan => guards_guardRise hcan ((present_of he r).trans hr)
  have hturns := get_each_of_mem (f := guardRise t) (I := fun e => e.Canonical ∧ e.startup = d.startup ∧ Sole v (region e r).guards) (get := fun e => (tenant e v, (region e r).guards))
    (Q := fun x => x.2 = []) (fun w e _ he => ⟨guardRise_can he.1, guardRise_startup.trans he.2.1, ?_⟩) (fun w e _ hw he => ?_) List.nodup_range (List.mem_range.2 hv) (fun e he hsame => ?_)
    ⟨hc, rfl, .inl hg⟩
  · dsimp only at hturns
    exact hturns
  · rw [hguards w e he.2.1 he.1]
    split
    · exact he.2.2.lifted w
    · exact he.2.2
  · rw [tenant_guardRise_other he.1 hw.symm, hguards w e he.2.1 he.1, he.2.2.lifted_other hw.symm, ite_self]
  · obtain ⟨htenant, hguard⟩ := Prod.mk.inj hsame
    dsimp only
    rw [hguards v e he.2.1 he.1, htenant, if_pos hdue, hguard, hg, lifted_last]

end

/-! ## Frames received, by the link that they leave (R271, R272, R274) -/

section
variable {l : Nat} {f : Bytes} {d : Die} (hc : d.Canonical) (hr : (link d l).rxUp = true) (hx : chandlerRuns d = true) (hp : d.limits.pool ≠ 0) (hf : fld f 2 2 = d.limits.pool)
include hc hr hx hp hf

theorem link_statusReceived_lends (hok : poolFrameOk 0 f = true) (ho : (link d l).pool.outstanding = false) (ht : fldI f 18 2 = -(link d l).pool.loan) (hn : 0 < lendable f l d)
    (hs : d.stop.stopped = false) (hb : borrowedTotal d = 0) (hu : (link d l).up = true) : link (statusReceived l f d) l =
    frameQueued 1 (fld f 6 2) (lendable f l d) (loanSet ((link d l).pool.loan + lendable f l d) (poolChanged (fun p => { p with offer := p.offer - lendable f l d })
      (poolChanged (fun p => { p with mismatches := 0 }) (linkHeard d.tally.now (link d l))))) := by
  have hheard := link_heard (l := l) hc
  have hcan := heard_can (l := l) hc
  have hagreed := modPool_can l (fun p => { p with mismatches := 0 }) _ hcan
  have hbudget : SameBudget d (modPool l (fun p => { p with mismatches := 0 }) (heard l d)) := (heard_sameBudget hc).modLink hcan l fun _ => rfl
  have hlink : link (modPool l (fun p => { p with mismatches := 0 }) (heard l d)) l = poolChanged (fun p => { p with mismatches := 0 }) (linkHeard d.tally.now (link d l)) := by
    rw [link_modPool hcan, hheard]
  have hlendable : lendable f l (modPool l (fun p => { p with mismatches := 0 }) (heard l d)) = lendable f l d := by
    rw [lendable, lendable, hbudget.fifth, hbudget.lentTotal, hlink]
    rfl
  rw [statusReceived_eq, poolFrame_acts hr hok hp hf hx, checkLoan_of_agreeing (by rw [hheard]; exact ho) (by rw [hheard]; exact ht),
    link_lend hagreed (by rw [hlendable]; exact hn) (by rw [hbudget.stop]; exact hs) (by rw [hbudget.borrowedTotal]; exact hb) (by rw [hlink]; exact hu), hlendable, hlink]
  rfl

theorem link_statusReceived_resolves (hok : poolFrameOk 0 f = true) (ho : (link d l).pool.outstanding = false) (ht : fldI f 18 2 ≠ -(link d l).pool.loan) (hm : (link d l).pool.mismatches ≠ 0)
    (hw : fld f 14 2 = 0) : link (statusReceived l f d) l =
    loanSet (max (link d l).pool.loan (-fldI f 18 2)) (poolChanged (fun p => { p with mismatches := 0 }) (linkHeard d.tally.now (link d l))) := by
  have hheard := link_heard (l := l) hc
  rw [statusReceived_eq, poolFrame_acts hr hok hp hf hx, lend_of_unwanted hw, checkLoan_of_second (by rw [hheard]; exact ho) (by rw [hheard]; exact ht) (by rw [hheard]; exact hm),
    link_resolveLoan (heard_can hc), hheard]
  rfl

theorem link_grantReceived (hok : poolFrameOk 1 f = true) : let n := borrowable d (fld f 20 2); let x := loanSet ((link d l).pool.loan - n) (linkHeard d.tally.now (link d l))
    link (grantReceived l f d) l = if n < fld f 20 2 then frameQueued 2 (fld f 6 2) (fld f 20 2 - n) x else x := by
  rw [grantReceived_eq, poolFrame_acts hr hok hp hf hx, link_grantTaken (heard_can hc), link_heard hc, (heard_sameBudget hc).borrowable]
  rfl

theorem link_returnReceived (hok : poolFrameOk 2 f = true) (hn : 0 < min (fld f 20 2) (link d l).pool.loan.toNat) : link (returnReceived l f d) l =
    loanSet ((link d l).pool.loan - min (fld f 20 2) (link d l).pool.loan.toNat) (poolChanged (fun p => { p with outstanding := false }) (linkHeard d.tally.now (link d l))) := by
  rw [returnReceived_eq, poolFrame_acts hr hok hp hf hx, link_returnTaken (heard_can hc) (by rw [link_heard hc]; exact hn), link_heard hc]
  rfl

theorem link_recallReceived (hok : poolFrameOk 3 f = true) (hb : (link d l).pool.loan < 0) :
    link (recallReceived l f d) l = frameQueued 2 (fld f 6 2) (-(link d l).pool.loan).toNat (loanSet 0 (linkHeard d.tally.now (link d l))) := by
  rw [recallReceived_eq, poolFrame_acts hr hok hp hf hx, link_recallTaken (heard_can hc) (by rw [link_heard hc]; exact hb), link_heard hc]
  rfl

end

/-- Settles O25: each frame and each deadline by the link that it leaves, the fence guard and its rises by the turns of the tenants. -/
theorem poolMovesBudgetAndFenceGuardCaps : Obligations.PoolMovesBudgetAndFenceGuardCaps := by
  refine ⟨fun s hc => ⟨fun hp hx ht => gives_run (b := true) rfl rfl ?_, fun l hl => ?_⟩, fun s hc => ⟨?_, ?_⟩⟩
  · obtain ⟨hstart, henergy⟩ := statusSend_begins hp hx ht
    refine ⟨hstart, henergy, fun l hl hr => ?_⟩
    obtain ⟨⟨hwant, hoffer⟩, hwaits⟩ := statusSend_sends hc hp hx ht hl hr
    exact ⟨hwant, hoffer, hwaits⟩
  · have named : isLink l = true := decide_eq_true hl
    refine ⟨fun f hlen hr hx hp hf => ?_, fun t hb hv ht => gives_run rfl named ?_, fun t hlent hrest ht => gives_run rfl named ?_, fun t hlent hrest hv ht => gives_run rfl named ?_⟩
    · have framed : (isLink l && hasLength 32 f) = true := by rw [named]; exact decide_eq_true hlen
      refine ⟨fun hok ho hloan hn hs hb hu => gives_run rfl framed ?_, fun hok ho hloan hm hw => gives_run rfl framed ?_, fun hok => gives_run rfl framed ?_, fun hok hn => gives_run rfl framed ?_,
        fun hok hb => gives_run rfl framed ?_⟩
      · rw [link_statusReceived_lends hc hr hx hp hf hok ho hloan hn hs hb hu]
        exact ⟨rfl, rfl, Bool.or_true _, rfl⟩
      · rw [link_statusReceived_resolves hc hr hx hp hf hok ho hloan hm hw]
        exact ⟨rfl, rfl, rfl⟩
      · rw [link_grantReceived hc hr hx hp hf hok]
        split
        next hlt => exact ⟨rfl, rfl, fun h => absurd h hlt.ne, fun _ => rfl⟩
        next hno => exact ⟨rfl, rfl, fun _ => rfl, fun h => absurd h hno⟩
      · rw [link_returnReceived hc hr hx hp hf hok hn]
        exact ⟨rfl, rfl⟩
      · rw [link_recallReceived hc hr hx hp hf hok hb]
        exact ⟨rfl, rfl⟩
    · rw [link_linkSilent hc hb hv ht]
      exact ⟨rfl, rfl⟩
    · rw [lenderRestore_of_lost hlent hrest ht, link_restoreCap hc]
      exact ⟨rfl, rfl⟩
    · rw [lenderRestore_of_silent hlent hrest hv ht, link_restoreCap hc]
      rfl
  · refine ⟨fun hlt ht => gives_run (b := true) rfl rfl ?_, fun hdone => ?_⟩
    · have hbegun : (guardBegun (s.die.limits.intervalEnd / 10000 * 10000) s.die).Canonical := { hc with }
      rw [guardEvaluation_of_due rfl hlt ht]
      refine ⟨congrArg Limits.guardEnd (each_guardTenant_sameFences hbegun _).limits, fun v hv => ?_⟩
      obtain ⟨hnone, hsome⟩ := tenant_each_guardTenant (n := s.die.limits.intervalEnd / 10000 * 10000) hbegun hv
      exact ⟨hnone, hsome, fun r _ hb hr hd hvar hk q hq ho => each_guardTenant_caps hbegun hv hb ⟨hr, rfl, hd, hvar⟩ hk hq ho⟩
    · have hsame : exec .guardEvaluation s = .next { s with die := guardEvaluation s.die } := rfl
      rw [hsame, guardEvaluation, if_pos (.inl hdone)]
  · refine gives_run (b := true) rfl rfl fun v hv r _ hp => ?_
    obtain ⟨hdue, hnot⟩ := guard_each_guardRise (s.die.tally.now / 10000000 * 10000000) hc hv hp
    exact ⟨fun h => ⟨(hdue h).1, fun hg => guards_each_guardRise_removed _ hc hv hp hg h, (hdue h).2⟩, hnot⟩

end Sys2Proof.Machine

namespace Sys2Proof.Machine
open Sys2Proof

/-! ## The reset of a queue that is bound or unbound (R278, R338) -/

section
variable {t k cause : Nat} {d : Die} (hc : d.Canonical)
include hc

/-- A reset clears the counts and the sequence state of its queue. -/
theorem queue_queueReset_same : queue (queueReset t cause d) t =
    { queue d t with subTail := 0, subHead := 0, cplTail := 0, cplHead := 0, resetting := none, exec := none, expect := none, stored := [] } := by
  unfold queueReset
  dsimp only
  rw [queue_emit, queue_same (sram_can hc), queue_sramWrite]

theorem queue_queueReset_other (hk : k ≠ t) : queue (queueReset t cause d) k = queue d k := by
  unfold queueReset
  dsimp only
  rw [queue_emit, queue_other (sram_can hc) hk, queue_sramWrite]

theorem queue_rebind_bound : (queue (rebind t cause d) t).bound = (queue d t).bound := by
  unfold rebind
  split
  · rw [queue_same hc]
  · rw [queue_queueReset_same hc]

theorem queue_rebind_other (hk : k ≠ t) : queue (rebind t cause d) k = queue d k := by
  unfold rebind
  split
  · exact queue_other hc hk
  · exact queue_queueReset_other hc hk

end

theorem rebind_of_idle {t cause : Nat} {d : Die} (h : (queue d t).exec = none) : rebind t cause d = queueReset t cause d :=
  if_neg (by simp [h])

theorem rebind_tenants (t cause : Nat) (d : Die) : (rebind t cause d).tenants = d.tenants := by
  unfold rebind
  split
  · rfl
  · exact queueReset_tenants ..

theorem tenant_rebind (t cause k : Nat) (d : Die) : tenant (rebind t cause d) k = tenant d k := by
  unfold tenant
  rw [rebind_tenants]

/-! ## tenant.create (R278, R279, R360) -/

/-- The die with the new tenant and its queue bound, before the reset of the queue. -/
def tenantBound (t quota : Nat) (key : Nat × Nat) (d : Die) : Die :=
  modQueue t (fun x => { x with bound := true }) (modTenant t (fun _ => { made := true, quota := quota, key := some key }) d)

theorem createTenant_eq (t quota : Nat) (key : Nat × Nat) (d : Die) : createTenant t quota key d = rebind t 1 (tenantBound t quota key d) := rfl

section
variable {t : Nat} (quota : Nat) (key : Nat × Nat) {d : Die} (hc : d.Canonical)
include hc

theorem tenantBound_can : (tenantBound t quota key d).Canonical := modQueue_can _ _ _ (modTenant_can _ _ _ hc)

theorem queue_tenantBound_same : queue (tenantBound t quota key d) t = { queue d t with bound := true } := queue_same (modTenant_can _ _ _ hc)

theorem tenant_createTenant_same : tenant (createTenant t quota key d) t = { made := true, quota := quota, key := some key } :=
  calc tenant (createTenant t quota key d) t
    _ = tenant (tenantBound t quota key d) t := tenant_rebind ..
    _ = tenant (modTenant t (fun _ => { made := true, quota := quota, key := some key }) d) t := tenant_modQueue ..
    _ = { made := true, quota := quota, key := some key } := tenant_modTenant_same hc.tenants

theorem queue_createTenant_bound : (queue (createTenant t quota key d) t).bound = true := by
  rw [createTenant_eq, queue_rebind_bound (tenantBound_can quota key hc), queue_tenantBound_same quota key hc]

/-- The creation of tenant t leaves every other tenant and every other queue. -/
theorem createTenant_other {k : Nat} (hk : k ≠ t) : tenant (createTenant t quota key d) k = tenant d k ∧ queue (createTenant t quota key d) k = queue d k :=
  ⟨(tenant_rebind ..).trans ((tenant_modQueue ..).trans (tenant_modTenant_other hc.tenants hk)),
    (queue_rebind_other (tenantBound_can quota key hc) hk).trans (queue_other (modTenant_can _ _ _ hc) hk)⟩

/-- Where no command executes on the queue, it is reset at once. -/
theorem queue_createTenant_of_idle (h : (queue d t).exec = none) : queue (createTenant t quota key d) t =
    { queue d t with bound := true, subTail := 0, subHead := 0, cplTail := 0, cplHead := 0, resetting := none, exec := none, expect := none, stored := [] } := by
  have hbound := queue_tenantBound_same (t := t) quota key hc
  rw [createTenant_eq, rebind_of_idle (by rw [hbound]; exact h), queue_queueReset_same (tenantBound_can quota key hc), hbound]

end

/-- The field of a tenant ID names one of the 16 tenants. -/
theorem tenantField_pass {t : Nat} (h₁ : 1 ≤ t) (h₂ : t ≤ 16) : (fieldCheck (decide (t = 0 ∨ 16 < t)) 0).1 = false := decide_eq_false (by omega)

theorem tenantCreateBody_creates {e : Exec} {p : Bytes} {d : Die} (h₁ : 1 ≤ fld p 0 1) (h₂ : fld p 0 1 ≤ 16) (hz : ZeroBytes p 2 4) (hm : (tenant d (fld p 0 1)).made = false)
    (hk : e.reexecuted = true → (tenant d (fld p 0 1)).key ≠ some (keyOf 0 e)) (hq : quotas d + fld p 1 1 + heldBy d 0 ≤ 256) :
    tenantCreateBody 0 e p d = (createTenant (fld p 0 1) (fld p 1 1) (keyOf 0 e) d, .done 0 none) := by
  have hnew : (e.reexecuted && decide ((tenant d (fld p 0 1)).key = some (keyOf 0 e))) = false := by
    cases he : e.reexecuted with
    | false => rfl
    | true => exact decide_eq_false (hk he)
  simp only [tenantCreateBody, hnew]
  refine checked_pass ?_
  simp only [List.forall_mem_cons]
  exact ⟨tenantField_pass h₁ h₂, zeroCheck_pass hz, rfl, hm, decide_eq_false (Nat.not_lt.2 hq), nofun⟩

/-! ## tenant.destroy (R280, R283, R360) -/

/-- The regions of tenant t are marked for owner 0. -/
def regionsReturned (t : Nat) (d : Die) : Die := each (givenBack d t) (acceptMove · 0) d

/-- The watches of tenant t are free. -/
def watchesFreed (t : Nat) (d : Die) : Die := each ((List.range 256).filter (fun w => decide ((watch d w).used ∧ (watch d w).owner = t))) (modWatch · (fun _ => {})) d

/-- No region has a guard ceiling of tenant t. -/
def guardsRemoved (t : Nat) (d : Die) : Die := each (presentRegions d) (fun r => changeCeilings r (fun x => { x with guards := tset 16 x.guards t 16 })) d

/-- The die once what tenant t held is given back. -/
def belongingsReturned (t : Nat) (d : Die) : Die := guardsRemoved t (watchesFreed t (regionsReturned t d))

/-- The die without tenant t, its queue unbound, before the reset of the queue. -/
def tenantUnbound (t : Nat) (d : Die) : Die := modQueue t (fun x => { x with bound := false }) (modTenant t (fun _ => {}) d)

theorem destroyTenant_eq (t : Nat) (d : Die) : destroyTenant t d = rebind t 2 (tenantUnbound t (belongingsReturned t d)) := rfl

theorem hasPlan_eq_false {d : Die} {o : Nat} (h : ∀ c x, c < 16 → context d c = some x → x.owner ≠ o) : hasPlan d o = false := by
  refine List.any_eq_false.2 fun c hc => ?_
  cases hx : context d c with
  | none => simp
  | some x => simpa using h c x (List.mem_range.1 hc) hx

theorem watch_of {a b : Die} (h : a.watches = b.watches) (w : Nat) : watch a w = watch b w := by
  unfold watch
  rw [h]

theorem regionsReturned_watches (t : Nat) (d : Die) : (regionsReturned t d).watches = d.watches :=
  each_kept (P := fun e => e.watches = d.watches) (fun _ _ he => he) rfl

theorem watchesFreed_regions (t : Nat) (d : Die) : (watchesFreed t d).regions = d.regions := each_regions fun _ _ => rfl

theorem guardsRemoved_watches (t : Nat) (d : Die) : (guardsRemoved t d).watches = d.watches :=
  each_kept (P := fun e => e.watches = d.watches) (fun _ _ he => (changeCeilings_watches ..).trans he) rfl

theorem givenBack_nodup (d : Die) (t : Nat) : (givenBack d t).Nodup := (presentRegions_nodup d).filter _

section
variable {d : Die} (hc : d.Canonical)
include hc

/-- Along a list of regions each accepted move marks its own region. -/
theorem each_acceptMove {l : List Nat} (hn : l.Nodup) (o : Nat) : (each l (acceptMove · o) d).Canonical ∧
    ∀ r, region (each l (acceptMove · o) d) r = if r ∈ l then { region d r with ownerDue := if (region d r).owner = o then none else some o } else region d r := by
  obtain ⟨hcan, hread⟩ := each_region (g := fun _ x => { x with ownerDue := if x.owner = o then none else some o }) l hn hc
  refine ⟨hcan, fun r => ?_⟩
  split
  next hr => exact (hread r).1 hr
  next hr => exact (hread r).2 hr

variable (t : Nat)

theorem regionsReturned_can : (regionsReturned t d).Canonical := (each_acceptMove hc (givenBack_nodup d t) 0).1

theorem watchesFreed_can : (watchesFreed t d).Canonical := each_can hc fun w e he => modWatch_can w _ e he

theorem guardsRemoved_can : (guardsRemoved t d).Canonical := each_can hc fun r e he => changeCeilings_can r _ e he

theorem belongingsReturned_can : (belongingsReturned t d).Canonical := guardsRemoved_can (watchesFreed_can (regionsReturned_can hc t) t) t

theorem watch_watchesFreed {w : Nat} (hw : w < 256) (hu : (watch d w).used = true) (ho : (watch d w).owner = t) : watch (watchesFreed t d) w = {} := by
  have hmem : w ∈ (List.range 256).filter (fun w => decide ((watch d w).used ∧ (watch d w).owner = t)) := List.mem_filter.2 ⟨List.mem_range.2 hw, decide_eq_true ⟨hu, ho⟩⟩
  exact get_each_of_mem (I := Die.Canonical) (get := (watch · w)) (Q := (· = {})) (fun k e _ he => modWatch_can k _ e he)
    (fun _ _ _ hk he => watch_modWatch_other he.watches hk.symm) (List.nodup_range.filter _) hmem (fun _ he _ => watch_modWatch_same he.watches) hc

/-- The watches of the tenant are free, whose regions and guard ceilings have no part in them. -/
theorem watch_belongingsReturned {w : Nat} (hw : w < 256) (hu : (watch d w).used = true) (ho : (watch d w).owner = t) : watch (belongingsReturned t d) w = {} := by
  have hsame : watch (regionsReturned t d) w = watch d w := watch_of (regionsReturned_watches t d) w
  calc watch (belongingsReturned t d) w
    _ = watch (watchesFreed t (regionsReturned t d)) w := watch_of (guardsRemoved_watches ..) w
    _ = {} := watch_watchesFreed (regionsReturned_can hc t) t hw (by rw [hsame]; exact hu) (by rw [hsame]; exact ho)

/-- A region given back is marked for owner 0, and stays so as the guard ceilings are removed. -/
theorem region_belongingsReturned {r : Nat} (hr : r ∈ givenBack d t) : (region (belongingsReturned t d) r).ownerDue = if (region d r).owner = 0 then none else some 0 := by
  have hreturned := regionsReturned_can hc t
  have hmarked : RegionHolds (fun x => x.ownerDue = if (region d r).owner = 0 then none else some 0) r (regionsReturned t d) :=
    ⟨hreturned, by rw [regionsReturned, (each_acceptMove hc (givenBack_nodup d t) 0).2, if_pos hr]⟩
  have hfreed := hmarked.of_regions (watchesFreed_regions t _) (watchesFreed_can hreturned t)
  have hkept : RegionHolds (fun x => x.ownerDue = if (region d r).owner = 0 then none else some 0) r (belongingsReturned t d) :=
    each_kept (fun k _ he => RegionHolds.changeCeilings (RegionHolds.modRegion he k) fun _ _ _ _ _ hx => hx) hfreed
  exact hkept.holds

theorem tenantUnbound_can : (tenantUnbound t (belongingsReturned t d)).Canonical := modQueue_can _ _ _ (modTenant_can _ _ _ (belongingsReturned_can hc t))

theorem tenant_destroyTenant_same : tenant (destroyTenant t d) t = {} :=
  calc tenant (destroyTenant t d) t
    _ = tenant (tenantUnbound t (belongingsReturned t d)) t := tenant_rebind ..
    _ = tenant (modTenant t (fun _ => {}) (belongingsReturned t d)) t := tenant_modQueue ..
    _ = {} := tenant_modTenant_same (belongingsReturned_can hc t).tenants

theorem queue_destroyTenant_bound : (queue (destroyTenant t d) t).bound = false := by
  rw [destroyTenant_eq, queue_rebind_bound (tenantUnbound_can hc t), tenantUnbound, queue_same (modTenant_can _ _ _ (belongingsReturned_can hc t))]

end

theorem watch_destroyTenant (t w : Nat) (d : Die) : watch (destroyTenant t d) w = watch (belongingsReturned t d) w := watch_of (rebind_watches ..) w

theorem region_destroyTenant (t r : Nat) (d : Die) : region (destroyTenant t d) r = region (belongingsReturned t d) r := region_of (rebind_regions ..) r

theorem tenantDestroyBody_destroys (e : Exec) {p : Bytes} {d : Die} (h₁ : 1 ≤ fld p 0 1) (h₂ : fld p 0 1 ≤ 16) (hz : ZeroBytes p 1 4) (hm : (tenant d (fld p 0 1)).made = true)
    (hp : ∀ c x, c < 16 → context d c = some x → x.owner ≠ fld p 0 1) :
    tenantDestroyBody 0 e p d = (destroyTenant (fld p 0 1) d, .done (givenBack d (fld p 0 1)).length none) := by
  unfold tenantDestroyBody
  refine checked_pass ?_
  simp only [List.forall_mem_cons]
  exact ⟨tenantField_pass h₁ h₂, zeroCheck_pass hz, rfl, by rw [hm]; rfl, hasPlan_eq_false hp, nofun⟩

/-! ## tenant.move (R276, R361) -/

theorem tenantMoveBody_moves (e : Exec) {p : Bytes} {d : Die} (hm : fld p 0 10 ≠ 0) (ho : fld p 10 1 ≤ 16) (hz : ZeroBytes p 9 10) (hz' : ZeroBytes p 11 12)
    (hmade : fld p 10 1 ≠ 0 → (tenant d (fld p 10 1)).made = true) (hr : ∀ r ∈ setRegions (fld p 0 10), present d r = true ∧ moveRefused d r = false) :
    tenantMoveBody 0 e p d = (each (setRegions (fld p 0 10)) (acceptMove · (fld p 10 1)) d,
      .done ((setRegions (fld p 0 10)).filter (fun r => nextOwner d r ≠ fld p 10 1)).length none) := by
  unfold tenantMoveBody
  refine checked_pass ?_
  simp only [List.forall_mem_cons]
  exact ⟨zeroCheck_pass hz, zeroCheck_pass hz', rfl, decide_eq_false hm, decide_eq_false (Nat.not_lt.2 ho), absentCheck_pass fun r h => (hr r h).1,
    guard_pass fun h => by rw [hmade h]; rfl, regionCheck_pass fun r h => (hr r h).2, nofun⟩

/-! ## tenant.fence (R281, R362) -/

theorem ownedRegions_nodup (d : Die) (t : Nat) : (ownedRegions d t).Nodup := (presentRegions_nodup d).filter _

section
variable {t : Nat} (src : Nat) (on : Bool) {d : Die} (hc : d.Canonical)
include hc

theorem tenant_setFence_same : tenant (setFence t src on d) t = { tenant d t with fence := on } := by
  have hregions : (setFence t src on d).tenants = (modTenant t (fun x => { x with fence := on }) d).tenants := each_tenants fun _ _ => rfl
  rw [tenant, hregions]
  exact tenant_modTenant_same hc.tenants

/-- The setting is due at the inputs of the tenant's regions alone. -/
theorem region_setFence (r : Nat) : region (setFence t src on d) r = if r ∈ ownedRegions d t then { region d r with fenceDue := some (on, src) } else region d r := by
  have hread := (each_region (g := fun _ x => { x with fenceDue := some (on, src) }) (ownedRegions d t) (ownedRegions_nodup d t) (modTenant_can t (fun x => { x with fence := on }) d hc)).2 r
  split
  next hr => exact hread.1 hr
  next hr => exact hread.2 hr

end

theorem tenantFenceBody_fences {q : Nat} (e : Exec) {p : Bytes} {d : Die} (h₁ : 1 ≤ fld p 0 1) (h₂ : fld p 0 1 ≤ 16) (hb : fld p 1 1 ≤ 1) (hz : ZeroBytes p 2 4)
    (hq : q = 0 ∨ q = fld p 0 1) (hr : d.startup.ready = 1) (hm : (tenant d (fld p 0 1)).made = true) :
    tenantFenceBody q e p d = (setFence (fld p 0 1) (if q = 0 then 1 else 0) (decide (fld p 1 1 = 1)) d, .done 0 none) := by
  rw [← bit_zero_of_le_one hb]
  unfold tenantFenceBody
  refine checked_pass ?_
  simp only [List.forall_mem_cons]
  exact ⟨tenantField_pass h₁ h₂, bitsCheck_pass (and_mask_of_le_one hb), zeroCheck_pass hz, decide_eq_false (by omega), readyCheck_pass hr, by rw [hm]; rfl, nofun⟩

/-! ## tenant.read (R362) -/

theorem tenantBytes_length (d : Die) (t : Nat) : (tenantBytes d t).length = 40 := by
  simp only [tenantBytes, List.length_append, le_len, zeros_len]

theorem tenantReadBody_reads {q : Nat} (e : Exec) {p : Bytes} {d : Die} (ht : fld p 0 1 ≤ 16) (hz : ZeroBytes p 1 4) (hq : q = 0 ∨ q = fld p 0 1)
    (hm : fld p 0 1 ≠ 0 → (tenant d (fld p 0 1)).made = true) : tenantReadBody q e p d = (drawFree d, .done 0 (some (tenantBytes d (fld p 0 1)))) := by
  unfold tenantReadBody
  refine checked_pass ?_
  simp only [List.forall_mem_cons]
  exact ⟨decide_eq_false (Nat.not_lt.2 ht), zeroCheck_pass hz, decide_eq_false (by omega), guard_pass fun h => by rw [hm h]; rfl, nofun⟩

/-- Settles O43: each command passes its checks and completes with the effect of its body. -/
theorem tenantCommandsMakeMoveAndFence : Obligations.TenantCommandsMakeMoveAndFence := by
  intro s q e hc
  dsimp only
  refine ⟨?_, ?_, ?_, fun hx h₁ h₂ hb hz hq hr hm => ?_, fun hx ht hz hq hm => ⟨?_, tenantBytes_length ..⟩⟩
  · rintro hx rfl h₁ h₂ hz hm hk hquota
    refine completesOk_of_body hx rfl (tenantCreateBody_creates h₁ h₂ hz hm hk hquota)
      ⟨tenant_createTenant_same _ _ hc, queue_createTenant_bound _ _ hc, fun k hne => createTenant_other _ _ hc hne, fun hidle => ?_⟩
    rw [queue_createTenant_of_idle _ _ hc hidle]
    exact ⟨rfl, rfl, rfl, rfl, rfl, rfl⟩
  · rintro hx rfl h₁ h₂ hz hm hp
    refine completesOk_of_body hx rfl (tenantDestroyBody_destroys e h₁ h₂ hz hm hp)
      ⟨tenant_destroyTenant_same hc _, queue_destroyTenant_bound hc _, fun w hw hu ho => ?_, fun r hr => ?_⟩
    · exact (watch_destroyTenant ..).trans (watch_belongingsReturned hc _ hw hu ho)
    · rw [region_destroyTenant, region_belongingsReturned hc _ hr]
  · rintro hx rfl hm ho hz hz' hmade hr
    exact completesOk_of_body hx rfl (tenantMoveBody_moves e hm ho hz hz' hmade hr) (each_acceptMove hc (set_nodup _) _).2
  · exact completesOk_of_body hx rfl (tenantFenceBody_fences e h₁ h₂ hb hz hq hr hm) ⟨tenant_setFence_same _ _ hc, region_setFence _ _ hc⟩
  · exact completesOk_of_body hx rfl (tenantReadBody_reads e ht hz hq hm) rfl

end Sys2Proof.Machine

namespace Sys2Proof.Machine
open Sys2Proof

/-! ## The tables keep their form, and the Ledger's ring its count (R380) -/

/-- What every write of the die's parts keeps, every command keeps: by its law where it has one, and AON_POWER_GOOD, which writes the whole die, by itself. -/
theorem exec_keeps {P : Die → Prop} (hc : ∀ l, Closed P l) (hg : ∀ d, P d → P (aonPowerGood d)) {s t : State} (hd : P s.die) (c : Instr)
    (h : exec c s = .next t) : P t.die := by
  cases c with
  | aonPowerGood =>
    obtain ⟨-, rfl⟩ := run_next (show run true aonPowerGood s = .next t from h)
    exact hg _ hd
  | aonPowerFail => exact (exec_aonPowerFail_kept (hc _) s t hd h).2
  | aonUndervoltage _ => exact (exec_aonUndervoltage_kept (hc _) _ s t hd h).2
  | packageWarmReset => exact (exec_packageWarmReset_kept (hc _) s t hd h).2
  | startupStepComplete _ => exact (exec_startupStepComplete_kept (hc _) _ s t hd h).2
  | firmwareBroadcast _ _ _ => exact (exec_firmwareBroadcast_kept (hc _) _ _ _ s t hd h).2
  | bootImageTimeout => exact (exec_bootImageTimeout_kept (hc _) s t hd h).2
  | topologyCheckTimeout _ => exact (exec_topologyCheckTimeout_kept (hc _) _ s t hd h).2
  | topologyCheckComplete _ => exact (exec_topologyCheckComplete_kept (hc _) _ s t hd h).2
  | refActivityLoss _ => exact (exec_refActivityLoss_kept (hc _) _ s t hd h).2
  | refFrequencyWindowEnd _ _ => exact (exec_refFrequencyWindowEnd_kept (hc _) _ _ s t hd h).2
  | noReferenceTimeout => exact (exec_noReferenceTimeout_kept (hc _) s t hd h).2
  | rootLockLoss _ => exact (exec_rootLockLoss_kept (hc _) _ s t hd h).2
  | rootDisagreement _ => exact (exec_rootDisagreement_kept (hc _) _ s t hd h).2
  | rootSwitchConfirm _ _ => exact (exec_rootSwitchConfirm_kept (hc _) _ _ s t hd h).2
  | synthBandSearchDone _ _ _ => exact (exec_synthBandSearchDone_kept (hc _) _ _ _ s t hd h).2
  | synthLockWindowEnd _ _ _ => exact (exec_synthLockWindowEnd_kept (hc _) _ _ _ s t hd h).2
  | synthExcursion _ _ _ => exact (exec_synthExcursion_kept (hc _) _ _ _ s t hd h).2
  | synthAcquisitionTimeout _ _ => exact (exec_synthAcquisitionTimeout_kept (hc _) _ _ s t hd h).2
  | synthRetryAcquire _ _ => exact (exec_synthRetryAcquire_kept (hc _) _ _ s t hd h).2
  | injectionWindowEnd _ _ => exact (exec_injectionWindowEnd_kept (hc _) _ _ s t hd h).2
  | injectionAcquisitionTimeout _ => exact (exec_injectionAcquisitionTimeout_kept (hc _) _ s t hd h).2
  | bellowsSettleDone _ => exact (exec_bellowsSettleDone_kept (hc _) _ s t hd h).2
  | injectionResume _ => exact (exec_injectionResume_kept (hc _) _ s t hd h).2
  | phaseStep _ _ => exact (exec_phaseStep_kept (hc _) _ _ s t hd h).2
  | ringPeriod _ _ => exact (exec_ringPeriod_kept (hc _) _ _ s t hd h).2
  | plumbDisagreementResolved _ _ => exact (exec_plumbDisagreementResolved_kept (hc _) _ _ s t hd h).2
  | alertIntervalEnd => exact (exec_alertIntervalEnd_kept (hc _) s t hd h).2
  | marginReleaseTimeout _ => exact (exec_marginReleaseTimeout_kept (hc _) _ s t hd h).2
  | unplannedStepBoundary => exact (exec_unplannedStepBoundary_kept (hc _) s t hd h).2
  | droverRestart _ => exact (exec_droverRestart_kept (hc _) _ s t hd h).2
  | edgeActivation _ _ => exact (exec_edgeActivation_kept (hc _) _ _ s t hd h).2
  | hoopFrameForm _ => exact (exec_hoopFrameForm_kept (hc _) _ s t hd h).2
  | hoopFrameReceived _ _ => exact (exec_hoopFrameReceived_kept (hc _) _ _ s t hd h).2
  | hoopLinkFrameTimeout _ => exact (exec_hoopLinkFrameTimeout_kept (hc _) _ s t hd h).2
  | hoopStaleRelease _ => exact (exec_hoopStaleRelease_kept (hc _) _ s t hd h).2
  | criticalPathIntervalEnd => exact (exec_criticalPathIntervalEnd_kept (hc _) s t hd h).2
  | linkDown _ => exact (exec_linkDown_kept (hc _) _ s t hd h).2
  | linkUp _ => exact (exec_linkUp_kept (hc _) _ s t hd h).2
  | linkRetrainBegin _ => exact (exec_linkRetrainBegin_kept (hc _) _ s t hd h).2
  | linkRetrainEnd _ => exact (exec_linkRetrainEnd_kept (hc _) _ s t hd h).2
  | hbmRetrainBegin _ => exact (exec_hbmRetrainBegin_kept (hc _) _ s t hd h).2
  | hbmRetrainEnd _ => exact (exec_hbmRetrainEnd_kept (hc _) _ s t hd h).2
  | sidebandReceiverUp _ => exact (exec_sidebandReceiverUp_kept (hc _) _ s t hd h).2
  | sidebandReceiverDown _ => exact (exec_sidebandReceiverDown_kept (hc _) _ s t hd h).2
  | sidebandFrameBoundary _ => exact (exec_sidebandFrameBoundary_kept (hc _) _ s t hd h).2
  | sidebandFrameDiscarded _ => exact (exec_sidebandFrameDiscarded_kept (hc _) _ s t hd h).2
  | tallySyncSend _ => exact (exec_tallySyncSend_kept (hc _) _ s t hd h).2
  | tallySyncReceived _ _ => exact (exec_tallySyncReceived_kept (hc _) _ _ s t hd h).2
  | tallyReplyReceived _ _ => exact (exec_tallyReplyReceived_kept (hc _) _ _ s t hd h).2
  | tallyOffsetAverage => exact (exec_tallyOffsetAverage_kept (hc _) s t hd h).2
  | tallySettled => exact (exec_tallySettled_kept (hc _) s t hd h).2
  | tallyBeaconIncrement => exact (exec_tallyBeaconIncrement_kept (hc _) s t hd h).2
  | tallyMasterLost => exact (exec_tallyMasterLost_kept (hc _) s t hd h).2
  | tallyMasterWaitExpiry => exact (exec_tallyMasterWaitExpiry_kept (hc _) s t hd h).2
  | tallyWatchFire _ => exact (exec_tallyWatchFire_kept (hc _) _ s t hd h).2
  | cycleWatchFire _ _ => exact (exec_cycleWatchFire_kept (hc _) _ _ s t hd h).2
  | watchArmed _ => exact (exec_watchArmed_kept (hc _) _ s t hd h).2
  | watchMessageDelivery => exact (exec_watchMessageDelivery_kept (hc _) s t hd h).2
  | commitAccept => exact (exec_commitAccept_kept (hc _) s t hd h).2
  | commitVoltageRise _ => exact (exec_commitVoltageRise_kept (hc _) _ s t hd h).2
  | commitDecision _ => exact (exec_commitDecision_kept (hc _) _ s t hd h).2
  | commitStrobe _ => exact (exec_commitStrobe_kept (hc _) _ s t hd h).2
  | regionSwitchingInstant _ _ => exact (exec_regionSwitchingInstant_kept (hc _) _ _ s t hd h).2
  | commitVoltageFall _ => exact (exec_commitVoltageFall_kept (hc _) _ s t hd h).2
  | settlementCommitRequest _ => exact (exec_settlementCommitRequest_kept (hc _) _ s t hd h).2
  | restoringCommitRetry _ => exact (exec_restoringCommitRetry_kept (hc _) _ s t hd h).2
  | pauseSwitchLend _ => exact (exec_pauseSwitchLend_kept (hc _) _ s t hd h).2
  | pauseSwitchGateTimeout _ => exact (exec_pauseSwitchGateTimeout_kept (hc _) _ s t hd h).2
  | regionActionApply _ => exact (exec_regionActionApply_kept (hc _) _ s t hd h).2
  | patternRecordRead _ _ => exact (exec_patternRecordRead_kept (hc _) _ _ s t hd h).2
  | patternActionApply _ => exact (exec_patternActionApply_kept (hc _) _ s t hd h).2
  | oppRequestIssue _ => exact (exec_oppRequestIssue_kept (hc _) _ s t hd h).2
  | certAssembly _ => exact (exec_certAssembly_kept (hc _) _ s t hd h).2
  | energyIntervalEnd _ => exact (exec_energyIntervalEnd_kept (hc _) _ s t hd h).2
  | telemetryReadStart => exact (exec_telemetryReadStart_kept (hc _) s t hd h).2
  | calibrationWindowEnd => exact (exec_calibrationWindowEnd_kept (hc _) s t hd h).2
  | calibrationUpdateApply => exact (exec_calibrationUpdateApply_kept (hc _) s t hd h).2
  | limitEvaluation => exact (exec_limitEvaluation_kept (hc _) s t hd h).2
  | vrmStatusPoll _ _ => exact (exec_vrmStatusPoll_kept (hc _) _ _ s t hd h).2
  | vrmAlertRise _ => exact (exec_vrmAlertRise_kept (hc _) _ s t hd h).2
  | voltageFallTimeout _ _ => exact (exec_voltageFallTimeout_kept (hc _) _ _ s t hd h).2
  | fallTargetRewrite _ => exact (exec_fallTargetRewrite_kept (hc _) _ s t hd h).2
  | sensorConversion _ => exact (exec_sensorConversion_kept (hc _) _ s t hd h).2
  | thermalSoftStep _ => exact (exec_thermalSoftStep_kept (hc _) _ s t hd h).2
  | thermalSoftRelease _ => exact (exec_thermalSoftRelease_kept (hc _) _ s t hd h).2
  | thermalSoftRise _ => exact (exec_thermalSoftRise_kept (hc _) _ s t hd h).2
  | thermalHardRelease _ => exact (exec_thermalHardRelease_kept (hc _) _ s t hd h).2
  | thermalTripRelease => exact (exec_thermalTripRelease_kept (hc _) s t hd h).2
  | flowLoss _ _ => exact (exec_flowLoss_kept (hc _) _ _ s t hd h).2
  | flowRelease _ => exact (exec_flowRelease_kept (hc _) _ s t hd h).2
  | estopAssert => exact (exec_estopAssert_kept (hc _) s t hd h).2
  | estopRelease => exact (exec_estopRelease_kept (hc _) s t hd h).2
  | resumeRelease => exact (exec_resumeRelease_kept (hc _) s t hd h).2
  | poolStatusSend => exact (exec_poolStatusSend_kept (hc _) s t hd h).2
  | poolStatusReceived _ _ => exact (exec_poolStatusReceived_kept (hc _) _ _ s t hd h).2
  | poolGrantReceived _ _ => exact (exec_poolGrantReceived_kept (hc _) _ _ s t hd h).2
  | poolReturnReceived _ _ => exact (exec_poolReturnReceived_kept (hc _) _ _ s t hd h).2
  | poolRecallReceived _ _ => exact (exec_poolRecallReceived_kept (hc _) _ _ s t hd h).2
  | poolLinkSilent _ => exact (exec_poolLinkSilent_kept (hc _) _ s t hd h).2
  | poolLenderRestore _ => exact (exec_poolLenderRestore_kept (hc _) _ s t hd h).2
  | guardEvaluation => exact (exec_guardEvaluation_kept (hc _) s t hd h).2
  | guardCeilingRise => exact (exec_guardCeilingRise_kept (hc _) s t hd h).2
  | assayPhaseEnd _ => exact (exec_assayPhaseEnd_kept (hc _) _ s t hd h).2
  | assayClose => exact (exec_assayClose_kept (hc _) s t hd h).2
  | flashOperationComplete _ => exact (exec_flashOperationComplete_kept (hc _) _ s t hd h).2
  | flashOperationTimeout => exact (exec_flashOperationTimeout_kept (hc _) s t hd h).2
  | storeWriteRetire => exact (exec_storeWriteRetire_kept (hc _) s t hd h).2
  | storeWriteRetry => exact (exec_storeWriteRetry_kept (hc _) s t hd h).2
  | chandlerHeartbeat => exact (exec_chandlerHeartbeat_kept (hc _) s t hd h).2
  | chandlerHeartbeatTimeout => exact (exec_chandlerHeartbeatTimeout_kept (hc _) s t hd h).2
  | chandlerFaultSignal _ _ => exact (exec_chandlerFaultSignal_kept (hc _) _ _ s t hd h).2
  | chandlerTakeoverComplete => exact (exec_chandlerTakeoverComplete_kept (hc _) s t hd h).2
  | chandlerRestartVerified => exact (exec_chandlerRestartVerified_kept (hc _) s t hd h).2
  | chandlerSynced => exact (exec_chandlerSynced_kept (hc _) s t hd h).2
  | chandlerSyncTimeout => exact (exec_chandlerSyncTimeout_kept (hc _) s t hd h).2
  | descriptorFetch _ => exact (exec_descriptorFetch_kept (hc _) _ s t hd h).2
  | avsbusFrameEnd _ _ => exact (exec_avsbusFrameEnd_kept (hc _) _ _ s t hd h).2
  | pmbusTransactionComplete _ _ => exact (exec_pmbusTransactionComplete_kept (hc _) _ _ s t hd h).2
  | streamAccessFail _ _ => exact (exec_streamAccessFail_kept (hc _) _ _ s t hd h).2
  | ledgerRecordAccept => exact (exec_ledgerRecordAccept_kept (hc _) s t hd h).2
  | stretchSpanWindowEnd _ => exact (exec_stretchSpanWindowEnd_kept (hc _) _ s t hd h).2
  | drainPageTimeout => exact (exec_drainPageTimeout_kept (hc _) s t hd h).2
  | drainPageWriteComplete _ => exact (exec_drainPageWriteComplete_kept (hc _) _ s t hd h).2
  | regionIdleChange _ => exact (exec_regionIdleChange_kept (hc _) _ s t hd h).2
  | wakeLine _ _ => exact (exec_wakeLine_kept (hc _) _ _ s t hd h).2
  | regionResetEnd _ => exact (exec_regionResetEnd_kept (hc _) _ s t hd h).2
  | islandResetEnd _ => exact (exec_islandResetEnd_kept (hc _) _ s t hd h).2
  | planLoad _ => exact (exec_planLoad_kept (hc _) _ s t hd h).2
  | planStart _ => exact (exec_planStart_kept (hc _) _ s t hd h).2
  | planRelease _ => exact (exec_planRelease_kept (hc _) _ s t hd h).2
  | planArm _ => exact (exec_planArm_kept (hc _) _ s t hd h).2
  | planUnload _ => exact (exec_planUnload_kept (hc _) _ s t hd h).2
  | planCouple _ => exact (exec_planCouple_kept (hc _) _ s t hd h).2
  | planRead _ => exact (exec_planRead_kept (hc _) _ s t hd h).2
  | oppCommit _ => exact (exec_oppCommit_kept (hc _) _ s t hd h).2
  | oppCancel _ => exact (exec_oppCancel_kept (hc _) _ s t hd h).2
  | oppRead _ => exact (exec_oppRead_kept (hc _) _ s t hd h).2
  | capSet _ => exact (exec_capSet_kept (hc _) _ s t hd h).2
  | capCeiling _ => exact (exec_capCeiling_kept (hc _) _ s t hd h).2
  | capRead _ => exact (exec_capRead_kept (hc _) _ s t hd h).2
  | poolSet _ => exact (exec_poolSet_kept (hc _) _ s t hd h).2
  | poolRead _ => exact (exec_poolRead_kept (hc _) _ s t hd h).2
  | tenantCreate _ => exact (exec_tenantCreate_kept (hc _) _ s t hd h).2
  | tenantDestroy _ => exact (exec_tenantDestroy_kept (hc _) _ s t hd h).2
  | tenantMove _ => exact (exec_tenantMove_kept (hc _) _ s t hd h).2
  | tenantFence _ => exact (exec_tenantFence_kept (hc _) _ s t hd h).2
  | tenantRead _ => exact (exec_tenantRead_kept (hc _) _ s t hd h).2
  | watchSet _ => exact (exec_watchSet_kept (hc _) _ s t hd h).2
  | watchClear _ => exact (exec_watchClear_kept (hc _) _ s t hd h).2
  | watchRead _ => exact (exec_watchRead_kept (hc _) _ s t hd h).2
  | ledgerControl _ => exact (exec_ledgerControl_kept (hc _) _ s t hd h).2
  | ledgerDrain _ => exact (exec_ledgerDrain_kept (hc _) _ s t hd h).2
  | ledgerRead _ => exact (exec_ledgerRead_kept (hc _) _ s t hd h).2
  | certRead _ => exact (exec_certRead_kept (hc _) _ s t hd h).2
  | calWrite _ _ => exact (exec_calWrite_kept (hc _) _ _ s t hd h).2
  | calExport _ => exact (exec_calExport_kept (hc _) _ s t hd h).2
  | calRead _ => exact (exec_calRead_kept (hc _) _ s t hd h).2
  | calSet _ => exact (exec_calSet_kept (hc _) _ s t hd h).2
  | calUnretire _ => exact (exec_calUnretire_kept (hc _) _ s t hd h).2
  | assayRegion _ => exact (exec_assayRegion_kept (hc _) _ s t hd h).2
  | islandRead _ => exact (exec_islandRead_kept (hc _) _ s t hd h).2
  | islandPhase _ => exact (exec_islandPhase_kept (hc _) _ s t hd h).2
  | islandResetCmd _ => exact (exec_islandResetCmd_kept (hc _) _ s t hd h).2
  | regionRead _ => exact (exec_regionRead_kept (hc _) _ s t hd h).2
  | regionResetCmd _ => exact (exec_regionResetCmd_kept (hc _) _ s t hd h).2
  | regionConfig _ => exact (exec_regionConfig_kept (hc _) _ s t hd h).2
  | regionTest _ => exact (exec_regionTest_kept (hc _) _ s t hd h).2
  | tallyPriority _ => exact (exec_tallyPriority_kept (hc _) _ s t hd h).2
  | tallyAuthority _ => exact (exec_tallyAuthority_kept (hc _) _ s t hd h).2
  | tallyRead _ => exact (exec_tallyRead_kept (hc _) _ s t hd h).2
  | fabricRead _ => exact (exec_fabricRead_kept (hc _) _ s t hd h).2
  | fabricRef _ => exact (exec_fabricRef_kept (hc _) _ s t hd h).2
  | fabricResume _ => exact (exec_fabricResume_kept (hc _) _ s t hd h).2
  | fabricTopology _ _ => exact (exec_fabricTopology_kept (hc _) _ _ s t hd h).2
  | fabricPower _ => exact (exec_fabricPower_kept (hc _) _ s t hd h).2
  | queueDoorbellWrite _ _ _ => exact (exec_queueDoorbellWrite_kept (hc _) _ _ _ s t hd h).2
  | queueCqHeadWrite _ _ => exact (exec_queueCqHeadWrite_kept (hc _) _ _ s t hd h).2
  | queueResetWrite _ => exact (exec_queueResetWrite_kept (hc _) _ s t hd h).2
  | queueIntStatusClear _ _ _ => exact (exec_queueIntStatusClear_kept (hc _) _ _ _ s t hd h).2
  | fabricIntStatusClear _ _ => exact (exec_fabricIntStatusClear_kept (hc _) _ _ s t hd h).2
  | estopRegisterSet => exact (exec_estopRegisterSet_kept (hc _) s t hd h).2
  | estopRegisterClear => exact (exec_estopRegisterClear_kept (hc _) s t hd h).2
  | fabricResetWrite _ => exact (exec_fabricResetWrite_kept (hc _) _ s t hd h).2
  | tallySnapshotRead => exact (exec_tallySnapshotRead_kept (hc _) s t hd h).2
  | loRegisterRead _ => exact (exec_loRegisterRead_kept (hc _) _ s t hd h).2
  | ledgerFreezeWrite _ => exact (exec_ledgerFreezeWrite_kept (hc _) _ s t hd h).2
  | drainHeadWrite _ => exact (exec_drainHeadWrite_kept (hc _) _ s t hd h).2
  | registerWriteGeneric _ _ _ => exact (exec_registerWriteGeneric_kept (hc _) _ _ _ s t hd h).2
  | fabricWordUpdate _ => exact (exec_fabricWordUpdate_kept (hc _) _ s t hd h).2
  | ledgerRecordUpdate _ => exact (exec_ledgerRecordUpdate_kept (hc _) _ s t hd h).2
  | rootReacquire _ => exact (exec_rootReacquire_kept (hc _) _ s t hd h).2
  | rootLockDeclared _ => exact (exec_rootLockDeclared_kept (hc _) _ s t hd h).2
  | railConfirmationRead _ => exact (exec_railConfirmationRead_kept (hc _) _ s t hd h).2
  | pmbusReadTimeout _ => exact (exec_pmbusReadTimeout_kept (hc _) _ s t hd h).2
  | testInstructionUpdate _ => exact (exec_testInstructionUpdate_kept (hc _) _ s t hd h).2

/-- The same of the step, which ticks Tally where no command waits. -/
theorem step_keeps {P : Die → Prop} (hc : ∀ l, Closed P l) (hg : ∀ d, P d → P (aonPowerGood d)) {s t : State} (hd : P s.die)
    (h : step s = .next t) : P t.die := by
  cases hp : s.pending with
  | nil =>
    rw [step_of_nil hp] at h
    cases h
    exact tallyTick_kept (hc _) _ hd
  | cons c rest =>
    rw [step_of_cons hp] at h
    exact exec_keeps hc hg (s := { s with pending := rest }) hd c h

/-- Cold power-on empties every table but that of the memory stacks, which outlives it. -/
theorem aonPowerGood_canonical (d : Die) (hd : d.Canonical) : (aonPowerGood d).Canonical := by
  unfold aonPowerGood
  split
  · exact hd
  · exact { invariantsHoldAtReset.1 with links := canonical_wf _, hbm := hd.hbm }

theorem aonPowerGood_counted (d : Die) (hd : d.ledger.Counted) : (aonPowerGood d).ledger.Counted := by
  unfold aonPowerGood
  split
  · exact hd
  · exact ⟨rfl, rfl⟩

/-- Settles O53: each write of a part of the die keeps both invariants, and every command is made of such writes. -/
theorem tablesAndLedgerStayInForm : Obligations.TablesAndLedgerStayInForm :=
  ⟨fun _ _ hd h => step_keeps canonical_closed aonPowerGood_canonical hd h, fun _ _ hd h => step_keeps counted_closed aonPowerGood_counted hd h⟩

end Sys2Proof.Machine

namespace Sys2Proof.Machine
open Sys2Proof

/-! ## What each command leaves as it is -/

/-- A law that keeps every property closed under the writes of some parts says that the command changes those parts at most. -/
theorem changesOnly_of_kept {c : Instr} {s : State} {l : List Part}
    (h : ∀ (P : Die → Prop), Closed P l → ∀ s t : State, P s.die → exec c s = .next t → t.pending = s.pending ∧ P t.die) : ChangesOnly c s l :=
  fun t ht => h (SameBut l s.die) (sameBut_closed l s.die) s t (sameBut_refl l s.die) ht

/-- Cold power-on keeps the memory stacks, what has been streamed out, and the free values drawn. -/
theorem changesOnly_aonPowerGood (s : State) : ChangesOnly .aonPowerGood s [.tally, .clocks, .startup, .stop, .regs, .ledger, .records, .chandler, .store, .limits, .islands, .regions, .synths, .ends, .lanes, .links,
    .rails, .sensors, .watches, .messages, .delivered, .contexts, .commits, .commitReqs, .nextCommit, .tenants, .queues, .sram, .dormant] := by
  intro t ht
  obtain ⟨-, rfl⟩ := run_next (show run true aonPowerGood s = .next t from ht)
  refine ⟨rfl, ?_⟩
  dsimp only
  unfold aonPowerGood
  split
  · exact sameBut_refl _ _
  · intro p hp
    cases p
    case hbm | streams | fresh => rfl
    all_goals exact absurd (by decide) hp

/-- Settles O56, by the law of each command, for the property of agreeing with the die before it. -/
theorem clockAndLinkEventsChangeOnly : Obligations.ClockAndLinkEventsChangeOnly := fun s =>
  ⟨changesOnly_aonPowerGood s,
    changesOnly_of_kept @exec_aonPowerFail_kept,
    fun x => changesOnly_of_kept fun _ hc => exec_aonUndervoltage_kept hc x,
    changesOnly_of_kept @exec_packageWarmReset_kept,
    fun x => changesOnly_of_kept fun _ hc => exec_startupStepComplete_kept hc x,
    fun x y z => changesOnly_of_kept fun _ hc => exec_firmwareBroadcast_kept hc x y z,
    changesOnly_of_kept @exec_bootImageTimeout_kept,
    fun x => changesOnly_of_kept fun _ hc => exec_topologyCheckTimeout_kept hc x,
    fun x => changesOnly_of_kept fun _ hc => exec_topologyCheckComplete_kept hc x,
    fun x => changesOnly_of_kept fun _ hc => exec_refActivityLoss_kept hc x,
    fun x y => changesOnly_of_kept fun _ hc => exec_refFrequencyWindowEnd_kept hc x y,
    changesOnly_of_kept @exec_noReferenceTimeout_kept,
    fun x => changesOnly_of_kept fun _ hc => exec_rootLockLoss_kept hc x,
    fun x => changesOnly_of_kept fun _ hc => exec_rootDisagreement_kept hc x,
    fun x y => changesOnly_of_kept fun _ hc => exec_rootSwitchConfirm_kept hc x y,
    fun x y z => changesOnly_of_kept fun _ hc => exec_synthBandSearchDone_kept hc x y z,
    fun x y z => changesOnly_of_kept fun _ hc => exec_synthLockWindowEnd_kept hc x y z,
    fun x y z => changesOnly_of_kept fun _ hc => exec_synthExcursion_kept hc x y z,
    fun x y => changesOnly_of_kept fun _ hc => exec_synthAcquisitionTimeout_kept hc x y,
    fun x y => changesOnly_of_kept fun _ hc => exec_synthRetryAcquire_kept hc x y,
    fun x y => changesOnly_of_kept fun _ hc => exec_injectionWindowEnd_kept hc x y,
    fun x => changesOnly_of_kept fun _ hc => exec_injectionAcquisitionTimeout_kept hc x,
    fun x => changesOnly_of_kept fun _ hc => exec_bellowsSettleDone_kept hc x,
    fun x => changesOnly_of_kept fun _ hc => exec_injectionResume_kept hc x,
    fun x y => changesOnly_of_kept fun _ hc => exec_phaseStep_kept hc x y,
    fun x y => changesOnly_of_kept fun _ hc => exec_ringPeriod_kept hc x y,
    fun x y => changesOnly_of_kept fun _ hc => exec_plumbDisagreementResolved_kept hc x y,
    changesOnly_of_kept @exec_alertIntervalEnd_kept,
    fun x => changesOnly_of_kept fun _ hc => exec_marginReleaseTimeout_kept hc x,
    changesOnly_of_kept @exec_unplannedStepBoundary_kept,
    fun x => changesOnly_of_kept fun _ hc => exec_droverRestart_kept hc x,
    fun x y => changesOnly_of_kept fun _ hc => exec_edgeActivation_kept hc x y,
    fun x => changesOnly_of_kept fun _ hc => exec_hoopFrameForm_kept hc x,
    fun x y => changesOnly_of_kept fun _ hc => exec_hoopFrameReceived_kept hc x y,
    fun x => changesOnly_of_kept fun _ hc => exec_hoopLinkFrameTimeout_kept hc x,
    fun x => changesOnly_of_kept fun _ hc => exec_hoopStaleRelease_kept hc x,
    changesOnly_of_kept @exec_criticalPathIntervalEnd_kept,
    fun x => changesOnly_of_kept fun _ hc => exec_linkDown_kept hc x,
    fun x => changesOnly_of_kept fun _ hc => exec_linkUp_kept hc x,
    fun x => changesOnly_of_kept fun _ hc => exec_linkRetrainBegin_kept hc x,
    fun x => changesOnly_of_kept fun _ hc => exec_linkRetrainEnd_kept hc x,
    fun x => changesOnly_of_kept fun _ hc => exec_hbmRetrainBegin_kept hc x,
    fun x => changesOnly_of_kept fun _ hc => exec_hbmRetrainEnd_kept hc x,
    fun x => changesOnly_of_kept fun _ hc => exec_sidebandReceiverUp_kept hc x,
    fun x => changesOnly_of_kept fun _ hc => exec_sidebandReceiverDown_kept hc x,
    fun x => changesOnly_of_kept fun _ hc => exec_sidebandFrameBoundary_kept hc x,
    fun x => changesOnly_of_kept fun _ hc => exec_sidebandFrameDiscarded_kept hc x,
    fun x => changesOnly_of_kept fun _ hc => exec_tallySyncSend_kept hc x,
    fun x y => changesOnly_of_kept fun _ hc => exec_tallySyncReceived_kept hc x y,
    fun x y => changesOnly_of_kept fun _ hc => exec_tallyReplyReceived_kept hc x y,
    changesOnly_of_kept @exec_tallyOffsetAverage_kept,
    changesOnly_of_kept @exec_tallySettled_kept,
    changesOnly_of_kept @exec_tallyBeaconIncrement_kept,
    changesOnly_of_kept @exec_tallyMasterLost_kept,
    changesOnly_of_kept @exec_tallyMasterWaitExpiry_kept,
    fun x => changesOnly_of_kept fun _ hc => exec_tallyWatchFire_kept hc x,
    fun x y => changesOnly_of_kept fun _ hc => exec_cycleWatchFire_kept hc x y,
    fun x => changesOnly_of_kept fun _ hc => exec_watchArmed_kept hc x,
    changesOnly_of_kept @exec_watchMessageDelivery_kept,
    fun x => changesOnly_of_kept fun _ hc => exec_rootReacquire_kept hc x,
    fun x => changesOnly_of_kept fun _ hc => exec_rootLockDeclared_kept hc x⟩

/-- Settles O57, by the law of each command, for the property of agreeing with the die before it. -/
theorem controlEventsChangeOnly : Obligations.ControlEventsChangeOnly := fun _ =>
  ⟨changesOnly_of_kept @exec_commitAccept_kept,
    fun x => changesOnly_of_kept fun _ hc => exec_commitVoltageRise_kept hc x,
    fun x => changesOnly_of_kept fun _ hc => exec_commitDecision_kept hc x,
    fun x => changesOnly_of_kept fun _ hc => exec_commitStrobe_kept hc x,
    fun x y => changesOnly_of_kept fun _ hc => exec_regionSwitchingInstant_kept hc x y,
    fun x => changesOnly_of_kept fun _ hc => exec_commitVoltageFall_kept hc x,
    fun x => changesOnly_of_kept fun _ hc => exec_settlementCommitRequest_kept hc x,
    fun x => changesOnly_of_kept fun _ hc => exec_restoringCommitRetry_kept hc x,
    fun x => changesOnly_of_kept fun _ hc => exec_pauseSwitchLend_kept hc x,
    fun x => changesOnly_of_kept fun _ hc => exec_pauseSwitchGateTimeout_kept hc x,
    fun x => changesOnly_of_kept fun _ hc => exec_regionActionApply_kept hc x,
    fun x y => changesOnly_of_kept fun _ hc => exec_patternRecordRead_kept hc x y,
    fun x => changesOnly_of_kept fun _ hc => exec_patternActionApply_kept hc x,
    fun x => changesOnly_of_kept fun _ hc => exec_oppRequestIssue_kept hc x,
    fun x => changesOnly_of_kept fun _ hc => exec_certAssembly_kept hc x,
    fun x => changesOnly_of_kept fun _ hc => exec_energyIntervalEnd_kept hc x,
    changesOnly_of_kept @exec_telemetryReadStart_kept,
    changesOnly_of_kept @exec_calibrationWindowEnd_kept,
    changesOnly_of_kept @exec_calibrationUpdateApply_kept,
    changesOnly_of_kept @exec_limitEvaluation_kept,
    fun x y => changesOnly_of_kept fun _ hc => exec_vrmStatusPoll_kept hc x y,
    fun x => changesOnly_of_kept fun _ hc => exec_vrmAlertRise_kept hc x,
    fun x y => changesOnly_of_kept fun _ hc => exec_voltageFallTimeout_kept hc x y,
    fun x => changesOnly_of_kept fun _ hc => exec_fallTargetRewrite_kept hc x,
    fun x => changesOnly_of_kept fun _ hc => exec_sensorConversion_kept hc x,
    fun x => changesOnly_of_kept fun _ hc => exec_thermalSoftStep_kept hc x,
    fun x => changesOnly_of_kept fun _ hc => exec_thermalSoftRelease_kept hc x,
    fun x => changesOnly_of_kept fun _ hc => exec_thermalSoftRise_kept hc x,
    fun x => changesOnly_of_kept fun _ hc => exec_thermalHardRelease_kept hc x,
    changesOnly_of_kept @exec_thermalTripRelease_kept,
    fun x y => changesOnly_of_kept fun _ hc => exec_flowLoss_kept hc x y,
    fun x => changesOnly_of_kept fun _ hc => exec_flowRelease_kept hc x,
    changesOnly_of_kept @exec_estopAssert_kept,
    changesOnly_of_kept @exec_estopRelease_kept,
    changesOnly_of_kept @exec_resumeRelease_kept,
    changesOnly_of_kept @exec_poolStatusSend_kept,
    fun x y => changesOnly_of_kept fun _ hc => exec_poolStatusReceived_kept hc x y,
    fun x y => changesOnly_of_kept fun _ hc => exec_poolGrantReceived_kept hc x y,
    fun x y => changesOnly_of_kept fun _ hc => exec_poolReturnReceived_kept hc x y,
    fun x y => changesOnly_of_kept fun _ hc => exec_poolRecallReceived_kept hc x y,
    fun x => changesOnly_of_kept fun _ hc => exec_poolLinkSilent_kept hc x,
    fun x => changesOnly_of_kept fun _ hc => exec_poolLenderRestore_kept hc x,
    changesOnly_of_kept @exec_guardEvaluation_kept,
    changesOnly_of_kept @exec_guardCeilingRise_kept,
    fun x => changesOnly_of_kept fun _ hc => exec_assayPhaseEnd_kept hc x,
    changesOnly_of_kept @exec_assayClose_kept,
    fun x => changesOnly_of_kept fun _ hc => exec_flashOperationComplete_kept hc x,
    changesOnly_of_kept @exec_flashOperationTimeout_kept,
    changesOnly_of_kept @exec_storeWriteRetire_kept,
    changesOnly_of_kept @exec_storeWriteRetry_kept,
    changesOnly_of_kept @exec_chandlerHeartbeat_kept,
    changesOnly_of_kept @exec_chandlerHeartbeatTimeout_kept,
    fun x y => changesOnly_of_kept fun _ hc => exec_chandlerFaultSignal_kept hc x y,
    changesOnly_of_kept @exec_chandlerTakeoverComplete_kept,
    changesOnly_of_kept @exec_chandlerRestartVerified_kept,
    changesOnly_of_kept @exec_chandlerSynced_kept,
    changesOnly_of_kept @exec_chandlerSyncTimeout_kept,
    fun x => changesOnly_of_kept fun _ hc => exec_descriptorFetch_kept hc x,
    fun x y => changesOnly_of_kept fun _ hc => exec_avsbusFrameEnd_kept hc x y,
    fun x y => changesOnly_of_kept fun _ hc => exec_pmbusTransactionComplete_kept hc x y,
    fun x y => changesOnly_of_kept fun _ hc => exec_streamAccessFail_kept hc x y,
    changesOnly_of_kept @exec_ledgerRecordAccept_kept,
    fun x => changesOnly_of_kept fun _ hc => exec_stretchSpanWindowEnd_kept hc x,
    changesOnly_of_kept @exec_drainPageTimeout_kept,
    fun x => changesOnly_of_kept fun _ hc => exec_drainPageWriteComplete_kept hc x,
    fun x => changesOnly_of_kept fun _ hc => exec_regionIdleChange_kept hc x,
    fun x y => changesOnly_of_kept fun _ hc => exec_wakeLine_kept hc x y,
    fun x => changesOnly_of_kept fun _ hc => exec_regionResetEnd_kept hc x,
    fun x => changesOnly_of_kept fun _ hc => exec_islandResetEnd_kept hc x,
    fun x => changesOnly_of_kept fun _ hc => exec_planRelease_kept hc x,
    fun x => changesOnly_of_kept fun _ hc => exec_railConfirmationRead_kept hc x,
    fun x => changesOnly_of_kept fun _ hc => exec_pmbusReadTimeout_kept hc x⟩

/-- Settles O58, by the law of each command, for the property of agreeing with the die before it. -/
theorem hostCommandsChangeOnly : Obligations.HostCommandsChangeOnly := fun _ =>
  ⟨fun x => changesOnly_of_kept fun _ hc => exec_planLoad_kept hc x,
    fun x => changesOnly_of_kept fun _ hc => exec_planStart_kept hc x,
    fun x => changesOnly_of_kept fun _ hc => exec_planArm_kept hc x,
    fun x => changesOnly_of_kept fun _ hc => exec_planUnload_kept hc x,
    fun x => changesOnly_of_kept fun _ hc => exec_planCouple_kept hc x,
    fun x => changesOnly_of_kept fun _ hc => exec_planRead_kept hc x,
    fun x => changesOnly_of_kept fun _ hc => exec_oppCommit_kept hc x,
    fun x => changesOnly_of_kept fun _ hc => exec_oppCancel_kept hc x,
    fun x => changesOnly_of_kept fun _ hc => exec_oppRead_kept hc x,
    fun x => changesOnly_of_kept fun _ hc => exec_capSet_kept hc x,
    fun x => changesOnly_of_kept fun _ hc => exec_capCeiling_kept hc x,
    fun x => changesOnly_of_kept fun _ hc => exec_capRead_kept hc x,
    fun x => changesOnly_of_kept fun _ hc => exec_poolSet_kept hc x,
    fun x => changesOnly_of_kept fun _ hc => exec_poolRead_kept hc x,
    fun x => changesOnly_of_kept fun _ hc => exec_tenantCreate_kept hc x,
    fun x => changesOnly_of_kept fun _ hc => exec_tenantDestroy_kept hc x,
    fun x => changesOnly_of_kept fun _ hc => exec_tenantMove_kept hc x,
    fun x => changesOnly_of_kept fun _ hc => exec_tenantFence_kept hc x,
    fun x => changesOnly_of_kept fun _ hc => exec_tenantRead_kept hc x,
    fun x => changesOnly_of_kept fun _ hc => exec_watchSet_kept hc x,
    fun x => changesOnly_of_kept fun _ hc => exec_watchClear_kept hc x,
    fun x => changesOnly_of_kept fun _ hc => exec_watchRead_kept hc x,
    fun x => changesOnly_of_kept fun _ hc => exec_ledgerControl_kept hc x,
    fun x => changesOnly_of_kept fun _ hc => exec_ledgerDrain_kept hc x,
    fun x => changesOnly_of_kept fun _ hc => exec_ledgerRead_kept hc x,
    fun x => changesOnly_of_kept fun _ hc => exec_certRead_kept hc x,
    fun x y => changesOnly_of_kept fun _ hc => exec_calWrite_kept hc x y,
    fun x => changesOnly_of_kept fun _ hc => exec_calExport_kept hc x,
    fun x => changesOnly_of_kept fun _ hc => exec_calRead_kept hc x,
    fun x => changesOnly_of_kept fun _ hc => exec_calSet_kept hc x,
    fun x => changesOnly_of_kept fun _ hc => exec_calUnretire_kept hc x,
    fun x => changesOnly_of_kept fun _ hc => exec_assayRegion_kept hc x,
    fun x => changesOnly_of_kept fun _ hc => exec_islandRead_kept hc x,
    fun x => changesOnly_of_kept fun _ hc => exec_islandPhase_kept hc x,
    fun x => changesOnly_of_kept fun _ hc => exec_islandResetCmd_kept hc x,
    fun x => changesOnly_of_kept fun _ hc => exec_regionRead_kept hc x,
    fun x => changesOnly_of_kept fun _ hc => exec_regionResetCmd_kept hc x,
    fun x => changesOnly_of_kept fun _ hc => exec_regionConfig_kept hc x,
    fun x => changesOnly_of_kept fun _ hc => exec_regionTest_kept hc x,
    fun x => changesOnly_of_kept fun _ hc => exec_tallyPriority_kept hc x,
    fun x => changesOnly_of_kept fun _ hc => exec_tallyAuthority_kept hc x,
    fun x => changesOnly_of_kept fun _ hc => exec_tallyRead_kept hc x,
    fun x => changesOnly_of_kept fun _ hc => exec_fabricRead_kept hc x,
    fun x => changesOnly_of_kept fun _ hc => exec_fabricRef_kept hc x,
    fun x => changesOnly_of_kept fun _ hc => exec_fabricResume_kept hc x,
    fun x y => changesOnly_of_kept fun _ hc => exec_fabricTopology_kept hc x y,
    fun x => changesOnly_of_kept fun _ hc => exec_fabricPower_kept hc x,
    fun x y z => changesOnly_of_kept fun _ hc => exec_queueDoorbellWrite_kept hc x y z,
    fun x y => changesOnly_of_kept fun _ hc => exec_queueCqHeadWrite_kept hc x y,
    fun x => changesOnly_of_kept fun _ hc => exec_queueResetWrite_kept hc x,
    fun x y z => changesOnly_of_kept fun _ hc => exec_queueIntStatusClear_kept hc x y z,
    fun x y => changesOnly_of_kept fun _ hc => exec_fabricIntStatusClear_kept hc x y,
    changesOnly_of_kept @exec_estopRegisterSet_kept,
    changesOnly_of_kept @exec_estopRegisterClear_kept,
    fun x => changesOnly_of_kept fun _ hc => exec_fabricResetWrite_kept hc x,
    changesOnly_of_kept @exec_tallySnapshotRead_kept,
    fun x => changesOnly_of_kept fun _ hc => exec_loRegisterRead_kept hc x,
    fun x => changesOnly_of_kept fun _ hc => exec_ledgerFreezeWrite_kept hc x,
    fun x => changesOnly_of_kept fun _ hc => exec_drainHeadWrite_kept hc x,
    fun x y z => changesOnly_of_kept fun _ hc => exec_registerWriteGeneric_kept hc x y z,
    fun x => changesOnly_of_kept fun _ hc => exec_fabricWordUpdate_kept hc x,
    fun x => changesOnly_of_kept fun _ hc => exec_ledgerRecordUpdate_kept hc x,
    fun x => changesOnly_of_kept fun _ hc => exec_testInstructionUpdate_kept hc x⟩

end Sys2Proof.Machine

namespace Sys2Proof.Machine
open Sys2Proof
set_option Elab.async false

/-! ## Every other element of a table stands as it was -/

/-- A table of the die: how an element of it is read, and the part that holds it. -/
structure Table (α : Type) where
  get : Die → Nat → α
  part : Part
  reads : ∀ a b, samePart a b part → ∀ k, get b k = get a k

abbrev islandTable : Table Island := ⟨island, .islands, fun _ _ h k => island_of h k⟩
abbrev regionTable : Table Region := ⟨region, .regions, fun _ _ h k => region_of h k⟩
abbrev linkTable : Table Link := ⟨link, .links, fun _ _ h k => link_of h k⟩
abbrev railTable : Table Rail := ⟨rail, .rails, fun _ _ h k => rail_of h k⟩
abbrev watchTable : Table Watch := ⟨watch, .watches, fun _ _ h k => watch_of h k⟩
abbrev contextTable : Table (Option Context) := ⟨context, .contexts, fun _ _ h k => context_of h k⟩
abbrev queueTable : Table Queue := ⟨queue, .queues, fun _ _ h k => queue_of h k⟩

/-- The canonical die d has every element of the table but the i-th as the die a has it. -/
structure Elsewhere {α : Type} (T : Table α) (i : Nat) (a d : Die) : Prop where
  can : d.Canonical
  same : ∀ k, k ≠ i → T.get d k = T.get a k

section
variable {α : Type} {T : Table α} {i : Nat} {a d : Die}

theorem Elsewhere.refl (hc : a.Canonical) : Elsewhere T i a a := ⟨hc, fun _ _ => rfl⟩

/-- A write that leaves the table alone. -/
theorem Elsewhere.beside {e : Die} {l : List Part} (h : Elsewhere T i a d) (hl : T.part ∉ l) (hs : SameBut l d e) (hc : e.Canonical) : Elsewhere T i a e :=
  ⟨hc, fun k hk => (T.reads d e (hs _ hl) k).trans (h.same k hk)⟩

/-- Writes of parts other than that of the table keep its elements, so the laws of the operations apply. -/
theorem Elsewhere.closed {l : List Part} (hl : T.part ∉ l) : Closed (Elsewhere T i a) l :=
  have hs := fun d => sameBut_closed l d
  have hr := sameBut_refl l
  have hc := canonical_closed l
  { lits := fun d e h1 h2 h => h.beside hl h2 (hc.lits d e h1 h2 h.can)
    islands := fun m k f d h => h.beside hl ((hs d).islands m k f d (hr d)) (hc.islands m k f d h.can)
    regions := fun m k f d h => h.beside hl ((hs d).regions m k f d (hr d)) (hc.regions m k f d h.can)
    synths := fun m r x f d h => h.beside hl ((hs d).synths m r x f d (hr d)) (hc.synths m r x f d h.can)
    ends := fun m k f d h => h.beside hl ((hs d).ends m k f d (hr d)) (hc.ends m k f d h.can)
    lanes := fun m k f d h => h.beside hl ((hs d).lanes m k f d (hr d)) (hc.lanes m k f d h.can)
    links := fun m k f d h => h.beside hl ((hs d).links m k f d (hr d)) (hc.links m k f d h.can)
    rails := fun m k f d h => h.beside hl ((hs d).rails m k f d (hr d)) (hc.rails m k f d h.can)
    sensors := fun m k f d h => h.beside hl ((hs d).sensors m k f d (hr d)) (hc.sensors m k f d h.can)
    watches := fun m k f d h => h.beside hl ((hs d).watches m k f d (hr d)) (hc.watches m k f d h.can)
    contexts := fun m c v d h => h.beside hl ((hs d).contexts m c v d (hr d)) (hc.contexts m c v d h.can)
    tenants := fun m k f d h => h.beside hl ((hs d).tenants m k f d (hr d)) (hc.tenants m k f d h.can)
    queues := fun m k f d h => h.beside hl ((hs d).queues m k f d (hr d)) (hc.queues m k f d h.can)
    sram := fun m x b d h => h.beside hl ((hs d).sram m x b d (hr d)) (hc.sram m x b d h.can)
    host := fun m w d h => h.beside hl ((hs d).host m w d (hr d)) (hc.host m w d h.can)
    hbm := fun m k v d h => h.beside hl ((hs d).hbm m k v d (hr d)) (hc.hbm m k v d h.can)
    records := fun m m' x d h => h.beside hl ((hs d).records m m' x d (hr d)) (hc.records m m' x d h.can)
    reset := fun m d h => h.beside hl ((hs d).reset m d (hr d)) (hc.reset m d h.can) }

theorem Elsewhere.ite {c : Prop} [Decidable c] {e f : Die} (he : Elsewhere T i a e) (hf : Elsewhere T i a f) : Elsewhere T i a (if c then e else f) := by
  split
  · exact he
  · exact hf

theorem Elsewhere.emit (h : Elsewhere T i a d) (code : Nat) (l : Loc) (b : Bytes) (hl : T.part ∉ [Part.ledger] := by decide) : Elsewhere T i a (emit code l b d) :=
  emit_kept (closed hl) _ _ _ _ h

end

/-! ### Islands -/

section
variable {i : Nat} {a d : Die} (h : Elsewhere islandTable i a d)
include h

theorem Elsewhere.modIsland (f : Island → Island) : Elsewhere islandTable i a (modIsland i f d) :=
  ⟨modIsland_kept (canonical_closed [.islands]) (by decide) _ _ _ h.can, fun k hk => (tget_tmod_other h.can.islands hk).trans (h.same k hk)⟩

theorem Elsewhere.modRing (f : Ring → Ring) : Elsewhere islandTable i a (modRing i f d) := h.modIsland _

theorem Elsewhere.modMargin (f : Margin → Margin) : Elsewhere islandTable i a (modMargin i f d) := h.modIsland _

theorem Elsewhere.injectionLock : Elsewhere islandTable i a (injectionLock i d) := pauseEnd_kept (closed (by decide)) _ _ (h.modRing _)

theorem Elsewhere.acquire (c : AcqContext) : Elsewhere islandTable i a (acquire i c d) := h.modRing _

theorem Elsewhere.injectionWindow (n : Nat) : Elsewhere islandTable i a (injectionWindow i n d) := by
  unfold Machine.injectionWindow
  dsimp only
  split
  · exact h
  · split
    · split
      · exact h
      · split
        · exact h.modRing _
        · split
          · exact h.modRing _
          · exact h.injectionLock
    · split
      · exact h.modRing _
      · split
        · exact h.modRing _
        · split
          · exact h.modRing _
          · exact h.acquire _
    · exact h

theorem Elsewhere.bellowsRetire (cause count : Nat) : Elsewhere islandTable i a (bellowsRetire i cause count d) := by
  have hr : Elsewhere islandTable i a (emitRetire 2 0 count (.island i) i (Machine.modRing i (fun x => { x with failures := [] }) d)) :=
    emitRetire_kept (closed (by decide)) _ _ _ _ _ _ (h.modRing _)
  unfold Machine.bellowsRetire yokeEnter
  split
  · exact h
  · exact (hr.modRing _).emit ..

theorem Elsewhere.injectionTimeout : Elsewhere islandTable i a (injectionTimeout i d) := by
  unfold Machine.injectionTimeout
  dsimp only
  split
  · split
    · exact ((h.modRing _).emit ..).bellowsRetire ..
    · split
      · exact ((h.modRing _).emit ..).modRing _
      · exact ((h.modRing _).emit ..).acquire _
      · exact ((h.modRing _).emit ..).acquire _
  · exact h

theorem Elsewhere.settleDone : Elsewhere islandTable i a (settleDone i d) := by
  unfold Machine.settleDone
  dsimp only
  split
  · split
    · exact h.acquire _
    · exact h
  · exact h

theorem Elsewhere.injectionResume : Elsewhere islandTable i a (injectionResume i d) := by
  unfold Machine.injectionResume
  dsimp only
  split
  · exact h.modRing _
  · exact h

theorem Elsewhere.phaseStep (tFree : Nat) : Elsewhere islandTable i a (phaseStep i tFree d) := by
  unfold Machine.phaseStep
  extract_lets x v fits
  split
  · exact h.modRing _
  · exact h

theorem Elsewhere.blindCheck (k : Nat) : Elsewhere islandTable i a (blindCheck i k d) := by
  unfold Machine.blindCheck
  split
  · exact ((h.modMargin _).emit ..).bellowsRetire ..
  · exact h

theorem Elsewhere.retireReplica (j : Nat) : Elsewhere islandTable i a (retireReplica i j d) :=
  emitRetire_kept (closed (by decide)) _ _ _ _ _ _ ((h.modMargin _).emit ..)

theorem Elsewhere.leaveActive (mask j : Nat) : Elsewhere islandTable i a (leaveActive mask i j d) := by
  unfold Machine.leaveActive
  split
  · split
    · exact (h.modMargin _).emit ..
    · exact h.modMargin _
  · exact h

theorem Elsewhere.disagreementResolved (j : Nat) : Elsewhere islandTable i a (disagreementResolved i j d) := by
  unfold Machine.disagreementResolved
  dsimp only
  split
  · split
    · exact h
    · split
      · exact (h.modMargin _).emit ..
      · exact ((h.retireReplica j).leaveActive ..).blindCheck _
  · exact h

theorem Elsewhere.pauseGate : Elsewhere islandTable i a (pauseGate i d) := by
  unfold Machine.pauseGate
  split
  · split
    · exact pauseEnd_kept (closed (by decide)) _ _ (h.modRing _)
    · exact h
  · exact h

theorem Elsewhere.closeSpan : Elsewhere islandTable i a (closeSpan i d) := by
  unfold Machine.closeSpan
  dsimp only
  split
  · exact h
  · split
    · exact attribTo_kept (closed (by decide)) _ _ _ _ _ _ ((h.modMargin _).emit ..)
    · exact (h.modMargin _).emit ..

theorem Elsewhere.spanWindowEnd : Elsewhere islandTable i a (spanWindowEnd i d) := by
  unfold Machine.spanWindowEnd
  dsimp only
  split
  · exact (h.modMargin _).modMargin _
  · exact (h.modMargin _).closeSpan

theorem Elsewhere.joinPlan : Elsewhere islandTable i a (joinPlan i d) := by
  unfold Machine.joinPlan
  split
  · split
    · split
      · exact h.modRing _
      · exact h
    · exact h
  · exact h

theorem Elsewhere.startBellows : Elsewhere islandTable i a (startBellows i d) := by
  unfold Machine.startBellows
  dsimp only
  split
  · exact h.modRing _
  · exact h.modRing _

theorem Elsewhere.islandResetEnd : Elsewhere islandTable i a (islandResetEnd i d) := by
  have hm : Elsewhere islandTable i a (missedEnd (islandRegion i) d) := missedEnd_kept (closed (by decide)) _ _ h
  unfold Machine.islandResetEnd
  split
  · exact h
  · split
    · exact h
    · exact emitReset_kept (closed (by decide)) _ _ _ _ _ (refreshIsland_kept (closed (by decide)) _ _ (.ite (hm.modRing _).joinPlan.startBellows (hm.modRing _).joinPlan))

end

/-! ### Regions -/

section
variable {i : Nat} {a d : Die} (h : Elsewhere regionTable i a d)
include h

/-- What holds of every other region through an operation on this one. -/
theorem Elsewhere.of_regionHolds {e : Die} (hc : e.Canonical) (he : ∀ k, k ≠ i → RegionHolds (· = region d k) k d → RegionHolds (· = region d k) k e) :
    Elsewhere regionTable i a e :=
  ⟨hc, fun k hk => (he k hk ⟨h.can, rfl⟩).holds.trans (h.same k hk)⟩

theorem Elsewhere.modRegion (f : Region → Region) : Elsewhere regionTable i a (modRegion i f d) :=
  h.of_regionHolds (modRegion_can _ _ _ h.can) fun _ hk hh => hh.modRegion_at fun e => absurd e hk

theorem Elsewhere.setCeiling (j : Nat) (v : Option Nat) : Elsewhere regionTable i a (setCeiling j i v d) :=
  ⟨setCeiling_can _ _ _ _ h.can, fun k hk => (region_setCeiling_other hk h.can j v).trans (h.same k hk)⟩

theorem Elsewhere.marginRelease : Elsewhere regionTable i a (marginRelease i d) := by
  unfold Machine.marginRelease
  dsimp only
  split
  · exact .ite (((h.modRegion _).emit ..).setCeiling ..) h
  · exact h

theorem Elsewhere.joinRequest (src : CommitSource) (target ctx r : Nat) : Elsewhere regionTable i a (joinRequest src target ctx r d) :=
  joinRequest_kept (closed (by decide)) _ _ _ _ _ h

theorem Elsewhere.settlementRequest : Elsewhere regionTable i a (settlementRequest i d) := by
  unfold Machine.settlementRequest
  dsimp only
  split
  · exact .ite h (.ite ((h.modRegion _).joinRequest ..) (h.modRegion _))
  · exact h

theorem Elsewhere.restoringRetry : Elsewhere regionTable i a (restoringRetry i d) := by
  have hs := h.settlementRequest
  unfold Machine.restoringRetry
  dsimp only
  split
  · refine .ite hs ?_
    unfold restore
    exact .ite (((hs.modRegion _).modRegion _).joinRequest ..) (hs.modRegion _)
  · exact hs

theorem Elsewhere.softStep : Elsewhere regionTable i a (softStep i d) := .ite ((h.modRegion _).setCeiling ..) h

theorem Elsewhere.softRelease : Elsewhere regionTable i a (softRelease i d) := .ite (h.modRegion _) h

theorem Elsewhere.softRise : Elsewhere regionTable i a (softRise i d) := .ite ((h.modRegion _).setCeiling ..) h

theorem Elsewhere.hardRelease : Elsewhere regionTable i a (hardRelease i d) :=
  .ite (((Elsewhere.ite h ((h.modRegion _).setCeiling ..)).modRegion _).setCeiling ..) h

end

/-! ### Links -/

section
variable {i : Nat} {a d : Die} (h : Elsewhere linkTable i a d)
include h

theorem Elsewhere.modLink (f : Link → Link) : Elsewhere linkTable i a (modLink i f d) :=
  ⟨modLink_can _ _ _ h.can, fun k hk => (link_modLink_other h.can.links hk).trans (h.same k hk)⟩

theorem Elsewhere.chooseParent : Elsewhere linkTable i a (chooseParent d) := chooseParent_kept (closed (by decide)) _ h

theorem Elsewhere.considerPartner (l : Nat) : Elsewhere linkTable i a (considerPartner l d) := considerPartner_kept (closed (by decide)) _ _ h

theorem Elsewhere.modTally (f : Tally → Tally) : Elsewhere linkTable i a (modTally f d) := modTally_kept (closed (by decide)) _ _ h

theorem Elsewhere.setLoan (v : Int) : Elsewhere linkTable i a (setLoan i v d) := clampCredit_kept (closed (by decide)) _ (h.modLink _)

theorem Elsewhere.sendPool (kind ack amount : Nat) : Elsewhere linkTable i a (sendPool i kind ack amount d) := h.modLink _

theorem Elsewhere.modPool (f : PoolLink → PoolLink) : Elsewhere linkTable i a (modPool i f d) := h.modLink _

theorem Elsewhere.poolRecord (code l amount role : Nat) : Elsewhere linkTable i a (poolRecord code l amount role d) := h.emit ..

theorem Elsewhere.discardFrame : Elsewhere linkTable i a (discardFrame i d) := .ite (((h.modLink _).modLink _).emit ..).chooseParent (h.modLink _)

theorem Elsewhere.hoopForm : Elsewhere linkTable i a (hoopForm i d) := .ite (h.modLink _) h

theorem Elsewhere.validFrame : Elsewhere linkTable i a (validFrame i d) := h.modLink _

theorem Elsewhere.linkStaleEnd : Elsewhere linkTable i a (linkStaleEnd i d) := by
  unfold Machine.linkStaleEnd
  split
  · exact (h.modLink _).emit ..
  · exact h

theorem Elsewhere.setLimits (x : Limits) : Elsewhere linkTable i a { d with limits := x } := (closed (l := [.limits]) (by decide)).lit (d := d) rfl h

theorem Elsewhere.hoopReceived (f : Bytes) : Elsewhere linkTable i a (hoopReceived i f d) := by
  by_cases hok : hoopFrameOk f = true
  · obtain ⟨onset, b, he⟩ := hoopReceived_enters (l := i) (d := d) hok
    have hf : Elsewhere linkTable i a (frameEntered i f (Machine.linkStaleEnd i (Machine.validFrame i d))) := by
      unfold frameEntered
      exact (h.validFrame.linkStaleEnd.modLink _).setLimits _
    rw [he]
    exact .ite (hf.emit ..) hf
  · rw [Machine.hoopReceived, if_neg hok]
    exact h.discardFrame

theorem Elsewhere.hoopTimeout : Elsewhere linkTable i a (hoopTimeout i d) := .ite ((h.modLink _).emit ..) h

theorem Elsewhere.poolLost (cause : Nat) : Elsewhere linkTable i a (poolLost i cause d) := .ite ((h.setLoan _).emit ..) (.ite (h.modLink _) h)

theorem Elsewhere.releaseLink (cause : Nat) : Elsewhere linkTable i a (releaseLink i cause d) :=
  (clearLinkLanes_kept (closed (by decide)) _ _ (h.modLink _)).emit ..

theorem Elsewhere.linkDownOp : Elsewhere linkTable i a (linkDownOp i d) := (((h.modLink _).releaseLink _).poolLost _).chooseParent

theorem Elsewhere.linkUpOp : Elsewhere linkTable i a (linkUpOp i d) := .ite h (((Elsewhere.ite h (h.emit ..)).modLink _).setLoan _)

theorem Elsewhere.retrainBegin : Elsewhere linkTable i a (retrainBegin i d) := .ite h (((h.modLink _).releaseLink _).emit ..)

theorem Elsewhere.retrainEnd : Elsewhere linkTable i a (retrainEnd i d) := by
  unfold Machine.retrainEnd
  split
  · exact (h.modLink _).emit ..
  · exact h

theorem Elsewhere.receiverDown : Elsewhere linkTable i a (receiverDown i d) := (h.modLink _).chooseParent

theorem Elsewhere.frameBoundary : Elsewhere linkTable i a (frameBoundary i d) := by
  unfold Machine.frameBoundary
  refine .ite ?_ (h.modLink _)
  split
  · exact h.modLink _
  · exact h.modLink _

theorem Elsewhere.tallySyncSend : Elsewhere linkTable i a (tallySyncSend i d) := .ite (h.modLink _) h

theorem Elsewhere.tallySyncReceived (f : Bytes) : Elsewhere linkTable i a (tallySyncReceived i f d) :=
  .ite ((h.validFrame.modLink _).considerPartner _) h.discardFrame

theorem Elsewhere.tallyReplyReceived (f : Bytes) : Elsewhere linkTable i a (tallyReplyReceived i f d) :=
  have hp := (h.validFrame.modLink _).considerPartner i
  .ite (.ite (.ite (tallyStep_kept (closed (by decide)) _ _ _ _ ((hp.modTally _).modTally _)) ((hp.modTally _).modTally _)) hp) h.discardFrame

/-- A frame of the pool takes its effect on its own link. -/
theorem Elsewhere.poolFrame (kind : Nat) (f : Bytes) {effect : Die → Die} (he : ∀ e, Elsewhere linkTable i a e → Elsewhere linkTable i a (effect e)) :
    Elsewhere linkTable i a (poolFrame kind i f effect d) :=
  .ite h (.ite (.ite (.ite (he _ (h.validFrame.modPool _)) (h.validFrame.modPool _)) (h.validFrame.modPool _)) h.discardFrame)

theorem Elsewhere.checkLoan (f : Bytes) : Elsewhere linkTable i a (checkLoan i f d) :=
  .ite (h.modPool _) (.ite (h.modPool _) (.ite (h.modPool _) (((h.modPool _).setLoan _).emit ..)))

theorem Elsewhere.lend (f : Bytes) : Elsewhere linkTable i a (lend i f d) := .ite h ((((h.modPool _).setLoan _).sendPool ..).poolRecord ..)

theorem Elsewhere.statusReceived (f : Bytes) : Elsewhere linkTable i a (statusReceived i f d) := h.poolFrame _ _ fun _ he => (he.checkLoan _).lend _

theorem Elsewhere.grantReceived (f : Bytes) : Elsewhere linkTable i a (grantReceived i f d) :=
  h.poolFrame _ _ fun _ he => .ite ((((he.setLoan _).poolRecord ..).sendPool ..).poolRecord ..) ((he.setLoan _).poolRecord ..)

theorem Elsewhere.returnReceived (f : Bytes) : Elsewhere linkTable i a (returnReceived i f d) :=
  h.poolFrame _ _ fun _ he => .ite he (((he.modPool _).setLoan _).poolRecord ..)

theorem Elsewhere.returnLoan (ack : Nat) : Elsewhere linkTable i a (returnLoan i ack d) := .ite h (((h.setLoan _).sendPool ..).poolRecord ..)

theorem Elsewhere.recallReceived (f : Bytes) : Elsewhere linkTable i a (recallReceived i f d) :=
  h.poolFrame _ _ fun _ he => .ite ((he.poolRecord ..).returnLoan _) he

theorem Elsewhere.linkSilent : Elsewhere linkTable i a (linkSilent i d) := by
  unfold Machine.linkSilent
  split
  · exact .ite (h.poolLost _) h
  · exact h

theorem Elsewhere.restoreCap (cause : Nat) : Elsewhere linkTable i a (restoreCap i cause d) := ((h.modPool _).setLoan _).emit ..

theorem Elsewhere.lenderRestore : Elsewhere linkTable i a (lenderRestore i d) := by
  unfold Machine.lenderRestore
  refine .ite h ?_
  split
  · exact .ite (h.restoreCap _) h
  · exact .ite (h.restoreCap _) h
  · exact h

end

/-! ### Rails -/

section
variable {i : Nat} {a d : Die} (h : Elsewhere railTable i a d)
include h

theorem Elsewhere.modRail (f : Rail → Rail) : Elsewhere railTable i a (modRail i f d) :=
  ⟨modRail_can _ _ _ h.can, fun k hk => (tget_tmod_other h.can.rails hk).trans (h.same k hk)⟩

theorem Elsewhere.setVrm (slot r : Nat) (v : Option Nat) : Elsewhere railTable i a (setVrm slot r v d) := setVrm_kept (closed (by decide)) _ _ _ _ h

/-- The regions of a rail take their ceilings in turn. -/
theorem Elsewhere.each_setVrm (l : List Nat) (slot : Nat) (v : Nat → Die → Option Nat) : Elsewhere railTable i a (each l (fun r e => Machine.setVrm slot r (v r e) e) d) :=
  each_kept (fun _ _ he => he.setVrm ..) h

theorem Elsewhere.avsStart : Elsewhere railTable i a (avsStart i d) := h.modRail _

theorem Elsewhere.avsPush (op : AvsOp) : Elsewhere railTable i a (avsPush i op d) := .ite h (h.modRail _).avsStart

theorem Elsewhere.alertEvent (k phase kind word : Nat) : Elsewhere railTable i a (alertEvent k phase kind word d) := h.emit ..

theorem Elsewhere.alertLog (phase kind : Nat) (word : Option Nat) : Elsewhere railTable i a (alertLog i phase kind word d) := by
  unfold Machine.alertLog
  split
  · exact h.alertEvent ..
  · exact (h.modRail _).avsPush _

theorem Elsewhere.alertLower : Elsewhere railTable i a (alertLower i d) := .ite ((h.modRail _).each_setVrm _ _ fun r e => some (stepBelow (region e r))) h

theorem Elsewhere.alertSource (on : Bool) (word : Option Nat) (f : Rail → Rail) : Elsewhere railTable i a (alertSource i on word f d) :=
  (((h.modRail _).alertLog ..).modRail _).alertLower

theorem Elsewhere.statusSeen (alert : Bool) (word : Option Nat) : Elsewhere railTable i a (statusSeen i alert word d) := by
  cases word with
  | none => exact (Elsewhere.ite h (h.alertSource ..)).alertLower
  | some w => exact (Elsewhere.ite (h.modRail _) ((h.modRail _).alertSource ..)).alertLower

theorem Elsewhere.statusPoll (status : Nat) : Elsewhere railTable i a (statusPoll i status d) := .ite h (h.statusSeen ..)

theorem Elsewhere.fallCleared : Elsewhere railTable i a (fallCleared i d) := by
  unfold Machine.fallCleared
  split
  · exact .ite ((h.modRail _).each_setVrm _ _ fun _ _ => none) h
  · exact h

theorem Elsewhere.alertRises : Elsewhere railTable i a (alertRises i d) := by
  unfold Machine.alertRises
  dsimp only
  split
  · exact .ite ((h.fallCleared.modRail _).each_setVrm _ _ fun r e => risen ((region e r).vrm.getD (vrmSlot i) none)) h.fallCleared
  · exact h.fallCleared

theorem Elsewhere.fallTimeout (status : Nat) : Elsewhere railTable i a (fallTimeout i status d) := by
  unfold Machine.fallTimeout
  dsimp only
  split
  · exact .ite (((h.modRail _).alertEvent ..).each_setVrm _ _ fun r e => some (region e r).opp) h
  · exact h

theorem Elsewhere.fallRewrite : Elsewhere railTable i a (fallRewrite i d) := .ite ((h.modRail _).avsPush _) h

theorem Elsewhere.flushAlerts (word : Nat) : Elsewhere railTable i a (flushAlerts i word d) := each_kept (fun _ _ he => he.alertEvent ..) (h.modRail _)

theorem Elsewhere.railConfirmed : Elsewhere railTable i a (railConfirmed i d) :=
  have hu : Elsewhere railTable i a (railsUp (Machine.modRail i (fun x => { x with confirmed := true }) d)) := railsUp_kept (closed (by decide)) _ (h.modRail _)
  .ite ((hu.modRail _).alertLog ..) hu

theorem Elsewhere.avsDone (op : AvsOp) (resp : AvsResponse) : Elsewhere railTable i a (avsDone i op resp d) := by
  cases op with
  | retention => exact h.modRail _
  | target mv => exact h.modRail _
  | confirm => exact .ite h.railConfirmed h
  | status => exact h.flushAlerts _

theorem Elsewhere.avsDead (op : AvsOp) : Elsewhere railTable i a (avsDead i op d) := by
  have hs := Elsewhere.ite (c := (rail (Machine.modRail i (fun x => { x with busy := none, failed := 0 }) d) i).dead = true) (h.modRail fun x => { x with busy := none, failed := 0 })
    ((h.modRail fun x => { x with busy := none, failed := 0 }).alertSource true (some 0xFFFF) fun x => { x with dead := true })
  cases op with
  | status => exact (hs.flushAlerts _).avsStart
  | target mv => exact (hs.modRail _).avsStart
  | retention | confirm => exact hs.avsStart

theorem Elsewhere.avsFrameEnd (resp : AvsResponse) : Elsewhere railTable i a (avsFrameEnd i resp d) := by
  unfold Machine.avsFrameEnd
  split
  · exact h
  · exact .ite (.ite (h.modRail _) (h.avsDead _)) (((Elsewhere.ite ((h.modRail _).alertSource ..) (h.modRail _)).statusSeen ..).avsDone ..).avsStart

theorem Elsewhere.confirmationRead : Elsewhere railTable i a (confirmationRead i d) := by
  unfold Machine.confirmationRead
  dsimp only
  split
  · exact .ite (h.avsPush _) h
  · exact h

end

/-! ### Watches -/

section
variable {i : Nat} {a d : Die} (h : Elsewhere watchTable i a d)
include h

theorem Elsewhere.modWatch (f : Watch → Watch) : Elsewhere watchTable i a (modWatch i f d) :=
  ⟨modWatch_can _ _ _ h.can, fun k hk => (watch_modWatch_other h.can.watches hk).trans (h.same k hk)⟩

theorem Elsewhere.fireWatch (at_ e tally cycle isl : Nat) (late : Bool) : Elsewhere watchTable i a (fireWatch i at_ e tally cycle isl late d) :=
  modWatch (postMessage_kept (closed (by decide)) _ _ h) _

theorem Elsewhere.tallyWatchFire : Elsewhere watchTable i a (tallyWatchFire i d) := .ite (h.fireWatch ..) h

theorem Elsewhere.cycleWatchFire (stamp : Nat) : Elsewhere watchTable i a (cycleWatchFire i stamp d) := .ite (h.fireWatch ..) h

theorem Elsewhere.armWatch : Elsewhere watchTable i a (armWatch i d) := .ite (.ite ((h.modWatch _).fireWatch ..) (h.modWatch _)) h

end

/-! ### Contexts -/

section
variable {i : Nat} {a d : Die} (h : Elsewhere contextTable i a d)
include h

theorem Elsewhere.setContext (v : Option Context) : Elsewhere contextTable i a (setContext i v d) :=
  ⟨setContext_can _ _ h.can, fun k hk => (ctx_other h.can hk).trans (h.same k hk)⟩

theorem Elsewhere.modContext (f : Context → Context) : Elsewhere contextTable i a (modContext i f d) := h.setContext _

theorem Elsewhere.certAssembly : Elsewhere contextTable i a (certAssembly i d) := by
  unfold Machine.certAssembly
  split
  · exact h
  · split
    · exact h
    · exact (drawFree_kept (closed (by decide)) _ (drawFree_kept (closed (by decide)) _ (h.setContext _))).emit ..

theorem Elsewhere.requestIssue : Elsewhere contextTable i a (requestIssue i d) := by
  unfold Machine.requestIssue
  split
  · exact h
  · refine .ite h ?_
    split
    · exact h
    · dsimp only
      split
      · exact issueRequest_kept (closed (by decide)) _ _ _ _ _ (h.setContext _)
      · exact h.setContext _

theorem Elsewhere.passAccounts (r : Nat) : Elsewhere contextTable i a (passAccounts i r d) :=
  modContext (modRegion_kept (closed (l := [.regions]) (by decide)) (by decide) _ _ _ h) _

theorem Elsewhere.markRetired (w : WinRecord) (step : Nat) : Elsewhere contextTable i a (markRetired i w step d) := by
  unfold Machine.markRetired
  dsimp only
  split
  · exact h.emit ..
  · exact (each_kept (fun r _ he => he.passAccounts r) (h.emit ..)).modContext _

theorem Elsewhere.retireRecord (w : WinRecord) : Elsewhere contextTable i a (retireRecord i w d) := by
  unfold Machine.retireRecord
  split
  · exact h
  next x _ =>
    have hm : Elsewhere contextTable i a (each (missing d x w) (fun r d => Machine.modRegion r (fun y => { y with missed := y.missed + 1, missedContext := i }) d) d) :=
      each_kept (modRegion_kept (closed (l := [.regions]) (by decide)) (by decide) · _) h
    dsimp only
    split
    · exact (hm.setContext _).markRetired ..
    · exact hm.setContext _

theorem Elsewhere.retirePass : Elsewhere contextTable i a (retirePass i d) := by
  unfold Machine.retirePass
  split
  · exact .ite (each_kept (fun w _ he => he.retireRecord w) h) h
  · exact h

theorem Elsewhere.patternFault (reason : Nat) : Elsewhere contextTable i a (patternFault i reason d) := by
  unfold Machine.patternFault
  split
  · exact (h.setContext _).emit ..
  · exact h

theorem Elsewhere.readingResumes (x : Context) : Elsewhere contextTable i a (readingResumes i x d) := by
  unfold Machine.readingResumes
  split
  · dsimp only
    split
    · exact (h.setContext _).emit ..
    · exact h.setContext _
  · exact h

theorem Elsewhere.recordDone : Elsewhere contextTable i a (recordDone i d) := by
  unfold Machine.recordDone
  split
  · split
    · exact h
    · exact .ite (h.setContext _) ((h.setContext _).emit ..)
  · exact h

theorem Elsewhere.patternEnd (cycle : Nat) : Elsewhere contextTable i a (patternEnd i cycle d) := by
  unfold Machine.patternEnd
  split
  · exact h
  · exact (setContext (each_kept (fun g _ he => segmentFreed_kept (closed (by decide)) _ g _ he) h) _).emit ..

theorem Elsewhere.enterWindow (cycle mask : Nat) (act : Action) : Elsewhere contextTable i a (enterWindow i cycle mask act d) := by
  unfold Machine.enterWindow
  split
  · exact h
  · dsimp only
    split
    · exact setContext (refuseEdges_kept (closed (by decide)) _ _ _ h) _
    · exact h.setContext _

theorem Elsewhere.takeRecord (cycle : Nat) (b : Bytes) : Elsewhere contextTable i a (takeRecord i cycle b d) := by
  unfold Machine.takeRecord
  split
  · exact h
  · dsimp only
    split
    · exact ((h.setContext _).emit ..).recordDone
    · exact (h.setContext _).patternEnd _
    · exact ((h.setContext _).enterWindow ..).recordDone.retirePass
    · exact (h.setContext _).recordDone

theorem Elsewhere.recordRead (b : Bytes) : Elsewhere contextTable i a (recordRead i b d) := by
  have hr := h.retirePass
  unfold Machine.recordRead
  dsimp only
  split
  · exact hr
  · split
    · exact hr
    · exact .ite hr (.ite (.ite (hr.patternFault _) hr) (.ite ((hr.readingResumes _).patternFault _) ((hr.readingResumes _).takeRecord ..)))

theorem Elsewhere.planRelease : Elsewhere contextTable i a (planRelease i d) := by
  unfold Machine.planRelease
  split
  · exact h
  next x _ =>
    have hedges := each_kept (l := (List.range 2332).filter (bit x.edges)) (fun e _ he => releaseEdge_kept (closed (by decide)) e _ he) (h.setContext (some { x with released := true }))
    have hlinks := each_kept (l := (List.range 32).filter (bit x.links)) (fun l _ he => coupleLink_kept (closed (by decide)) l x.tag _ he) hedges
    exact .ite h (retirePass (each_kept (l := (setRegions x.regions).flatMap regionIslands) (fun j _ he => reopen_kept (closed (by decide)) j _ he) hlinks))

end

/-! ### Queues -/

section
variable {i : Nat} {a d : Die} (h : Elsewhere queueTable i a d)
include h

theorem Elsewhere.modQueue (f : Queue → Queue) : Elsewhere queueTable i a (modQueue i f d) :=
  ⟨modQueue_can _ _ _ h.can, fun k hk => (queue_other h.can hk).trans (h.same k hk)⟩

theorem Elsewhere.sramWrite (n : Nat) (b : Bytes) : Elsewhere queueTable i a (sramWrite n b d) := (closed (l := [.sram]) (by decide)).sram (by decide) _ _ _ h

theorem Elsewhere.countRefusal (op : Nat) : Elsewhere queueTable i a (countRefusal i op d) := .ite (h.modQueue _) ((h.modQueue _).emit ..)

theorem Elsewhere.postCompletion (desc : Bytes) (slot status flags result detail : Nat) : Elsewhere queueTable i a (postCompletion i desc slot status flags result detail d) :=
  have hp : Elsewhere queueTable i a _ := .ite ((((h.sramWrite _ _).modQueue _).emit ..).modQueue _) (((h.sramWrite _ _).modQueue _).emit ..)
  .ite (hp.countRefusal _) hp

theorem Elsewhere.queueReset (cause : Nat) : Elsewhere queueTable i a (queueReset i cause d) := ((h.sramWrite ..).modQueue _).emit ..

theorem Elsewhere.finish (reply : Reply) : Elsewhere queueTable i a (finish i reply d) := by
  have hreset : ∀ {e : Die}, Elsewhere queueTable i a e → Elsewhere queueTable i a (match (queue e i).resetting with | some c => Machine.queueReset i c e | none => e) := by
    intro e he
    split
    · exact he.queueReset _
    · exact he
  unfold Machine.finish
  split
  · exact h
  · split
    · exact h
    · exact hreset ((h.modQueue _).postCompletion ..)
    · next result out =>
      cases out with
      | none => exact hreset ((h.modQueue _).postCompletion ..)
      | some b => exact hreset (((h.sramWrite ..).modQueue _).postCompletion ..)

theorem Elsewhere.descriptorFetch : Elsewhere queueTable i a (descriptorFetch i d) := by
  unfold Machine.descriptorFetch
  refine .ite h (.ite ((h.modQueue _).postCompletion ..) (.ite ((h.modQueue _).postCompletion ..) ?_))
  split
  · exact (h.modQueue _).postCompletion ..
  · exact (h.modQueue _).postCompletion ..
  · dsimp only
    split
    · exact ((h.modQueue _).modQueue _).finish _
    · exact (h.modQueue _).modQueue _

theorem Elsewhere.doorbell (tail : Nat) (sram : List SramWrite) : Elsewhere queueTable i a (doorbell i tail sram d) :=
  have hw : Elsewhere queueTable i a (each sram hostWrite d) := each_kept ((closed (l := [.sram]) (by decide)).host (by decide)) h
  .ite (hw.modQueue _) ((hw.modQueue _).emit ..)

theorem Elsewhere.cqHead (head : Nat) : Elsewhere queueTable i a (cqHead i head d) := .ite (h.modQueue _) (h.modQueue _)

theorem Elsewhere.resetWrite : Elsewhere queueTable i a (resetWrite i d) := .ite h (.ite (h.modQueue _) (h.queueReset _))

end

/-! ### What the commands leave -/

/-- A command that runs an operation on one element of a table leaves every other. -/
theorem leaves_of_elsewhere {α : Type} {T : Table α} {c : Instr} {b : Bool} {f : Die → Die} {s : State} {i : Nat} (hx : exec c s = run b f s)
    (hf : Elsewhere T i s.die s.die → Elsewhere T i s.die (f s.die)) (hc : s.die.Canonical) : ∀ t, exec c s = .next t → ∀ k, k ≠ i → T.get t.die k = T.get s.die k := by
  intro t ht
  obtain ⟨-, rfl⟩ := run_next (hx.symm.trans ht)
  exact (hf (.refl hc)).same

/-- Settles O59: each command runs an operation on the element it names, whose law says that it leaves the others. -/
theorem onlyTheNamedElementChanges : Obligations.OnlyTheNamedElementChanges := by
  intro s hc
  have islands {c : Instr} {b f i} (hx : exec c s = run b f s) (hf : Elsewhere islandTable i s.die s.die → Elsewhere islandTable i s.die (f s.die)) : LeavesIslands c s i := leaves_of_elsewhere hx hf hc
  have regions {c : Instr} {b f i} (hx : exec c s = run b f s) (hf : Elsewhere regionTable i s.die s.die → Elsewhere regionTable i s.die (f s.die)) : LeavesRegions c s i := leaves_of_elsewhere hx hf hc
  have links {c : Instr} {b f i} (hx : exec c s = run b f s) (hf : Elsewhere linkTable i s.die s.die → Elsewhere linkTable i s.die (f s.die)) : LeavesLinks c s i := leaves_of_elsewhere hx hf hc
  have rails {c : Instr} {b f i} (hx : exec c s = run b f s) (hf : Elsewhere railTable i s.die s.die → Elsewhere railTable i s.die (f s.die)) : LeavesRails c s i := leaves_of_elsewhere hx hf hc
  have watches {c : Instr} {b f i} (hx : exec c s = run b f s) (hf : Elsewhere watchTable i s.die s.die → Elsewhere watchTable i s.die (f s.die)) : LeavesWatches c s i := leaves_of_elsewhere hx hf hc
  have contexts {c : Instr} {b f i} (hx : exec c s = run b f s) (hf : Elsewhere contextTable i s.die s.die → Elsewhere contextTable i s.die (f s.die)) : LeavesContexts c s i := leaves_of_elsewhere hx hf hc
  have queues {c : Instr} {b f i} (hx : exec c s = run b f s) (hf : Elsewhere queueTable i s.die s.die → Elsewhere queueTable i s.die (f s.die)) : LeavesQueues c s i := leaves_of_elsewhere hx hf hc
  exact ⟨
    fun _ => ⟨fun _ => islands rfl (·.injectionWindow _), islands rfl (·.injectionTimeout), islands rfl (·.settleDone), islands rfl (·.injectionResume), fun _ => islands rfl (·.phaseStep _),
      fun _ => islands rfl (·.disagreementResolved _), islands rfl (·.pauseGate), islands rfl (·.spanWindowEnd), islands rfl (·.islandResetEnd)⟩,
    fun _ => ⟨regions rfl (·.marginRelease), regions rfl (·.settlementRequest), regions rfl (·.restoringRetry), regions rfl (·.softStep), regions rfl (·.softRelease), regions rfl (·.softRise),
      regions rfl (·.hardRelease), fun _ => regions rfl (·.modRegion _)⟩,
    fun _ => ⟨links rfl (·.hoopForm), fun _ => links rfl (·.hoopReceived _), links rfl (·.hoopTimeout), links rfl (·.linkDownOp), links rfl (·.linkUpOp), links rfl (·.retrainBegin), links rfl (·.retrainEnd),
      links rfl (·.modLink _), links rfl (·.receiverDown), links rfl (·.frameBoundary), links rfl (·.discardFrame), links rfl (·.tallySyncSend), fun _ => links rfl (·.tallySyncReceived _),
      fun _ => links rfl (·.tallyReplyReceived _), fun _ => links rfl (·.statusReceived _), fun _ => links rfl (·.grantReceived _), fun _ => links rfl (·.returnReceived _),
      fun _ => links rfl (·.recallReceived _), links rfl (·.linkSilent), links rfl (·.lenderRestore)⟩,
    fun _ => ⟨fun _ => rails rfl (·.statusPoll _), rails rfl (·.alertRises), fun _ => rails rfl (·.fallTimeout _), rails rfl (·.fallRewrite), fun _ => rails rfl (·.avsFrameEnd _), fun _ => rails rfl (·.modRail _),
      rails rfl (·.confirmationRead), rails rfl (·.modRail _)⟩,
    fun _ => ⟨watches rfl (·.tallyWatchFire), fun _ => watches rfl (·.cycleWatchFire _), watches rfl (·.armWatch)⟩,
    fun _ => ⟨contexts rfl (·.certAssembly), contexts rfl (·.requestIssue), fun _ => contexts rfl (·.recordRead _), contexts rfl (·.planRelease)⟩,
    fun _ => ⟨queues rfl (·.descriptorFetch), fun _ _ => queues rfl (·.doorbell ..), fun _ => queues rfl (·.cqHead _), queues rfl (·.resetWrite), fun _ _ => queues rfl (·.modQueue _)⟩⟩

end Sys2Proof.Machine

namespace Sys2Proof.Machine
open Sys2Proof
set_option Elab.async false

/-! ## The entry a completion posts (R333, R335) -/

theorem bit_set (v n : Nat) : bit (v ||| 2 ^ n) n = true := by simp [bit]

theorem bit_queueInt {q b : Nat} {d : Die} (hc : d.Canonical) : bit (queue (queueInt q b d) q).intStatus b = true := by
  rw [queueInt, queue_same hc]
  exact bit_set ..

theorem entryBytes_length (desc : Bytes) (slot status flags result detail count : Nat) : (entryBytes desc slot status flags result detail count).length = 16 := by
  simp [entryBytes, le_len, zeros_len]

/-- An entry written at its place in the ring of completions. -/
def entryWritten (q : Nat) (entry : Bytes) (d : Die) : Die :=
  modQueue q (fun x => { x with cplTail := (x.cplTail + 1) % 65536 }) (sramWrite (queueBase q + 0x1000 + 16 * ((queue d q).cplTail % 64)) entry d)

/-- Two dies whose queue q differs at most in its interrupt status and its counts of refusals, with the other queues and the command SRAM as they were. -/
structure SameButStatus (q : Nat) (a d : Die) : Prop where
  can : d.Canonical
  own : ∃ int at_ n, queue d q = { queue a q with intStatus := int, refusedAt := at_, refusals := n }
  others : ∀ p, p ≠ q → queue d p = queue a p
  sram : d.sram = a.sram

section
variable {q : Nat} {a d : Die}

theorem SameButStatus.refl (hc : a.Canonical) : SameButStatus q a a := ⟨hc, ⟨_, _, _, rfl⟩, fun _ _ => rfl, rfl⟩

theorem SameButStatus.emit (h : SameButStatus q a d) (c : Nat) (l : Loc) (b : Bytes) : SameButStatus q a (emit c l b d) :=
  ⟨emit_can _ _ _ _ h.can, (queue_emit c l b q d).symm ▸ h.own, fun p hp => (queue_emit c l b p d).trans (h.others p hp), (emit_sram c l b d).trans h.sram⟩

/-- A write of the status fields of queue q alone. -/
theorem SameButStatus.modQueue {f : Queue → Queue} (h : SameButStatus q a d) (hf : ∀ x, ∃ int at_ n, f x = { x with intStatus := int, refusedAt := at_, refusals := n }) :
    SameButStatus q a (modQueue q f d) where
  can := modQueue_can _ _ _ h.can
  own := by
    obtain ⟨i, t, n, ho⟩ := h.own
    obtain ⟨i', t', n', hx⟩ := hf (queue d q)
    exact ⟨i', t', n', by rw [queue_same h.can, hx, ho]⟩
  others p hp := (queue_other h.can hp).trans (h.others p hp)
  sram := h.sram

theorem SameButStatus.queueInt (h : SameButStatus q a d) (b : Nat) : SameButStatus q a (queueInt q b d) := h.modQueue fun _ => ⟨_, _, _, rfl⟩

theorem SameButStatus.countRefusal (h : SameButStatus q a d) (op : Nat) : SameButStatus q a (countRefusal q op d) := by
  unfold Machine.countRefusal
  dsimp only
  split
  · exact h.modQueue fun _ => ⟨_, _, _, rfl⟩
  · exact (h.modQueue fun _ => ⟨_, _, _, rfl⟩).emit ..

end

section
variable {q slot status flags result detail : Nat} {desc : Bytes} {d : Die} (hc : d.Canonical)
include hc

theorem entryWritten_can (entry : Bytes) : (entryWritten q entry d).Canonical := modQueue_can _ _ _ (sram_can hc)

theorem countRefusal_intStatus (op : Nat) : (queue (countRefusal q op d) q).intStatus = (queue d q).intStatus := by
  unfold countRefusal
  dsimp only
  split
  · rw [queue_same hc]
  · rw [queue_emit, queue_same hc]

/-- A completion writes its entry, and beyond it only the status of its queue. -/
theorem postCompletion_sameButStatus :
    SameButStatus q (entryWritten q (entryBytes desc slot status flags result detail (queue d q).cplTail) d) (postCompletion q desc slot status flags result detail d) := by
  have h0 : SameButStatus q _ _ := .refl (q := q) (entryWritten_can (q := q) hc (entryBytes desc slot status flags result detail (queue d q).cplTail))
  unfold postCompletion
  dsimp only
  split
  · refine .countRefusal ?_ _
    split
    · exact (h0.emit ..).queueInt _
    · exact h0.emit ..
  · split
    · exact (h0.emit ..).queueInt _
    · exact h0.emit ..

/-- A descriptor with IRQ set sets CPL (R339). -/
theorem postCompletion_interrupts (hi : bit (fld desc 2 1) 0 = true) : bit (queue (postCompletion q desc slot status flags result detail d) q).intStatus 0 = true := by
  have hw : (entryWritten q (entryBytes desc slot status flags result detail (queue d q).cplTail) d).Canonical := entryWritten_can hc _
  unfold postCompletion
  simp only [if_pos hi]
  have hint := fun c l b => bit_queueInt (q := q) (b := 0) (emit_can c l b _ hw)
  split
  · rw [countRefusal_intStatus]
    · exact hint ..
    · exact modQueue_can _ _ _ (emit_can _ _ _ _ hw)
  · exact hint ..

/-- The queue of a completion: its tail one further, and its status. -/
theorem queue_postCompletion_any : ∃ int at_ n, queue (postCompletion q desc slot status flags result detail d) q =
    { queue d q with cplTail := ((queue d q).cplTail + 1) % 65536, intStatus := int, refusedAt := at_, refusals := n } := by
  obtain ⟨i, t, n, ho⟩ := (postCompletion_sameButStatus (q := q) (desc := desc) (slot := slot) (status := status) (flags := flags) (result := result) (detail := detail) hc).own
  refine ⟨i, t, n, ?_⟩
  rw [ho, entryWritten, queue_same (sram_can hc), queue_sramWrite]

theorem queue_postCompletion_other {p : Nat} (hp : p ≠ q) : queue (postCompletion q desc slot status flags result detail d) p = queue d p := by
  rw [(postCompletion_sameButStatus hc).others p hp, entryWritten, queue_other (sram_can hc) hp, queue_sramWrite]

theorem postCompletion_posted : Posted d (postCompletion q desc slot status flags result detail d) q desc slot status flags result detail := by
  obtain ⟨i, t, n, ho⟩ := queue_postCompletion_any (q := q) (desc := desc) (slot := slot) (status := status) (flags := flags) (result := result) (detail := detail) hc
  refine ⟨by rw [ho], ?_⟩
  rw [read_same (postCompletion_sameButStatus hc).sram, entryWritten, read_same (modQueue_sram ..), read_put hc.sram (entryBytes_length ..)]

/-- What lies at or above the end of a queue's ring of completions reads as before. -/
theorem postCompletion_read {n : Nat} : sramRead (postCompletion q desc slot status flags result detail d) (queueBase q + 0x1400) n = sramRead d (queueBase q + 0x1400) n := by
  rw [read_same (postCompletion_sameButStatus hc).sram, entryWritten, read_same (modQueue_sram ..)]
  refine read_other hc.sram (.inr ?_)
  have := Nat.mod_lt (queue d q).cplTail (show 0 < 64 by decide)
  rw [entryBytes_length]
  omega

end

/-- A completion posted after writes that leave the tail of its queue shows in the die before them. -/
theorem Posted.before {a b d : Die} {q slot status flags result detail : Nat} {desc : Bytes} (h : Posted b d q desc slot status flags result detail) (ht : (queue b q).cplTail = (queue a q).cplTail) :
    Posted a d q desc slot status flags result detail := by
  unfold Posted at h ⊢
  rwa [ht] at h

/-! ## The end of a command (R333, R334, R338) -/

/-- The command of queue q left execution, and its completion is the newest of 64. -/
def retired (q : Nat) (c : Stored) (d : Die) : Die := modQueue q (fun x => { x with exec := none, stored := (c :: x.stored).take 64 }) d

/-- A queue reset that waited follows. -/
def resetFollows (q : Nat) (d : Die) : Die := match (queue d q).resetting with | some c => queueReset q c d | none => d

/-- The output of a command in the staging area of its queue. -/
def staged (q : Nat) (out : Option Bytes) (d : Die) : Die := match out with | some b => sramWrite (queueBase q + 0x1400) b d | none => d

/-- The completion that is stored and posted. -/
def completed (q : Nat) (e : Exec) (status flags result detail : Nat) (d : Die) : Die :=
  postCompletion q e.desc e.slot status flags result detail (retired q { seq := fld e.desc 4 4, status := status, flags := flags, result := result, detail := detail } d)

section
variable {q : Nat} {e : Exec} {d : Die}

theorem finish_refuse_eq {status detail : Nat} (he : (queue d q).exec = some e) :
    finish q (.refuse status detail) d = resetFollows q (completed q e status (b1 e.reexecuted) 0 detail d) := by
  unfold finish
  rw [he]
  rfl

theorem finish_done_eq {result : Nat} {out : Option Bytes} (he : (queue d q).exec = some e) :
    finish q (.done result out) d = resetFollows q (completed q e 0 (b1 e.reexecuted + 4 * b1 out.isSome) result 0xFFFF (staged q out d)) := by
  unfold finish
  rw [he]
  cases out <;> rfl

theorem queue_staged (out : Option Bytes) (p : Nat) : queue (staged q out d) p = queue d p := by cases out <;> rfl

variable (hc : d.Canonical)
include hc

theorem staged_can (out : Option Bytes) : (staged q out d).Canonical := by
  cases out with
  | none => exact hc
  | some b => exact sram_can hc

theorem retired_can (c : Stored) : (retired q c d).Canonical := modQueue_can _ _ _ hc

theorem queue_retired_same (c : Stored) : queue (retired q c d) q = { queue d q with exec := none, stored := (c :: (queue d q).stored).take 64 } := queue_same hc

theorem staged_read {b : Bytes} : sramRead (staged q (some b) d) (queueBase q + 0x1400) b.length = b := read_put hc.sram rfl

/-- What a completion makes of its queue, of the others, of the ring of completions and of the staging area. -/
theorem completed_holds (status flags result detail : Nat) :
    (∃ int at_ n, queue (completed q e status flags result detail d) q = { queue d q with
      exec := none, stored := ({ seq := fld e.desc 4 4, status := status, flags := flags, result := result, detail := detail } :: (queue d q).stored).take 64,
      cplTail := ((queue d q).cplTail + 1) % 65536, intStatus := int, refusedAt := at_, refusals := n }) ∧
    Posted d (completed q e status flags result detail d) q e.desc e.slot status flags result detail ∧
    (bit (fld e.desc 2 1) 0 = true → bit (queue (completed q e status flags result detail d) q).intStatus 0 = true) ∧
    (∀ n, sramRead (completed q e status flags result detail d) (queueBase q + 0x1400) n = sramRead d (queueBase q + 0x1400) n) ∧
    ∀ p, p ≠ q → queue (completed q e status flags result detail d) p = queue d p := by
  have hr := retired_can (q := q) hc { seq := fld e.desc 4 4, status := status, flags := flags, result := result, detail := detail }
  have hq := queue_retired_same (q := q) hc { seq := fld e.desc 4 4, status := status, flags := flags, result := result, detail := detail }
  refine ⟨?_, (postCompletion_posted hr).before (by rw [hq]), postCompletion_interrupts hr, fun n => ?_, fun p hp => ?_⟩
  · obtain ⟨i, t, n, ho⟩ := queue_postCompletion_any (q := q) (desc := e.desc) (slot := e.slot) (status := status) (flags := flags) (result := result) (detail := detail) hr
    exact ⟨i, t, n, by rw [completed, ho, hq]⟩
  · rw [completed, postCompletion_read hr]
    exact read_same (modQueue_sram ..)
  · rw [completed, queue_postCompletion_other hr hp]
    exact queue_other hc hp

theorem completed_can (status flags result detail : Nat) : (completed q e status flags result detail d).Canonical := postCompletion_can _ _ _ _ _ _ _ _ (retired_can hc _)

theorem completed_resetting (status flags result detail : Nat) : (queue (completed q e status flags result detail d) q).resetting = (queue d q).resetting := by
  obtain ⟨⟨i, t, n, ho⟩, -⟩ := completed_holds (e := e) (q := q) hc status flags result detail
  rw [ho]

end

theorem resetFollows_none {q : Nat} {d : Die} (h : (queue d q).resetting = none) : resetFollows q d = d := by rw [resetFollows, h]

theorem resetFollows_some {q c : Nat} {d : Die} (h : (queue d q).resetting = some c) : resetFollows q d = queueReset q c d := by rw [resetFollows, h]

/-- The queue a reset leaves, whatever stood in it. -/
def clearedQueue (x : Queue) : Queue := { x with subTail := 0, subHead := 0, cplTail := 0, cplHead := 0, resetting := none, exec := none, expect := none, stored := [] }

/-- A completion in a queue whose reset waits ends in the reset. -/
theorem queue_resetFollows_completed {q cause status flags result detail : Nat} {e : Exec} {d : Die} (hc : d.Canonical) (hr : (queue d q).resetting = some cause) :
    ∃ int at_ n, queue (resetFollows q (completed q e status flags result detail d)) q = clearedQueue { queue d q with intStatus := int, refusedAt := at_, refusals := n } := by
  obtain ⟨⟨i, t, n, ho⟩, -⟩ := completed_holds (e := e) (q := q) hc status flags result detail
  refine ⟨i, t, n, ?_⟩
  rw [resetFollows_some ((completed_resetting hc ..).trans hr), queue_queueReset_same (completed_can hc ..), ho]
  rfl

/-- Settles O31: a completion is the record of its queue, the entry of its ring and the reset that waited, each with its law. -/
theorem completionsAreStoredAndPosted : Obligations.CompletionsAreStoredAndPosted := by
  intro d q e hc hq he
  refine ⟨finish_wait q d, fun hr => ⟨fun result out => ?_, fun status detail => ?_⟩, fun cause reply hr hw => ?_⟩
  · have hs := staged_can (q := q) hc out
    obtain ⟨⟨i, t, n, ho⟩, hpost, hint, hread, hothers⟩ := completed_holds (q := q) (e := e) hs 0 (b1 e.reexecuted + 4 * b1 out.isSome) result 0xFFFF
    have hnone := resetFollows_none ((completed_resetting (e := e) hs 0 (b1 e.reexecuted + 4 * b1 out.isSome) result 0xFFFF).trans ((congrArg Queue.resetting (queue_staged out q)).trans hr))
    rw [finish_done_eq he, hnone]
    refine ⟨by rw [ho], by rw [ho, queue_staged], hpost.before (by rw [queue_staged]), hint, fun b hb => ?_, fun p hp => (hothers p hp).trans (queue_staged ..)⟩
    subst hb
    exact (hread _).trans (staged_read hc)
  · obtain ⟨⟨i, t, n, ho⟩, hpost, hint, -, hothers⟩ := completed_holds (q := q) (e := e) hc status (b1 e.reexecuted) 0 detail
    have hnone := resetFollows_none ((completed_resetting (e := e) hc status (b1 e.reexecuted) 0 detail).trans hr)
    rw [finish_refuse_eq he, hnone]
    exact ⟨by rw [ho], by rw [ho], hpost, hint, hothers⟩
  · cases reply with
    | wait => exact absurd rfl hw
    | refuse status detail =>
      obtain ⟨i, t, n, ho⟩ := queue_resetFollows_completed (e := e) (status := status) (flags := b1 e.reexecuted) (result := 0) (detail := detail) hc hr
      rw [finish_refuse_eq he, ho]
      exact ⟨rfl, rfl, rfl, rfl, rfl, rfl, rfl, rfl, rfl⟩
    | done result out =>
      obtain ⟨i, t, n, ho⟩ := queue_resetFollows_completed (q := q) (e := e) (status := 0) (flags := b1 e.reexecuted + 4 * b1 out.isSome) (result := result) (detail := 0xFFFF)
        (staged_can (q := q) hc out) ((congrArg Queue.resetting (queue_staged out q)).trans hr)
      rw [finish_done_eq he, ho, queue_staged]
      exact ⟨rfl, rfl, rfl, rfl, rfl, rfl, rfl, rfl, rfl⟩

end Sys2Proof.Machine

namespace Sys2Proof.Machine
open Sys2Proof
set_option Elab.async false

/-! ## The registers of a queue (R326, R327, R338, R480) -/

/-- The sum of the powers of two that P selects below n. -/
theorem foldl_powers_testBit (P : Nat → Bool) (n : Nat) : (List.range n).foldl (fun a b => if P b then a + 2 ^ b else a) 0 < 2 ^ n ∧
    ∀ i, ((List.range n).foldl (fun a b => if P b then a + 2 ^ b else a) 0).testBit i = (decide (i < n) && P i) := by
  induction n with
  | zero => simp
  | succ n ih =>
    obtain ⟨hlt, hbit⟩ := ih
    rw [List.range_succ, List.foldl_append]
    generalize (List.range n).foldl (fun a b => if P b then a + 2 ^ b else a) 0 = a at hlt hbit ⊢
    have hpow : 2 ^ (n + 1) = 2 ^ n + 2 ^ n := by rw [pow_succ]; omega
    simp only [List.foldl_cons, List.foldl_nil]
    cases hP : P n with
    | false =>
      refine ⟨by simp; omega, fun i => ?_⟩
      rw [if_neg (by decide), hbit i]
      rcases Nat.lt_trichotomy i n with h | h | h
      · simp [h, Nat.lt_succ_of_lt h]
      · simp [h, hP]
      · simp [Nat.not_lt.2 (Nat.le_of_lt h), Nat.not_lt.2 (Nat.succ_le_of_lt h)]
    | true =>
      refine ⟨by simp; omega, fun i => ?_⟩
      rw [if_pos rfl, Nat.add_comm]
      rcases Nat.lt_trichotomy i n with h | h | h
      · rw [Nat.testBit_two_pow_add_gt h, hbit i]
        simp [h, Nat.lt_succ_of_lt h]
      · subst h
        rw [Nat.testBit_two_pow_add_eq, hbit i]
        simp [hP]
      · have : 2 ^ n + a < 2 ^ i := lt_of_lt_of_le (by omega) (Nat.pow_le_pow_right (by decide) h)
        rw [Nat.testBit_lt_two_pow this]
        simp [Nat.not_lt.2 (Nat.succ_le_of_lt h)]

/-- A write of ones clears the bits written that no event sets in the same clock (R480). -/
theorem bit_clearBits {status ones same n : Nat} (hn : n < 32) : bit (clearBits status ones same) n = (bit status n && (!bit ones n || bit same n)) := by
  rw [clearBits, bit, (foldl_powers_testBit (fun b => bit status b && (!bit ones b || bit same b)) 32).2 n]
  simp [hn]

theorem each_hostWrite_sameBut (l : List SramWrite) (d : Die) : SameBut [.sram] d (each l hostWrite d) :=
  each_kept (fun w e he => (sameBut_closed [.sram] d).host (by decide) w e he) (sameBut_refl _ d)

theorem each_hostWrite_queues (l : List SramWrite) (d : Die) : (each l hostWrite d).queues = d.queues := each_hostWrite_sameBut l d .queues (by decide)

theorem each_hostWrite_can (l : List SramWrite) {d : Die} (hc : d.Canonical) : (each l hostWrite d).Canonical :=
  each_kept (fun w e he => (canonical_closed [.sram]).host (by decide) w e he) hc

theorem sramWrite_sram (a : Nat) (b : Bytes) (d : Die) : (sramWrite a b d).sram = sramPut d.sram a b := rfl

/-- A queue reset leaves zeros in the ring of completions. -/
theorem queueReset_ring {q cause a : Nat} {d : Die} (hc : d.Canonical) (h1 : queueBase q + 0x1000 ≤ a) (h2 : a < queueBase q + 0x1400) : tget 0#8 (queueReset q cause d).sram a = 0#8 := by
  obtain ⟨j, rfl⟩ := Nat.exists_eq_add_of_le h1
  unfold queueReset
  dsimp only
  rw [emit_sram, modQueue_sram, sramWrite_sram, sramPut_get (zeros 1024) j hc.sram (by rw [zeros_len]; omega), List.getD_eq_getElem _ _ (by rw [zeros_len]; omega)]
  exact List.getElem_replicate ..

/-- Settles O29: the branches of each register, with the law of the write of one queue. -/
theorem queueRegistersMoveTheirCounts : Obligations.QueueRegistersMoveTheirCounts := by
  intro s q hc hq x
  have hisq : isQueue q = true := by simpa [isQueue] using hq
  refine ⟨fun tail sram => ?_, fun head => ?_, fun hr he => ?_, fun e hr he => ?_, fun hr => ?_, fun ones same => ?_, fun ones same => ?_⟩
  · intro t
    have hw := each_hostWrite_can sram hc
    have hx : queue (each sram hostWrite s.die) q = x := queue_of (each_hostWrite_queues ..) q
    refine ⟨fun h1 h2 => gives_run (f := doorbell q tail sram) rfl hisq ?_, fun h => gives_run (f := doorbell q tail sram) rfl hisq ?_⟩
    · have hin : doorbell q tail sram s.die = modQueue q (fun x => { x with subTail := t }) (each sram hostWrite s.die) := by
        rw [doorbell, hx]
        exact if_pos ⟨h1, h2⟩
      rw [hin]
      exact ⟨by rw [queue_same hw, hx], modQueue_sram .., fun p hp => (queue_other hw hp).trans (queue_of (each_hostWrite_queues ..) p)⟩
    · have hout : doorbell q tail sram s.die = emit 0x0A02 (.queue q) (le 2 t ++ le 2 x.subHead ++ le 2 x.subTail) (queueInt q 1 (each sram hostWrite s.die)) := by
        rw [doorbell, hx]
        exact if_neg fun hn => h.elim (Nat.not_lt.2 hn.1) (Nat.not_lt.2 hn.2)
      rw [hout]
      simp only [queue_emit]
      exact ⟨by rw [queueInt, queue_same hw, hx], by rw [queueInt, queue_same hw, hx], bit_queueInt hw⟩
  · intro h
    refine ⟨fun h1 => gives_run (f := cqHead q head) rfl hisq ?_, fun h1 => gives_run (f := cqHead q head) rfl hisq ?_⟩
    · have hin : cqHead q head s.die = modQueue q (fun x => { x with cplHead := h }) s.die := if_pos h1
      rw [hin]
      exact ⟨queue_same hc, fun p hp => queue_other hc hp⟩
    · have hout : cqHead q head s.die = queueInt q 1 s.die := if_neg (Nat.not_le.2 h1)
      rw [hout]
      exact ⟨by rw [queueInt, queue_same hc], bit_queueInt hc⟩
  · have hreset : resetWrite q s.die = queueReset q 0 s.die := by simp [resetWrite, show (queue s.die q).resetting = none from hr, show (queue s.die q).exec = none from he]
    refine gives_run (f := resetWrite q) rfl hisq ?_
    rw [hreset]
    exact ⟨queue_queueReset_same hc, fun a h1 h2 => queueReset_ring hc h1 h2⟩
  · have hwaits : resetWrite q s.die = modQueue q (fun x => { x with resetting := some 0 }) s.die := by
      simp [resetWrite, show (queue s.die q).resetting = none from hr, show (queue s.die q).exec = some e from he]
    refine gives_run (f := resetWrite q) rfl hisq ?_
    rw [hwaits]
    exact queue_same hc
  · have hstays : resetWrite q s.die = s.die := if_pos hr
    exact (show exec (.queueResetWrite q) s = run (isQueue q) (resetWrite q) s from rfl).trans (hisq ▸ run_of_unchanged hstays)
  · refine gives_run (f := modQueue q (fun x => { x with intStatus := clearBits x.intStatus ones same })) rfl hisq ⟨fun n hn => ?_, fun p hp => queue_other hc hp⟩
    rw [queue_same hc]
    exact bit_clearBits hn
  · exact gives_run (b := true) (f := fun d => { d with regs := { d.regs with fintStatus := clearBits d.regs.fintStatus ones same } }) rfl rfl fun n hn => bit_clearBits hn

end Sys2Proof.Machine

namespace Sys2Proof.Machine
open Sys2Proof
set_option Elab.async false

/-! ## The fetch of a descriptor (R329 to R334, R337) -/

/-- The descriptor at the head of queue q. -/
def headDescriptor (q : Nat) (d : Die) : Bytes := sramRead d (queueBase q + 64 * ((queue d q).subHead % 64)) 64

/-- The head of queue q passed its descriptor. -/
def headTaken (q : Nat) (d : Die) : Die := modQueue q (fun x => { x with subHead := (x.subHead + 1) % 65536 }) d

/-- The staging area that a descriptor takes with it. -/
def stagedOf (q : Nat) (b : Bytes) (d : Die) : Bytes := if bit (fld b 2 1) 1 then sramRead d (queueBase q + 0x1400) (stagedLength (fld b 0 2)) else []

/-- The command of a good descriptor. -/
def execTaken (q : Nat) (d : Die) : Exec :=
  { desc := headDescriptor q d, slot := (queue d q).subHead % 64, staged := stagedOf q (headDescriptor q d) d }

/-- A good descriptor took its number and is in execution. -/
def numberTaken (q : Nat) (d : Die) : Die :=
  modQueue q (fun x => { x with expect := some ((fld (headDescriptor q d) 4 4 + 1) % 2 ^ 32), exec := some (execTaken q d) }) (headTaken q d)

/-- The completion of a descriptor that gets no number. -/
def headRefused (q status flags result detail : Nat) (d : Die) : Die :=
  postCompletion q (headDescriptor q d) ((queue d q).subHead % 64) status flags result detail (headTaken q d)

section
variable {q : Nat} {d : Die}

theorem canFetch_iff {x : Queue} : canFetch x = true ↔ x.subHead ≠ x.subTail ∧ ahead x.cplHead x.cplTail < 64 ∧ x.exec = none ∧ x.resetting = none := by
  simp [canFetch, and_assoc]

theorem descriptorFetch_idle (h : chandlerRuns d = false ∨ canFetch (queue d q) = false) : descriptorFetch q d = d := if_pos (by simpa using h)

section
variable (hr : chandlerRuns d = true) (hf : canFetch (queue d q) = true)
include hr hf

theorem descriptorFetch_badCrc (h : descCrcOk (headDescriptor q d) = false) : descriptorFetch q d = headRefused q 1 0 0 0xFFFF d := by
  unfold descriptorFetch
  rw [if_neg (by simp [hr, hf]), if_pos (by simpa [headDescriptor] using h)]
  rfl

variable (hb : descCrcOk (headDescriptor q d) = true)
include hb

theorem descriptorFetch_notMine (h : ¬ ((q = 0 ∨ (queue d q).bound = true) ∧ fld (headDescriptor q d) 3 1 = q)) :
    descriptorFetch q d = headRefused q stNoPrivilege 0 0 0xFFFF d := by
  unfold descriptorFetch
  rw [if_neg (by simp [hr, hf])]
  dsimp only
  rw [if_neg (by simpa [headDescriptor] using hb), if_pos]
  · rfl
  · show (q ≠ 0 ∧ (!(queue d q).bound) = true) ∨ fld (headDescriptor q d) 3 1 ≠ q
    by_cases hq : fld (headDescriptor q d) 3 1 = q
    · exact .inl (by simpa [hq] using h)
    · exact .inr hq

variable (hm : (q = 0 ∨ (queue d q).bound = true) ∧ fld (headDescriptor q d) 3 1 = q)
include hm

/-- A descriptor that passes checks 1 and 2 is decided by its sequence number. -/
theorem descriptorFetch_bySequence : descriptorFetch q d = match seqKind (queue d q) (fld (headDescriptor q d) 4 4) with
    | .bad => headRefused q 3 0 0 0xFFFF d
    | .duplicate c => headRefused q c.status (c.flags % 2 + 2) c.result c.detail d
    | .expected => match headerRefusal (headDescriptor q d) with
      | some (status, detail) => finish q (.refuse status detail) (numberTaken q d)
      | none => numberTaken q d := by
  obtain ⟨hown, hfield⟩ := hm
  unfold descriptorFetch
  rw [if_neg (by simp [hr, hf])]
  dsimp only
  rw [if_neg (by simpa [headDescriptor] using hb), if_neg]
  · rfl
  · show ¬ ((q ≠ 0 ∧ (!(queue d q).bound) = true) ∨ fld (headDescriptor q d) 3 1 ≠ q)
    rintro (⟨hq, hu⟩ | hq)
    · rcases hown with h | h
      · exact hq h
      · simp [h] at hu
    · exact hq hfield

end

theorem seqKind_expected {x : Queue} {n : Nat} (h : x.expect = none ∨ x.expect = some n) : seqKind x n = .expected := by
  rcases h with h | h <;> simp [seqKind, h]

theorem seqKind_bad {x : Queue} {n m : Nat} (h : x.expect = some m) (hn : n ≠ m) (hf : x.stored.find? (fun k => decide (k.seq = n)) = none) : seqKind x n = .bad := by
  simp only [seqKind, h, if_neg hn, hf]

theorem seqKind_duplicate {x : Queue} {n m : Nat} {k : Stored} (h : x.expect = some m) (hn : n ≠ m) (hf : x.stored.find? (fun k => decide (k.seq = n)) = some k) : seqKind x n = .duplicate k := by
  simp only [seqKind, h, if_neg hn, hf]

variable (hc : d.Canonical)
include hc

theorem queue_headTaken : queue (headTaken q d) q = { queue d q with subHead := ((queue d q).subHead + 1) % 65536 } := queue_same hc

theorem headTaken_can : (headTaken q d).Canonical := modQueue_can _ _ _ hc

theorem queue_numberTaken : queue (numberTaken q d) q =
    { queue d q with subHead := ((queue d q).subHead + 1) % 65536, expect := some ((fld (headDescriptor q d) 4 4 + 1) % 2 ^ 32), exec := some (execTaken q d) } := by
  rw [numberTaken, queue_same (headTaken_can hc), queue_headTaken hc]

theorem numberTaken_can : (numberTaken q d).Canonical := modQueue_can _ _ _ (headTaken_can hc)

/-- A descriptor without a number leaves the sequence state, and its completion stands at the tail. -/
theorem headRefused_holds (status flags result detail : Nat) (he : (queue d q).exec = none) :
    ((queue (headRefused q status flags result detail d) q).subHead = ((queue d q).subHead + 1) % 65536 ∧ (queue (headRefused q status flags result detail d) q).expect = (queue d q).expect ∧
      (queue (headRefused q status flags result detail d) q).exec = none ∧ (queue (headRefused q status flags result detail d) q).stored = (queue d q).stored) ∧
    Posted d (headRefused q status flags result detail d) q (headDescriptor q d) ((queue d q).subHead % 64) status flags result detail := by
  have ht := headTaken_can (q := q) hc
  obtain ⟨i, t, n, ho⟩ := queue_postCompletion_any (q := q) (desc := headDescriptor q d) (slot := (queue d q).subHead % 64) (status := status) (flags := flags) (result := result) (detail := detail) ht
  refine ⟨?_, (postCompletion_posted ht).before (by rw [queue_headTaken hc])⟩
  rw [headRefused, ho, queue_headTaken hc]
  exact ⟨rfl, rfl, he, rfl⟩

end

/-- Settles O30: the checks of the fetch in their order, each with what its outcome leaves. -/
theorem descriptorsAreFetchedAndChecked : Obligations.DescriptorsAreFetchedAndChecked := by
  intro s q hc hq x c slot b seq staged e crc mine kept
  have hisq : isQueue q = true := by simpa [isQueue] using hq
  have hx : exec c s = run (isQueue q) (descriptorFetch q) s := rfl
  refine ⟨fun h => ?_, fun hrun hne hroom hexec hreset => ?_⟩
  · have hidle : descriptorFetch q s.die = s.die := descriptorFetch_idle (by
      rw [← Bool.not_eq_true (canFetch _), canFetch_iff]
      rcases h with h | h | h | h | h
      · exact .inl h
      · exact .inr fun ⟨hne, _⟩ => hne h
      · exact .inr fun ⟨_, hroom, _⟩ => absurd hroom (Nat.not_lt.2 h)
      · exact .inr fun ⟨_, _, hexec, _⟩ => by simp [x, hexec] at h
      · exact .inr fun ⟨_, _, _, hreset⟩ => by simp [x, hreset] at h)
    rw [hx, hisq]
    exact run_of_unchanged hidle
  · have hf : canFetch (queue s.die q) = true := canFetch_iff.2 ⟨hne, hroom, hexec, hreset⟩
    have hcrc : descCrcOk (headDescriptor q s.die) = decide crc := rfl
    have refused {status flags result detail : Nat} (hd : descriptorFetch q s.die = headRefused q status flags result detail s.die) :
        Gives c s (fun d => kept d ∧ Posted s.die d q b slot status flags result detail) :=
      gives_run hx hisq (hd ▸ headRefused_holds hc status flags result detail hexec)
    refine ⟨fun h => refused (descriptorFetch_badCrc hrun hf (by simp [hcrc, h])), fun h hm => refused (descriptorFetch_notMine hrun hf (by simp [hcrc, h]) hm), fun h hm => ?_⟩
    have hseq := descriptorFetch_bySequence hrun hf (by simp [hcrc, h]) hm
    have expected (hs : x.expect = none ∨ x.expect = some seq) : seqKind (queue s.die q) (fld (headDescriptor q s.die) 4 4) = .expected := seqKind_expected hs
    refine ⟨fun n hn hs hk => refused ?_, fun n k hn hs hk => refused ?_, fun hs => ⟨fun hh => gives_run hx hisq ?_, fun status detail hh => gives_run hx hisq ?_⟩⟩
    · rw [hseq, show seqKind (queue s.die q) (fld (headDescriptor q s.die) 4 4) = .bad from seqKind_bad hn hs hk]
    · rw [hseq, show seqKind (queue s.die q) (fld (headDescriptor q s.die) 4 4) = .duplicate k from seqKind_duplicate hn hs hk]
    · rw [hseq, expected hs, show headerRefusal (headDescriptor q s.die) = none from hh]
      exact ⟨queue_numberTaken hc, rfl⟩
    · rw [hseq, expected hs, show headerRefusal (headDescriptor q s.die) = some (status, detail) from hh]
      dsimp only
      have hnc := numberTaken_can (q := q) hc
      have hnq := queue_numberTaken (q := q) hc
      have hne : (queue (numberTaken q s.die) q).exec = some e := by rw [hnq]; rfl
      obtain ⟨⟨i, t, n, ho⟩, hpost, -⟩ := completed_holds (q := q) (e := e) hnc status (b1 e.reexecuted) 0 detail
      have hend := resetFollows_none ((completed_resetting (q := q) (e := e) hnc status (b1 e.reexecuted) 0 detail).trans (by rw [hnq]; exact hreset))
      rw [finish_refuse_eq hne, hend]
      refine ⟨by rw [ho, hnq], by rw [ho, hnq]; rfl, by rw [ho], ?_, hpost.before (by rw [hnq])⟩
      rw [ho, hnq]
      rfl

end Sys2Proof.Machine

namespace Sys2Proof.Machine
open Sys2Proof
set_option Elab.async false

/-! ## The drain (R391 to R394) -/

/-- The pages d has in flight apart, the drain and the ring stand as in a. -/
structure Pumped (a d : Die) : Prop where
  drain : ∃ out next lost due, d.ledger.drain = { a.ledger.drain with outstanding := out, next := next, lost := lost, partialDue := due }
  ring : d.ledger.ring = a.ledger.ring
  index : d.ledger.index = a.ledger.index
  count : d.ledger.count = a.ledger.count

section
variable {a d : Die}

theorem Pumped.refl (d : Die) : Pumped d d := ⟨⟨_, _, _, _, rfl⟩, rfl, rfl, rfl⟩

theorem Pumped.trans {b : Die} (h : Pumped a b) (h' : Pumped b d) : Pumped a d := by
  obtain ⟨⟨o, n, l, p, hd⟩, hr, hi, hc⟩ := h
  obtain ⟨⟨o', n', l', p', hd'⟩, hr', hi', hc'⟩ := h'
  exact ⟨⟨o', n', l', p', by rw [hd', hd]⟩, hr'.trans hr, hi'.trans hi, hc'.trans hc⟩

theorem Pumped.emit (c : Nat) (l : Loc) (b : Bytes) (d : Die) : Pumped d (emit c l b d) := by
  obtain ⟨g, h, hr, hi, hc, hd⟩ := emit_eq c l b d
  rw [h]
  exact ⟨⟨_, _, _, _, hd⟩, hr, hi, hc⟩

theorem Pumped.drainOverrun (d : Die) : Pumped d (drainOverrun d) := by
  unfold Machine.drainOverrun
  dsimp only
  split
  · exact .refl d
  · exact Pumped.trans (b := modDrain _ d) ⟨⟨_, _, _, _, rfl⟩, rfl, rfl, rfl⟩ (.emit ..)

theorem Pumped.writePage (n : Nat) (d : Die) : Pumped d (writePage n d) := ⟨⟨_, _, _, _, rfl⟩, rfl, rfl, rfl⟩

theorem Pumped.writePartial (d : Die) : Pumped d (writePartial d) := by
  unfold Machine.writePartial
  dsimp only
  split
  · split
    · exact .drainOverrun d
    · exact (Pumped.drainOverrun d).trans (.writePage ..)
  · exact .refl d

theorem Pumped.drainPump (n : Nat) (d : Die) : Pumped d (drainPump n d) := by
  induction n generalizing d with
  | zero => exact .refl d
  | succ n ih =>
    unfold Machine.drainPump
    split
    · exact .refl d
    · split
      · split
        · exact Pumped.trans (b := modDrain _ d) ⟨⟨_, _, _, _, rfl⟩, rfl, rfl, rfl⟩ (.writePartial _)
        · exact .refl d
      · dsimp only
        split
        · exact ((Pumped.drainOverrun d).trans (.writePage ..)).trans (ih _)
        · exact .drainOverrun d

end

/-- A drain without room sends nothing. -/
theorem drainPump_of_noRoom {n : Nat} {d : Die} (h : drainRoom d.ledger.drain = false) : drainPump n d = d := by
  cases n with
  | zero => rfl
  | succ n => rw [drainPump, h]; rfl

theorem drainPump_regs (n : Nat) (d : Die) : (drainPump n d).regs = d.regs := drainPump_kept (sameBut_closed [.ledger, .streams] d) n d (sameBut_refl _ d) .regs (by decide)

/-- A drain that is not stopping goes on after a page is complete. -/
theorem pageComplete_running {page : Nat} {d : Die} (hr : d.ledger.drain.running = true)
    (hany : d.ledger.drain.outstanding.any (fun o => decide (o.1 = page) && !o.2.2) = true) :
    let x := d.ledger.drain
    let l := x.outstanding.map (fun o => if o.1 = page then (o.1, o.2.1, true) else o)
    let e := modDrain (fun y => advanceTail l { y with outstanding := l }) d
    (advanceTail l { x with outstanding := l }).stopping = false → pageComplete page d = drainPump 8 (if e.ledger.drain.tail = x.tail then e else fabricInt 5 e) := by
  intro x l e he
  unfold pageComplete
  dsimp only
  rw [if_pos ⟨hr, hany⟩]
  refine if_neg fun h => ?_
  obtain ⟨⟨o, n, lost, due, hd⟩, -⟩ := Pumped.drainPump 8 (if e.ledger.drain.tail = x.tail then e else fabricInt 5 e)
  have hstop : (if e.ledger.drain.tail = x.tail then e else fabricInt 5 e).ledger.drain.stopping = false := by split <;> exact he
  have hstops : (drainPump 8 (if e.ledger.drain.tail = x.tail then e else fabricInt 5 e)).ledger.drain.stopping = true := h.1
  rw [hd] at hstops
  exact absurd (hstop.symm.trans hstops) (by decide)

theorem pageComplete_unknown {page : Nat} {d : Die} (h : d.ledger.drain.outstanding.any (fun o => decide (o.1 = page) && !o.2.2) = false) : pageComplete page d = d :=
  if_neg (by simp [h])

theorem bit_fabricInt (b : Nat) (d : Die) : bit (fabricInt b d).regs.fintStatus b = true := bit_set ..

/-- Settles O35: the page written at the tail, the completion of the oldest and of another page, and the two outcomes of a head. -/
theorem drainPagesGoOutInOrder : Obligations.DrainPagesGoOutInOrder := by
  intro s g x
  refine ⟨fun y hy ht hs hroom hl hn => ?_, fun page after hr hs ho => ?_, fun page oldest rest hr hs ho hne hf hin => ?_, fun head hh => ?_, fun head hh => ?_⟩
  · refine gives_run (b := true) (f := pageTimeout) rfl rfl ?_
    have hout : pageTimeout s.die = writePage (min 128 (g.count - x.next)) s.die := by
      have hover : drainOverrun s.die = s.die := if_pos hl
      unfold pageTimeout
      rw [show recordNumber s.die.ledger (max s.die.ledger.drain.next (oldestRecord s.die.ledger)) = some y from hy]
      dsimp only
      rw [if_pos ⟨ht, by simp [show s.die.ledger.drain.stopping = false from hs]⟩, writePartial, if_pos hroom, hover]
      exact if_neg (Nat.sub_ne_zero_of_lt hn)
    rw [hout]
    exact ⟨rfl, rfl⟩
  · refine gives_run (b := true) (f := pageComplete page) rfl rfl ?_
    have hadv : (x.outstanding.map (fun o => if o.1 = page then (o.1, o.2.1, true) else o)) = [(page, after, true)] := by simp [ho]
    have hany : x.outstanding.any (fun o => decide (o.1 = page) && !o.2.2) = true := by simp [ho]
    rw [pageComplete_running hr hany (by rw [show s.die.ledger.drain = x from rfl, hadv]; exact hs), show s.die.ledger.drain = x from rfl, hadv]
    generalize he : modDrain _ s.die = e
    have hed : e.ledger.drain = { x with tail := (x.tail + 1) % 2 ^ 32, firstUndelivered := after, outstanding := [] } := by rw [← he]; rfl
    generalize hb : (if e.ledger.drain.tail = x.tail then e else fabricInt 5 e) = b
    have hbd : b.ledger.drain = e.ledger.drain := by rw [← hb]; split <;> rfl
    obtain ⟨⟨o, n, l, p, hd⟩, -⟩ := Pumped.drainPump 8 b
    rw [hd, hbd, hed, drainPump_regs]
    refine ⟨rfl, rfl, hr, fun ht => ?_⟩
    rw [← hb, if_neg (by rw [hed]; exact ht)]
    exact bit_fabricInt ..
  · refine gives_run (b := true) (f := pageComplete page) rfl rfl ?_
    cases hany : x.outstanding.any (fun o => decide (o.1 = page) && !o.2.2) with
    | false =>
      rw [pageComplete_unknown hany]
      exact ⟨rfl, rfl⟩
    | true =>
      obtain ⟨fp, fa, fd⟩ := oldest
      obtain rfl : fd = false := hf
      have hmap : (x.outstanding.map (fun o => if o.1 = page then (o.1, o.2.1, true) else o)) = (fp, fa, false) :: rest.map (fun o => if o.1 = page then (o.1, o.2.1, true) else o) := by
        rw [ho, List.map_cons, if_neg hne]
      rw [pageComplete_running hr hany (by rw [show s.die.ledger.drain = x from rfl, hmap]; exact hs), show s.die.ledger.drain = x from rfl, hmap]
      generalize he : modDrain _ s.die = e
      have hed : e.ledger.drain = { x with outstanding := (fp, fa, false) :: rest.map (fun o => if o.1 = page then (o.1, o.2.1, true) else o) } := by rw [← he]; rfl
      rw [if_pos (by rw [hed])]
      obtain ⟨⟨o, n, l, p, hd⟩, -⟩ := Pumped.drainPump 8 e
      rw [hd, hed]
      exact ⟨rfl, rfl⟩
  · refine gives_run (b := true) (f := drainHeadWrite head) rfl rfl ?_
    have hin : drainHeadWrite head s.die = drainPump 8 (modDrain (fun y => { y with head := head % 2 ^ 32 }) s.die) := if_pos hh
    obtain ⟨⟨o, n, l, p, hd⟩, -⟩ := Pumped.drainPump 8 (modDrain (fun y => { y with head := head % 2 ^ 32 }) s.die)
    rw [hin, hd]
    exact ⟨rfl, rfl⟩
  · refine gives_run (b := true) (f := drainHeadWrite head) rfl rfl ?_
    have hout : drainHeadWrite head s.die = fabricInt 4 s.die := if_neg (Nat.not_le.2 hh)
    rw [hout]
    exact ⟨rfl, bit_fabricInt ..⟩

end Sys2Proof.Machine

namespace Sys2Proof.Machine
open Sys2Proof
set_option Elab.async false

/-! ## Records and spans (R380 to R388) -/

/-- What the records written make of ring, count and write index. -/
theorem each_writeRecord_counts (l : List Record) (d : Die) : (each l writeRecord d).ledger.count = d.ledger.count + l.length ∧
    (l ≠ [] → (each l writeRecord d).ledger.index = (d.ledger.index + l.length) % 65536) ∧
    (d.ledger.ring.length + l.length ≤ 65536 → (each l writeRecord d).ledger.ring = d.ledger.ring ++ l) := by
  induction l generalizing d with
  | nil => exact ⟨rfl, fun h => absurd rfl h, fun _ => (List.append_nil _).symm⟩
  | cons r l ih =>
    obtain ⟨hcount, hindex, hring⟩ := ih (writeRecord r d)
    refine ⟨hcount.trans (by rw [List.length_cons]; show d.ledger.count + 1 + _ = _; omega), fun _ => ?_, fun h => ?_⟩
    · show (each l writeRecord (writeRecord r d)).ledger.index = _
      cases l with
      | nil => rfl
      | cons r' l =>
        rw [hindex (List.cons_ne_nil _ _), List.length_cons (a := r)]
        show ((d.ledger.index + 1) % 65536 + _) % 65536 = _
        omega
    · rw [List.length_cons] at h
      have hw : (writeRecord r d).ledger.ring = d.ledger.ring ++ [r] := by
        have hroom : ¬ Config.ledgerRecords ≤ d.ledger.ring.length := by simp only [Config.ledgerRecords]; omega
        simp [writeRecord, hroom]
      show (each l writeRecord (writeRecord r d)).ledger.ring = _
      rw [hring (by rw [hw, List.length_append, List.length_singleton]; omega), hw, List.append_assoc]
      rfl

/-- In a full ring the oldest record gives way. -/
theorem writeRecord_ring_of_full {r : Record} {d : Die} (h : 65536 ≤ d.ledger.ring.length) : (writeRecord r d).ledger.ring = d.ledger.ring.tail ++ [r] := by
  have hfull : Config.ledgerRecords ≤ d.ledger.ring.length := h
  simp [writeRecord, hfull]

/-- The records leave the events that wait, the overflow and the run of the drain. -/
theorem each_writeRecord_queue (l : List Record) (d : Die) : (each l writeRecord d).ledger.queue = d.ledger.queue ∧ (each l writeRecord d).ledger.overflow = d.ledger.overflow ∧
    (each l writeRecord d).ledger.drain.running = d.ledger.drain.running := by
  induction l generalizing d with
  | nil => exact ⟨rfl, rfl, rfl⟩
  | cons r l ih =>
    obtain ⟨hq, ho, hr⟩ := ih (writeRecord r d)
    refine ⟨hq, ho, hr.trans ?_⟩
    unfold writeRecord
    dsimp only
    split <;> rfl

theorem eventRecords_ne_nil (p : Pending) : eventRecords p ≠ [] := by
  have : 1 ≤ recordsOf p.payload.length := le_max_left ..
  simp [eventRecords]
  omega

/-- The overflow record of R386, when one is due. -/
def overflowLogged (d : Die) : Die :=
  if 0 < d.ledger.overflow ∧ !d.ledger.frozen then
    emit 0x0006 .none (le 4 (sat 32 d.ledger.overflow) ++ le 8 d.ledger.overflowTally) { d with ledger := { d.ledger with overflow := 0 } }
  else d

/-- The first event left the queue of those that wait. -/
def eventTaken (t : List Pending) (d : Die) : Die := { d with ledger := { d.ledger with queue := t } }

theorem recordAccept_cons {p : Pending} {t : List Pending} {d : Die} (h : d.ledger.queue = p :: t) :
    recordAccept d = drainPump 8 (overflowLogged (each (eventRecords (stampFreeze d p)) writeRecord (eventTaken t d))) := by
  unfold recordAccept
  rw [h]
  rfl

theorem Pumped.overflowLogged (d : Die) : Pumped d (overflowLogged d) := by
  unfold Machine.overflowLogged
  split
  · exact Pumped.trans (b := { d with ledger := { d.ledger with overflow := 0 } }) ⟨⟨_, _, _, _, rfl⟩, rfl, rfl, rfl⟩ (.emit ..)
  · exact .refl d

/-- Two dies whose Ledger differs in the events that wait and in what was lost. -/
structure SameFreeze (a d : Die) : Prop where
  frozen : d.ledger.frozen = a.ledger.frozen
  cause : d.ledger.cause = a.ledger.cause
  freezeTally : d.ledger.freezeTally = a.ledger.freezeTally
  ring : d.ledger.ring = a.ledger.ring

theorem SameFreeze.emit {a d : Die} (h : SameFreeze a d) (c : Nat) (l : Loc) (b : Bytes) : SameFreeze a (emit c l b d) := by
  obtain ⟨h1, h2, h3, h4⟩ := h
  unfold Machine.emit
  dsimp only
  split
  · exact ⟨h1, h2, h3, h4⟩
  · split <;> exact ⟨h1, h2, h3, h4⟩

theorem SameFreeze.freezeSpans {a d : Die} (h : SameFreeze a d) : SameFreeze a (freezeSpans d) := by
  refine each_kept (fun i e he => ?_) h
  split
  · exact he
  · exact he.emit ..

/-- A freeze of a Ledger that runs marks it (R388), and keeps its records. -/
theorem ledgerFreeze_of_running {cause : Nat} {d : Die} (h : d.ledger.frozen = false) :
    SameFreeze { d with ledger := { d.ledger with frozen := true, cause := cause, freezeTally := d.tally.now } } (ledgerFreeze cause d) := by
  have hs : SameFreeze { d with ledger := { d.ledger with frozen := true, cause := cause, freezeTally := d.tally.now } }
      (freezeSpans { d with ledger := { d.ledger with frozen := true, cause := cause, freezeTally := d.tally.now } }) := .freezeSpans ⟨rfl, rfl, rfl, rfl⟩
  unfold ledgerFreeze
  rw [if_neg (by simp [h])]
  exact ⟨hs.frozen, hs.cause, hs.freezeTally, hs.ring⟩

theorem ledgerFreeze_regs (cause : Nat) (d : Die) : (ledgerFreeze cause d).regs = d.regs := ledgerFreeze_kept (sameBut_closed [.ledger] d) cause d (sameBut_refl _ d) .regs (by decide)

theorem freeze_of_running {cause : Nat} {d : Die} (h : d.ledger.frozen = false) :
    (freeze cause d).ledger = (ledgerFreeze cause (fabricInt 3 d)).ledger ∧ (freeze cause d).regs = (ledgerFreeze cause (fabricInt 3 d)).regs := by
  unfold freeze
  rw [if_neg (by simp [h])]
  refine each_kept (P := fun e => e.ledger = (ledgerFreeze cause (fabricInt 3 d)).ledger ∧ e.regs = (ledgerFreeze cause (fabricInt 3 d)).regs) (fun c e he => ?_) ⟨rfl, rfl⟩
  rwa [modContext_ledger, modContext_regs]

/-- The Plumb counts of a window that ended start again. -/
def windowCleared (i : Nat) (d : Die) : Die := modMargin i (fun y => { y with winDelivered := 0, winHeld := 0, winStretched := 0, winCauses := [] }) d

theorem spanWindowEnd_over {i : Nat} {d : Die} (h : spanWindow d.ledger.share (island d i).margin = false) : spanWindowEnd i d = closeSpan i (windowCleared i d) := by
  unfold spanWindowEnd
  simp only [h]
  exact if_neg (by decide)

theorem margin_closeSpan_none {i : Nat} {d : Die} (h : (island d i).margin.span = none) : closeSpan i d = d := by
  simp only [closeSpan, h]

theorem margin_closeSpan_some {i : Nat} {sp : Nat × Nat × Nat × Nat × Nat} {d : Die} (hc : d.Canonical) (h : (island d i).margin.span = some sp) :
    (island (closeSpan i d) i).margin = { (island d i).margin with span := none, spanCauses := [] } := by
  simp only [closeSpan, h]
  split
  · rw [island_of (attribTo_islands ..), island_emit, margin_modMargin hc]
  · rw [island_emit, margin_modMargin hc]

/-- Settles O34: the records of the first event, the freeze on request, and the three ends of a window. -/
theorem eventsBecomeRecordsAndSpans : Obligations.EventsBecomeRecordsAndSpans := by
  intro s g
  refine ⟨fun hq => ?_, fun p t hq => ?_, fun v hv hf => ?_, fun v hv => ?_, fun i hi hc => ?_⟩
  · have hidle : recordAccept s.die = s.die := by rw [recordAccept, show s.die.ledger.queue = [] from hq]
    exact run_of_unchanged hidle
  · intro new
    refine gives_run (b := true) (f := recordAccept) rfl rfl ?_
    obtain ⟨hcount, hindex, hring⟩ := each_writeRecord_counts new (eventTaken t s.die)
    obtain ⟨hqueue, hover, hrun⟩ := each_writeRecord_queue new (eventTaken t s.die)
    rw [recordAccept_cons hq]
    have hp := (Pumped.overflowLogged (each new writeRecord (eventTaken t s.die))).trans (.drainPump 8 _)
    refine ⟨hp.count.trans hcount, hp.index.trans (hindex (eventRecords_ne_nil _)), fun h => hp.ring.trans (hring h), fun hfull hone => ?_, fun ho hr => ?_⟩
    · obtain ⟨r, hr⟩ := List.length_eq_one_iff.1 hone
      rw [hp.ring, hr]
      exact writeRecord_ring_of_full hfull
    · have hnone : overflowLogged (each new writeRecord (eventTaken t s.die)) = each new writeRecord (eventTaken t s.die) := by
        refine if_neg fun h => ?_
        have hpos : 0 < s.die.ledger.overflow := hover ▸ h.1
        exact absurd ho (Nat.ne_of_gt hpos)
      have hroom : drainRoom (each new writeRecord (eventTaken t s.die)).ledger.drain = false := by
        rw [drainRoom, hrun, show (eventTaken t s.die).ledger.drain.running = false from hr]
        rfl
      rw [hnone, drainPump_of_noRoom hroom, hqueue]
      rfl
  · refine gives_run (b := true) (f := freezeWrite v) rfl rfl ?_
    have hfz : freezeWrite v s.die = freeze 4 s.die := if_pos ⟨hv, by simp [show s.die.ledger.frozen = false from hf]⟩
    obtain ⟨hledger, hregs⟩ := freeze_of_running (cause := 4) hf
    obtain ⟨h1, h2, h3, h4⟩ := ledgerFreeze_of_running (cause := 4) (d := fabricInt 3 s.die) hf
    rw [hfz, hledger, hregs, ledgerFreeze_regs]
    exact ⟨h1, h2, h3, h4, bit_fabricInt ..⟩
  · have hstays : freezeWrite v s.die = s.die := if_neg fun h => by
      rcases hv with hv | hv
      · exact absurd (hv.symm.trans h.1) (by decide)
      · simp [show s.die.ledger.frozen = true from hv] at h
    exact run_of_unchanged hstays
  · intro m
    have hisl : isIsland i = true := by simpa [isIsland] using hi
    have hcc : (windowCleared i s.die).Canonical := by simp [windowCleared, hc]
    have hm : (island (windowCleared i s.die) i).margin = { m with winDelivered := 0, winHeld := 0, winStretched := 0, winCauses := [] } := margin_modMargin hc _
    refine ⟨fun h => ?_, fun h hs => ?_, fun h hs => ?_⟩ <;> refine gives_run (f := spanWindowEnd i) rfl hisl ?_
    · unfold spanWindowEnd
      simp only [show spanWindow s.die.ledger.share (island s.die i).margin = true from h, if_true]
      refine (margin_modMargin hcc _).trans ?_
      rw [hm]
    · rw [spanWindowEnd_over h, margin_closeSpan_none (by rw [hm]; exact hs), hm]
    · obtain ⟨sp, hsp⟩ := Option.isSome_iff_exists.1 hs
      rw [spanWindowEnd_over h, margin_closeSpan_some hcc (by rw [hm]; exact hsp), hm]

end Sys2Proof.Machine

namespace Sys2Proof.Machine
open Sys2Proof
set_option Elab.async false

/-! ## The commands of the Ledger and of certificates (R365, R366, R388, R391, R394, R399) -/

theorem rootCheck_pass {q : Nat} (h : q = 0) : (rootCheck q).1 = false := decide_eq_false (not_not.2 h)

theorem alignCheck_pass {p : Bytes} {off unit : Nat} (h : fld p off 8 % unit = 0) : (alignCheck p off unit).1 = false := decide_eq_false (not_not.2 h)

section
variable {p : Bytes} {d : Die} (e : Exec)

/-- The checks of ledger.control pass for a legal operation that may not be refused. -/
theorem ledgerControlBody_runs (hz : ZeroBytes p 2 8) (hop : fld p 0 1 ≤ 2) (hs : fld p 0 1 ≠ 2 → fld p 1 1 = 0) (hs' : fld p 0 1 = 2 → fld p 1 1 ≠ 0)
    (hb : fld p 0 1 = 1 → (d.ledger.frozen && thawRefused d) = false) :
    ledgerControlBody 0 e p d = (if fld p 0 1 = 0 then freeze 4 d else if fld p 0 1 = 1 then thaw d else { d with ledger := { d.ledger with share := fld p 1 1 } }, .done 0 none) := by
  unfold ledgerControlBody
  refine (checked_pass ?_).trans rfl
  simp only [List.forall_mem_cons]
  refine ⟨decide_eq_false (by omega), decide_eq_false fun h => h.2 (hs h.1), zeroCheck_pass hz, rootCheck_pass rfl, decide_eq_false fun h => hs' h.1 h.2, ?_, nofun⟩
  show (decide (fld p 0 1 = 1) && d.ledger.frozen && thawRefused d) = false
  rw [Bool.and_assoc]
  exact guard_pass hb

/-- A freeze marks the Ledger, and one that is marked keeps its mark. -/
theorem freeze_marks (d : Die) : (freeze 4 d).ledger.frozen = true ∧ (d.ledger.frozen = true → (freeze 4 d).ledger.freezeTally = d.ledger.freezeTally) ∧
    (d.ledger.frozen = false → (freeze 4 d).ledger.freezeTally = d.tally.now ∧ (freeze 4 d).ledger.cause = 4) := by
  cases h : d.ledger.frozen with
  | true =>
    have hf : freeze 4 d = ledgerFreeze 4 d := if_pos h
    rw [hf, ledgerFreeze, if_pos h]
    split
    · exact ⟨h, fun _ => rfl, nofun⟩
    · rw [if_pos rfl]
      exact ⟨h, fun _ => rfl, nofun⟩
  | false =>
    obtain ⟨h1, h2, h3, -⟩ := ledgerFreeze_of_running (cause := 4) (d := fabricInt 3 d) h
    rw [(freeze_of_running h).1]
    exact ⟨h1, nofun, fun _ => ⟨h3, h2⟩⟩

theorem thaw_of_running (h : d.ledger.frozen = false) : thaw d = d := if_pos (by simp [h])

/-- A record of a Ledger that runs is not dropped. -/
theorem emit_of_running {c : Nat} {l : Loc} {b : Bytes} (h : d.ledger.frozen = false) : (emit c l b d).ledger.frozen = false ∧ (emit c l b d).ledger.dropped = d.ledger.dropped := by
  unfold emit
  rw [if_neg (by simp [h])]
  split <;> exact ⟨h, rfl⟩

theorem thaw_of_frozen (h : d.ledger.frozen = true) : (thaw d).ledger.frozen = false ∧ (thaw d).ledger.dropped = 0 ∧ (thaw d).ledger.ring = d.ledger.ring := by
  unfold thaw
  rw [if_neg (by simp [h])]
  dsimp only
  generalize hb : ({ d with ledger := { d.ledger with frozen := false, dropped := 0 } } : Die) = b
  obtain ⟨h1, h2⟩ := emit_of_running (c := 0x0002) (l := .none) (b := le 4 (sat 32 d.ledger.dropped) ++ le 8 d.ledger.freezeTally) (d := b) (hb ▸ rfl)
  exact ⟨h1, h2.trans (hb ▸ rfl), (Pumped.emit ..).ring.trans (hb ▸ rfl)⟩

/-- The end of a drain that stops, where no write is outstanding. -/
def drainEnds (d : Die) : Die × Reply :=
  if d.ledger.drain.outstanding.isEmpty ∧ !d.ledger.drain.partialDue then (drainStop 0 (modDrain (fun y => { y with stopping := false }) d), .done 0 none) else (d, .wait)

/-- What ledger.drain does once its checks pass: a start, or a stop that is done at once or waits for its last write. -/
def drainAsked (p : Bytes) (d : Die) : Die × Reply :=
  if fld p 12 1 = 1 then (startDrain (fld p 0 8) (fld p 8 4) d, .done 0 none)
  else if !d.ledger.drain.running then (d, .done 0 none) else drainEnds (if d.ledger.drain.stopping then d else stopDrain d)

/-- The checks of ledger.drain pass for a stop, and for a start of an idle drain on aligned pages. -/
theorem ledgerDrainBody_runs (hz : ZeroBytes p 13 24) (hop : fld p 12 1 ≤ 1)
    (hs : fld p 12 1 = 1 → fld p 0 8 % 4096 = 0 ∧ 16 ≤ fld p 8 4 ∧ fld p 8 4 ≤ 1048576 ∧ d.ledger.drain.running = false) :
    ledgerDrainBody 0 e p d = drainAsked p d := by
  unfold ledgerDrainBody
  refine (checked_pass ?_).trans rfl
  simp only [List.forall_mem_cons]
  refine ⟨decide_eq_false (by omega), zeroCheck_pass hz, rootCheck_pass rfl, guard_pass fun h => alignCheck_pass (hs h).1, decide_eq_false fun h => ?_, guard_pass fun h => (hs h).2.2.2, nofun⟩
  obtain ⟨-, h1, h2, -⟩ := hs h.1
  omega

/-- A stop of a drain that runs. -/
theorem ledgerDrainBody_stop (hz : ZeroBytes p 13 24) (hop : fld p 12 1 = 0) (hr : d.ledger.drain.running = true) (hs : d.ledger.drain.stopping = false) :
    ledgerDrainBody 0 e p d = drainEnds (stopDrain d) := by
  rw [ledgerDrainBody_runs e hz (by omega) (by omega), drainAsked, if_neg (by omega), if_neg (by simp [hr]), if_neg (by simp [hs])]

/-- A drain that starts runs from the first page of its base. -/
theorem startDrain_starts (base pages : Nat) : (startDrain base pages d).ledger.drain.running = true ∧ (startDrain base pages d).ledger.drain.base = base ∧
    (startDrain base pages d).ledger.drain.pages = pages ∧ (startDrain base pages d).ledger.drain.head = 0 ∧ (startDrain base pages d).ledger.drain.tail = 0 ∧
    (startDrain base pages d).ledger.ring = d.ledger.ring := by
  unfold startDrain
  dsimp only
  generalize hb : modDrain _ d = b
  obtain ⟨⟨o, n, l, u, hd⟩, hr, -⟩ := (Pumped.emit 0x0003 .none (le 8 base ++ le 4 pages) b).trans (.drainPump 8 _)
  rw [hd, hr, ← hb]
  exact ⟨rfl, rfl, rfl, rfl, rfl, rfl⟩

/-- A stop with nothing left to send leaves a drain without a write to wait for. -/
theorem stopDrain_of_sent (hroom : drainRoom d.ledger.drain = true) (hl : d.ledger.drain.lost = 0) (hn : d.ledger.count ≤ d.ledger.drain.next) :
    stopDrain d = modDrain (fun y => { y with stopping := true, partialDue := false }) d := by
  have hover : drainOverrun d = d := if_pos hl
  have hw : writePartial d = d := by
    rw [writePartial, if_pos hroom, hover]
    exact if_pos (Nat.sub_eq_zero_of_le hn)
  unfold stopDrain
  simp only [hroom, if_true, hw, Bool.not_true, Bool.and_false]

theorem drainStop_of_idle (h : d.ledger.drain.stopping = false) : (drainStop 0 d).ledger.drain.running = false ∧ (drainStop 0 d).ledger.drain.failed = false ∧
    (drainStop 0 d).ledger.drain.next = d.ledger.drain.firstUndelivered ∧ (drainStop 0 d).streams = d.streams := by
  simp [drainStop, h, emit_drain]

/-- The writes that a stop begins join those outstanding. -/
theorem writePartial_outstanding (h : d.ledger.drain.outstanding ≠ []) : (writePartial d).ledger.drain.outstanding ≠ [] := by
  have hover : (drainOverrun d).ledger.drain.outstanding ≠ [] := by
    unfold drainOverrun
    dsimp only
    split
    · exact h
    · rw [emit_drain]
      exact h
  unfold writePartial
  dsimp only
  split
  · split
    · exact hover
    · exact fun he => hover (List.append_eq_nil_iff.1 he).1
  · exact h

theorem stopDrain_stops (hr : d.ledger.drain.running = true) (h : d.ledger.drain.outstanding ≠ []) :
    (stopDrain d).ledger.drain.stopping = true ∧ (stopDrain d).ledger.drain.running = true ∧ (stopDrain d).ledger.drain.outstanding ≠ [] := by
  unfold stopDrain
  dsimp only
  split
  · obtain ⟨⟨o, n, l, u, hd⟩, -⟩ := Pumped.writePartial d
    refine ⟨rfl, ?_, writePartial_outstanding h⟩
    show (writePartial d).ledger.drain.running = true
    rw [hd]
    exact hr
  · exact ⟨rfl, hr, h⟩

theorem stopDrain_queues : (stopDrain d).queues = d.queues := stopDrain_kept (sameBut_closed [.ledger, .streams] d) d (sameBut_refl _ d) .queues (by decide)

theorem ledgerReadBody_runs {q : Nat} (hz : ZeroBytes p 20 24) (ha : fld p 0 8 % 32 = 0) (h1 : 1 ≤ fld p 16 4) (h2 : fld p 16 4 ≤ 65536) :
    ledgerReadBody q e p d = (streamWrite (fld p 0 8) ((readRecords d q (fld p 8 8) (fld p 16 4)).flatMap recordBytes) d, .done (readRecords d q (fld p 8 8) (fld p 16 4)).length none) := by
  refine checked_pass ?_
  simp only [List.forall_mem_cons]
  exact ⟨zeroCheck_pass hz, alignCheck_pass ha, by simp [rangeCheck, outside, h1, h2], nofun⟩

/-- The records read are records of the ring that the queue may see. -/
theorem mem_readRecords {q start n : Nat} {x : Record} (h : x ∈ readRecords d q start n) : x ∈ d.ledger.ring ∧ (q = 0 ∨ x.tag % 32 = q) := by
  have hf := List.mem_of_mem_take h
  rw [List.mem_filter] at hf
  exact ⟨(List.dropWhile_sublist _).subset hf.1, of_decide_eq_true hf.2⟩

theorem certReadBody_runs {q c : Nat} {x : Context} {k : Cert} (hn : NamesContext d q (fld p 12 1) c x) (hz : ZeroBytes p 13 16) (ha : fld p 0 8 % 64 = 0)
    (hk : x.certs.find? (fun k => decide (k.step = fld p 8 4)) = some k) :
    certReadBody q e p d = (streamWrite (fld p 0 8) (certFor d q k.bytes) d, .done k.outcome none) := by
  unfold certReadBody
  simp only [ctxOf_named hn, hk]
  refine checked_pass ?_
  simp only [List.cons_append, List.nil_append, List.forall_mem_cons, List.forall_mem_append]
  exact ⟨zeroCheck_pass hz, ctxScope_pass hn, ctxChecks_pass hn 12, alignCheck_pass ha, rfl, nofun⟩

end

/-- Settles O45: each command passes its checks and has the effect of its operation. -/
theorem ledgerCommandsControlAndRead : Obligations.LedgerCommandsControlAndRead := by
  intro s q e hc
  dsimp only
  refine ⟨?_, ?_, fun hx hz ha h1 h2 => ⟨completesOk_of_body hx rfl (ledgerReadBody_runs e hz ha h1 h2) rfl, List.length_take_le .., fun x => mem_readRecords⟩,
    fun c x k hx hn hz ha hk => ⟨completesOk_of_body hx rfl (certReadBody_runs e hn hz ha hk) rfl, fun h => if_pos h⟩⟩
  · rintro hx rfl hz
    refine ⟨fun hop h1 => ?_, fun hop h1 hf ht => ?_, fun hop h1 hf => ?_, fun hop h1 => ?_⟩
    · refine completesOk_of_body hx rfl (ledgerControlBody_runs e hz (by omega) (fun _ => h1) (by omega) (by omega)) ?_
      rw [if_pos hop]
      exact freeze_marks _
    · refine completesOk_of_body hx rfl (ledgerControlBody_runs e hz (by omega) (fun _ => h1) (by omega) fun _ => by rw [ht, Bool.and_false]) ?_
      rw [if_neg (by omega), if_pos hop]
      exact thaw_of_frozen hf
    · refine completesOk_of_body hx rfl (ledgerControlBody_runs e hz (by omega) (fun _ => h1) (by omega) fun _ => by rw [hf, Bool.false_and]) ?_
      rw [if_neg (by omega), if_pos hop]
      exact thaw_of_running hf
    · refine completesOk_of_body hx rfl (ledgerControlBody_runs e hz (by omega) (by omega) (fun _ => h1) (by omega)) ?_
      rw [if_neg (by omega), if_neg (by omega)]
  · rintro hx rfl hz
    refine ⟨fun hop ha h1 h2 hr => ?_, fun hop hr => ?_, fun hop hr hs ho hroom hl hn => ?_, fun hop hr hs ho => ?_⟩
    · refine completesOk_of_body hx rfl ((ledgerDrainBody_runs e hz (by omega) fun _ => ⟨ha, h1, h2, hr⟩).trans (if_pos hop)) ?_
      exact startDrain_starts ..
    · refine completesOk_of_body hx rfl ((ledgerDrainBody_runs e hz (by omega) (by omega)).trans ?_) rfl
      rw [drainAsked, if_neg (by omega), if_pos (by simp [hr])]
    · refine completesOk_of_body hx rfl ((ledgerDrainBody_stop e hz hop hr hs).trans ?_) (drainStop_of_idle (d := modDrain (fun y => { y with stopping := false }) (modDrain (fun y => { y with stopping := true, partialDue := false }) s.die)) rfl)
      rw [stopDrain_of_sent hroom hl hn, drainEnds]
      exact if_pos ⟨List.isEmpty_iff.2 ho, rfl⟩
    · obtain ⟨hstop, hrun, hout⟩ := stopDrain_stops hr ho
      refine gives_of_waiting_body hx rfl ((ledgerDrainBody_stop e hz hop hr hs).trans (if_neg fun h => hout (List.isEmpty_iff.1 h.1))) ⟨hstop, hrun, ?_⟩
      obtain ⟨-, he, -⟩ := hx
      exact (congrArg Queue.exec (queue_of stopDrain_queues 0)).trans he

end Sys2Proof.Machine

namespace Sys2Proof.Machine
open Sys2Proof
set_option Elab.async false

/-! ## Certificates (R395, R396, R398, R400) -/

/-- A field past a number that begins a byte string. -/
theorem fld_skip_le {k off n v : Nat} {c : Bytes} (h : k ≤ off) : fld (le k v ++ c) off n = fld c (off - k) n := by
  obtain ⟨j, rfl⟩ := Nat.exists_eq_add_of_le h
  rw [fld_append_right (le_len k v), Nat.add_sub_cancel_left]

theorem fld_skip_zeros {k off n : Nat} {c : Bytes} (h : k ≤ off) : fld (zeros k ++ c) off n = fld c (off - k) n := by
  obtain ⟨j, rfl⟩ := Nat.exists_eq_add_of_le h
  rw [fld_append_right (zeros_len k), Nat.add_sub_cancel_left]

theorem leI_length (n : Nat) (v : Int) : (leI n v).length = n := le_len ..

theorem relative_length (base : Nat) (t : Option Nat) : (relative base t).length = 4 := by
  cases t with
  | none => exact le_len ..
  | some t => exact leI_length ..

theorem summary_length (g : CertRegion) (a b : Nat) : (summary g a b).length = 64 := by
  simp [summary, le_len, relative_length, slackBytes]

theorem emptySummary_length (here : Bool) : (emptySummary here).length = 64 := by
  simp [emptySummary, le_len, zeros_len]

theorem certSummaries_length (d : Die) (l : List (Nat × CertRegion)) (a b : Nat) : (certSummaries d l a b).length = 5120 := by
  refine flatMap_length_const (n := 64) fun r => ?_
  split
  · exact summary_length ..
  · exact emptySummary_length ..

theorem certHeader_length (d : Die) (c : Nat) (x : Context) (g : CertWork) (l : List (Nat × CertRegion)) (a b n : Nat) : (certHeader d c x g l a b n).length = 252 := by
  unfold certHeader
  simp only [List.length_append, le_len, zeros_len, List.length_map, List.length_range]

theorem sealCert_length (d : Die) (c : Nat) (x : Context) (g : CertWork) (l : List (Nat × CertRegion)) (a b n : Nat) :
    (sealCert (certHeader d c x g l a b n) (certSummaries d l a b)).length = 5376 := by
  rw [sealCert, List.length_append, List.length_append, certHeader_length, certSummaries_length, le_len]

/-- The outcome, the step and the instants of a certificate in its header (Table 15.5). -/
theorem sealCert_fields (d : Die) (c : Nat) (x : Context) (g : CertWork) (l : List (Nat × CertRegion)) (a b n : Nat) (body : Bytes) :
    fld (sealCert (certHeader d c x g l a b n) body) 5 1 = outcomeOf l g n % 256 ∧ fld (sealCert (certHeader d c x g l a b n) body) 8 4 = g.step % 2 ^ 32 ∧
    fld (sealCert (certHeader d c x g l a b n) body) 48 8 = a % 2 ^ 64 ∧ fld (sealCert (certHeader d c x g l a b n) body) 56 8 = b % 2 ^ 64 := by
  unfold sealCert
  generalize le 4 (crc32c (certHeader d c x g l a b n ++ body)) = crc
  unfold certHeader
  simp only [List.append_assoc]
  refine ⟨?_, ?_, ?_, ?_⟩ <;> simp [fld_skip_le, fld_skip_zeros, fld_le_append]

/-- The least of a list, from what is already known. -/
theorem foldl_least {l : List Nat} {m : Option Nat} {a : Nat} (h : l.foldl (fun m t => some (match m with | some v => min v t | none => t)) m = some a) :
    (∀ v, m = some v → a ≤ v) ∧ ∀ v ∈ l, a ≤ v := by
  induction l generalizing m with
  | nil => exact ⟨fun v hv => by cases hv.symm.trans h; exact le_refl _, nofun⟩
  | cons t l ih =>
    obtain ⟨h1, h2⟩ := ih h
    have ht := h1 _ rfl
    cases m with
    | none => exact ⟨nofun, List.forall_mem_cons.2 ⟨ht, h2⟩⟩
    | some v => exact ⟨fun w hw => by cases hw; exact ht.trans (min_le_left ..), List.forall_mem_cons.2 ⟨ht.trans (min_le_right ..), h2⟩⟩

/-- The greatest of a list, from what is already known. -/
theorem foldl_greatest {l : List Nat} {m : Option Nat} {a : Nat} (h : l.foldl (fun m t => some (match m with | some v => max v t | none => t)) m = some a) :
    (∀ v, m = some v → v ≤ a) ∧ ∀ v ∈ l, v ≤ a := by
  induction l generalizing m with
  | nil => exact ⟨fun v hv => by cases hv.symm.trans h; exact le_refl _, nofun⟩
  | cons t l ih =>
    obtain ⟨h1, h2⟩ := ih h
    have ht := h1 _ rfl
    cases m with
    | none => exact ⟨nofun, List.forall_mem_cons.2 ⟨ht, h2⟩⟩
    | some v => exact ⟨fun w hw => by cases hw; exact (le_max_left ..).trans ht, List.forall_mem_cons.2 ⟨(le_max_right ..).trans ht, h2⟩⟩

theorem leastOf_le {l : List Nat} {a : Nat} (h : leastOf l = some a) : ∀ v ∈ l, a ≤ v := (foldl_least h).2

theorem le_greatestOf {l : List Nat} {b : Nat} (h : greatestOf l = some b) : ∀ v ∈ l, v ≤ b := (foldl_greatest h).2

/-- The certificate of a step whose regions have their instants a and b. -/
def certOf (c : Nat) (x : Context) (g : CertWork) (a b : Nat) (d : Die) : Cert :=
  { step := g.step, outcome := outcomeOf (certRegions d x g) g (outsideCount g a b),
    bytes := sealCert (certHeader d c x g (certRegions d x g) a b (outsideCount g a b)) (certSummaries d (certRegions d x g) a b) }

theorem context_certAssembly {c a b : Nat} {x : Context} {g : CertWork} {t : List CertWork} {d : Die} (hx : context d c = some x) (hr : x.ready = g :: t)
    (ha : leastOf ((certRegions d x g).filterMap (fun y => y.2.start)) = some a) (hb : greatestOf ((certRegions d x g).filterMap (fun y => y.2.stop)) = some b) :
    context (certAssembly c d) c = some { x with ready := t, certs := (certOf c x g a b d :: x.certs).take 2 } := by
  simp only [certAssembly, hx, hr, ha, hb, Option.getD_some]
  rw [context_emit]
  exact context_setContext_some ..

/-- Settles O20: the certificate that is kept, with the lengths of its parts and the fields of its header. -/
theorem certificatesAreAssembledAndKept : Obligations.CertificatesAreAssembledAndKept := by
  intro s c x g t a b hc hlt hx hr ha hb
  refine ⟨fun y hy v hv => leastOf_le ha v (List.mem_filterMap.2 ⟨y, hy, hv⟩), fun y hy v hv => le_greatestOf hb v (List.mem_filterMap.2 ⟨y, hy, hv⟩), ?_⟩
  obtain ⟨h5, h8, h48, h56⟩ := sealCert_fields s.die c x g (certRegions s.die x g) a b (outsideCount g a b) (certSummaries s.die (certRegions s.die x g) a b)
  exact gives_run (f := certAssembly c) rfl (decide_eq_true hlt) ⟨certOf c x g a b s.die, context_certAssembly hx hr ha hb, rfl, rfl, sealCert_length .., h5, h8, h48, h56⟩

end Sys2Proof.Machine

namespace Sys2Proof.Machine
open Sys2Proof
set_option Elab.async false

/-! ## The Chandler pair (R323, R324, R325, R333, R411) -/

section
variable {n : Nat} {d : Die}

theorem core_of {a b : Die} (h : a.chandler = b.chandler) (n : Nat) : core a n = core b n := by unfold core; rw [h]

theorem core_modCore (f : Core → Core) : core (modCore n f d) n = f (core d n) := by
  unfold core modCore
  by_cases h : n = 0
  · simp only [if_pos h]
  · simp only [if_neg h]

/-! A change of one core leaves the rest of the pair and of the die. -/

theorem modCore_pair (f : Core → Core) : (modCore n f d).chandler.pair = d.chandler.pair := by
  unfold modCore
  split <;> rfl

theorem modCore_primary (f : Core → Core) : (modCore n f d).chandler.primary = d.chandler.primary := by
  unfold modCore
  split <;> rfl

theorem modCore_lastBeat (f : Core → Core) : (modCore n f d).chandler.lastBeat = d.chandler.lastBeat := by
  unfold modCore
  split <;> rfl

theorem modCore_sameBut (f : Core → Core) : SameBut [.chandler] d (modCore n f d) := modCore_kept (sameBut_closed _ d) n f d (sameBut_refl _ d)

theorem modCore_tally (f : Core → Core) : (modCore n f d).tally = d.tally := modCore_sameBut f .tally (by decide)

theorem modCore_stop (f : Core → Core) : (modCore n f d).stop = d.stop := modCore_sameBut f .stop (by decide)

theorem modCore_queues (f : Core → Core) : (modCore n f d).queues = d.queues := modCore_sameBut f .queues (by decide)

theorem chandlerInt_chandler (d : Die) : (chandlerInt d).chandler = d.chandler := chandlerInt_kept (sameBut_closed [.queues] d) d (sameBut_refl _ d) .chandler (by decide)

/-- A core that failed beside a primary that executes. -/
structure Failed (now n : Nat) (failures : List Nat) (attempt : Nat) (d : Die) : Prop where
  held : permanent failures = true → d.chandler.pair = .single ∧ (core d n).heldOut = true
  restarts : permanent failures = false → d.chandler.pair = .restarting ∧ (core d n).restart = some now ∧ (core d n).attempt = attempt + 1

/-- What the end of a core leaves of the pair. -/
structure SameBeat (a d : Die) : Prop where
  primary : d.chandler.primary = a.chandler.primary
  lastBeat : d.chandler.lastBeat = a.chandler.lastBeat
  queues : d.queues = a.queues

theorem SameBeat.holdOut (n : Nat) (d : Die) : SameBeat d (holdOut n d) := by
  unfold Machine.holdOut
  exact ⟨by rw [emit_chandler]; exact modCore_primary _, by rw [emit_chandler]; exact modCore_lastBeat _, by rw [emit_queues]; exact modCore_queues _⟩

theorem SameBeat.restartCore (n : Nat) (d : Die) : SameBeat d (restartCore n d) := by
  unfold Machine.restartCore
  exact ⟨by rw [emitReset_chandler, emit_chandler]; exact modCore_primary _, by rw [emitReset_chandler, emit_chandler]; exact modCore_lastBeat _, by rw [emitReset_queues, emit_queues]; exact modCore_queues _⟩

theorem SameBeat.restartOrHold (n : Nat) (d : Die) : SameBeat d (restartOrHold n d) := by
  unfold Machine.restartOrHold
  split
  · exact .holdOut n d
  · exact .restartCore n d

theorem holdOut_holds (n : Nat) (d : Die) : (holdOut n d).chandler.pair = .single ∧ (core (holdOut n d) n).heldOut = true := by
  unfold holdOut
  refine ⟨by rw [emit_chandler]; rfl, ?_⟩
  rw [core_of (emit_chandler ..)]
  exact congrArg Core.heldOut (core_modCore (n := n) (d := d) fun x => { x with heldOut := true, restart := none, attempt := 0 })

theorem restartCore_restarts (n : Nat) (d : Die) : (restartCore n d).chandler.pair = .restarting ∧ (core (restartCore n d) n).restart = some d.tally.now ∧
    (core (restartCore n d) n).attempt = (core d n).attempt + 1 := by
  unfold restartCore
  dsimp only
  rw [core_of (emitReset_chandler ..), core_of (emit_chandler ..), core_modCore, emitReset_chandler, emit_chandler]
  exact ⟨modCore_pair _, rfl, rfl⟩

/-- A third failure within 10 s holds the core out, and any other restarts it. -/
theorem restartOrHold_failed (n : Nat) (d : Die) : Failed d.tally.now n (core d n).failures (core d n).attempt (restartOrHold n d) where
  held h := by
    rw [restartOrHold, if_pos h]
    exact holdOut_holds n d
  restarts h := by
    rw [restartOrHold, if_neg (by simp [h])]
    exact restartCore_restarts n d

theorem core_coreFailure (n : Nat) (d : Die) : core (coreFailure n d) n = { core d n with failures := addFailure d.tally.now (core d n).failures } := core_modCore _

/-- A failure that is counted and then answered. -/
theorem coreFailure_failed (n : Nat) (d : Die) : Failed d.tally.now n (addFailure d.tally.now (core d n).failures) (core d n).attempt (restartOrHold n (coreFailure n d)) := by
  have h := restartOrHold_failed n (coreFailure n d)
  rwa [core_coreFailure, show (coreFailure n d).tally = d.tally from modCore_tally _] at h

/-- A primary that fails hands over to a SYNCED shadow. -/
theorem primaryFailed_synced {cause : Nat} (h : d.chandler.pair = .synced) : (primaryFailed cause d).chandler.pair = .takeover ∧ (primaryFailed cause d).chandler.primary = 1 - d.chandler.primary ∧
    (core (primaryFailed cause d) d.chandler.primary).failures = addFailure d.tally.now (core d d.chandler.primary).failures := by
  have hp : (coreFailure d.chandler.primary d).chandler.pair = .synced := (modCore_pair _).trans h
  simp only [primaryFailed, hp]
  rw [core_of (chandlerInt_chandler _), core_of (emit_chandler ..), chandlerInt_chandler, emit_chandler]
  exact ⟨rfl, rfl, congrArg Core.failures (core_coreFailure ..)⟩

theorem chandlerRuns_of_takeover (h : d.chandler.pair = .takeover) : chandlerRuns d = false := by
  unfold chandlerRuns
  rw [h, Bool.and_false]

/-- A pair that is lost is fabric fault 3, which leaves the stop as it was (Table 16.3). -/
theorem pairLost_holds (cause : Nat) (d : Die) : (pairLost cause d).chandler.pair = .none_ ∧ (pairLost cause d).stop.fault = 3 ∧ (pairLost cause d).stop.stopped = d.stop.stopped := by
  unfold pairLost fabricFault
  dsimp only
  rw [if_pos rfl, freeze_chandler, freeze_stop, fabricInt_chandler, fabricInt_stop, emit_chandler, emit_stop]
  exact ⟨rfl, rfl, rfl⟩

/-- The pair has no shadow to hand over to. -/
def Alone (d : Die) : Prop := d.chandler.pair = .single ∨ d.chandler.pair = .syncing ∨ d.chandler.pair = .restarting

theorem primaryFailed_alone {cause : Nat} (h : Alone d) : primaryFailed cause d = pairLost cause (coreFailure d.chandler.primary d) := by
  have hp : (coreFailure d.chandler.primary d).chandler.pair = d.chandler.pair := modCore_pair _
  rcases h with h | h | h <;> simp only [primaryFailed, hp, h]

/-- Without a heartbeat for 150 µs the primary of a pair that executes fails. -/
theorem heartbeatTimeout_due (hp : d.chandler.pair = .synced ∨ Alone d) (ht : d.chandler.lastBeat + 150000 ≤ d.tally.now) : heartbeatTimeout d = primaryFailed 0 d := by
  have hr : primaryRuns d = true := by
    unfold primaryRuns
    rcases hp with h | h | h | h <;> rw [h]
  exact if_pos ⟨hr, ht⟩

theorem faultSignal_primary (cause : Nat) (hp : d.chandler.pair = .synced ∨ Alone d) : faultSignal d.chandler.primary cause d = primaryFailed cause d := by
  rcases hp with h | h | h | h <;> simp [faultSignal, h]

theorem faultSignal_shadow (cause : Nat) (hn : n ≠ d.chandler.primary) (hp : d.chandler.pair = .synced ∨ d.chandler.pair = .syncing ∨ d.chandler.pair = .restarting) :
    faultSignal n cause d = restartOrHold n (coreFailure n d) := by
  rcases hp with h | h | h <;> simp [faultSignal, h, hn]

theorem faultSignal_takeover (cause : Nat) (h : d.chandler.pair = .takeover) : faultSignal d.chandler.primary cause d = pairLost cause (coreFailure d.chandler.primary d) := by
  simp [faultSignal, h]

theorem syncTimeout_due {t : Nat} (hp : d.chandler.pair = .restarting ∨ d.chandler.pair = .syncing) (hr : (core d (1 - d.chandler.primary)).restart = some t) (ht : t + 20000000 ≤ d.tally.now) :
    syncTimeout d = restartOrHold (1 - d.chandler.primary) (coreFailure (1 - d.chandler.primary) d) := by
  rcases hp with h | h <;> simp [syncTimeout, shadow, hr, h, ht]

/-- A queue whose command in execution will execute again, marked (R333). -/
def againMarked (x : Queue) : Queue := { x with exec := x.exec.map (fun e => { e with reexecuted := true }) }

/-- Every command in execution is marked. -/
def marked (d : Die) : Die := each (List.range 17) (fun q d => modQueue q againMarked d) d

theorem marked_sameBut (d : Die) : SameBut [.queues] d (marked d) := each_kept (fun q e he => modQueue_kept (sameBut_closed [.queues] d) (by decide) q _ e he) (sameBut_refl _ d)

theorem queue_marked {q : Nat} (hc : d.Canonical) (hq : q < 17) : (queue (marked d) q).exec = (queue d q).exec.map (fun e => { e with reexecuted := true }) := by
  obtain ⟨-, h⟩ := each_get (I := Die.Canonical) (get := queue) (f := fun q d => modQueue q againMarked d) (g := fun _ => againMarked) (List.range 17) List.nodup_range
    (fun a e _ he => modQueue_can _ _ _ he) (fun a e _ he => queue_same he) (fun a b e _ he hb => queue_other he hb) hc
  exact congrArg Queue.exec ((h q).1 (List.mem_range.2 hq))

/-- The heartbeat of the new primary stands at now. -/
def beatNow (d : Die) : Die := { d with chandler := { d.chandler with lastBeat := d.tally.now } }

theorem beatNow_queues (d : Die) : (beatNow d).queues = d.queues := rfl

theorem takeoverComplete_of (h : d.chandler.pair = .takeover) : takeoverComplete d = takeoverAssay (restartOrHold (1 - d.chandler.primary) (beatNow (marked d))) := by
  have hch : (marked d).chandler = d.chandler := marked_sameBut d .chandler (by decide)
  rw [← hch]
  simp only [takeoverComplete, h]
  rfl

theorem beatNow_marked (d : Die) : (beatNow (marked d)).chandler = { d.chandler with lastBeat := d.tally.now } ∧ (beatNow (marked d)).tally = d.tally := by
  have hch : (marked d).chandler = d.chandler := marked_sameBut d .chandler (by decide)
  have htl : (marked d).tally = d.tally := marked_sameBut d .tally (by decide)
  generalize marked d = b at hch htl
  rw [beatNow, hch, htl]
  exact ⟨rfl, rfl⟩

theorem chandlerSynced_of (h : d.chandler.pair = .syncing) : (chandlerSynced d).chandler = (modCore (1 - d.chandler.primary) (fun x => { x with restart := none, attempt := 0 }) (setPair .synced d)).chandler := by
  simp only [chandlerSynced, h]
  rw [emitReset_chandler, chandlerInt_chandler, emit_chandler]
  rfl

end

/-- Settles O28: each event is its branch of the pair, with the law of a failed core, of a takeover and of a pair that is lost. -/
theorem chandlerPairFailsOverAndRestarts : Obligations.ChandlerPairFailsOverAndRestarts := by
  intro s
  dsimp only
  refine ⟨fun hr hm => ?_, fun e he => ?_, fun k hp hl => ?_, fun n k hn hne hp => ?_, fun ht => ?_, fun hc hp hl => ?_, fun hp => ?_, fun hp hl => ?_, fun t hp hl hr ht => ?_⟩
  · have hb : heartbeat s.die = { s.die with chandler := { s.die.chandler with lastBeat := s.die.tally.now } } := if_pos ⟨hr, hm⟩
    exact gives_run (b := true) (f := heartbeat) rfl rfl (by rw [hb])
  · have fails {post : Die → Prop} (hp : s.die.chandler.pair = .synced ∨ Alone s.die) (h : ∀ cause, post (primaryFailed cause s.die)) : Gives e s post := by
      rcases he with ⟨rfl, ht⟩ | ⟨k, rfl, hl⟩
      · exact gives_run (b := true) (f := heartbeatTimeout) rfl rfl (heartbeatTimeout_due hp ht ▸ h 0)
      · exact gives_run (f := faultSignal s.die.chandler.primary k) rfl (decide_eq_true hl) (faultSignal_primary k hp ▸ h k)
    refine ⟨fun hp => fails (.inl hp) fun cause => ?_, fun hp => fails (.inr hp) fun cause => ?_⟩
    · obtain ⟨h1, h2, h3⟩ := primaryFailed_synced (cause := cause) hp
      exact ⟨h1, h2, chandlerRuns_of_takeover h1, h3⟩
    · rw [primaryFailed_alone hp]
      obtain ⟨h1, h2, h3⟩ := pairLost_holds cause (coreFailure s.die.chandler.primary s.die)
      exact ⟨h1, h2, h3.trans (congrArg Stop.stopped (modCore_stop _))⟩
  · refine gives_run (f := faultSignal s.die.chandler.primary k) rfl (decide_eq_true hl) ?_
    rw [faultSignal_takeover k hp]
    obtain ⟨h1, h2, -⟩ := pairLost_holds k (coreFailure s.die.chandler.primary s.die)
    exact ⟨h1, h2⟩
  · refine gives_run (f := faultSignal n k) rfl (decide_eq_true hn) ?_
    rw [faultSignal_shadow k hne hp]
    obtain ⟨h1, h2⟩ := coreFailure_failed n s.die
    exact ⟨⟨h1, h2⟩, (SameBeat.restartOrHold n _).primary.trans (modCore_primary _)⟩
  · have hs : heartbeatTimeout s.die = s.die := if_neg fun h => absurd h.2 (Nat.not_le.2 ht)
    exact run_of_unchanged hs
  · refine gives_run (b := true) (f := takeoverComplete) rfl rfl ?_
    obtain ⟨hch, htl⟩ := beatNow_marked s.die
    have hq : (beatNow (marked s.die)).queues = (marked s.die).queues := beatNow_queues _
    rw [takeoverComplete_of hp]
    generalize beatNow (marked s.die) = b at hch htl hq
    have hcore : core b (1 - s.die.chandler.primary) = core s.die (1 - s.die.chandler.primary) := by
      unfold core
      rw [hch]
    obtain ⟨h1, h2⟩ := restartOrHold_failed (1 - s.die.chandler.primary) b
    obtain ⟨k1, k2, k3⟩ := SameBeat.restartOrHold (1 - s.die.chandler.primary) b
    rw [takeoverAssay_chandler, core_of (takeoverAssay_chandler _)]
    rw [hcore] at h1 h2
    rw [htl] at h2
    refine ⟨k2.trans (by rw [hch]), k1.trans (by rw [hch]), h1, fun h => ⟨(h2 h).1, (h2 h).2.1⟩, fun q hlt => ?_⟩
    rw [queue_of (takeoverAssay_queues _), queue_of (k3.trans hq)]
    exact queue_marked hc hlt
  · refine gives_run (b := true) (f := restartVerified) rfl rfl ?_
    simp only [restartVerified, hp]
    rfl
  · refine gives_run (b := true) (f := chandlerSynced) rfl rfl ?_
    rw [core_of (chandlerSynced_of hp), chandlerSynced_of hp, core_modCore]
    exact ⟨modCore_pair _, rfl, rfl⟩
  · refine gives_run (b := true) (f := syncTimeout) rfl rfl ?_
    rw [syncTimeout_due hp hr ht]
    obtain ⟨h1, h2⟩ := coreFailure_failed (1 - s.die.chandler.primary) s.die
    exact ⟨h1, h2⟩

end Sys2Proof.Machine

namespace Sys2Proof.Machine
open Sys2Proof
set_option Elab.async false

/-! ## The power states of idle regions (R437, R438, R440, R441) -/

/-- The region is in state n. -/
def PowerIs (n : Nat) (x : Region) : Prop := x.power = n

section
variable {n r : Nat} {d : Die}

theorem setPower_powerIs (hc : d.Canonical) : RegionHolds (PowerIs n) r (setPower r n d) := by
  unfold setPower
  dsimp only
  split
  next h => exact ⟨hc, h⟩
  next => exact RegionHolds.emit (RegionHolds.modRegion_same (p := fun _ => True) (q := PowerIs n) (f := fun x => { x with power := n }) ⟨hc, trivial⟩ fun _ _ => rfl) ..

variable (h : RegionHolds (PowerIs n) r d)
include h

theorem RegionHolds.stopAll (l : List Nat) : RegionHolds (PowerIs n) r (each l stopBellows d) :=
  each_kept (fun _ _ he => he.of_regions (stopBellows_regions ..) (stopBellows_can _ _ he.can)) h

/-- Bank leaves the state of a region that is in it. -/
theorem RegionHolds.bankRegion (k : Nat) : RegionHolds (PowerIs n) r (bankRegion k d) := by
  have hsel : RegionHolds (PowerIs n) r (deselect k d) := by
    have hm : RegionHolds (PowerIs n) r (Machine.modRegion k (fun x => { x with select := none }) d) := h.modRegion k
    exact hm.of_regions (regionClockLost_regions ..) (regionClockLost_can _ _ hm.can)
  have hoff : RegionHolds (PowerIs n) r (powerSynth k 1 (powerSynth k 0 (deselect k d))) :=
    hsel.of_regions ((powerSynth_regions ..).trans (powerSynth_regions ..)) (powerSynth_can _ _ _ (powerSynth_can _ _ _ hsel.can))
  have hisl := each_kept (l := regionIslands k) (f := fun i d => refreshIsland i (stopBellows i d))
    (fun i e he => RegionHolds.of_regions he ((refreshIsland_regions ..).trans (stopBellows_regions ..)) (refreshIsland_can _ _ (stopBellows_can _ _ he.can))) hoff
  exact each_kept (fun j e he => RegionHolds.of_regions he (retarget_regions ..) (retarget_can _ _ he.can)) hisl

/-- The islands of a region that leaves Hush or goes to Gate follow, and its state stands. -/
theorem RegionHolds.islandsGated (l : List Nat) (old : Nat) : RegionHolds (PowerIs n) r (each l (fun i d => if old = 2 ∧ ringMayRun d i then startBellows i d else closeGate i d) d) := by
  refine each_kept (fun i e he => ?_) h
  split
  · exact he.of_regions (startBellows_regions ..) (startBellows_can _ _ he.can)
  · exact he.of_regions (closeGate_regions ..) (closeGate_can _ _ he.can)

theorem RegionHolds.islandsReopened (l : List Nat) (old : Nat) :
    RegionHolds (PowerIs n) r (each l (fun i d => if old = 2 then (if ringMayRun d i then startBellows i d else d) else reopen i d) d) := by
  refine each_kept (fun i e he => ?_) h
  split
  · split
    · exact he.of_regions (startBellows_regions ..) (startBellows_can _ _ he.can)
    · exact he
  · exact he.of_regions (reopen_regions ..) (reopen_can _ _ he.can)

end

section
variable {n r : Nat} {d : Die}

/-- A region that is not in Bank, and does not go there, goes to its state. -/
theorem movePower_below (hc : d.Canonical) (hn : n < 3) (ho : (region d r).power < 3) : RegionHolds (PowerIs n) r (movePower r n d) := by
  unfold movePower
  dsimp only
  split
  next h => exact ⟨hc, h⟩
  next =>
    rw [if_neg (by omega), if_neg (by omega)]
    have hp : RegionHolds (PowerIs n) r (setPower r n d) := setPower_powerIs hc
    obtain rfl | rfl | rfl : n = 0 ∨ n = 1 ∨ n = 2 := by omega
    · rw [if_pos rfl, if_neg (by decide), if_neg (by decide)]
      have hi := hp.islandsReopened (regionIslands r) (region d r).power
      exact (hi.of_regions (regrant_regions ..) (regrant_can _ _ hi.can)).restore fun _ _ _ _ _ _ hx => hx
    · rw [if_neg (by decide), if_neg (by decide), if_pos rfl]
      exact hp.islandsGated ..
    · rw [if_neg (by decide), if_pos rfl]
      exact hp.stopAll _

/-- A region goes to Bank where a lender is eligible, and otherwise waits in Hush. -/
theorem movePower_bank (hc : d.Canonical) (ho : (region d r).power < 3) :
    (droverLend r 2 d = none → RegionHolds (PowerIs 2) r (movePower r 3 d)) ∧ ((droverLend r 2 d).isSome = true → RegionHolds (PowerIs 3) r (movePower r 3 d)) := by
  have hm : movePower r 3 d = enterBank r d := by
    unfold movePower
    dsimp only
    rw [if_neg (by omega), if_pos rfl]
  rw [hm]
  refine ⟨fun hl => ?_, fun hl => ?_⟩
  · simp only [enterBank, hl]
    exact (setPower_powerIs hc).stopAll _
  · obtain ⟨e, he⟩ := Option.isSome_iff_exists.1 hl
    simp only [enterBank, he]
    have hce : RegionHolds (fun _ => True) r e := RegionHolds.droverLend (fun _ _ _ h => h) ⟨hc, trivial⟩ he
    exact (setPower_powerIs hce.can).bankRegion r

/-- Rail k is off. -/
def RailOff (x : Rail) : Prop := x.off = true

/-- Rail k is on at its retention voltage, which no read has confirmed. -/
def RailRising (x : Rail) : Prop := x.off = false ∧ x.confirmed = false

theorem railOff_off (k : Nat) (hc : d.Canonical) : RailHolds RailOff k (railOff k d) := RailHolds.modRail_same (p := fun _ => True) ⟨hc, trivial⟩ fun _ _ => rfl

theorem RailHolds.railOff {k : Nat} (h : RailHolds RailOff k d) (j : Nat) : RailHolds RailOff k (railOff j d) := h.modRail j fun _ _ _ => rfl

theorem railOn_rising (k : Nat) (hc : d.Canonical) : RailHolds RailRising k (railOn k d) := by
  unfold railOn
  exact RailHolds.avsPush (fun _ _ _ _ _ _ hx => hx) (RailHolds.modRail_same (p := fun _ => True) ⟨hc, trivial⟩ fun _ _ => ⟨rfl, rfl⟩) _

theorem RailHolds.railOn {k : Nat} (h : RailHolds RailRising k d) (j : Nat) : RailHolds RailRising k (railOn j d) := by
  unfold Machine.railOn
  exact RailHolds.avsPush (fun _ _ _ _ _ _ hx => hx) (h.modRail j fun _ _ _ => ⟨rfl, rfl⟩) _

theorem railOff_dormant (k : Nat) (d : Die) : (railOff k d).dormant = d.dormant := railOff_kept (sameBut_closed [.rails] d) k d (sameBut_refl _ d) .dormant (by decide)

theorem railOff_canonical (k : Nat) (hc : d.Canonical) : (railOff k d).Canonical := railOff_kept (canonical_closed _) k d hc

theorem rails_off {k : Nat} (hc : d.Canonical) (hk : k < 4) : RailOff (rail (each (List.range 4) railOff d) k) :=
  (each_make (I := Die.Canonical) (P := RailHolds RailOff k) (List.range 4) k (List.mem_range.2 hk) (fun j _ _ he => railOff_canonical j he) (fun _ he => railOff_off k he)
    (fun j _ _ _ he => he.railOff j) hc).2.holds

theorem rails_rising {k : Nat} (hc : d.Canonical) (hk : k < 4) : RailRising (rail (each (List.range 4) railOn d) k) :=
  (each_make (I := Die.Canonical) (P := RailHolds RailRising k) (List.range 4) k (List.mem_range.2 hk) (fun j e _ he => railOn_can j e he) (fun _ he => railOn_rising k he)
    (fun j _ _ _ he => he.railOn j) hc).2.holds

theorem each_railOff_dormant (l : List Nat) (d : Die) : (each l railOff d).dormant = d.dormant :=
  each_kept (P := fun e => e.dormant = d.dormant) (fun k e he => (railOff_dormant k e).trans he) rfl

theorem each_railOn_dormant (l : List Nat) (d : Die) : (each l railOn d).dormant = d.dormant :=
  each_kept (P := fun e => e.dormant = d.dormant) (fun k e he => (railOn_dormant k e).trans he) rfl

/-- Dormant is entered with the quadrant rails off. -/
theorem enterDormant_holds (hc : d.Canonical) : (enterDormant d).dormant.in_ = true ∧ (enterDormant d).dormant.leaving = false ∧ ∀ k, k < 4 → (rail (enterDormant d) k).off = true := by
  unfold enterDormant
  dsimp only
  generalize hb : each (presentRegions _) droverStop _ = b
  have hbank : (each (presentRegions d) (fun r d => if (region d r).power = 3 then d else bankRegion r (setPower r 3 d)) d).Canonical := by
    refine each_kept (fun k e he => ?_) hc
    split
    · exact he
    · exact bankRegion_can _ _ (setPower_can _ _ _ he)
  have hbc : b.Canonical := hb ▸ each_kept (fun k e he => droverStop_can _ _ he) hbank
  have hsave : (powerRecord .none 4 3 (lowestTolerance d) (saveDormant b)).Canonical := emit_can _ _ _ _ { hbc with }
  refine ⟨?_, ?_, fun k hk => rails_off hsave hk⟩ <;> rw [each_railOff_dormant, powerRecord, emit_dormant] <;> rfl

theorem leaveDormant_holds (hc : d.Canonical) : (leaveDormant d).dormant = { d.dormant with leaving := true } ∧ ∀ k, k < 4 → (rail (leaveDormant d) k).off = false ∧ (rail (leaveDormant d) k).confirmed = false := by
  have hcl : ({ d with dormant := { d.dormant with leaving := true } } : Die).Canonical := { hc with }
  exact ⟨each_railOn_dormant .., fun k hk => rails_rising hcl hk⟩

end

/-- Settles O36: REGION_IDLE_CHANGE is its branch of the model, and each branch sets the state, or the rails, by its law. -/
theorem idleRegionsMoveBetweenPowerStates : Obligations.IdleRegionsMoveBetweenPowerStates := by
  intro s r hc hr
  have hreg : isRegion r = true := by simpa [isRegion] using hr
  have hx : exec (.regionIdleChange r) s = run (isRegion r) (idleChange r) s := rfl
  refine ⟨fun level => gives_run (f := modRegion r (fun x => { x with wake := level })) rfl hreg (region_same hc), fun hp => ?_, fun hp hin hnd => ?_, fun hp hin hw hrun hstop => ?_, fun hp hin hl hw hrun => ?_⟩
  · have hstays : idleChange r s.die = s.die := if_pos (by simp [hp])
    rw [hx, hreg, run_of_unchanged hstays]
  · have hmove : idleChange r s.die = movePower r (powerWanted s.die r) s.die := by
      unfold idleChange
      rw [if_neg (by simp [hp]), if_neg (by simp [hin]), if_neg (by simpa using hnd)]
    refine ⟨fun heq => ?_, fun hw ho => gives_run hx hreg ?_, fun hw ho => ⟨fun hl => gives_run hx hreg ?_, fun hl => gives_run hx hreg ?_⟩⟩
    · have hstays : idleChange r s.die = s.die := hmove.trans (if_pos heq.symm)
      rw [hx, hreg, run_of_unchanged hstays]
    · rw [hmove]
      exact (movePower_below hc hw ho).holds
    · rw [hmove, hw]
      exact ((movePower_bank hc ho).1 hl).holds
    · rw [hmove, hw]
      exact ((movePower_bank hc ho).2 hl).holds
  · have henter : idleChange r s.die = enterDormant s.die := by
      unfold idleChange
      rw [if_neg (by simp [hp]), if_neg (by simp [hin]), if_pos ⟨hw, hrun, by simp [hstop]⟩]
    exact gives_run hx hreg (henter ▸ enterDormant_holds hc)
  · have hleave : idleChange r s.die = leaveDormant s.die := by
      unfold idleChange
      rw [if_neg (by simp [hp]), if_pos hin, if_neg (by simp [hw, hl, hrun])]
    refine gives_run hx hreg ?_
    obtain ⟨hd, hk⟩ := leaveDormant_holds hc
    rw [hleave, hd]
    exact ⟨hin, rfl, hk⟩

end Sys2Proof.Machine

namespace Sys2Proof.Machine
open Sys2Proof
set_option Elab.async false

/-! ## The always-on rail, the firmware and the topology (R419 to R428, R445) -/

theorem sat_of_lt {n v : Nat} (h : v < 2 ^ n) : sat n v = v := min_eq_left (by omega)

/-- Settles O3: the die of power-good is a new one, and fabric fault 4 is the law of a fault that stops the die. -/
theorem alwaysOnRailStartsAndStopsTheDie : Obligations.AlwaysOnRailStartsAndStopsTheDie := by
  intro s
  refine ⟨fun hg => ?_, rfl, fun mv hg hmv hf => ?_⟩
  · refine gives_run (b := true) (f := aonPowerGood) rfl rfl ?_
    rw [aonPowerGood, if_neg (by simp [hg])]
    exact ⟨rfl, rfl, rfl, rfl, rfl, rfl, rfl, rfl, rfl, rfl, rfl, rfl, rfl, rfl, rfl, rfl, rfl, rfl⟩
  · refine gives_run (b := true) (f := aonUndervoltage mv) rfl rfl ?_
    rw [aonUndervoltage, if_pos ⟨hg, hmv, hf⟩, fabricFault_stop (by decide), fabricFault_tally, sat_of_lt (by omega)]
    exact ⟨rfl, rfl, rfl, rfl, rfl, rfl⟩

section
variable {n result version : Nat} {d : Die}

/-- A core that has failed no more than it may, and holds no image, takes one. -/
theorem takesImage_of (h : (core d n).verified = false ∧ (core d n).heldOut = false) : takesImage d n = true := by
  simp [takesImage, h.1, h.2]

/-- An image that verifies under a key leaves its version with the pair. -/
theorem bootImage_verified (hk : d.startup.fuses.keyOk = true) :
    (bootImage n 0 version d).chandler = { (modCore n (fun x => { x with verified := true }) d).chandler with version := version } ∧
    (bootImage n 0 version d).tally = d.tally ∧ (bootImage n 0 version d).startup = d.startup := by
  unfold bootImage
  simp only [hk, Bool.not_true, Bool.false_eq_true, and_false, if_false, if_true, decide_true, emit_chandler, emit_tally, emit_startup, true_and]
  unfold modCore
  split <;> exact ⟨rfl, rfl⟩

theorem bootImage_refused (hr : result = 1 ∨ result = 2) : (bootImage n result version d).chandler = (modCore n (fun x => { x with verified := false }) d).chandler ∧
    (bootImage n result version d).tally = d.tally := by
  have h0 : result ≠ 0 := by omega
  unfold bootImage
  simp only [h0, false_and, if_false, decide_false, emit_chandler, emit_tally, true_and]
  exact modCore_tally _

/-- A broadcast that reaches both cores of a pair that boots. -/
theorem firmwareBroadcast_boot {r0 r1 : Nat} (hp : (bootImage 1 r1 version (bootImage 0 r0 version d)).chandler.pair = .boot) (hs : 4 ≤ d.startup.step)
    (hc : ∀ n, n < 2 → (core d n).verified = false ∧ (core d n).heldOut = false) :
    firmwareBroadcast r0 r1 version d =
      (let b := bootImage 1 r1 version (bootImage 0 r0 version d)
       if b.chandler.core0.verified ∧ b.chandler.core1.verified then startPair .synced 0 b else { b with chandler := { b.chandler with broadcastAt := some b.tally.now } }) := by
  unfold firmwareBroadcast
  rw [if_neg (Nat.not_lt.2 hs), takesImage_of (hc 0 (by decide)), takesImage_of (hc 1 (by decide))]
  simp [hp]

theorem firmwareBroadcast_both (hp : d.chandler.pair = .boot) (hs : 4 ≤ d.startup.step) (hk : d.startup.fuses.keyOk = true)
    (hc : ∀ n, n < 2 → (core d n).verified = false ∧ (core d n).heldOut = false) :
    (firmwareBroadcast 0 0 version d).chandler = { d.chandler with pair := .synced, primary := 0, version := version, lastBeat := d.tally.now, core0 := { d.chandler.core0 with verified := true }, core1 := { d.chandler.core1 with verified := true } } := by
  obtain ⟨h1, t1, k1⟩ := bootImage_verified (n := 0) (version := version) hk
  obtain ⟨h2, t2, -⟩ := bootImage_verified (n := 1) (version := version) (d := bootImage 0 0 version d) (k1 ▸ hk)
  have hb : (bootImage 1 0 version (bootImage 0 0 version d)).chandler =
      { d.chandler with version := version, core0 := { d.chandler.core0 with verified := true }, core1 := { d.chandler.core1 with verified := true } } := by
    rw [h2, modCore, if_neg (by decide), h1]
    rfl
  rw [firmwareBroadcast_boot (by rw [hb]; exact hp) hs hc]
  simp only [hb, and_self, if_true, startPair, t2, t1]

theorem firmwareBroadcast_one (hr : result = 1 ∨ result = 2) (hp : d.chandler.pair = .boot) (hs : 4 ≤ d.startup.step) (hk : d.startup.fuses.keyOk = true)
    (hc : ∀ n, n < 2 → (core d n).verified = false ∧ (core d n).heldOut = false) :
    (firmwareBroadcast 0 result version d).chandler = { d.chandler with version := version, broadcastAt := some d.tally.now, core0 := { d.chandler.core0 with verified := true }, core1 := { d.chandler.core1 with verified := false } } := by
  obtain ⟨h1, t1, -⟩ := bootImage_verified (n := 0) (version := version) hk
  obtain ⟨h2, t2⟩ := bootImage_refused (n := 1) (version := version) (d := bootImage 0 0 version d) hr
  have hb : (bootImage 1 result version (bootImage 0 0 version d)).chandler =
      { d.chandler with version := version, core0 := { d.chandler.core0 with verified := true }, core1 := { d.chandler.core1 with verified := false } } := by
    rw [h2, modCore, if_neg (by decide), h1]
    rfl
  rw [firmwareBroadcast_boot (by rw [hb]; exact hp) hs hc]
  simp only [hb, Bool.false_eq_true, and_false, if_false, t2, t1]

/-- A core alone 4 ms after the broadcast starts alone. -/
theorem bootImageTimeout_single {t : Nat} (hn : n < 2) (hp : d.chandler.pair = .boot) (hb : d.chandler.broadcastAt = some t) (ht : t + 4000000 ≤ d.tally.now)
    (hv : (core d n).verified = true) (hu : (core d (1 - n)).verified = false) :
    bootImageTimeout d = { d with chandler := { d.chandler with broadcastAt := none, pair := .single, primary := n, lastBeat := d.tally.now } } := by
  simp only [bootImageTimeout, hp, hb]
  rw [if_neg (Nat.not_lt.2 ht)]
  obtain rfl | rfl : n = 0 ∨ n = 1 := by omega
  · have h0 : d.chandler.core0.verified = true := hv
    have h1 : d.chandler.core1.verified = false := hu
    rw [if_pos ⟨h0, by simp [h1]⟩]
    rfl
  · have h0 : d.chandler.core0.verified = false := hu
    have h1 : d.chandler.core1.verified = true := hv
    rw [if_neg (by simp [h0]), if_pos ⟨h1, by simp [h0]⟩]
    rfl

/-- The check of a die that is not READY ends start-up with the count of its differences. -/
theorem compareTopology_startup {hbm : Nat} {b : Bytes} (hb : d.startup.descriptor = some b) (hr : d.startup.ready ≠ 1) :
    (compareTopology hbm d).startup = { d.startup with checkSince := none, step := 10, ready := if differences d b hbm = [] then 1 else 2, differences := (differences d b hbm).length } := by
  unfold compareTopology
  rw [hb]
  dsimp only
  generalize differences d b hbm = l
  generalize hx : each l diffRecord _ = x
  have hstartup : x.startup = { d.startup with checkSince := none, differences := l.length } := (hx ▸ each_diffRecord_sameBut l _) .startup (by decide)
  have hready : ¬x.startup.ready = 1 := by rw [hstartup]; exact hr
  have hend : (readyState l.length x).startup = { d.startup with checkSince := none, step := 10, ready := if l = [] then 1 else 2, differences := l.length } := by
    rw [readyState_startup, hstartup]
    simp only [List.length_eq_zero_iff]
  rw [if_neg hready]
  split
  · split
    · rw [finish_startup]
      exact hend
    · exact hend
  · exact hend

theorem topologyComplete_due {hbm t : Nat} (hs : d.startup.checkSince = some t) (hr : chandlerRuns d = true) (hl : linksUp d = true) : topologyComplete hbm d = compareTopology hbm d := by
  simp [topologyComplete, hs, hr, hl]

theorem topologyTimeout_due {hbm t : Nat} (hs : d.startup.checkSince = some t) (hr : chandlerRuns d = true) (ht : t + 500000000 ≤ d.tally.now) : topologyTimeout hbm d = compareTopology hbm d := by
  simp [topologyTimeout, hs, hr, ht]

end

/-- Settles O5: the broadcast for both cores, the end of the wait for one, and the topology check, each by its law. -/
theorem firmwareAndTopologyBringTheDieUp : Obligations.FirmwareAndTopologyBringTheDieUp := by
  refine ⟨fun s hp => ⟨fun version hs hk hc => ⟨?_, fun result hr => ?_⟩, fun t n hn hb ht hv hu => ?_⟩, fun s hbm t b hb hs hrun hr => ⟨fun hl => ?_, fun ht => ?_⟩⟩
  · exact gives_run (b := true) (f := firmwareBroadcast 0 0 version) rfl rfl (firmwareBroadcast_both hp hs hk hc)
  · exact gives_run (b := true) (f := firmwareBroadcast 0 result version) rfl rfl (firmwareBroadcast_one hr hp hs hk hc)
  · exact congrArg (fun d => Host.Outcome.next { s with die := d }) (bootImageTimeout_single hn hp hb ht hv hu)
  · exact gives_run (b := true) (f := topologyComplete hbm) rfl rfl (topologyComplete_due hs hrun hl ▸ compareTopology_startup hb hr)
  · exact gives_run (b := true) (f := topologyTimeout hbm) rfl rfl (topologyTimeout_due hs hrun ht ▸ compareTopology_startup hb hr)

end Sys2Proof.Machine

namespace Sys2Proof.Machine
open Sys2Proof
set_option Elab.async false

/-! ## The writes of the calibration store (R313, R317, R318, R320) -/

section
variable {d : Die}

theorem slotOfN_setSlot (n : Nat) (x : Slot) : slotOfN (setSlot n x d) n = x := by
  unfold slotOfN setSlot
  by_cases h : n = 0
  · simp only [if_pos h]
  · simp only [if_neg h]

theorem slotOfN_setSlot_other {n m : Nat} (hn : n < 2) (hm : m < 2) (h : m ≠ n) (x : Slot) : slotOfN (setSlot n x d) m = slotOfN d m := by
  obtain ⟨rfl, rfl⟩ | ⟨rfl, rfl⟩ : n = 0 ∧ m = 1 ∨ n = 1 ∧ m = 0 := by omega
  · rfl
  · rfl

/-- A slot that is set leaves the rest of the store. -/
theorem setSlot_rest (n : Nat) (x : Slot) : (setSlot n x d).store.work = d.store.work ∧ (setSlot n x d).store.current = d.store.current ∧ (setSlot n x d).store.retireDue = d.store.retireDue ∧
    (setSlot n x d).tally = d.tally ∧ (setSlot n x d).chandler = d.chandler := by
  unfold setSlot
  split <;> exact ⟨rfl, rfl, rfl, rfl, rfl⟩

theorem slotOfN_of {a b : Die} (h0 : b.store.slot0 = a.store.slot0) (h1 : b.store.slot1 = a.store.slot1) (n : Nat) : slotOfN b n = slotOfN a n := by
  unfold slotOfN
  rw [h0, h1]

/-- The slot that is not current (R318). -/
def freeSlot (d : Die) : Nat := match d.store.current with | some n => 1 - n | none => 0

/-- The write that begins at the slot that is not current. -/
def newWrite (source : Nat) (image : Calib) (key : Option (Nat × Nat)) (d : Die) : StoreWrite :=
  { slot := freeSlot d, source := source, generation := nextGeneration d, stage := 0, image := image, since := d.tally.now, begun := d.tally.now, firmware := d.chandler.version, key := key }

/-- The store after a write failed: its slots stand, and a write of source RETIRE is due again. -/
def failedStore (w : StoreWrite) (d : Die) : Store :=
  let again := d.tally.now + 10000000000
  { d.store with write := none, lastFailed := true, lastTally := d.tally.now, retireDue := if w.source = 3 then some (min again (d.store.retireDue.getD again)) else d.store.retireDue }

/-- A write that begins erases the slot that is not current, and leaves the current one and the working calibration. -/
theorem beginWrite_begins (source : Nat) (image : Calib) (key : Option (Nat × Nat)) :
    (beginWrite source image key d).store.write = some (newWrite source image key d) ∧
    (beginWrite source image key d).store.current = d.store.current ∧ (beginWrite source image key d).store.work = d.store.work ∧
    (beginWrite source image key d).store.retireDue = d.store.retireDue ∧ (beginWrite source image key d).store.lastTally = d.tally.now ∧
    slotOfN (beginWrite source image key d) (freeSlot d) = {} := by
  obtain ⟨h1, h2, h3, h4, h5⟩ := setSlot_rest (d := d) (freeSlot d) {}
  unfold beginWrite
  refine ⟨?_, h2, h1, h3, congrArg Tally.now h4, (slotOfN_of rfl rfl _).trans (slotOfN_setSlot (d := d) ..)⟩
  show some _ = some (newWrite source image key d)
  rw [newWrite, ← h4, ← h5]
  rfl

theorem writeFail_store (w : StoreWrite) (stage address : Nat) : (writeFail w stage address d).store = failedStore w d := by
  unfold writeFail
  rw [emit_store]
  rfl

/-- A write that is read back makes its slot the current one. -/
theorem writeDone_done (w : StoreWrite) : (writeDone w d).store.write = none ∧ (writeDone w d).store.current = some w.slot ∧ (writeDone w d).store.lastFailed = false ∧
    (writeDone w d).store.work = d.store.work ∧ slotOfN (writeDone w d) w.slot = { valid := true, generation := w.generation, source := w.source, firmware := w.firmware, tally := w.begun, cal := w.image } ∧
    ∀ n, n < 2 → w.slot < 2 → n ≠ w.slot → slotOfN (writeDone w d) n = slotOfN d n := by
  generalize hx : ({ valid := true, generation := w.generation, source := w.source, firmware := w.firmware, tally := w.begun, cal := w.image } : Slot) = x
  have hstore : (writeDone w d).store = { (setSlot w.slot x d).store with write := none, lastFailed := false, lastTally := (setSlot w.slot x d).tally.now, current := some w.slot } := by
    rw [← hx]
    unfold writeDone
    rw [emit_store]
  have hslot (n : Nat) : slotOfN (writeDone w d) n = slotOfN (setSlot w.slot x d) n := slotOfN_of (by rw [hstore]) (by rw [hstore]) n
  rw [hstore]
  exact ⟨rfl, rfl, rfl, (setSlot_rest ..).1, (hslot _).trans (slotOfN_setSlot ..), fun n hn hw h => (hslot n).trans (slotOfN_setSlot_other hw hn h x)⟩

theorem retireWrite_busy (h : d.store.write.isSome = true) : retireWrite d = d := by
  unfold retireWrite
  split
  · exact if_pos (.inr (.inl h))
  · rfl

theorem retireWrite_due {v : Nat} (hw : d.store.write = none) (hr : d.store.retireDue = some v) (hv : v ≤ d.tally.now) (ha : d.store.absent = false) (hc : chandlerRuns d = true) :
    retireWrite d = beginWrite 3 (retireImage d) none { d with store := { d.store with retireDue := none } } := by
  simp only [retireWrite, hr]
  exact if_neg (by simp [Nat.not_lt.2 hv, hw, ha, hc])

/-- What the failure of a flash operation does to the store. -/
theorem fail_store (w : StoreWrite) (stage : Nat) : (writeFail w stage (failAddress d w) (if w.stage = 0 then d else drawFree d)).store = failedStore w d := by
  rw [writeFail_store]
  split <;> rfl

end

/-- Settles O27: each stage of a write, its failures, and the write of source RETIRE, by the laws of the store. -/
theorem storeWritesEraseProgramVerify : Obligations.StoreWritesEraseProgramVerify := by
  intro s
  dsimp only
  refine ⟨fun w hw => ⟨fun hs hb => ?_, fun hs hb => ?_, fun hs => ?_, fun hs => ?_, fun c hcases => ?_, fun hs => ?_, ?_⟩, fun v c hw hr hv ha hrun hcases => ?_, fun hw => ?_, fun hf => ?_⟩
  · refine gives_run (b := true) (f := flashComplete true) rfl rfl ?_
    simp [flashComplete, hw, hs, show w.blocks + 1 < 32 by omega]
  · refine gives_run (b := true) (f := flashComplete true) rfl rfl ?_
    simp [flashComplete, hw, hs, hb]
  · refine gives_run (b := true) (f := flashComplete true) rfl rfl ?_
    simp [flashComplete, hw, hs]
  · have hdone : flashComplete true s.die = writeDone w s.die := by simp [flashComplete, hw, hs]
    exact gives_run (b := true) (f := flashComplete true) rfl rfl (hdone ▸ writeDone_done w)
  · rcases hcases with rfl | ⟨rfl, hs⟩
    · have hfail : flashComplete false s.die = writeFail w w.stage (failAddress s.die w) (if w.stage = 0 then s.die else drawFree s.die) := by simp [flashComplete, hw]
      exact gives_run (b := true) (f := flashComplete false) rfl rfl (hfail ▸ fail_store w _)
    · have hfail : flashTimeout s.die = writeFail w 3 (failAddress s.die w) (if w.stage = 0 then s.die else drawFree s.die) := by simp [flashTimeout, hw, hs]
      exact gives_run (b := true) (f := flashTimeout) rfl rfl (hfail ▸ fail_store w _)
  · have hstays : flashTimeout s.die = s.die := by simp [flashTimeout, hw, Nat.not_lt.2 hs]
    exact run_of_unchanged hstays
  · exact run_of_unchanged (retireWrite_busy (by rw [hw]; rfl))
  · have hdue : retireWrite s.die = _ := retireWrite_due hw hr hv ha hrun
    have hpost : ∀ d, d = retireWrite s.die → d.store.retireDue = none ∧ d.store.current = s.die.store.current ∧ d.store.work = s.die.store.work ∧ d.store.lastTally = s.die.tally.now ∧
        ∃ w, d.store.write = some w ∧ w.slot = freeSlot s.die ∧ w.source = 3 ∧ w.stage = 0 ∧ w.blocks = 0 ∧ w.image = retireImage s.die ∧ w.generation = nextGeneration s.die ∧ slotOfN d w.slot = {} := by
      rintro d rfl
      obtain ⟨h1, h2, h3, h4, h5, h6⟩ := beginWrite_begins (d := { s.die with store := { s.die.store with retireDue := none } }) 3 (retireImage s.die) none
      rw [hdue]
      exact ⟨h4, h2, h3, h5, newWrite 3 (retireImage s.die) none { s.die with store := { s.die.store with retireDue := none } }, h1, rfl, rfl, rfl, rfl, rfl, rfl, h6⟩
    rcases hcases with rfl | ⟨rfl, hlast⟩
    · exact gives_run (b := true) (f := retireWrite) rfl rfl (hpost _ rfl)
    · exact gives_run (b := true) (f := storeRetry) rfl rfl (hpost _ (if_pos hlast))
  · have hstays : flashComplete true s.die = s.die := by simp [flashComplete, hw]
    exact run_of_unchanged hstays
  · have hstays : storeRetry s.die = s.die := if_neg (by simp [hf])
    exact run_of_unchanged hstays

end Sys2Proof.Machine

namespace Sys2Proof.Machine
open Sys2Proof
set_option Elab.async false

/-! ## The phases of an Assay (R290, R292, R305, R309, R310) -/

/-- What is measured in a phase leaves the schedule of its Assay. -/
def OnSchedule (a b : Assay) : Prop := ∃ v f u l, b = { a with values := v, flagged := f, us := u, fallen := l }

/-- An Assay on its schedule, beside a working calibration that stands. -/
structure Measuring (a : Assay) (w : Calib) (d : Die) : Prop where
  work : d.store.work = w
  assay : ∃ b, d.store.assay = some b ∧ OnSchedule a b

section
variable {a : Assay} {w : Calib} {d : Die}

theorem measuring_of (h : d.store.assay = some a) : Measuring a d.store.work d := ⟨rfl, a, h, _, _, _, _, rfl⟩

theorem Measuring.modAssay (h : Measuring a w d) {f : Assay → Assay} (hf : ∀ b, ∃ v n u l, f b = { b with values := v, flagged := n, us := u, fallen := l }) : Measuring a w (modAssay f d) := by
  obtain ⟨hw, b, hb, v, n, u, l, rfl⟩ := h
  obtain ⟨v', n', u', l', he⟩ := hf { a with values := v, flagged := n, us := u, fallen := l }
  exact ⟨hw, _, congrArg (Option.map f) hb, v', n', u', l', he⟩

theorem Measuring.of_store {e : Die} (h : Measuring a w d) (he : e.store = d.store) : Measuring a w e := by
  obtain ⟨hw, hb⟩ := h
  exact ⟨he ▸ hw, he ▸ hb⟩

theorem Measuring.emit (h : Measuring a w d) (c : Nat) (l : Loc) (b : Bytes) : Measuring a w (emit c l b d) := h.of_store (emit_store ..)

theorem Measuring.flagItem (h : Measuring a w d) (item st opp rep : Nat) (l : Loc) : Measuring a w (flagItem item st opp rep l d) := (h.modAssay fun _ => ⟨_, _, _, _, rfl⟩).emit ..

theorem Measuring.takeValue (h : Measuring a w d) (item st opp : Nat) (l : Loc) (f : Calib → Calib) : Measuring a w (takeValue item st opp l f d) := by
  have hv : Measuring a w (Machine.modAssay (fun a => { a with values := f a.values }) d) := h.modAssay fun _ => ⟨_, _, _, _, rfl⟩
  unfold Machine.takeValue
  dsimp only
  split
  · exact hv
  · exact hv.flagItem ..

theorem Measuring.fall (h : Measuring a w d) (st i : Nat) : Measuring a w (fall st i d) := by
  unfold Machine.fall
  split
  · exact h.modAssay fun _ => ⟨_, _, _, _, rfl⟩
  · exact h

theorem Measuring.takeItem (h : Measuring a w d) (m : AssayItem) : Measuring a w (takeItem m d) := by
  unfold Machine.takeItem
  dsimp only
  split
  · exact h.takeValue ..
  · exact h.takeValue ..
  · exact h.takeValue ..
  · exact (h.takeValue ..).fall ..
  · exact h.takeValue ..
  · exact h.takeValue ..
  · exact (h.takeValue ..).fall ..
  · exact h.takeValue ..
  · exact h

theorem Measuring.takePlumb (h : Measuring a w d) (m : AssayItem) : Measuring a w (takePlumb m d) := by
  unfold Machine.takePlumb
  dsimp only
  refine Measuring.fall (each_kept (fun j e he => Measuring.flagItem he ..) ?_) ..
  exact h.modAssay fun _ => ⟨_, _, _, _, rfl⟩

theorem Measuring.takeMeasured (h : Measuring a w d) (l : List AssayItem) : Measuring a w (takeMeasured l d) := by
  unfold Machine.takeMeasured
  split
  · refine each_kept (fun m e he => ?_) h
    split
    · exact he.takePlumb m
    · exact he.takeItem m
  · exact h

/-- The phase that follows is told by the schedule alone. -/
theorem nextPhase_measured (v : Calib) (n : Nat) (u : Tbl (List Nat)) (l : List Nat) :
    nextPhase { a with values := v, flagged := n, us := u, fallen := l } = { nextPhase a with values := v, flagged := n, us := u, fallen := l } := by
  unfold nextPhase
  dsimp only
  split
  · split <;> rfl
  · split <;> rfl
  · split <;> rfl
  · split <;> rfl
  · rfl

/-- The next phase is of the same Assay. -/
theorem nextPhase_rest (a : Assay) : (nextPhase a).region = a.region ∧ (nextPhase a).since = a.since ∧ (nextPhase a).waiting = a.waiting ∧ (nextPhase a).values = a.values ∧ (nextPhase a).flagged = a.flagged := by
  unfold nextPhase
  split
  · split <;> exact ⟨rfl, rfl, rfl, rfl, rfl⟩
  · split <;> exact ⟨rfl, rfl, rfl, rfl, rfl⟩
  · split <;> exact ⟨rfl, rfl, rfl, rfl, rfl⟩
  · split <;> exact ⟨rfl, rfl, rfl, rfl, rfl⟩
  · exact ⟨rfl, rfl, rfl, rfl, rfl⟩

/-- SPINE with a pair that agrees takes its mean. -/
theorem takeItem_spine {m : AssayItem} {p : List Int × List Int} (hm : m.item = 1) (hp : agreeing [some 20] m.m1 m.m2 m.m3 = some p) :
    (takeItem m d).store.assay = d.store.assay.map fun a =>
      { a with values := modRegionCal m.id (fun x => { x with spineStatus := 0, spine := ((meanOf p).getD 0 0).toNat, spineRes := sat 8 m.quality }) a.values } := by
  unfold takeItem
  simp only [hm, tolerances, itemVector, hp]
  rfl

/-- SPINE without one is flagged. -/
theorem takeItem_spine_flagged {m : AssayItem} (hm : m.item = 1) (hp : agreeing [some 20] m.m1 m.m2 m.m3 = none) :
    ∃ f : Calib → Calib, (takeItem m d).store.assay = (d.store.assay.map fun a => { a with values := f a.values }).map fun a => { a with flagged := a.flagged + 1 } := by
  have hst : (if (storedRegion d m.id).isSome = true then 1 else 2) ≠ 0 := by split <;> decide
  unfold takeItem
  simp only [hm, tolerances, itemVector, hp, Option.isSome_none, Bool.false_eq_true, if_false]
  unfold takeValue
  dsimp only
  rw [if_neg hst, flagItem, emit_store]
  exact ⟨_, rfl⟩

theorem takeMeasured_nil : takeMeasured [] d = d := by
  unfold takeMeasured
  split <;> rfl

/-- One item other than PLUMB that the phase measures. -/
theorem takeMeasured_one {m : AssayItem} (h : d.store.assay = some a) (hm : m.item = 1) (hp : phaseMeasures d a m = true) : takeMeasured [m] d = takeItem m d := by
  simp [takeMeasured, h, hp, each, hm]

/-- The end of a phase: what was measured waits, and the next phase begins. -/
theorem assayPhaseEnd_due {l : List AssayItem} (h : d.store.assay = some a) (hw : a.waiting = false) (h5 : a.phase ≠ 5) (ht : a.since + phaseEndNs a ≤ d.tally.now) :
    assayPhaseEnd l d = phaseRails (commandTurn a (nextPhase a) (modAssay nextPhase (takeMeasured l d))) := by
  simp only [assayPhaseEnd, h, hw, Bool.false_eq_true, if_false]
  exact if_neg (by simp [Nat.not_lt.2 ht, h5])

theorem assayPhaseEnd_begins {l : List AssayItem} {r : Nat} (h : d.store.assay = some a) (hw : a.waiting = true) (hr : a.region = some r) (hp : pendingCommit d r = none) :
    assayPhaseEnd l d = assayBegin r d := by
  simp only [assayPhaseEnd, h, hw, hr, hp, if_true, Option.isSome_none, Bool.false_eq_true, if_false]

theorem assayPhaseEnd_early {l : List AssayItem} (h : d.store.assay = some a) (hw : a.waiting = false) (ht : d.tally.now < a.since + phaseEndNs a) : assayPhaseEnd l d = d := by
  simp only [assayPhaseEnd, h, hw, Bool.false_eq_true, if_false]
  exact if_pos (.inl ht)

/-- An Assay on command that begins. -/
def commanded (r : Nat) (d : Die) : Assay := { region := some r, phase := 1, sub := 0, since := d.tally.now, covered := coveredBy d r, values := {} }

theorem assayStarted_store (b : Assay) : (assayStarted b d).store = { d.store with assay := some { b with values := carriedCal d b } } := by
  unfold assayStarted
  rw [emit_store]
  dsimp only
  exact each_kept (P := fun e => e.store = { d.store with assay := some { b with values := carriedCal d b } }) (fun k e he => he) rfl

theorem assayBegin_store (r : Nat) : (assayBegin r d).store = { d.store with assay := some { commanded r d with values := carriedCal d (commanded r d) } } := by
  refine each_kept (P := fun e => e.store = _) (fun i e he => ?_) ?_
  · rwa [refreshIsland_store, stopBellows_store]
  · rw [certMark_store]
    exact assayStarted_store _

end

/-! ## The close of an Assay (R308, R311) -/

/-- Region calibrations set along a list: each region of the list whose value says something takes it, and the others stand. -/
theorem foldl_modRegionCal (v : Nat → RegionCal) (l : List Nat) (c : Calib) (r : Nat) :
    (r ∈ l → v r ≠ {} → tget {} (l.foldl (fun w r => modRegionCal r (fun _ => v r) w) c).regions r = v r) ∧
    (r ∉ l → tget {} (l.foldl (fun w r => modRegionCal r (fun _ => v r) w) c).regions r = tget {} c.regions r) := by
  induction l generalizing c with
  | nil => exact ⟨nofun, fun _ => rfl⟩
  | cons k l ih =>
    obtain ⟨hin, hout⟩ := ih (modRegionCal k (fun _ => v k) c)
    rw [List.foldl_cons]
    refine ⟨fun hm hv => ?_, fun hm => ?_⟩
    · by_cases hl : r ∈ l
      · exact hin hl hv
      · obtain rfl : r = k := (List.mem_cons.1 hm).resolve_right hl
        exact (hout hl).trans (tget_tset_of_ne hv ..)
    · rw [List.mem_cons, not_or] at hm
      obtain ⟨hne, hl⟩ := hm
      exact (hout hl).trans (tget_tset_of_ne_key hne ..)

theorem foldl_modIslandCal_regions (v : Nat → IslandCal) (l : List Nat) (c : Calib) : (l.foldl (fun w i => modIslandCal i (fun _ => v i) w) c).regions = c.regions := by
  induction l generalizing c with
  | nil => rfl
  | cons i l ih => exact ih _

/-- The region values that wait, beside a working calibration that stands. -/
structure Waits (t : Tbl RegionCal) (w : Calib) (k : Option (Nat × Nat)) (d : Die) : Prop where
  work : d.store.work = w
  key : d.store.assayKey = k
  assay : ∃ b, d.store.assay = some b ∧ b.values.regions = t

section
variable {t : Tbl RegionCal} {w : Calib} {k : Option (Nat × Nat)} {d : Die}

theorem Waits.modAssay (h : Waits t w k d) {f : Assay → Assay} (hf : ∀ b, (f b).values.regions = b.values.regions) : Waits t w k (modAssay f d) := by
  obtain ⟨hw, hk, b, hb, ht⟩ := h
  exact ⟨hw, hk, f b, congrArg (Option.map f) hb, (hf b).trans ht⟩

theorem Waits.emit (h : Waits t w k d) (c : Nat) (l : Loc) (b : Bytes) : Waits t w k (emit c l b d) := by
  obtain ⟨hw, hk, hb⟩ := h
  exact ⟨by rwa [emit_store], by rwa [emit_store], by rwa [emit_store]⟩

theorem Waits.flagItem (h : Waits t w k d) (item st opp rep : Nat) (l : Loc) : Waits t w k (flagItem item st opp rep l d) := by
  have hf : Waits t w k (Machine.modAssay (fun a => { a with flagged := a.flagged + 1 }) d) := h.modAssay fun _ => rfl
  exact hf.emit ..

/-- The choice of replicas at the close leaves the values of the regions. -/
theorem Waits.selectReplicas (h : Waits t w k d) (i : Nat) : Waits t w k (selectReplicas i d) := by
  unfold Machine.selectReplicas
  split
  · exact h
  · extract_lets mask d1
    clear_value mask
    have h1 : Waits t w k d1 := h.modAssay fun _ => rfl
    refine each_kept (fun j e he => ?_) h1
    extract_lets u worst e1
    have h2 : Waits t w k e1 := Waits.modAssay he fun _ => rfl
    split
    · exact h2.flagItem ..
    · exact h2

/-- The flags of the sensors and the active sets that end leave the store. -/
theorem each_sensorFlags_store (c : Calib) (sensors islands : List Nat) (d : Die) :
    (each sensors (sensorFlags c) (each islands (fun i d => modMargin i (fun m => { m with active := none }) d) d)).store = d.store :=
  each_kept (P := fun e => e.store = d.store) (fun _ _ he => (sensorFlags_store ..).trans he) (each_kept (P := fun e => e.store = d.store) (fun _ _ he => he) rfl)

/-- The store after the measured values entered: the regions of the Assay hold theirs, and the others stand. -/
theorem loadValues_holds {a : Assay} (h : d.store.assay = some a) : (loadValues a d).store.assayKey = d.store.assayKey ∧ ∀ r,
    (r ∈ assayRegions d a → tget {} a.values.regions r ≠ {} → tget {} (loadValues a d).store.work.regions r = tget {} a.values.regions r) ∧
    (r ∉ assayRegions d a → tget {} (loadValues a d).store.work.regions r = tget {} d.store.work.regions r) := by
  have hsel : Waits a.values.regions d.store.work d.store.assayKey (each ((assayRegions d a).flatMap regionIslands) selectReplicas d) :=
    each_kept (fun i e he => Waits.selectReplicas he i) ⟨rfl, rfl, a, h, rfl⟩
  unfold loadValues
  dsimp only
  generalize each ((assayRegions d a).flatMap regionIslands) selectReplicas d = e at hsel
  obtain ⟨hw, hk, b, hb, ht⟩ := hsel
  rw [hb]
  dsimp only
  rw [each_sensorFlags_store, foldl_modIslandCal_regions, hw, ht]
  exact ⟨hk, foldl_modRegionCal (fun r => tget {} a.values.regions r) _ _⟩

/-- Two dies of one Assay, one key and one set of region calibrations. -/
structure SameCal (a d : Die) : Prop where
  assay : d.store.assay = a.store.assay
  key : d.store.assayKey = a.store.assayKey
  regions : d.store.work.regions = a.store.work.regions

theorem SameCal.of_store {e : Die} (h : SameCal d e) {f : Die} (he : f.store = e.store) : SameCal d f := ⟨he ▸ h.assay, he ▸ h.key, he ▸ h.regions⟩

theorem SameCal.listRetired {e : Die} (h : SameCal d e) (kind sub id : Nat) : SameCal d (listRetired kind sub id e) := by
  obtain ⟨h1, h2, h3⟩ := h
  unfold Machine.listRetired
  split
  · exact ⟨h1, h2, h3⟩
  · exact ⟨h1, h2, h3⟩

theorem SameCal.bellowsRetire {e : Die} (h : SameCal d e) (i cause count : Nat) : SameCal d (bellowsRetire i cause count e) := by
  unfold Machine.bellowsRetire
  split
  · exact h
  · have hm : SameCal d (modRing i (fun x => { x with failures := [] }) e) := h.of_store rfl
    have hl : SameCal d (emitRetire 2 0 count (.island i) i (modRing i (fun x => { x with failures := [] }) e)) := SameCal.listRetired (hm.of_store (emit_store ..)) ..
    exact hl.of_store (yokeEnter_store ..)

theorem SameCal.retireFallen {e : Die} (h : SameCal d e) (a : Assay) : SameCal d (retireFallen a e) := each_kept (fun _ _ hx => SameCal.bellowsRetire hx ..) h

theorem clearHops_store (l : List Nat) (d : Die) : (each l clearHops d).store = d.store :=
  each_kept (P := fun e => e.store = d.store) (fun r e he => (clearHops_kept (sameBut_closed [.synths] e) r e (sameBut_refl _ e) .store (by decide)).trans he) rfl

theorem assayDone_store (a : Assay) (d : Die) : (assayDone a d).store = d.store := emit_store ..

/-- The close: no Assay, no key of one on command, and the region calibrations that were loaded. -/
theorem assayClose_holds {a : Assay} (h : d.store.assay = some a) (hw : a.waiting = false) (h5 : a.phase = 5) (ht : a.since + assayLength a ≤ d.tally.now) :
    (assayClose d).store.assay = none ∧ (a.region.isSome = true → (assayClose d).store.assayKey = none) ∧ (assayClose d).store.work.regions = (loadValues a d).store.work.regions := by
  have hload : (each (assayRegions (loadValues a d) a) clearHops (loadValues a d)).store = (loadValues a d).store := clearHops_store ..
  simp only [assayClose, h]
  rw [if_neg (by simp [hw, h5, Nat.not_lt.2 ht])]
  generalize each (assayRegions (loadValues a d) a) clearHops (loadValues a d) = e at hload
  cases hr : a.region with
  | none =>
    dsimp only
    obtain ⟨h1, -, h3⟩ := SameCal.retireFallen (d := { e with store := { e.store with assay := none } }) ⟨rfl, rfl, rfl⟩ a
    rw [assayDone_store]
    exact ⟨h1, nofun, h3.trans (congrArg (fun s => s.work.regions) hload)⟩
  | some r =>
    dsimp only
    generalize hc : missedEnd r _ = b
    have hb : b.store = e.store := by
      rw [← hc, missedEnd_store]
      split
      · rw [setCeiling_store]
        rfl
      · rfl
    obtain ⟨h1, h2, h3⟩ := SameCal.retireFallen (d := { b with store := { b.store with assay := none, assayKey := none } }) ⟨rfl, rfl, rfl⟩ a
    rw [assayDone_store, assayRestart_store]
    exact ⟨h1, fun _ => h2, h3.trans (congrArg (fun s => s.work.regions) (hb.trans hload))⟩

theorem assayClose_early {a : Assay} (h : d.store.assay = some a) (he : a.waiting = true ∨ a.phase ≠ 5 ∨ d.tally.now < a.since + assayLength a) : assayClose d = d := by
  simp only [assayClose, h]
  exact if_pos he

end

/-- Settles O26: an Assay that begins, the end of a phase with what it measured, and the close, each by its law. -/
theorem assayPhasesMeasureAndClose : Obligations.AssayPhasesMeasureAndClose := by
  intro s a hc ha
  refine ⟨fun l r hw hr hp => ?_, fun l hw h5 ht => ?_, fun l hw ht => run_of_unchanged (assayPhaseEnd_early ha hw ht), fun hw h5 ht => ?_, fun h => run_of_unchanged (assayClose_early ha h)⟩
  · refine gives_run (b := true) (f := assayPhaseEnd l) rfl rfl ?_
    rw [assayPhaseEnd_begins ha hw hr hp, assayBegin_store]
    exact ⟨_, rfl, rfl, rfl, rfl, rfl, rfl, rfl⟩
  · refine gives_run (b := true) (f := assayPhaseEnd l) rfl rfl ?_
    rw [assayPhaseEnd_due ha hw h5 ht, phaseRails_store, commandTurn_store]
    obtain ⟨hwork, b, hb, v, n, u, f, rfl⟩ := (measuring_of ha).takeMeasured l
    obtain ⟨r1, r2, r3, -, -⟩ := nextPhase_rest a
    have hnext : (modAssay nextPhase (takeMeasured l s.die)).store.assay = some { nextPhase a with values := v, flagged := n, us := u, fallen := f } :=
      (congrArg (Option.map nextPhase) hb).trans (congrArg some (nextPhase_measured ..))
    refine ⟨hwork, _, hnext, rfl, rfl, r1, r2, r3.trans hw, fun hl => ?_, fun m hl hm hp => ⟨fun p hpair => ?_, fun hpair => ?_⟩⟩
    · rw [hl, takeMeasured_nil, ha] at hb
      have hval := Option.some.inj hb
      exact ⟨(congrArg Assay.values hval).symm, (congrArg Assay.flagged hval).symm⟩
    · rw [hl, takeMeasured_one ha hm hp, takeItem_spine hm hpair, ha] at hb
      have hval := Option.some.inj hb
      exact ⟨(congrArg Assay.flagged hval).symm, (congrArg Assay.values hval).symm⟩
    · obtain ⟨g, hg⟩ := takeItem_spine_flagged (d := s.die) hm hpair
      rw [hl, takeMeasured_one ha hm hp, hg, ha] at hb
      exact (congrArg Assay.flagged (Option.some.inj hb)).symm
  · refine gives_run (b := true) (f := assayClose) rfl rfl ?_
    obtain ⟨h1, h2, h3⟩ := assayClose_holds ha hw h5 ht
    rw [h3]
    exact ⟨h1, h2, (loadValues_holds ha).2⟩

end Sys2Proof.Machine

namespace Sys2Proof.Machine
open Sys2Proof
set_option Elab.async false

/-! ## The commands of the calibration store and of Assay (R309, R317, R318, R367, R368, R371, R372) -/

section
variable {p image : Bytes} {e : Exec} {d : Die}

/-- A write that has not begun is checked. -/
theorem calWriteBody_begins (hz : ZeroBytes p 1 8) (ha : d.store.absent = false) (hw : d.store.write = none) (has : d.store.assay = none)
    (hsrc : fld p 0 1 = 1 ∧ fld p 8 8 = 0 ∨ fld p 0 1 = 2 ∧ fld p 8 8 % 8 = 0 ∧ imageLength e ≤ 2097152 ∧ imageLength e % 8 = 0 ∧ imageHeaderOk d (fit (imageLength e) image) = true) :
    calWriteBody 0 image e p d =
      (beginWrite (fld p 0 1) (if fld p 0 1 = 1 then workImage d else hostImage d (fit (imageLength e) image)) (some (keyOf 0 e)) d, .done (nextGeneration d) none) := by
  have hnone : (if e.reexecuted then d.store.write.filter (fun w => decide (w.key = some (keyOf 0 e))) else none) = none := by
    rw [hw]
    exact ite_self _
  unfold calWriteBody
  simp only [hnone]
  refine checked_pass ?_
  simp only [List.forall_mem_cons]
  rcases hsrc with ⟨h1, h8⟩ | ⟨h2, h8, hlen, hmod, hhead⟩
  · exact ⟨decide_eq_false fun h => h.1 h1, zeroCheck_pass hz, decide_eq_false fun h => h.2 h8, rootCheck_pass rfl, guard_pass fun h => absurd h (by omega), decide_eq_false fun h => absurd h.1 (by omega),
      guard_pass fun h => absurd h (by omega), ha, by rw [busyCheck, hw, has]; rfl, nofun⟩
  · exact ⟨decide_eq_false fun h => h.2 h2, zeroCheck_pass hz, decide_eq_false fun h => absurd h.1 (by omega), rootCheck_pass rfl, guard_pass fun _ => alignCheck_pass h8,
      decide_eq_false fun h => h.2.elim (Nat.not_lt.2 hlen) fun hne => hne hmod, guard_pass fun _ => by rw [hhead]; rfl, ha, by rw [busyCheck, hw, has]; rfl, nofun⟩

/-- A write that executes again answers for the one it began. -/
theorem calWriteBody_again {q : Nat} {w : StoreWrite} (hr : e.reexecuted = true) (hw : d.store.write = some w) (hk : w.key = some (keyOf q e)) : calWriteBody q image e p d = (d, .done w.generation none) := by
  have hsome : (if e.reexecuted then d.store.write.filter (fun w => decide (w.key = some (keyOf q e))) else none) = some w := by
    rw [if_pos hr, hw]
    exact if_pos (decide_eq_true hk)
  simp only [calWriteBody, hsome]

variable (e)

theorem calExportBody_exports (h0 : fld p 0 1 ≤ 1) (hz : ZeroBytes p 1 8) (h8 : fld p 8 8 % 4096 = 0) (ha : d.store.absent = false) (hv : (exportSlot d (fld p 0 1)).valid = true) :
    calExportBody 0 e p d = (streamWrite (fld p 8 8) (slotBytes d (exportSlot d (fld p 0 1))) d, .done (exportSlot d (fld p 0 1)).generation none) := by
  unfold calExportBody
  refine (checked_pass ?_).trans rfl
  simp only [List.forall_mem_cons]
  exact ⟨decide_eq_false (Nat.not_lt.2 h0), zeroCheck_pass hz, rootCheck_pass rfl, alignCheck_pass h8, by rw [hv, Bool.not_true, Bool.and_false], ha, nofun⟩

theorem calUnretireBody_removes (hz : ZeroBytes p 4 8) (ha : d.store.absent = false) (hk : fld p 0 1 ≤ 7) (hl : d.store.work.retire.filter (unretires (fld p 0 1) (fld p 1 1) (fld p 2 2)) ≠ []) :
    calUnretireBody 0 e p d = (removeEntries (fld p 0 1) (fld p 1 1) (fld p 2 2) d, .done (d.store.work.retire.filter (unretires (fld p 0 1) (fld p 1 1) (fld p 2 2))).length none) := by
  unfold calUnretireBody
  refine (checked_pass ?_).trans rfl
  simp only [List.forall_mem_cons]
  exact ⟨decide_eq_false (Nat.not_lt.2 hk), zeroCheck_pass hz, rootCheck_pass rfl, decide_eq_false fun h => hl (List.length_eq_zero_iff.1 h), ha, nofun⟩

theorem returnElement_store (g : RetireEntry) (d : Die) : (returnElement g d).store = d.store := by
  unfold returnElement
  split
  · exact modRoot_kept (sameBut_closed [.clocks] d) _ _ d (sameBut_refl _ d) .store (by decide)
  · exact modRef_kept (sameBut_closed [.clocks] d) _ _ d (sameBut_refl _ d) .store (by decide)
  · rfl
  · rfl

/-- The entries named leave the list, and a store write is due. -/
theorem removeEntries_removes (kind sub id : Nat) : (removeEntries kind sub id d).store.work.retire = d.store.work.retire.filter (fun g => !unretires kind sub id g) ∧
    (removeEntries kind sub id d).store.retireDue = some (min d.tally.now (d.store.retireDue.getD d.tally.now)) := by
  unfold removeEntries
  dsimp only
  generalize hb : ({ d with store := _ } : Die) = b
  have hstore : (each (d.store.work.retire.filter (unretires kind sub id)) returnElement b).store = b.store :=
    each_kept (P := fun x => x.store = b.store) (fun g x hx => (returnElement_store g x).trans hx) rfl
  rw [hstore, ← hb]
  exact ⟨rfl, rfl⟩

variable {e}

theorem assayRegionBody_answers {r : Nat} (hr : fld p 0 2 = r) (hz : ZeroBytes p 2 4) (hready : d.startup.ready = 1) (hlt : r < 80) (hp : present d r = true)
    (hfree : (e.reexecuted && decide (d.store.assayKey = some (keyOf 0 e))) = false → assayRefused d r = false ∧ noLender d r = false) :
    assayRegionBody 0 e p d = (if (e.reexecuted && decide (d.store.assayKey = some (keyOf 0 e))) = true then d else acceptAssay r (keyOf 0 e) d, .done (15000 + 3000 * (coveredBy d r).length) none) := by
  subst hr
  unfold assayRegionBody
  refine (checked_pass ?_).trans rfl
  simp only [List.forall_mem_cons]
  have hpass (b : Bool) (hb : (e.reexecuted && decide (d.store.assayKey = some (keyOf 0 e))) = false → b = false) : (!(e.reexecuted && decide (d.store.assayKey = some (keyOf 0 e))) && b) = false := by
    cases h : (e.reexecuted && decide (d.store.assayKey = some (keyOf 0 e))) with
    | true => rfl
    | false => exact hb h
  exact ⟨zeroCheck_pass hz, rootCheck_pass rfl, readyCheck_pass hready, regionFound_pass hlt hp, hpass _ fun h => (hfree h).1, hpass _ fun h => (hfree h).2, nofun⟩

/-- An Assay that is accepted begins, or waits for the commit of its region. -/
theorem acceptAssay_accepts (r : Nat) (key : Nat × Nat) : (acceptAssay r key d).store.assayKey = some key ∧ (acceptAssay r key d).store.work = d.store.work ∧
    ∃ a, (acceptAssay r key d).store.assay = some a ∧ a.region = some r ∧ a.phase = 1 ∧ a.since = d.tally.now ∧ a.waiting = (pendingCommit d r).isSome := by
  unfold acceptAssay
  dsimp only
  split
  next h => exact ⟨rfl, rfl, _, rfl, rfl, rfl, rfl, h.symm⟩
  next h =>
    rw [assayBegin_store]
    exact ⟨rfl, rfl, _, rfl, rfl, rfl, rfl, (Bool.eq_false_iff.2 h).symm⟩

end

/-- Settles O46: each command passes its checks and has the effect of its row. -/
theorem calCommandsWriteStoreAndAssay : Obligations.CalCommandsWriteStoreAndAssay := by
  intro s q e hc
  dsimp only
  refine ⟨fun image hx hq hz ha has => ?_, fun hx hq h0 hz h8 ha hv => ?_, fun hx hq hz ha hk hl => ?_, fun hx hq hz hready hlt hp => ?_⟩ <;> subst hq
  · refine ⟨fun hw h1 h8 => ?_, fun hw h2 h8 hlen hmod hhead => ?_, fun w hr hw hk => completesOk_of_body hx rfl (calWriteBody_again hr hw hk) rfl⟩
    · obtain ⟨b1, b2, b3, -, -, b6⟩ := beginWrite_begins (d := s.die) 1 (workImage s.die) (some (keyOf 0 e))
      refine completesOk_of_body hx rfl (calWriteBody_begins hz ha hw has (.inl ⟨h1, h8⟩)) ?_
      rw [h1, if_pos rfl]
      exact ⟨b1, b2, b3, b6⟩
    · obtain ⟨b1, b2, b3, -, -, b6⟩ := beginWrite_begins (d := s.die) 2 (hostImage s.die (fit (fld e.staged 0 8) image)) (some (keyOf 0 e))
      refine completesOk_of_body hx rfl (calWriteBody_begins hz ha hw has (.inr ⟨h2, h8, hlen, hmod, hhead⟩)) ?_
      rw [h2, if_neg (by decide)]
      exact ⟨b1, b2, b3, b6⟩
  · exact completesOk_of_body hx rfl (calExportBody_exports e h0 hz h8 ha hv) rfl
  · exact completesOk_of_body hx rfl (calUnretireBody_removes e hz ha hk hl) (removeEntries_removes ..)
  · refine ⟨fun href hlend hnew => ?_, fun hr hk => ?_⟩
    · have hfirst : (e.reexecuted && decide (s.die.store.assayKey = some (keyOf 0 e))) = false := by
        cases hr : e.reexecuted with
        | false => rfl
        | true => exact decide_eq_false (hnew hr)
      refine completesOk_of_body hx rfl (assayRegionBody_answers rfl hz hready hlt hp fun _ => ⟨href, hlend⟩) ?_
      rw [if_neg (by rw [hfirst]; decide)]
      exact acceptAssay_accepts ..
    · have hagain : (e.reexecuted && decide (s.die.store.assayKey = some (keyOf 0 e))) = true := by
        rw [hr, Bool.true_and]
        exact decide_eq_true hk
      exact completesOk_of_body hx rfl (assayRegionBody_answers rfl hz hready hlt hp fun h => absurd (hagain.symm.trans h) (by decide)) (if_pos hagain)

end Sys2Proof.Machine
